-- ==== Sys2Proof/Word.lean ====
section
/-! DEFINITION. The word types of the CF9256 and the keyed list that holds sparse data. -/

namespace Sys2Proof

/-- One byte (R11). -/
abbrev Byte := BitVec 8
/-- A 16-bit packet or record field. -/
abbrev B16 := BitVec 16
/-- A 32-bit register (R12). -/
abbrev Word := BitVec 32
/-- A 64-bit packet, record or descriptor field. -/
abbrev B64 := BitVec 64
/-- A 64-byte line of data (R27). -/
abbrev Line := BitVec 512

/-- A logical port, 0 to 63 (R18, R32). -/
abbrev Port := BitVec 6
/-- A serial lane, 0 to 255 (R279). -/
abbrev Lane := BitVec 8
/-- A lane group, LG0 to LG31 (R279). -/
abbrev Group := BitVec 5
/-- A home unit, HU0 to HU31 (R18). -/
abbrev Hu := BitVec 5
/-- A local Room number, 0 to 63 (R196). -/
abbrev LRoom := BitVec 6
/-- A fabric identity, 000h to FFFh (R19). -/
abbrev Fid := BitVec 12
/-- A memory window number, 000h to FFFh (R48). -/
abbrev Win := BitVec 12
/-- A Mover channel, 0 to 63 (R254). -/
abbrev Chan := BitVec 6
/-- A Doorway channel, 0 to 31 (R398). -/
abbrev Dch := BitVec 5
/-- A Stairwell link SW0 to SW3. -/
abbrev SLink := BitVec 2
/-- An OPF module, 0 to 48 (R340). -/
abbrev Module := Fin 49
/-- An HBM stack, 0 to 3 (R133). -/
abbrev Stack := BitVec 2
/-- A slice number, 0 to 1,023 (R206). -/
abbrev SliceId := BitVec 10

/-- Sparse data by key: a list of key and value pairs, kept in rising order of the key. -/
abbrev NMap (α : Type) := List (Nat × α)

end Sys2Proof
end

