-- ==== Sys2Proof/Syntax.lean ====
section
/-! DEFINITION. The commands of the CF9256 block: one constructor of `Instr` for each row of the opcode table, in the
table's order, with its operands. A time operand `t` is the fabric time in ns at which the event happens (R10). -/

namespace Sys2Proof

/-- Where a Dermel packet came from: SOURCE of the event header (R440). -/
inductive Source where
  | ring (n : BitVec 2) | mailbox | mctp | monitor | relay
deriving DecidableEq, Repr

/-- The fields of a Dermel command header that a command acts on (R422). OPCODE is the constructor itself; PLEN, CRC and
the reserved bits are checked by HEARTH_TURN, which reads the packet's bytes. -/
structure Hdr where
  src : Source
  tag : B16
  room : Byte
  force : Bool
  invalidate : Bool
  fence : Bool
  bankV : Bool
  bank : Bool
  schema : Byte
deriving DecidableEq, Repr

/-- The Allot block of ROOM_CREATE and ROOM_RESIZE (R436). -/
structure Allot where
  tracker : Word
  dir : Word
  pan : Word
  vst : Word
  mover : Byte
  slices : B16
  rules : B16
deriving DecidableEq, Repr

/-- One rate entry of ROOM_CREATE or ROOM_RESIZE (R436), in units of 100 MB/s. -/
structure RateEntry where
  port : Byte
  cir : B16
  pir : B16
deriving DecidableEq, Repr

/-- The parameters of WINDOW_CREATE and REHOME_PREPARE (R437). -/
structure WinParams where
  type : Byte
  froom : Byte
  pmode : Byte
  flags : Byte
  extents : Word
  poolBase : B64
  handles : List Byte
deriving DecidableEq, Repr

/-- What the work of a PENDING command found in the world outside, at its end: the operand of COMMAND_COMPLETION. -/
inductive WorkEnd where
  /-- The work is done, with nothing to report from outside. -/
  | done
  /-- The work failed at a step (R36), or the signature failed (R438). -/
  | failed (step : B16)
  /-- POOL_ADOPT: the capacity in bytes and the Device Serial Number that the device reports (R36, R564). -/
  | adopted (capacity serial : B64)
  /-- LANE_MARGIN: per lane, the error count (R299). -/
  | margin (errors : List (BitVec 6))
  /-- FW_VERIFY: the image is valid, with its version and its schema range (R517). -/
  | image (version : Word) (ownMin ownMax : Byte)
deriving DecidableEq, Repr

/-- MetaValue of an M2S message (R105). -/
inductive Meta where
  | i | a | s | reserved
deriving DecidableEq, Repr

/-- SnpType of an M2S RwD (R105). -/
inductive SnpType where
  | noOp | snpInv | snpData | snpCur
deriving DecidableEq, Repr

/-- AtomicOps of PCI Express (R120). -/
inductive AtomOp where
  | fetchAdd | swap | cas
deriving DecidableEq, Repr

/-- Message kinds that a partner can send over a port (R72, R166, R316, R318, R333). -/
inductive MKind where
  | memRd | memRdData | memInv | memInvNT | memSpecRd
  | memWr | memWrPtl
  | biRspI | biRspS | biRspE | biConflict
  | biSnp | ndr | drs
  /-- BIConflictAck of another switch's home (R166). -/
  | biConflictAck
  | ioRead | ioWrite | ioCfg | ioCpl
  | ioAtomic (op : AtomOp)
  | d2hReq | d2hRsp | d2hData
  | h2dReq | h2dRsp | h2dData
  /-- Unordered I/O, never supported (R316). -/
  | uio
  /-- A malformed TLP or flit message, or a reserved opcode (R333 kind 01h). -/
  | malformed
deriving DecidableEq, Repr

/-- One message of a flit, as the partner sent it. -/
structure MsgIn where
  kind : MKind
  /-- The requester's fabric ID (the SPID on a fabric port). -/
  host : Fid
  /-- The destination PBR ID on a fabric port (R329). -/
  dpid : Fid
  tag : B16
  /-- HPA of CXL.mem; address of CXL.io; window offset on a fabric port (R47). -/
  addr : B64
  mval : Meta
  snp : SnpType
  /-- A BIRsp in block form (R116). -/
  block : Bool
  /-- A 64-byte line, or the operands of an AtomicOp: the first in the low 128 bits, the second above it. -/
  data : Line
  /-- Byte enables of MemWrPtl. -/
  be : B64
  /-- Bytes asked for or carried by a CXL.io message; the operand size of an AtomicOp. -/
  len : Nat
  pasid : Option (BitVec 20)
  /-- The data is poisoned. -/
  poison : Bool
  /-- DevLoad of an S2M message (R316). -/
  devLoad : BitVec 2 := 0
deriving DecidableEq, Repr

/-- The answer of a pool device, or of another switch, to one memory request (R119). -/
inductive DevRsp where
  | ok (data : Line)
  | poison (data : Line)
  | error
deriving DecidableEq, Repr

/-- Debug spaces (R472). -/
inductive Space where
  | reg | pool | hbm
deriving DecidableEq, Repr

/-- What a port reports at the end of training (R290, R291, R311, R564). -/
structure LinkInfo where
  rate : BitVec 3
  /-- Width code, as MIN_WIDTH (R310). -/
  width : BitVec 3
  /-- Port lanes left out at this training (R291). -/
  failedLanes : B16
  flitMode : Bool
  reversed : Bool
  polInv : B16
  retimers : BitVec 2
  /-- true: CXL mode; false: PCI Express mode (R311). -/
  cxl : Bool
  /-- PRT_PROTO_STAT.FLIT code. -/
  flit : BitVec 2
  pbr : Bool
  cache : Bool
  /-- An equalization phase failed and the rate fell back. -/
  eqFail : Bool
  /-- The rate is below the highest common rate. -/
  rateLow : Bool
  /-- Fabric ID of the neighbouring switch (R306). -/
  neighbour : Option Fid
  /-- A device that cannot be adopted (R34): a multi-logical, Type 1 or Type 2 device, or one above 2^52 bytes. -/
  unfit : Bool
  /-- Device Serial Number of a pool or pass-through device, if it has one (R416, R564). -/
  serial : Option B64
  /-- HDM decoder 0 is committed and locked with this base and size (R564). -/
  decoder : Option (B64 × B64)
  /-- Capacity in bytes that a pool device reports (R36, R416). -/
  capacity : B64
  /-- Presets, CTLE and eye of each port lane: TX_PRESET, PARTNER_PRESET, CTLE, EYE_H, EYE_W. -/
  lanes : List (BitVec 4 × BitVec 4 × BitVec 4 × Byte × Byte)
  /-- Port type of the partner: true Upstream Port (R302, R303); none: the opposite of this port's. -/
  peerUp : Option Bool := none
  /-- Link credits that the partner gives, by channel as `Sys2Proof.txChan` numbers them (R232); a channel not listed is not limited. -/
  credits : List (Nat × Nat) := []
deriving DecidableEq, Repr

/-- What a flit brings beside whole messages: a message that is not yet whole (R163), and for the sender of the port flits newly
acknowledged (R314) and link credits returned, by channel (R232). -/
structure FlitRet where
  part : Bool := false
  acks : Nat := 0
  nak : Bool := false
  credits : List (Nat × Nat) := []
deriving DecidableEq, Repr

/-- Link-credit channel of a message: the channel codes of R178, and for CXL.io 13 posted, 14 non-posted, 15 completion. -/
def txChan (code : Nat) (k : MKind) : Nat :=
  if code != 0 then code
  else match k with
    | .ioWrite => 13
    | .ioCpl => 15
    | _ => 14

/-- A partner's change of a link through Recovery (R293, R315). -/
structure RateWidth where
  rate : BitVec 3
  width : BitVec 3
deriving DecidableEq, Repr

/-- Fields of a sequenced OPF flit (R341). -/
structure OpfFlit where
  good : Bool
  seq : BitVec 12
  vc : BitVec 3
  ack : BitVec 12
  crVc : BitVec 3
  crCnt : BitVec 5
  payload : List Byte
deriving DecidableEq, Repr

/-- Fields of a NULL OPF flit that every kind carries (R341). -/
structure OpfNull where
  good : Bool
  ack : BitVec 12
  crVc : BitVec 3
  crCnt : BitVec 5
deriving DecidableEq, Repr

/-- Fields of a Stairwell packet (R345): `good` is false for a bad packet (R349). -/
structure StwPkt where
  good : Bool
  seq : BitVec 12
  vc : BitVec 2
  ack : BitVec 12
  crVc : BitVec 2
  crCnt : BitVec 4
  words : List Word
  /-- Code errors met in the packet and since what came before it (R344). -/
  codeErrs : Nat := 0
deriving DecidableEq, Repr

/-- The end of a link that a link-layer command acts on: an OPF module and the receiving end (true: the core-die or
higher-numbered end), so the traffic received there runs in direction A. -/
structure OpfEnd where
  m : Module
  high : Bool
deriving DecidableEq, Repr

/-- A link that uses the Stairwell link layer: SW0 to SW3, or module 48 seen from core die 0 (R340). -/
inductive SwLink where
  | sw (n : SLink) | mod48
deriving DecidableEq, Repr

/-- A CTL ordered set as it arrives: its link and its CRC-8 byte (R344, R346). -/
structure CtlSet where
  link : SwLink
  crc : Byte
deriving DecidableEq, Repr

/-- A MARK ordered set as it arrives: its link and its CRC-8 byte (R344). -/
structure MarkSet where
  link : SLink
  crc : Byte
deriving DecidableEq, Repr

/-- The sequence number of fabric-wide commands and the pending instants that STATE carries: the version of a routing table and the
schema, each with its instant (R378; log 237). -/
structure RidgeSeq where
  cmdSeq : Word
  routePend : Option (B16 × B64)
  schemaPend : Option (Byte × B64)
deriving DecidableEq, Repr

/-- The prefix of a Stairwell control packet (R372), after reassembly (R373). -/
structure CtlPfx where
  schema : Byte
  src : Fid
  dst : Fid
  bcast : Bool
  hops : Byte
  serial : B16
  /-- The epoch the originator held when it sent the packet (R375). -/
  epoch : Word
deriving DecidableEq, Repr

/-- A member record: HELLO and MEMBER contents (R371, R372). -/
structure MemberRec where
  id : Fid
  rank : B16
  ownMin : Byte
  ownMax : Byte
  held : Bool
  restarting : Bool
  locked : Bool
  /-- The sender carries the fabric schema it runs on. -/
  schemaCur : Byte
  hops : Byte
  epoch : Word
  serial : B16
deriving DecidableEq, Repr

/-- Doorway measurements of one channel in one 1 us step (R404, R408): VIN, VSRC and VGS in units of 10 mV, the shunt
current in units of 10 mA, and whether the current limit is active. -/
structure DwSample where
  ch : Dch
  vin : B16
  vsrc : B16
  vgs : B16
  i : B16
  ilim : Bool
deriving DecidableEq, Repr

/-- Fault kinds a checker reports (R446, R447). -/
inductive FaultEnd where
  /-- Corrected; the retry was clean. -/
  | transient
  /-- Corrected; the retry showed the same error. -/
  | lasting
  /-- Uncorrectable, or the retries are exhausted. -/
  | uncorrectable
deriving DecidableEq, Repr

/-- The path of a register access (R552). -/
inductive Path where
  | endpoint | monitor | jtag
deriving DecidableEq, Repr

/-- The window mailbox a command arrives at: the window and the bound host (R320). -/
structure MbAt where
  window : Win
  host : Fid
deriving DecidableEq, Repr

/-- Transport of a Fabric Manager API command (R325). -/
inductive FmSrc where
  | mailbox | mctp
deriving DecidableEq, Repr

/-- Physical Port Control actions (R325). -/
inductive PortCtl where
  | assertPerst | deassertPerst | resetPpb
deriving DecidableEq, Repr

/-- Where the Mover reads data that the model does not hold: the answers of pool devices to the reads of one line,
in the order in which they are asked. -/
abbrev DevData := List DevRsp

/-- The commands, in the order of spec/opcode_table.json. -/
inductive Instr where
  -- Dermel groups 01xxh to 02xxh
  | identify (h : Hdr)
  | statusQuery (h : Hdr)
  | laneConfig (h : Hdr) (group mode pa pb pc pd : Byte)
  | portRole (h : Hdr) (port role : Byte)
  | portLinkSet (h : Hdr) (port rate width : Byte)
  | portEnable (h : Hdr) (port en : Byte)
  | portQuery (h : Hdr) (port : Byte)
  | laneMargin (h : Hdr) (port target : Byte) (mask : B16) (dir steps errLimit : Byte) (dwell : Word)
  | laneStats (h : Hdr) (port : Byte)
  | opfQuery (h : Hdr) (module : Byte)
  | opfRetrain (h : Hdr) (module : Byte)
  -- 03xxh
  | roomCreate (h : Hdr) (froom : Byte) (hmax : B16) (a : Allot) (rates : List RateEntry)
  | roomResize (h : Hdr) (froom : Byte) (valid : B16) (a : Allot) (rates : List RateEntry)
  | roomHostAdd (h : Hdr) (froom : Byte) (host : B16)
  | roomHostRemove (h : Hdr) (froom : Byte) (host : B16)
  | roomPortAssign (h : Hdr) (froom port add : Byte)
  | roomDestroy (h : Hdr) (froom : Byte)
  | roomQuery (h : Hdr) (froom : Byte) (first n : B16)
  | sliceCreate (h : Hdr) (window host : B16) (pasid : Word)
  | sliceDestroy (h : Hdr) (slice : B16)
  | sliceQuery (h : Hdr) (slice : B16)
  -- 04xxh
  | poolAdopt (h : Hdr) (port : Byte)
  | poolRelease (h : Hdr) (handle : Byte)
  | poolList (h : Hdr)
  | windowCreate (h : Hdr) (p : WinParams)
  | windowDestroy (h : Hdr) (window : B16)
  | windowQuery (h : Hdr) (window first n : B16)
  | windowBind (h : Hdr) (window host : B16) (port access : Byte) (hpa : B64)
  | windowUnbind (h : Hdr) (window host : B16) (timeout : Word)
  | dcAdd (h : Hdr) (window : B16) (xs : List Word)
  | dcRelease (h : Hdr) (window : B16) (xs : List Word)
  | extentRead (h : Hdr) (x : Word) (n : Byte)
  | rehomePrepare (h : Hdr) (p : WinParams)
  | rehomeStart (h : Hdr) (window bid bwin : B16) (age : Word)
  | rehomeStatus (h : Hdr) (window : B16)
  | dirRead (h : Hdr) (pa : B64)
  -- 05xxh
  | ruleWrite (h : Hdr) (froom index : Byte) (entry : BitVec 128)
  | ruleRead (h : Hdr) (froom first n : Byte)
  | ruleCopy (h : Hdr) (froom : Byte)
  | ruleCommit (h : Hdr) (froom : Byte)
  | ruleStatus (h : Hdr) (froom : Byte)
  -- 06xxh
  | qosPortSet (h : Hdr) (port valid : Byte) (qmap : Word) (quanta : List B16) (cbs pbs : Word) (en : Byte)
  | qosPortQuery (h : Hdr) (port : Byte)
  | gateWrite (h : Hdr) (port : Byte) (cycle : Word) (base : B64) (entries : List B64)
  | gateRead (h : Hdr) (port : Byte)
  | gateCommit (h : Hdr) (instant mask : B64)
  | gateStatus (h : Hdr) (port : Byte)
  -- 07xxh
  | moverJob (h : Hdr) (head : B64)
  | moverChResume (h : Hdr) (ch action : Byte)
  | moverChEnable (h : Hdr) (ch en : Byte)
  | moverQuery (h : Hdr)
  | extentMigrate (h : Hdr) (window : B16) (x : Word) (dstDev house : Byte)
  | migrateStatus (h : Hdr) (window : B16) (x : Word)
  | migrateAbort (h : Hdr) (window : B16) (x : Word)
  -- 08xxh
  | doorwayEnable (h : Hdr) (mask : Word) (en : Byte)
  | doorwaySet (h : Hdr) (ch : Byte) (valid : Word) (vals : List Word)
  | doorwayQuery (h : Hdr) (ch : Byte)
  | doorwayPolicy (h : Hdr) (froom rebind : Byte)
  -- 09xxh
  | atticRead (h : Hdr) (first n : Byte)
  | atticFatalRead (h : Hdr)
  | atticClear (h : Hdr) (what : Byte)
  | atticLogRead (h : Hdr) (off len : Word)
  | faultInject (h : Hdr) (checker : B16) (arm : Byte)
  | faultQuery (h : Hdr)
  -- 0Axxh
  | fabricQuery (h : Hdr)
  | timeQuery (h : Hdr)
  | schemaQuery (h : Hdr)
  | schemaSet (h : Hdr) (ceiling : Byte)
  | ridgeYield (h : Hdr)
  | routeSet (h : Hdr) (fid sw : B16) (port set : Byte)
  | routeQuery (h : Hdr) (first n : B16)
  | noticeMask (h : Hdr) (mask : Word)
  | fabricRelay (h : Hdr) (target : B16) (pkt : List Byte)
  -- 0Bxxh
  | fwQuery (h : Hdr)
  | fwWrite (h : Hdr) (off : Word) (data : List Byte)
  | fwVerify (h : Hdr)
  | fwActivate (h : Hdr)
  | ehrecWrite (h : Hdr) (off : Word) (data : List Byte)
  | ehrecRead (h : Hdr) (off len : Word)
  -- 0Cxxh
  | hbmLayout (h : Hdr) (units : Byte)
  | hbmLayoutQuery (h : Hdr)
  | pantryMode (h : Hdr) (window : B16) (mode rank : Byte) (quota : Word)
  | pantryQuery (h : Hdr) (window : B16)
  | pantryFlush (h : Hdr) (window : B16)
  | holdupSet (h : Hdr) (valid : B16) (vals : List Word)
  | holdupQuery (h : Hdr)
  | holdupCal (h : Hdr) (c0 : Word)
  | commandCompletion (id : Nat) (r : WorkEnd)
  -- window mailbox
  | mbIdentify (at_ : MbAt)
  | mbBackgroundOperationStatus (at_ : MbAt)
  | mbGetEventRecords (at_ : MbAt) (log : Byte)
  | mbClearEventRecords (at_ : MbAt) (log : Byte) (all : Bool) (handles : List B16)
  | getEventInterruptPolicy (at_ : MbAt)
  | setEventInterruptPolicy (at_ : MbAt) (policy : Word)
  | mbGetTimestamp (at_ : MbAt)
  | setTimestamp (at_ : MbAt) (time : B64)
  | getSupportedLogs (at_ : MbAt)
  | getLog (at_ : MbAt)
  | identifyMemoryDevice (at_ : MbAt)
  | getHealthInfo (at_ : MbAt)
  | getPoisonList (at_ : MbAt)
  | getDynamicCapacityConfiguration (at_ : MbAt)
  | getDynamicCapacityExtentList (at_ : MbAt)
  | addDynamicCapacityResponse (at_ : MbAt) (extents : List Nat)
  | releaseDynamicCapacity (at_ : MbAt) (extents : List Nat)
  -- Fabric Manager API
  | fmIdentify (src : FmSrc)
  | fmBackgroundOperationStatus (src : FmSrc)
  | fmGetEventRecords (src : FmSrc)
  | fmClearEventRecords (src : FmSrc) (all : Bool) (handles : List B16)
  | fmGetTimestamp (src : FmSrc)
  | identifySwitchDevice (src : FmSrc)
  | getPhysicalPortState (src : FmSrc) (ports : List Byte)
  | physicalPortControl (src : FmSrc) (port : Byte) (op : PortCtl)
  | sendPpbCxlIoConfigurationRequest (src : FmSrc) (port : Byte) (write : Bool) (reg : BitVec 12) (value : Word)
  | getVirtualCxlSwitchInfo (src : FmSrc) (vcs : Byte)
  | bindVppb (src : FmSrc) (vcs vppb port : Byte)
  | unbindVppb (src : FmSrc) (vcs vppb : Byte) (wait : Bool)
  | generateAerEvent (src : FmSrc) (vcs vppb : Byte) (err : Word)
  | krarinVendorCommand (src : FmSrc) (opcode : B16) (pkt : List Byte)
  -- Camey monitor
  | peek (sp : Space) (addr : B64) (n : Nat) (dev : DevData)
  | poke (sp : Space) (addr : B64) (value : Word) (dev : DevData)
  | atticRing
  | atticFatal
  | atticLog (off len : Word)
  | statsPort (p : Byte)
  | statsLane (n : Byte)
  | statsOpf (m : Byte)
  | statsStw (n : Byte)
  | inject (checker : B16) (arm : Byte) (mask : Option Word)
  | dermel (pkt : List Byte)
  | baud (rate : Nat)
  | lifecycle
  | lifecycleAdvance (t : Nat)
  | lifecycleConfirm (t : Nat) (code : B16)
  | monitorLine (line : List Byte)
  | baudChange
  -- JTAG
  | bypass
  | idcode
  | samplePreload
  | extest
  | clamp
  | highz
  | dbgAccess (write : Bool) (sp : Space) (addr : B64) (value : Word) (dev : DevData)
  | lcAdvance (t : Nat)
  | lcAdvanceUpdate (t : Nat) (v : Word)
  | mbist
  | fuseProg (floor : Word)
  | tapReset
  | challengeExpiry (t : Nat)
  -- flits and home-unit grants
  | flitReceived (port : Port) (t : Nat) (fecOk crcOk : Bool) (msgs : List MsgIn) (ret : FlitRet)
  | memrd (hu : Hu) (plane : Bool) (t : Nat)
  | memrddata (hu : Hu) (plane : Bool) (t : Nat)
  | meminv (hu : Hu) (plane : Bool) (t : Nat)
  | meminvnt (hu : Hu) (plane : Bool) (t : Nat)
  | memspecrd (hu : Hu) (plane : Bool) (t : Nat)
  | memwr (hu : Hu) (plane : Bool) (t : Nat)
  | memwrptl (hu : Hu) (plane : Bool) (t : Nat)
  | birspi (hu : Hu) (plane : Bool) (t : Nat)
  | birsps (hu : Hu) (plane : Bool) (t : Nat)
  | birspe (hu : Hu) (plane : Bool) (t : Nat)
  | biconflict (hu : Hu) (plane : Bool) (t : Nat)
  | fetchadd (hu : Hu) (plane : Bool) (t : Nat)
  | swap (hu : Hu) (plane : Bool) (t : Nat)
  | cas (hu : Hu) (plane : Bool) (t : Nat)
  | umin (slice : SliceId) (slot : BitVec 5) (t : Nat)
  | umax (slice : SliceId) (slot : BitVec 5) (t : Nat)
  | smin (slice : SliceId) (slot : BitVec 5) (t : Nat)
  | smax (slice : SliceId) (slot : BitVec 5) (t : Nat)
  | and (slice : SliceId) (slot : BitVec 5) (t : Nat)
  | or (slice : SliceId) (slot : BitVec 5) (t : Nat)
  | xor (slice : SliceId) (slot : BitVec 5) (t : Nat)
  | add128 (slice : SliceId) (slot : BitVec 5) (t : Nat)
  | binc (slice : SliceId) (slot : BitVec 5) (t : Nat)
  | mjSubmit (slice : SliceId) (value : Word)
  | cxlIoMemoryRead (window : Win) (host : Fid) (pasid : Option (BitVec 20)) (tag : B16) (off : Nat) (len : Nat)
  | cxlIoMemoryWrite (window : Win) (host : Fid) (pasid : Option (BitVec 20)) (tag : B16) (off : Nat) (data : List Byte)
  | doorbellPageAccess (window : Win) (host : Fid) (pasid : Option (BitVec 20)) (tag : B16) (off : Nat) (write : Bool) (size : Nat) (value : B64)
  | cxlCacheD2hReq (port : Port) (tag : B16) (cacheId : BitVec 4) (expectsData : Bool)
  | cxlCacheH2dReq (port : Port) (tag : B16) (cacheId : BitVec 4)
  | secondaryBusReset (vcs : Port) (bridge : BitVec 7)
  | slotPowerOff (window : Win) (host : Fid)
  | memoryResponse (req : Nat) (rsp : DevRsp) (t : Nat)
  | snoopTimeout (hu : Hu) (trk : Nat) (host : Fid) (t : Nat)
  | internalRetry (req : Nat) (t : Nat)
  | directoryScrub (hu : Hu) (e : Option (BitVec 4 × Bool × Bool))
  | ageingSweep (t : Nat)
  | unbindTimeout (window : Win) (host : Fid) (t : Nat)
  | capacityResponseTimeout (window : Win) (t : Nat)
  | purgeEnd (port : Port)
  | handoffStart (window : Win)
  | handoffReady (window : Win) (t : Nat)
  | handoffAgeDiscard (window : Win) (t : Nat)
  | rehomeAbandon (window : Win)
  -- scheduling
  | egressDequeue (port : Port) (t : Nat)
  | bucketTick (t : Nat)
  | gateSwap (port : Port) (t : Nat)
  | groupDrainExpiry (neighbour : Fid) (t : Nat)
  -- arbiters
  | hbmRefresh (stack : Stack) (channel : BitVec 4) (start : Bool)
  | lockOverrun (kind : BitVec 2) (inst : Byte) (hu : Hu)
  | arbCounterClear (value : Word)
  -- the Mover
  | jobStart (room : LRoom) (dev : DevData)
  | copy (ch : Chan) (dev : DevData)
  | fill (ch : Chan) (dev : DevData)
  | zero (ch : Chan) (dev : DevData)
  | compare (ch : Chan) (dev : DevData)
  | flush (ch : Chan) (dev : DevData)
  | prepare (ch : Chan) (dev : DevData)
  | migstepCopy (ch : Chan) (dev : DevData)
  | switch (ch : Chan)
  | release (ch : Chan)
  | abandon (ch : Chan)
  | bystanderResume (t : Nat)
  | retry (path : Path) (ch : Chan)
  | skip (path : Path) (ch : Chan)
  | abort (path : Path) (ch : Chan)
  | channelDisable (path : Path) (ch : Chan)
  -- ports
  | linkUp (port : Port) (t : Nat) (info : LinkInfo)
  | linkDown (port : Port) (t : Nat)
  | widthRetry (port : Port) (t : Nat)
  | partnerChange (port : Port) (rw : RateWidth) (belowCommon : Bool)
  | partnerMarginRequest (lane : Lane)
  | marginDwellEnd (port : Port) (errors : List (BitVec 6))
  | adaptationStep (lane : Lane) (up : Option Bool)
  | retrain (path : Path) (port : Port)
  | hotReset (path : Path) (port : Port)
  | disable (path : Path) (port : Port) (on : Bool) (t : Nat)
  | freeze (path : Path) (group : Group) (on : Bool)
  | hotResetReceived (port : Port) (t : Nat)
  | perstUpN (n : BitVec 5) (high : Bool) (t : Nat)
  | poolDeviceTimeout (req : Nat) (t : Nat)
  | poolLinkWaitExpiry (port : Port) (t : Nat)
  -- OPF and Stairwell links
  | opfFlit (e : OpfEnd) (f : OpfFlit) (t : Nat)
  | ackFlit (e : OpfEnd) (f : OpfNull) (t : Nat)
  | auditFlit (e : OpfEnd) (f : OpfNull) (freed : List B16) (t : Nat)
  | rtrqFlit (e : OpfEnd) (f : OpfNull) (reason : Byte) (die : Byte) (wordsA wordsB : List B64) (verifyA verifyB : Bool)
      (t : Nat)
  | syncFlit (e : OpfEnd) (f : OpfNull) (next : BitVec 12) (free : List B16) (t : Nat)
  | stairwellPacket (l : SwLink) (p : StwPkt) (t : Nat)
  | ctlAck (c : CtlSet) (ack : BitVec 12) (crVc : BitVec 2) (crCnt : BitVec 4) (t : Nat)
  | ctlAudit (c : CtlSet) (freed : List B16) (t : Nat)
  | ctlRtrq (c : CtlSet) (rank : B16) (id : Fid) (reason : Byte) (t : Nat)
  | trn (c : CtlSet) (rank : B16) (id : Fid) (reason : Byte) (t : Nat)
  | ctlSync (c : CtlSet) (next : BitVec 12) (free : List Byte) (peerEven : Bool) (t : Nat)
  | timeMark (c : MarkSet) (mark : B64) (localTime : B64)
  | replayTimeout (l : SwLink ⊕ OpfEnd) (t : Nat)
  | standaloneAck (l : SwLink ⊕ OpfEnd) (t : Nat)
  | auditInterval (l : SwLink ⊕ OpfEnd) (t : Nat)
  | retrainLimit (l : SwLink ⊕ Module) (t : Nat)
  | stairwellTrainingRetry (l : SwLink) (t : Nat)
  | stwRetrain (path : Path) (l : SLink)
  | stwDisable (path : Path) (l : SLink) (on : Bool)
  -- Stairwell fabric
  | hello (l : SLink) (m : MemberRec) (t : Nat)
  | member (l : SLink) (x : CtlPfx) (m : MemberRec) (t : Nat)
  | lost (l : SLink) (x : CtlPfx) (id : Fid) (serial : B16) (t : Nat)
  | ridge (l : SLink) (x : CtlPfx) (ridge : Fid) (standby : Option Fid) (epoch : Word) (t : Nat)
  | state (l : SLink) (x : CtlPfx) (ceiling : Byte) (routes : List (Fid × Fid × Byte)) (seq : RidgeSeq) (t : Nat)
  | handover (l : SLink) (x : CtlPfx) (successor : Fid) (instant : B64) (t : Nat)
  | delayReq (l : SLink) (t1 : B64) (t : Nat)
  | delayRsp (l : SLink) (t1 t2 t3 : B64) (t4 : B64)
  | routeStage (l : SLink) (x : CtlPfx) (version : B16) (entries : List (Fid × Byte × Bool)) (t : Nat)
  | routeAct (l : SLink) (x : CtlPfx) (version : B16) (instant : B64) (t : Nat)
  | homeMove (l : SLink) (x : CtlPfx) (window : Win) (oldHome newHome : Fid) (newWin : Win) (t : Nat)
  | schemaSwitch (l : SLink) (x : CtlPfx) (next : Byte) (instant : B64) (t : Nat)
  | ack (l : SLink) (x : CtlPfx) (type : Byte) (serial : B16) (t : Nat)
  | relay (l : SLink) (x : CtlPfx) (all : Bool) (seq : Word) (pkt : List Byte) (t : Nat)
  | relayReply (l : SLink) (x : CtlPfx) (seq : Word) (completion : Bool) (status : B16) (bytes : List Byte) (t : Nat)
  | notice (l : SLink) (x : CtlPfx) (kind : Byte) (body : List Byte) (t : Nat)
  | helloInterval (t : Nat)
  | helloTimeout (l : SLink) (t : Nat)
  | memberInterval (t : Nat)
  | memberTimeout (id : Fid) (t : Nat)
  | electionTimer (t : Nat)
  | handoverInstant (t : Nat)
  | routeActivation (t : Nat)
  | schemaSwitchOver (t : Nat)
  | timeMarkInterval (t : Nat)
  | delayInterval (t : Nat)
  | holdoverExpiry (t : Nat)
  | lowerKeyEligible (id : Fid) (t : Nat)
  | reassemblyTimeout (src : Fid) (serial : B16) (t : Nat)
  | ackResendTimeout (serial : B16) (t : Nat)
  | relayTimeout (seq : Word) (t : Nat)
  | relayHoldExpiry (t : Nat)
  | noticeGap (origin : Fid) (t : Nat)
  | restartingLimit (t : Nat)
  -- Doorway
  | presenceRecognised (ch : Dch) (t : Nat)
  | removal (ch : Dch) (t : Nat)
  | modelStep (samples : List DwSample) (t : Nat)
  | fast (ch : Dch) (t : Nat)
  | faultTmr (ch : Dch) (t : Nat)
  | enhTmo (ch : Dch) (t : Nat)
  | pgood (ch : Dch) (t : Nat)
  | perstRelease (ch : Dch) (t : Nat)
  | offTimerExpiry (ch : Dch) (t : Nat)
  | gpioEnable (n : BitVec 3) (high : Bool) (t : Nat)
  | dwyChEn (path : Path) (ch : Dch) (on : Bool) (t : Nat)
  | module48Down (t : Nat)
  | module48Up (t : Nat)
  -- transports, the event FIFO and registers
  | doorbell (ring : BitVec 2) (value : Word) (pkts : List (List Byte))
  | ringEnable (path : Path) (ring : BitVec 2) (on : Bool)
  | hearthTurn
  | evtPop (size : Nat) (off : Nat)
  | evtFlush (value : Word)
  | eventPosted
  | loReadLatch (path : Path) (off : Nat) (size : Nat)
  | registerWrite (path : Path) (off : Nat) (size : Nat) (value : Word)
  -- hold-up and power fail
  | budgetTick (t : Nat)
  | huSenseSample (mv10 : B16) (t : Nat)
  | senseFault (t : Nat)
  | pfwN (t : Nat)
  | vstopWaitExpiry (t : Nat)
  | flushDone (t : Nat)
  | pfwRelease (t : Nat)
  -- faults
  | fatalFault (checker : B16) (addr : B64) (t : Nat)
  | drainEnd (t : Nat)
  | drainLimit (t : Nat)
  | disarm (path : Path) (checker : B16)
  | armOnce (path : Path) (checker : B16)
  | armContinuous (path : Path) (checker : B16)
  | stackLoss (s : Stack) (t : Nat)
  | hearthWatchdog (t : Nat)
  | tempReading (readings : List (BitVec 12)) (t : Nat)
  -- clocks, resets and start-up
  | refclkLost (b : Bool) (t : Nat)
  | ckpSwitch (path : Path)
  | pllLockLoss (pll : Option (BitVec 6)) (t : Nat)
  | coldReset (rail : Bool) (aonLost : Bool)
  | resetRelease (ehrec : List Byte) (slotOk : Bool × Bool) (strap : BitVec 2)
  | warmN (t : Nat)
  | warm (path : Path) (value : Word) (t : Nat)
  | vddAonLoss
  | hearthUp (t : Nat) (version : Word) (ownMin ownMax : Byte)
  | firmwareFallback (t : Nat)
  | avsUpdate (acked : Bool) (measured : BitVec 10) (differs10ms : Bool)
  | railOutOfRange (inRange : BitVec 9)
  | memoryActiveTimeout (port : Port)
  | cxlIoCompletionTimeout (port : Port)
  | linkRecovery (port : Port) (lockLost : Bool) (retry : Bool)
  | endpointConfigWrite (mse bme d3hot : Bool)
  | refclkValid (b : Bool)
  | i3cDynamicAddress (addr : BitVec 7)
  | prsntNLow (ch : Dch) (t : Nat)
  | poweredHour
  | hearthReturn (t : Nat)
deriving DecidableEq, Repr

end Sys2Proof
end

