-- ==== Sys2Proof/Config.lean ====
section
/-! DEFINITION. What one part fixes and the free values: constants with no body, so that nothing can be proved of their
values. -/

namespace Sys2Proof

/-- Krarin's PCI-SIG vendor ID, GEN_ID.VENDOR (R553; the spec does not give the number). -/
opaque Config.vendorId : BitVec 16

/-- Channel of a stack that holds an address of the stack; the spec gives no rule (log 227). -/
opaque Config.hbmChannel : Nat → Nat → BitVec 4
/-- The 64-bit unique ID in the fuses (R553). -/
opaque Config.uid : BitVec 64
/-- Ordering code in the fuses: 00h or 01h (R553, R1). -/
opaque Config.orderCode : BitVec 8
/-- FUSE_MV in the fuses, in mV (R505, R529). -/
opaque Config.fuseMv : BitVec 10
/-- Lifecycle code that the fuses hold at the start of the run (R466). -/
opaque Config.fuses : BitVec 2
/-- Rollback floor that the fuses hold at the start of the run (R517). -/
opaque Config.floor : BitVec 32
/-- Manufacturer code of IDCODE (R480). -/
opaque Config.jedecId : BitVec 11
/-- Powered service hours in the flash at the start of the run (R529). -/
opaque Config.hours : Nat
/-- The standard's default preset at a rate code, where the board image names none (R296). -/
opaque Config.defaultPreset : Nat → BitVec 4
/-- Length in bytes of the message that begins a stream of a virtual channel of an OPF module, from the length in its own header; 0 while
the header is not whole (R342): the spec does not give the header. -/
opaque Config.opfMsgLen : Nat → List (BitVec 8) → Nat
/-- SEC-DED check bits over the bits of an entry (R40, R79, R81, R140, R212): the spec does not give the code. -/
opaque Config.secDed : Nat → BitVec 8
/-- A value that the spec leaves open, one for each count of `State.fresh`. -/
opaque Config.free : Nat → BitVec 64

end Sys2Proof
end

