-- ==== Sys2Proof/Machine/State.lean ====
section
/-! DEFINITION. The state of the CF9256 as plain data. Each field's docstring names its width and the rule that gives it;
its default is its value after a cold reset. Registers of BAR0 that no structured field mirrors are held in `regs`. -/

namespace Sys2Proof.Machine

/-! ## Stops -/

/-- Faults of the model: none is raised, since every row of the table ends in a next state (the device's own faults are
state, R446). -/
inductive Fault where
  /-- A stuck machine; raised by no meaning. Safe. -/
  | stuck
deriving DecidableEq, Repr

/-- Refusals of the model. -/
inductive Refusal where
  /-- The row has no meaning yet; raised by `exec` alone. Safe. -/
  | notModelled (mnemonic : String)
deriving DecidableEq, Repr

/-! ## Dermel (chapter 15) -/

/-- Status codes (R427), in code order. -/
inductive Status where
  | ok | pending | badOpcode | badParam | noResource | denied | busy | conflict | aborted | schemaMismatch | timeout
  | faulted
deriving DecidableEq, Repr

/-- A Dermel reply (R424), without its CRC, which is computed when the bytes are made. -/
structure Reply where
  opcode : B16
  tag : B16
  status : Status
  crcErr : Bool
  detail : Nat
  schema : Byte
  data : List Byte
deriving DecidableEq, Repr

/-- How the work of a PENDING command ended: final status, DETAIL, completion result data (R430, R441). -/
structure WorkRes where
  status : Status
  detail : Nat
  data : List Byte
deriving DecidableEq, Repr

/-- The work that a PENDING command still has to do, with the objects it names. -/
inductive Work where
  | portLink (port : Nat)
  | margin (port mask : Nat)
  | roomResize (room : Nat)
  | roomDestroy (room : Nat)
  | poolAdopt (port : Nat)
  | windowCreate (win : Nat)
  | windowDestroy (win : Nat)
  | windowBind (win host : Nat)
  | windowUnbind (win host : Nat)
  | dcAdd (win offer : Nat)
  | dcRelease (win : Nat) (xs : List Nat) (force : Bool) (deadline : Nat)
  | rehome (win : Nat)
  | ruleCommit (room : Nat)
  | gateCommit (t : Nat) (ports : Nat)
  | moverJob (job : Nat)
  | migrate (win x : Nat)
  | schemaSet
  | ridgeYield
  | routeSet
  | relay (seq : Nat)
  | fwVerify (slot : Bool)
  | fwActivate
  | hbmLayout (h : Nat)
  | pantryMode (win : Nat)
  | pantryFlush (wins : List Nat) (inval : Bool)
deriving DecidableEq, Repr

/-- One PENDING command (R430). -/
structure Pend where
  /-- The model's own number of the command, by which COMMAND_COMPLETION names it. -/
  id : Nat
  src : Source
  tag : B16
  opcode : B16
  /-- Fabric Room ID of the header. -/
  room : Byte
  work : Work
  /-- Completion words reserved in the backlog (R443). -/
  words : Nat
  /-- The origin of a relayed command: its fabric ID and relay sequence number (R388). -/
  relay : Option (Nat × Nat)
  /-- How the work ended, once it has. -/
  res : Option WorkRes
deriving DecidableEq, Repr

/-- A Dermel packet waiting in a transport: its bytes, its parity of origin for a relay, and its slot for a ring. -/
structure Packet where
  bytes : List Byte
  relay : Option (Nat × Nat)
deriving DecidableEq, Repr

/-- One ring's slots not yet taken and its place (R433); EN, SIZE and the rest are registers. -/
structure Ring where
  /-- 12 bits each: HEAD and TAIL (CMD_RNG_PTR, R445). Reset 0. -/
  head : Nat := 0
  tail : Nat := 0
  /-- Packets of the slots from HEAD to TAIL (host memory, read at the doorbell). Reset empty. -/
  slots : List (List Byte) := []
deriving DecidableEq, Repr

/-- The Dermel block: spec/15. -/
structure Cmds where
  /-- Rings 0 to 3 (R433). Reset empty. -/
  rings : List Ring := [{}, {}, {}, {}]
  /-- Packets waiting in the other transports: mailbox, MCTP, monitor, relay (R429). Reset empty. -/
  mailbox : List Packet := []
  mctp : List Packet := []
  monitor : List Packet := []
  relay : List Packet := []
  /-- Transport served next, 0 to 7 in the order of R429. Reset 0 (DESIGN CHOICE, log 12). -/
  turn : Nat := 0
  /-- PENDING commands, at most 512 (R430). Reset empty. -/
  pend : List Pend := []
  /-- Number of the next PENDING command (the model's own count). Reset 0. -/
  nextId : Nat := 0
  /-- Event FIFO: words of 64 bits, at most 4,096 (R440). Reset empty. -/
  fifo : List B64 := []
  /-- Event backlog: whole events, at most 65,536 words (R443). Reset empty. -/
  backlog : List (List B64) := []
  /-- Events dropped since the last DROPPED event, 32 bits (R443). Reset 0. -/
  dropped : Nat := 0
  /-- Upper halves latched by 32-bit EVT_POP reads, per path (R445). Reset none. -/
  evtHi : NMap Word := []
  /-- 1: the Hearth takes commands (CMD_STAT.HEARTH_UP, R445). Reset 0. -/
  hearthUp : Bool := false
  /-- NOTICE_MASK (R387), 32 bits. Reset 0. -/
  noticeMask : Word := 0
deriving DecidableEq, Repr

/-! ## Faults (chapter 16) -/

/-- One Attic event (R459). -/
structure Event where
  time : Nat
  seq : Nat
  checker : Nat
  cls : Nat
  transient : Bool
  lasting : Bool
  injected : Bool
  drain : Bool
  room : Nat
  source : Nat
  unit : Nat
  tag : Nat
  count : Nat
  addr : Nat
  payload : Nat
deriving DecidableEq, Repr

/-- Fault states (R452); WARM is shown in steps 1 to 3 of a warm reset (R465). -/
inductive FState where
  | normal | drain | fault
deriving DecidableEq, Repr

/-- The first-fatal record (R462), without LIMIT and HBM_KEEP of the live state. -/
structure FirstFatal where
  event : Event
  fatalCnt : Nat
  lastChecker : Nat
  drainDone : Nat
  drainFailed : Nat
  drainNs : Nat
  refused : Nat
  read : Bool
  limit : Bool
  keep : Bool
deriving DecidableEq, Repr

/-- The fault collector and the Attic: spec/16. -/
structure Faults where
  /-- FLT_STATE.STATE (R452), 2 bits. Reset NORMAL. -/
  st : FState := .normal
  /-- Fabric time at which DRAIN began (R462 DRAIN_NS). Reset 0. -/
  drainT : Nat := 0
  /-- FLT_STATE.LIMIT (R454). Reset 0. -/
  limit : Bool := false
  /-- Every fatal checker since NORMAL has Keep Yes (R456). Reset 1. -/
  allKeep : Bool := true
  /-- DRAIN_DONE and DRAIN_FAILED of the current DRAIN (R462, R465), 32 bits each. Reset 0. -/
  done : Nat := 0
  failed : Nat := 0
  /-- Requests answered in DRAIN and FAULT (R462 REFUSED), 32 bits. Reset 0. -/
  refused : Nat := 0
  /-- History ring, newest last, at most 32 entries (R458); FLT_RING.NVALID is its length. Reset empty. -/
  ring : List Event := []
  /-- FLT_RING.NEXT, 5 bits. Reset 0. -/
  ringNext : Nat := 0
  /-- Overflow log, newest last, at most 65,536 records (R458), each with its read flag (R461). Reset empty. -/
  log : List (Event × Bool) := []
  /-- FLT_SEQ, 32 bits (R465). Reset 0. -/
  seq : Nat := 0
  /-- First-fatal record; none while VALID is 0 (R462). Reset none. -/
  first : Option FirstFatal := none
  /-- Retired-row lists, per stack: (channel, row) pairs, at most 16 (R448); kept in boot flash. Reset empty. -/
  retired : List (List Nat) := [[], [], [], []]
  /-- Times of Hearth restarts by types 14h and 1Ah, newest first (R449). Reset empty. -/
  hearthFaults : List Nat := []
deriving DecidableEq, Repr

/-! ## Rooms, slices and rules (chapter 07) -/

/-- Allotments of a Room (R197). -/
structure Share where
  tracker : Nat := 0
  dir : Nat := 0
  pan : Nat := 0
  vst : Nat := 0
  mover : Nat := 0
  slices : Nat := 0
  rules : Nat := 0
deriving DecidableEq, Repr

/-- An access rule (R212); ECC is computed when the entry is read. -/
structure Rule where
  base : Nat
  limit : Nat
  host : Nat
  pasid : Nat
  mat : Nat
  engine : Nat
  r : Bool
  w : Bool
  a : Bool
  sealed : Bool
deriving DecidableEq, Repr

/-- States of a Room (R228). -/
inductive RoomSt where
  | active | closing
deriving DecidableEq, Repr

/-- One Room that exists (R196 to R205). -/
structure Room where
  fid : Nat
  st : RoomSt := .active
  share : Share := {}
  /-- Pool use still held back by a PENDING resize: the old allotment where it was larger (R203). -/
  held : Share := {}
  hmax : Nat := 1
  /-- Host list by position; an absent key is an empty position (R86). -/
  hosts : NMap Nat := []
  /-- Positions freed but still covered by a coarse entry (R200). -/
  heldPos : List Nat := []
  /-- Active bank: false Indigo, true Madder (R222). -/
  bank : Bool := false
  commitPend : Bool := false
  rules0 : NMap Rule := []
  rules1 : NMap Rule := []
  /-- Rates: port, committed, peak (R197). -/
  rates : NMap (Nat × Nat) := []
  /-- Rebind policy of the Room (R417). -/
  rebind : Bool := false
  /-- Counts of steps D2 to D5 of its teardown (R205). -/
  d2 : Nat := 0
  d3 : Nat := 0
  d4 : Nat := 0
  d5 : Nat := 0
deriving DecidableEq, Repr

/-- One operation slot of a doorbell page (R125), as the host reads it. -/
structure XSlot where
  target : Nat := 0
  op : Nat := 0
  size : Nat := 0
  notify : Bool := false
  status : Nat := 0
  done : Bool := false
  operand : Nat := 0
  result : Nat := 0
  /-- Reserved bits [95:81], which are RW (R125). -/
  rsvd : Nat := 0
  /-- The copy made at submit, while the operation is in flight (R125, R127): target, op, size, notify, operand. -/
  flight : Option (Nat × Nat × Nat × Bool × Nat) := none
  /-- The home unit has granted the operation. -/
  granted : Bool := false
  /-- Order of submit (R130), and fabric time of the submit (R183). -/
  order : Nat := 0
  t0 : Nat := 0
deriving DecidableEq, Repr

/-- One job slot of a slice's Mover job queue (R272). -/
structure JSlot where
  status : Nat := 0
  count : Nat := 0
  last : Nat := 0
  done : Bool := false
  flight : Bool := false
deriving DecidableEq, Repr

/-- A slice (R206). -/
structure Slice where
  room : Nat
  window : Nat
  host : Nat
  /-- none: NO_PASID. -/
  pasid : Option Nat
  page : Nat
  slots : NMap XSlot := []
  jobs : NMap JSlot := []
deriving DecidableEq, Repr

/-! ## Pool devices, extents and windows (chapter 02) -/

/-- An adopted pool device (R35, R36). -/
structure PoolDev where
  port : Nat
  capacity : Nat
  serial : Option Nat
  /-- Extents that belong to a window. -/
  used : List Nat := []
  /-- Free extents zeroed since their last owner (R39); every other free extent is unclean. -/
  clean : List Nat := []
  /-- The link has not yet come up after a warm reset (R564). -/
  awaitLink : Bool := false
deriving DecidableEq, Repr

/-- Translation states (R41), in code order. -/
inductive XState where
  | free | live | dual | retire | lost | offered | releasing | reserved
deriving DecidableEq, Repr

/-- An extent-map entry (R40); ECC is computed when the entry is read. -/
structure Ext where
  valid : Bool := true
  st : XState := .live
  srcHouse : Bool := false
  dstHouse : Bool := false
  window : Nat := 0
  room : Nat := 0
  gen : Nat := 0
  srcRemote : Bool := false
  dstRemote : Bool := false
  srcDev : Nat := 0
  srcExt : Nat := 0
  dstDev : Nat := 0
  dstExt : Nat := 0
  remoteSw : Nat := 0
  /-- The host has released the extent, or a forced release has taken effect: no further request is admitted (R57). -/
  closed : Bool := false
deriving DecidableEq, Repr

/-- Window types (R48). -/
inductive WType where
  | priv | shared | dynamic
deriving DecidableEq, Repr

/-- Window states (R437). -/
inductive WState where
  | active | creating | destroying | incoming | copying | handoffOut | proxy
deriving DecidableEq, Repr

/-- Binding states (R437). -/
inductive BState where
  | binding | bound | unbinding | failed
deriving DecidableEq, Repr

/-- Pantry modes (R144). -/
inductive PMode where
  | off | wt | wb
deriving DecidableEq, Repr

/-- A binding of a window to a host (R52 to R54). -/
structure Binding where
  host : Nat
  port : Nat
  st : BState
  rw : Bool
  hpa : Nat
  bridge : Nat
  /-- The decode entry is in the lane die's table (R53, R54). -/
  decode : Bool := true
  /-- Presence waits for the next link-up (R53). -/
  presPend : Bool := false
  /-- Fabric time at which the unbind timeout expires (R54). -/
  deadline : Option Nat := none
  /-- R96 removes the binding without snoops (R54). -/
  r96 : Bool := false
  /-- The removal of R54 step 2 has been done. -/
  removed : Bool := false
  linesInv : Nat := 0
  linesWb : Nat := 0
  /-- Lines that the sweep of R54 step 3 has still to back-invalidate. -/
  sweep : List Nat := []
  /-- Mailbox event records of the logical device waiting (R320): handle, kind (0 Add Capacity, 1 Release Capacity, 2 General
  Media), extents or the poisoned line. -/
  events : List (Nat × Nat × List Nat) := []
  /-- Handle of the next event record. -/
  nextEvt : Nat := 1
  /-- Event interrupt policy (R320). -/
  evtPolicy : Word := 0
  /-- Secondary bus of its virtual bridge and BAR0 of its logical device, as the host has set them (log 33). -/
  sec : Nat := 0
  bar : Nat := 0
  /-- BAR2 of its logical device, the atomic alias (R49), as the host has set it. -/
  bar2 : Nat := 0
  /-- Registers of its logical device that the host has written (R319), by BAR0 offset; an absent one holds its reset value. -/
  regs : NMap Word := []
  /-- MSI-X vectors waiting: entries 0 to 256 (R210). -/
  pba : List Nat := []
deriving DecidableEq, Repr

/-- An outstanding offer of a dynamic capacity window (R56). -/
structure Offer where
  id : Nat
  xs : List Nat
  deadline : Nat
  live : List Nat := []
  answered : Bool := false
deriving DecidableEq, Repr

/-- Re-homing at the old home A or at the new home B (R58 to R63). -/
structure Rehome where
  /-- true: this switch is the old home A. -/
  old : Bool
  peer : Nat := 0
  peerWin : Nat := 0
  /-- Handoff age limit in us. -/
  age : Nat := 20000
  copied : Nat := 0
  /-- Lines that the sweep of H4 has still to back-invalidate; it has begun. -/
  sweep : List Nat := []
  swept : Bool := false
  /-- Fabric time of H6 (R60). -/
  ready : Bool := false
  /-- Pantry mode before REHOME_START. -/
  mode : PMode := .wt
  /-- At the new home: the old home is known, by its first raw access; extent indexes of the window that it has written (R58). -/
  known : Bool := false
  wrote : List Nat := []
deriving DecidableEq, Repr

/-- A memory window (R48 to R50). -/
structure Window where
  type : WType
  st : WState
  room : Nat
  pmode : PMode
  house : Bool
  devs : List Nat
  atomic : Bool
  /-- Size in extents. -/
  extents : Nat
  /-- First extent index: the pool base divided by 256 MiB. -/
  baseX : Nat
  serial : Nat
  /-- Subsystem ID: window ID at creation (R49, R50). -/
  subsys : Nat
  failed : Bool := false
  /-- Fabric ID of the home switch (R47). -/
  home : Nat
  binds : List Binding := []
  quota : Nat := 0
  rank : Nat := 0
  /-- The window holds a write-back grant (R145). -/
  grant : Bool := false
  /-- Consecutive ticks, up to 100, at which the quota of a window that lost its grant has fitted; 100 for a window that has
  lost none (R150). -/
  fit : Nat := 100
  offers : List Offer := []
  nextOffer : Nat := 0
  /-- Lines that the home has poisoned, oldest first, at most 256 (R320). -/
  poisoned : List Nat := []
  rehome : Option Rehome := none
  /-- At the new home: TAG and SOURCE of the REHOME_PREPARE whose completion event is still to be posted (R60 H9). -/
  prep : Option (Nat × Nat) := none
deriving DecidableEq, Repr

/-- A decode entry of a lane die for a window that is homed at another switch (R47): the host binding is kept here. -/
structure RemoteWin where
  port : Nat
  host : Nat
  window : Nat
  hpa : Nat
  size : Nat
  home : Nat
  rw : Bool
  /-- Pool base at the home switch. -/
  base : Nat := 0
deriving DecidableEq, Repr

/-- Rooms, slices, pool devices, extents and windows: spec/02 and spec/07. -/
structure Pool where
  /-- Rooms by local number (R196, R228). Reset: Room 0 with tracker 2,048, 4 Mover channels, Hmax 1 (R199). -/
  rooms : NMap Room := [(0, { fid := 0, share := { tracker := 2048, mover := 4 } })]
  /-- Slices by number (R206). Reset empty. -/
  slices : NMap Slice := []
  /-- Pool devices by handle, 00h to 3Fh (R35). Reset empty. -/
  devs : NMap PoolDev := []
  /-- House units H (R136): 6 bits. Reset 0. -/
  house : Nat := 0
  /-- House extents that belong to a window, and clean free ones (R38, R39). Reset empty. -/
  hUsed : List Nat := []
  hClean : List Nat := []
  /-- Extent map, 2^20 entries of 128 bits (R40); an absent entry is 0. Reset empty. -/
  ext : NMap Ext := []
  /-- Windows by ID, at most 4,096 (R48). Reset empty. -/
  wins : NMap Window := []
  /-- Decode entries of windows homed elsewhere (R47). Reset empty. -/
  remote : List RemoteWin := []
deriving DecidableEq, Repr

/-! ## Messages -/

/-- Accounting classes (R166), in table order. -/
inductive Cls where
  | req | rwd | snp | srsp | mrsp | cmp
deriving DecidableEq, Repr

/-- Destination of a message in the Vestibule (R173). -/
inductive Dest where
  | home (hu : Nat) | egress (port : Nat)
deriving DecidableEq, Repr

/-- CXL.io completion statuses. -/
inductive CplSt where
  | sc | ur | ca
deriving DecidableEq, Repr

/-- Coherence state that an S2M completion grants. -/
inductive Grant where
  | cmp | cmpI | cmpS | cmpE | err
deriving DecidableEq, Repr

/-- What the switch sends: messages to hosts, to devices and on CXL.io (R72, R183). -/
inductive Body where
  /-- S2M DRS, with its DevLoad, 0 to 3 (R317). -/
  | memData (host tag : Nat) (data : Line) (poison : Bool) (load : Nat)
  /-- S2M NDR, with its DevLoad. -/
  | ndr (host tag : Nat) (g : Grant) (load : Nat)
  /-- BISnpInv, BISnpData or BISnpCur for the line. -/
  | biSnp (host : Nat) (kind : SnpType) (line : Nat)
  | biConflictAck (host line : Nat)
  /-- CXL.io completion. -/
  | ioCpl (host tag : Nat) (st : CplSt) (data : List Byte) (poison : Bool)
  /-- ERR_NONFATAL of a virtual bridge, with the logged header (R183, R218). -/
  | errNonfatal (host tag : Nat)
  /-- ERR_COR or a surprise-down error and other bridge events: code. -/
  | bridgeEvt (host : Nat) (bridge : Nat) (code : Nat)
  /-- H2D Rsp GO-Err and data (R183). -/
  | goErr (host tag : Nat) (data : Bool)
  /-- A memory request to a pool device: request number, DPA, write data and enables, poison. -/
  | devReq (req dpa : Nat) (wr : Option (Line × B64)) (poison : Bool)
  /-- A memory request or window request to another switch: request number, fabric ID, address. -/
  | remReq (req sw addr : Nat) (wr : Option (Line × B64)) (poison : Bool)
  /-- A message forwarded as it arrived. -/
  | fwd (m : MsgIn)
deriving DecidableEq, Repr

/-- A message in a Vestibule whose notice has been raised (R162). -/
structure VMsg where
  id : Nat
  port : Nat
  cls : Cls
  /-- Local Room charged; none on fabric and pool-device ports (R168). -/
  room : Option Nat
  /-- Fabric time of the notice (R181). -/
  t0 : Nat
  dst : Dest
  plane : Bool
  /-- Window that was decoded, and the offset in it (R46). -/
  win : Option Nat
  off : Nat
  cells : Nat
  /-- Cells drawn from the shared pool (R169). -/
  shared : Nat
  /-- The rate buckets coloured it yellow (R238). -/
  yellow : Bool
  bytes : Nat
  m : MsgIn
  /-- It came by the extra credit of R76: its cells lie outside the Q-REQ share. -/
  extra : Bool := false
deriving DecidableEq, Repr

/-- A message at an egress port that a home unit, the atomic unit or a bridge sent (R175). -/
structure EMsg where
  id : Nat
  port : Nat
  cls : Cls
  room : Option Nat
  /-- Ingress point: 64 + n for home unit n, or a port (R178). -/
  src : Nat
  plane : Bool
  t0 : Nat
  bytes : Nat
  body : Body
deriving DecidableEq, Repr

/-! ## Home units (chapters 03 and 04) -/

/-- A directory entry (R79); TAG_INV, TAG_PAR and ECC are computed when the entry is read. An absent entry is the entry
of the initial sweep. -/
structure DEnt where
  tag : Nat := 0
  room : Nat := 0
  /-- STATE: 0 I, 1 S, 2 E, 3 B. -/
  st : Nat := 0
  fmt : Bool := false
  /-- Explicit: four 12-bit IDs from the lowest; coarse: the vector (R85, R86). -/
  sharers : Nat := 0
  nsh : Nat := 0
  pending : Bool := false
  repl : Nat := 0
deriving DecidableEq, Repr

/-- A directory-cache entry with its dirty bit (R81), and the HBM way that holds the line's entry (R82). -/
structure CEnt where
  ctag : Nat
  st : Nat
  fmt : Bool
  sharers : Nat
  nsh : Nat
  pending : Bool
  repl : Nat
  dirty : Bool
  way : Nat
  /-- Room of the request under which it was made (R81). -/
  room : Nat
deriving DecidableEq, Repr

/-- Transient line states (R104), an entry that waits in the pending chain, and one whose operation is over and whose last
message has not yet entered the crossbar (R69, R175). -/
inductive LSt where
  | f | se | ei | es | ec | si | bi | wm | chained | done
deriving DecidableEq, Repr

/-- Tracker pools (R67). -/
inductive TPool where
  | general | rwdRes | snpRes
deriving DecidableEq, Repr

/-- Who a tracker entry answers, and what it does: the request that opened it (R104, R105). -/
inductive Req where
  /-- A CXL.mem request: own (OWN), data needed, or SHR or NCR. -/
  | rd (kind : MKind) (own shr : Bool) (host tag port : Nat)
  /-- A write: data, enables, poison. -/
  | wr (host tag port : Nat) (data : Line) (be : B64) (poison : Bool)
  /-- An owner's writeback that opened WM or was accepted at once, with its MetaValue. -/
  | wbk (host tag port : Nat) (data : Line) (be : B64) (poison : Bool) (mv : Meta) (full : Bool)
  /-- An AtomicOp: byte offset in the line, size, operands. -/
  | atom (op : AtomOp) (host tag port off size : Nat) (a b : Nat)
  /-- An extended operation of a slice slot. -/
  | xop (slice slot off size op operand : Nat) (notify : Bool)
  /-- One line of a CXL.io memory access: access number, read or write. -/
  | io (acc : Nat) (wr : Option (Line × B64))
  /-- An internal request (R71): number, write data. -/
  | int (n : Nat) (wr : Option (Line × B64))
  /-- Eviction of the entry of this line for a waiting entry (R91). -/
  | evict (waiter : Nat)
  /-- Recovery of a line in B (R99). -/
  | recover
  /-- Back-invalidation of a line for an unbind, a handoff or a purge (R54, R60). -/
  | recall (win host : Nat)
deriving DecidableEq, Repr

/-- One outstanding BISnp (R95): host, kind, when its timer started, whether it is the second try (R115), and the
number of BIConflicts seen for it (R117). -/
structure Snoop where
  host : Nat
  kind : SnpType
  t0 : Nat
  again : Bool := false
  cfl : Nat := 0
deriving DecidableEq, Repr

/-- A tracker entry (R67, R104). -/
structure Trk where
  id : Nat
  hu : Nat
  pool : TPool
  room : Nat
  /-- PA[47:6]. -/
  line : Nat
  win : Nat
  st : LSt
  /-- A writeback accepted at once beside the chain (R70). -/
  par : Bool := false
  /-- Hosts still to be snooped, when a BISnp slot is free (R75), and the kind of snoop. -/
  unsent : List Nat := []
  skind : SnpType := .snpInv
  /-- Stable state it was opened from: 0 I, 1 S, 2 E, 3 B. -/
  opened : Nat := 0
  /-- Owner when it was opened from E. -/
  owner : Nat := 0
  req : Req
  snoops : List Snoop := []
  /-- Full-line writeback data kept for it (R112). -/
  wb : Option (Line × Bool) := none
  /-- A writeback was accepted while it was open. -/
  wbSeen : Bool := false
  /-- Memory data held (R114), with poison. -/
  data : Option (Line × Bool) := none
  /-- Memory requests outstanding. -/
  mem : Nat := 0
  /-- Answer of the owner to a data or current snoop: 0 none, 1 I, 2 S, 3 E. -/
  ans : Nat := 0
  /-- It waits for a directory way: in the set-conflict queue (R93), or for the snoop reserve (R91). -/
  scq : Bool := false
  needV : Bool := false
  /-- No entry is to be made for it (R90 step 4). -/
  noCache : Bool := false
  /-- A write by it was refused by the backing (R119). -/
  wrErr : Bool := false
  /-- A recovery of its line, which has no entry in a set with a set-loss marker, has ended for it: the line counts as I once
  (R100). -/
  recovered : Bool := false
  /-- A writeback accepted beside the chain that waits for an earlier one of its line (R112). -/
  held : Bool := false
  /-- The read under way began before a partial writeback: its data is not used, the line is read again (R112). -/
  reread : Bool := false
  /-- Its memory request was lost with a link or not answered in time: the answer is the synthetic one of R183 (R334, R335). -/
  syn : Bool := false
  /-- Violation 03h moved it from ES to EI: the grant is S (R115). -/
  grantS : Bool := false
  /-- Old value read by an rmw. -/
  old : Option Nat := none
  /-- Rule bank under which it was checked, if any (R223). -/
  bank : Option Bool := none
  /-- GEN of the extent entry under which it was translated (R42). -/
  gen : Nat := 0
deriving DecidableEq, Repr

/-- Where one memory request goes. -/
inductive Tgt where
  /-- A Pantry way of a home unit: the index of its tag. -/
  | pantry (key : Nat)
  /-- An HBM line of the house pool: HBM byte address. -/
  | house (addr : Nat)
  | dev (handle dpa : Nat)
  | remote (sw addr : Nat)
deriving DecidableEq, Repr

/-- What a memory request is for. -/
inductive MUse where
  /-- The read of a tracker entry. -/
  | fill (trk : Nat)
  /-- The write of a tracker entry. -/
  | store (trk : Nat)
  /-- The fill of a partial write-back write to an absent line (R144). -/
  | fillWr (trk : Nat) (data : Line) (be : B64) (poison : Bool)
  /-- A MemSpecRd fill in a fill slot (R107). -/
  | spec
  /-- A cleaning write of a dirty line (R146, R151 to R154): power-fail flush or not. -/
  | clean (pfw : Bool)
  /-- The write of a dirty victim, after which data is written into the way: for a tracker entry's write (acknowledged
  then), or for a fill (R142). -/
  | victim (trk : Option Nat) (line : Nat) (data : Line) (poison dirty : Bool) (room : Nat)
  /-- The poisoning of a line whose owner timed out (R96). -/
  | poison
deriving DecidableEq, Repr

/-- One request to the Pantry, the house pool, a pool device or another switch, awaiting its response (R74). -/
structure MemReq where
  id : Nat
  hu : Nat
  line : Nat
  win : Nat
  use : MUse
  /-- Write data, enables and poison; none for a read. -/
  wr : Option (Line × B64 × Bool)
  tgt : Tgt
  /-- The request has been sent to the device: it holds a response slot (R172). -/
  sent : Bool := true
  /-- Responses of the second copy still to come (DUAL, R41). -/
  twin : Bool := false
  /-- A response has refused the write. -/
  bad : Bool := false
  /-- Fabric time at which it was issued (R334). -/
  t0 : Nat
  /-- Fabric port that it has been sent on (R335). -/
  via : Option Nat := none
deriving DecidableEq, Repr

/-- A conflict-table entry that waits for completions owed to the host (R117). -/
structure Cfl where
  hu : Nat
  host : Nat
  line : Nat
  port : Nat
  /-- Tracker entries whose completions to the host come first. -/
  owed : List Nat
deriving DecidableEq, Repr

/-- A MemSpecRd fill slot in use (R107). -/
structure SpecFill where
  hu : Nat
  line : Nat
  req : Nat
deriving DecidableEq, Repr

/-- A CXL.io memory access to a window in progress (R219). -/
structure IoAcc where
  id : Nat
  host : Nat
  tag : Nat
  port : Nat
  /-- Byte address in the window, length. -/
  pa : Nat
  len : Nat
  write : Bool
  /-- Lines still open. -/
  left : Nat
  /-- Read data so far: byte position and line. -/
  data : NMap Line
  poison : Bool
  refused : Bool
  /-- Window, Room, rule bank, and the lines that wait for a tracker entry (R68), with write data. -/
  win : Nat := 0
  room : Nat := 0
  bank : Option Bool := none
  todo : List (Nat × Option (Line × B64)) := []
deriving DecidableEq, Repr

/-- An internal request of the Mover or the Hearth that was NAKed, or the answer to one (R71). -/
structure IntReq where
  id : Nat
  room : Nat
  line : Nat
  win : Nat
  wr : Option (Line × B64)
  /-- Next retry delay in ns, 64 to 8,000 (R71), and the fabric time of the first NAK. -/
  delay : Nat := 64
  next : Nat := 0
  since : Nat := 0
  chan : Option Nat := none
  /-- Where a part of a Mover access begins, the identity whose rule check is made at the grant (R215, R219): the Mover (none), or the
  host and PASID of a slice. -/
  chk : Option (Option (Nat × Option Nat)) := none
  /-- Which part of its channel's descriptor it belongs to, as `MChan.parts` numbers them. -/
  part : Nat := 0
deriving DecidableEq, Repr

/-- A request that waits in B's handoff hold queue (R60). -/
structure Held where
  win : Nat
  t0 : Nat
  v : VMsg
deriving DecidableEq, Repr

/-- A sequence of beats of one requester at an HBM channel (R190, R195): requester 0 to 7 by position in the stack, 8 the Mover,
9 the Hearth, 11 the debug port; the kind of its lock, 0 a directory set, 1 a Pantry line. -/
structure HSeq where
  req : Nat
  lock : Option Nat := none
deriving DecidableEq, Repr

/-- An HBM channel's arbiter: the sequence that holds the channel or that refresh has displaced, and those that wait (R190 to R192). -/
structure HChan where
  cur : Option HSeq := none
  wait : List HSeq := []
deriving DecidableEq, Repr

/-- The home units and the switch core: spec/03, spec/04, spec/06. -/
structure Home where
  /-- Tracker entries in use, oldest grant first, of all home units (R67). Reset empty. -/
  trk : List Trk := []
  /-- Directory in HBM by hu × 2^23 + set × 16 + way (R77 to R79). Reset empty (initial sweep). -/
  dir : NMap DEnt := []
  /-- Directory cache by hu × 2^17 + set × 16 + way (R81). Reset empty. -/
  cache : NMap CEnt := []
  /-- Set-conflict queues: tracker entries in arrival order, of all home units (R93). Reset empty. -/
  scq : List Nat := []
  /-- Conflict tables (R75, R117). Reset empty. -/
  cfl : List Cfl := []
  /-- MemSpecRd fill slots, 64 per home unit (R107). Reset empty. -/
  spec : List SpecFill := []
  /-- Memory requests outstanding (R74). Reset empty. -/
  memq : List MemReq := []
  /-- CXL.io accesses in progress. Reset empty. -/
  io : List IoAcc := []
  /-- Internal requests waiting for a retry (R71). Reset empty. -/
  intq : List IntReq := []
  /-- Internal requests done, and not yet taken by their requester: number, data, poison, and 0, or what refused it
  (`State.intEnds`). Reset empty. -/
  intDone : List (Nat × Line × Bool × Nat) := []
  /-- Handoff hold queues (R60). Reset empty. -/
  hold : List Held := []
  /-- Scrub pointers by home unit: next set, 19 bits (R101). Reset 0. -/
  scrub : NMap Nat := []
  /-- Messages in the Vestibules, in order of notice (R162). Reset empty. -/
  vst : List VMsg := []
  /-- Cells committed to credits by port and class number: count (R170). Reset empty. -/
  credits : NMap Nat := []
  /-- Messages at egress ports, in order (R175). Reset empty. -/
  egress : List EMsg := []
  /-- Round-robin pointers: the last winner (R186), of home-unit input arbiters by (2 × hu + plane) × 8 + level, of crossbar input
  arbiters from 1_0000h on, of HBM channel arbiters from 2_0000h on. Reset empty. -/
  rr : NMap Nat := []
  /-- Arbiter counters by type, instance and requester: grants, waiting cycles, longest wait, current wait (R188).
  Reset empty. -/
  arb : NMap (Nat × Nat × Nat × Nat) := []
  /-- HBM channels preempted by refresh, stack × 16 + channel (R192). Reset empty. -/
  refresh : List Nat := []
  /-- HBM channel arbiters by stack × 16 + channel (R186, R190 to R192). Reset empty. -/
  hbm : NMap HChan := []
  /-- Crossbar destination attachments, 2a + plane, whose last granted message has several beats: their locks (R190). Reset empty. -/
  xlock : List Nat := []
  /-- Fabric-port groups that drain: neighbour and the end of the drain (R180). Reset empty. -/
  drains : NMap Nat := []
  /-- Hosts whose extra M2S Req credit (R76) was returned with a BISnp and is not yet used. Reset empty. -/
  extra : List Nat := []
  /-- Next number of a message, tracker entry, request or access (the model's own count). Reset 0. -/
  next : Nat := 0
deriving DecidableEq, Repr

/-! ## The Pantry and hold-up energy (chapter 05) -/

/-- A Pantry tag with V set (R140); an absent tag has V 0. ECC is computed. -/
structure PTag where
  line : Nat
  d : Bool
  room : Nat
  repl : Nat
deriving DecidableEq, Repr

/-- A power-fail flush in progress (R154, R158). -/
structure Flush where
  t0 : Nat
  dirtyStart : Nat
  flushed : Nat
  failed : Nat
  vCheck : Nat
  short : Bool
  sense : Bool
  /-- R155 stopped it: fabric time at which the wait for issued writes ends. -/
  vstop : Option Nat
  /-- Lines still to be written. -/
  todo : List Nat
deriving DecidableEq, Repr

/-- A demand flush, PANTRY_MODE or loss-of-grant cleaning in progress (R146, R151, R152). -/
structure Clean where
  /-- PENDING command served, if any. -/
  cmd : Option Nat
  win : Nat
  todo : List Nat
  cleaned : Nat
  failed : Nat
  inval : Bool
  /-- Lines that the window held when PANTRY_MODE was accepted (R146). -/
  old : List Nat := []
deriving DecidableEq, Repr

/-- The Pantry and hold-up block: spec/05. -/
structure Pantry where
  /-- Pantry tags by hu × 2^26 + set × 16 + way (R138, R140). Reset empty (all invalid). -/
  tags : NMap PTag := []
  /-- Hold-up parameters in force, by place in the table of R147 and in the units of HOLDUP_SET (R438); an absent one is
  missing or invalid (NO_PARAM), but r, whose default is 20 %. Reset empty. -/
  par : NMap Nat := []
  /-- Parameters of HOLDUP_SET and HOLDUP_CAL that take effect at the next tick (R147). Reset empty. -/
  parNext : NMap Nat := []
  /-- Valid parameters of the Ehrec board image in force. Reset empty. -/
  ehrec : NMap Nat := []
  /-- C0 of the last HOLDUP_CAL, in the boot header, in uF (R147). Reset none. -/
  cal : Option Nat := none
  /-- Hours since the last calibration, in the boot header (R149). Reset 0 (DESIGN CHOICE, log 13). -/
  calHours : Nat := 0
  /-- Last HU_SENSE sample, 16 bits in 10 mV; its fabric time; the samples of the present tick (R148). Reset none. -/
  sample : Option Nat := none
  sampleT : Nat := 0
  tickMin : Option Nat := none
  /-- Budget of the last tick in lines (R149). Reset 0. -/
  budget : Nat := 0
  /-- Capacitance (uF), voltage (mV) and energy (mJ) of the last tick (HOLDUP_QUERY). Reset 0. -/
  lastC : Nat := 0
  lastV : Nat := 0
  lastE : Nat := 0
  /-- PFW_N is recognised (PAN_STAT.PFW, R154). Reset 0. -/
  pfw : Bool := false
  /-- FLUSH_DONE output (R157). Reset low. -/
  flushDone : Bool := false
  /-- Fabric time from which grants are decided again (R157). Reset 0. -/
  grantsFrom : Nat := 0
  flush : Option Flush := none
  /-- Flush record that the restarting Hearth has still to write (R528): its payload. Reset none. -/
  recOwed : Option Nat := none
  cleans : List Clean := []
deriving DecidableEq, Repr

/-! ## Ports and traffic scheduling (chapters 08, 10, 11) -/

/-- A gate schedule bank (R241, R242): BASE, CYCLE and entries of DURATION and MASK. N is the number of entries. -/
structure GateBank where
  base : Nat := 0
  cycle : Nat := 0
  entries : List (Nat × Nat) := []
deriving DecidableEq, Repr

/-- A request that a port has sent and that awaits its answer: the egress record of a pass-through port or the fabric
request record (R330, R335). -/
structure Sent where
  /-- Port it was sent on. -/
  port : Nat
  /-- Tag on that port: the fabric tag on a fabric port, 16 bits (R330). -/
  tag : Nat
  /-- The message as it arrived, and its ingress port. -/
  v : VMsg
  /-- Bytes that its completions have returned so far. -/
  got : Nat := 0
  /-- The first of its two answers has come (MemData and Cmp; H2D Rsp and Data; D2H Rsp and Data): its record is free (R330), and the
  second still finds its way (R30). -/
  half : Bool := false
deriving DecidableEq, Repr

/-- A pass-through binding (R323): upstream port of the virtual switch, virtual bridge, downstream port. -/
structure Vppb where
  vcs : Nat
  bridge : Nat
  port : Nat
  /-- CXL.cache is enabled through it, with its CacheID (R316). -/
  cache : Bool := false
  cacheId : Nat := 0
  /-- Address range and bus range of the virtual bridge, as the host has set them (R25; log 33): base, limit, prefetchable
  base and limit, secondary and subordinate bus. -/
  base : Nat := 1
  limit : Nat := 0
  pbase : Nat := 1
  plimit : Nat := 0
  sec : Nat := 0
  sub : Nat := 0
  /-- Unbind waiting for a managed hot-remove, until this fabric time (R323). -/
  removing : Option Nat := none
deriving DecidableEq, Repr

/-- A port's own state beside its registers. -/
structure PortSt where
  /-- Local Room of an upstream or pass-through port; none: no Room (R168, R201). -/
  room : Option Nat := none
  /-- Fabric ID of the neighbouring switch of a fabric port (R306). -/
  neighbour : Option Nat := none
  /-- PERST_UP_N inputs assigned to the port by the board image, 0 to 31 (R302). -/
  perst : List Nat := []
  /-- Doorway channel of the port in the board image (R302, R398). -/
  dch : Option Nat := none
  /-- Retraining for width or rate is tried again at this fabric time (R292). -/
  retryAt : Option Nat := none
  /-- Target rate and width of PORT_LINK_SET or of the partner (R293, R294). -/
  target : Option (Nat × Nat) := none
  /-- The lanes of the port left out at the last training (R291), 16 bits. -/
  leftOut : Nat := 0
  /-- LANE_MARGIN commands in progress, oldest first: lane mask, error limit (R299). Reset empty. -/
  margin : List (Nat × Nat) := []
  /-- Serial of the device behind the port (R416, R564). -/
  serial : Option Nat := none
  /-- Reset gate shut by PERST_DN_N or by Physical Port Control (R302, R325). -/
  gateShut : Bool := false
  /-- Violations in the present 1 ms interval and its number (R333). -/
  pv : Nat := 0
  pvT : Nat := 0
  /-- Pool response slots in quarantine: request numbers (R334). -/
  quar : List Nat := []
  /-- Response slots in use on a POOL port (R172). -/
  slots : Nat := 0
  /-- Fabric time of the last rate-bucket tick, in units of 100 ns (R238). -/
  tick : Nat := 0
  /-- Deficits of Q2 to Q7, and the pointer, 2 to 7 (R233). -/
  deficit : NMap Nat := []
  ptr : Nat := 2
  /-- Queue of each member at the time it became one, by message number (R230). -/
  queue : NMap Nat := []
  /-- Gate banks Indigo and Madder, the active one, and a pending swap instant (R241, R249). -/
  gate0 : GateBank := {}
  gate1 : GateBank := {}
  gateAct : Bool := false
  gateT : Option Nat := none
  /-- The host purge of R337 is running. -/
  purge : Bool := false
  /-- A message has been received in part (R163). -/
  part : Bool := false
  /-- A fabric port is a live member of its group (R179, R306). -/
  member : Bool := false
  /-- The board image marks in-band reset as not allowed (R304). -/
  noInband : Bool := false
  /-- The device behind the port cannot be adopted (R34). -/
  unfit : Bool := false
  /-- A fabric port trains as an Upstream Port, as the board image sets (R302). -/
  upType : Bool := false
  /-- Link credits held at the partner, by channel as `txChan` numbers them, and those that it gave at link-up (R232, R333 kind 0Ah); a
  channel that is not listed is not limited. -/
  tx : NMap Nat := []
  txMax : NMap Nat := []
  /-- Bytes of the replay buffer that hold flits not acknowledged (R282, R314). -/
  replay : Nat := 0
  /-- Posted CXL.io requests in flits not acknowledged, each with the bytes of the buffer up to its end (R335). -/
  posted : List (Nat × VMsg) := []
  /-- DevLoad last received from a pool device, 0 to 3 (R316). -/
  devLoad : Nat := 0
deriving DecidableEq, Repr

/-- Ports and lane groups: spec/08, spec/10, spec/11. -/
structure Ports where
  /-- Lane groups: mode and the port numbers they hold (R280, R283); an absent group is MODE 00b with port g. Reset
  empty. -/
  grp : NMap (Nat × List Nat) := []
  /-- Port state by number; absent: the defaults. Reset empty. -/
  st : NMap PortSt := []
  /-- Pass-through bindings (R323). Reset empty. -/
  vppb : List Vppb := []
  /-- Requests sent and awaiting answers (R330, R335). Reset empty. -/
  sent : List Sent := []
  /-- Next fabric tag by port, and freed tags with the time of their release (R330). Reset empty. -/
  ftag : NMap Nat := []
  ftagFree : List (Nat × Nat × Nat) := []
  /-- DFE taps 1 to 12 per lane, signed bytes (R436, R295). Reset empty: 0 (DESIGN CHOICE, log 14). -/
  taps : NMap (List Byte) := []
  /-- Equalization items of the board image by 8 × lane + rate code: the switch's preset, the partner's, the CTLE start code, the bypass
  flag (R296); absent: the defaults. Reset empty. -/
  eq : NMap (Nat × Nat × Nat × Bool) := []
  /-- Routing table: fabric ID to (port or group neighbour, is group), active version; staged version (R328, R385). -/
  route : NMap (Nat × Bool) := []
  routeVer : Nat := 0
  staged : Option (Nat × NMap (Nat × Bool)) := none
deriving DecidableEq, Repr

/-! ## The Mover (chapter 09) -/

/-- Channel states (MOV_CH_STAT.STATE, R278), in code order. -/
inductive ChSt where
  | disabled | idle | running | haltFault | haltBystander
deriving DecidableEq, Repr

/-- A job: a list of descriptors, the migration of an extent, or the copy of a window being re-homed (R255, R273). -/
inductive JobKind where
  | list (head : Nat)
  | mig (x : Nat)
deriving DecidableEq, Repr

/-- A queued or running job (R255). -/
structure Job where
  id : Nat
  room : Nat
  kind : JobKind
  /-- Slice and slot of a slice job. -/
  slice : Option (Nat × Nat) := none
deriving DecidableEq, Repr

/-- A descriptor as fetched (R259). -/
structure Desc where
  next : Nat
  type : Nat
  last : Bool
  fence : Bool
  irq : Bool
  recl : Bool
  step : Nat
  len : Nat
  src : Nat
  dst : Nat
  pattern : Nat
  user : Nat
  /-- A reserved field is not 0. -/
  rsvd : Bool
deriving DecidableEq, Repr

/-- A Mover channel (R254, R278); its RESUME and ACTION bits are write only. -/
structure MChan where
  /-- MOV_CH_CTL.EN, 1 bit. -/
  en : Bool := false
  /-- Owner: OWNED and ROOM, 7 bits. -/
  room : Option Nat := none
  st : ChSt := .disabled
  job : Option Job := none
  /-- MOV_CH_DESC, 64 bits. -/
  desc : Nat := 0
  cur : Option Desc := none
  /-- Bytes of the current descriptor done. -/
  pos : Nat := 0
  /-- Descriptors completed by the job. -/
  count : Nat := 0
  /-- Internal request awaited, and the lines read so far for the present position. -/
  wait : Option Nat := none
  got : List (Line × Bool) := []
  /-- Writes of the job that have left the engine and are not yet acknowledged: number and address in the job's address
  space (R264). -/
  writes : NMap Nat := []
  /-- Dirty lines that a FLUSH has still to clean (R264); none: not yet listed. -/
  todo : Option (List Nat) := none
  /-- MOV_CH_STAT.DIR, CAUSE and FETCH; MOV_CH_ERR, 64 bits. -/
  dir : Bool := false
  cause : Nat := 0
  fetch : Bool := false
  err : Nat := 0
  /-- MOV_CH_BYTES, 64 bits. -/
  bytes : Nat := 0
  /-- Tries of the present line of a migration copy (R275). -/
  tries : Nat := 0
  /-- Parts checked that have not retired: 0 the source's, 1 the destination's, 2 a descriptor's; the Room and the rule bank under
  which each was checked (R223). -/
  parts : NMap (Nat × Bool) := []
deriving DecidableEq, Repr

/-- A migration of an extent (R273). -/
structure Mig where
  x : Nat
  win : Nat
  dstHouse : Bool
  dstDev : Nat
  dstExt : Nat := 0
  /-- Old backing: house, handle. -/
  oldHouse : Bool
  oldDev : Nat
  copied : Nat := 0
  /-- Step reached: 0 PREPARE, 1 COPY, 2 SWITCH, 3 RELEASE, 4 ABANDON (R259). -/
  step : Nat := 0
  /-- The destination has been taken. -/
  taken : Bool := false
  /-- It serves an EXTENT_MIGRATE command. -/
  cmd : Bool := true
  /-- Re-homing: the new home and the extent index there (R59). -/
  remote : Option (Nat × Nat) := none
deriving DecidableEq, Repr

/-- The Mover: spec/09. -/
structure Mover where
  /-- Channels by number; an absent one has the defaults. Reset: channels 60 to 63 enabled, idle and owned by Room 0. -/
  chans : NMap MChan := [(60, { en := true, room := some 0, st := .idle }), (61, { en := true, room := some 0, st := .idle }),
    (62, { en := true, room := some 0, st := .idle }), (63, { en := true, room := some 0, st := .idle })]
  /-- Queued jobs of all Rooms in order of submission, at most 1,024 for each Room (R255). Reset empty. -/
  queue : List Job := []
  /-- Next job number (the model's own). Reset 0. -/
  nextJob : Nat := 0
  /-- Migrations in progress; their extents are in the write-through filters (R273). Reset empty. -/
  migs : List Mig := []
  /-- MJ_HEAD of each slice's job queue, 64 bits (R272). Reset empty: 0. -/
  heads : NMap Nat := []
  /-- Fabric time at which bystanders resume by themselves (R268). Reset none. -/
  byst : Option Nat := none
deriving DecidableEq, Repr

/-! ## Links of OPF and Stairwell (chapter 12) -/

/-- One entry of a replay buffer: sequence number, virtual channel, payload bytes (R347). -/
structure Unacked where
  seq : Nat
  vc : Nat
  data : List Byte
deriving DecidableEq, Repr

/-- One end of a link: its sender and its receiver (R347 to R358). -/
structure LinkEnd where
  /-- Next SEQ to send, 12 bits. Reset 0. -/
  tx : Nat := 0
  /-- Replay buffer, oldest first. Reset empty. -/
  unacked : List Unacked := []
  /-- Next SEQ expected, 12 bits; ACK is the one before, FFFh before any. Reset 0. -/
  rx : Nat := 0
  /-- Credits in use by VC: receive slots of the other end less the credits held (R352). Reset empty. -/
  spent : NMap Nat := []
  /-- FREED of this receiver, RETURNED and LEAK of this sender, by VC, 16 bits each (R352, R353). Reset empty. -/
  freed : NMap Nat := []
  returned : NMap Nat := []
  leak : NMap Nat := []
  /-- Credit returns not yet sent, by VC. Reset empty. -/
  owe : NMap Nat := []
  /-- ACK not yet sent. Reset 0. -/
  ackDue : Bool := false
  /-- Fabric time at which this end last sent anything (R348). Reset 0. -/
  sentT : Nat := 0
  /-- Replay timer: fabric time at which it was started; consecutive expiries (R350, R351). Reset none, 0. -/
  timer : Option Nat := none
  expiries : Nat := 0
  /-- Fabric time since which a window has been below LEAK_PCT (R354). Reset none. -/
  low : Option Nat := none
  /-- Packets waiting for a credit, replay space or the link, oldest first: virtual channel and payload. Reset empty. -/
  wait : List (Nat × List Byte) := []
  /-- Good TRN sets received in a row (R360). Reset 0. -/
  trn : Nat := 0
  /-- Bytes received of a message that is not yet whole, by VC (R342). Reset empty. -/
  stream : NMap (List Byte) := []
  /-- RTRQ sent in the present retrain; SYNC received. Reset 0. -/
  asked : Bool := false
  sync : Bool := false
deriving DecidableEq, Repr

/-- The links: spec/12. -/
structure Links where
  /-- Link ends: OPF module m by 2 × m + 1 for its high end and 2 × m for its low end; Stairwell link n, this switch's end, by
  100 + n. Reset empty: the defaults. -/
  ends : NMap LinkEnd := []
  /-- Failed wires by 2 × module + direction B, ascending, at most 2 (R357); kept until a cold reset. Reset empty. -/
  wires : NMap (List Nat) := []
  /-- Fabric time at which a retrain or training began: modules 0 to 48, links 64 to 67 (R359, R360). Reset none. -/
  since : NMap Nat := []
  /-- Modules whose retrain has exchanged its failing-wire lists (R355 step 4). Reset empty. -/
  listed : List Nat := []
deriving DecidableEq, Repr

/-! ## The Stairwell fabric (chapter 13) -/

/-- Another switch in the live list (R371). -/
structure Member where
  rank : Nat
  ownMin : Nat
  ownMax : Nat
  held : Bool
  restarting : Bool
  locked : Bool
  hops : Nat
  serial : Nat
  /-- Fabric times of the first and the newest record. -/
  first : Nat
  last : Nat
  /-- Link by which the newest record came first, and the links by which records of it have come. -/
  link : Nat
  links : List Nat := []
  /-- Switches whose LOST for it has come since the newest record. -/
  lost : List Nat := []
  /-- Fabric time since which it has been eligible and locked (R379). -/
  since : Option Nat := none
deriving DecidableEq, Repr

/-- A relay at its origin (R388, R389): targets with their answers. -/
structure Relay where
  n : Nat
  all : Bool
  /-- Sequence number under which the targets execute it; none for a fabric-wide one that the Ridge has not yet flooded. -/
  seq : Option Nat
  /-- Targets without a final answer; the fabric time from which silence counts, none once it has replied PENDING. -/
  open_ : NMap (Option Nat)
  /-- Answers: fabric ID, final status, bytes. -/
  done : List (Nat × Nat × List Byte) := []
  pkt : List Byte
deriving DecidableEq, Repr

/-- A packet that waits for its ACK (R373): serial, type, destination, fabric time of the last sending, its body. -/
structure AckWait where
  serial : Nat
  type : Nat
  dst : Nat
  t : Nat
  body : List Byte
deriving DecidableEq, Repr

/-- A pending instant of fabric state (R378). -/
structure Instant where
  t : Nat
  value : Nat
  /-- Fabric ID of the Ridge that it came from. -/
  ridge : Nat
deriving DecidableEq, Repr

/-- What the Ridge does once the standby Ridge has acknowledged the state (R378). -/
inductive RidgeAct where
  /-- Flood SCHEMA_SWITCH (R391); send ROUTE_STAGE; flood ROUTE_ACT (R385). -/
  | schema | stage | routeAct
  /-- Flood a fabric-wide command of an origin: its serial, the fabric command sequence number, the packet (R388). -/
  | relay (origin serial seq : Nat) (pkt : List Byte)
  /-- Flood HANDOVER with this successor (R379). -/
  | handover (successor : Nat)
deriving DecidableEq, Repr

/-- The Stairwell fabric: spec/13. -/
structure Fabric where
  /-- Fabric ID and rank of the board image; none: the switch runs alone (R368). Reset none, FFFFh. -/
  fid : Option Nat := none
  rank : Nat := 0xFFFF
  dual : Bool := false
  /-- N_CFG, 1 to 256. Reset 1. -/
  nCfg : Nat := 1
  /-- Hold cause: 0 none, 1 schema, 2 duplicate, 3 capacity (STW_ROLE). Reset 0. -/
  cause : Nat := 0
  /-- RESTARTING (R394), and the fabric time at which it was set. Reset none. -/
  restarting : Option Nat := none
  /-- Live list of other switches by fabric ID. Reset empty. -/
  members : NMap Member := []
  /-- Neighbour by link: fabric ID, its hops to the Ridge, fabric time of the last HELLO (R370). Reset empty. -/
  neigh : NMap (Nat × Nat × Nat) := []
  /-- Serial of the next MEMBER record, of the next NOTICE, and of the next other packet, 16 bits each. Reset 0. -/
  memSerial : Nat := 0
  ntcSerial : Nat := 0
  serial : Nat := 0
  /-- Fields of the MEMBER record last sent (R371). Reset none. -/
  lastRec : Option (List Nat) := none
  /-- Packets met: serial class (0 MEMBER, 1 NOTICE, 2 other broadcasts, 3 acted on and acknowledged), SRC, SERIAL (R373,
  R374). Reset empty. -/
  seen : List (Nat × Nat × Nat) := []
  /-- Ridge and standby Ridge, and the epoch, 32 bits (R375). Reset none, 0. -/
  ridge : Option Nat := none
  standby : Option Nat := none
  epoch : Nat := 0
  /-- The segment of this switch has had no Ridge for want of a quorum, or it has met no fabric (R376, R384). Reset 1. -/
  apart : Bool := true
  /-- The standby Ridge has acknowledged the whole state (R378). Reset 0. -/
  stdReady : Bool := false
  /-- What the Ridge has still to do, with the serial of the STATE whose ACK it awaits (R378). Reset empty. -/
  todo : List (Nat × RidgeAct) := []
  /-- Fabric time since which the live list is unchanged (R377). Reset 0. -/
  quiet : Nat := 0
  /-- Pending handover: instant, successor (R379). Reset none. -/
  handover : Option Instant := none
  /-- Fabric schema in use, ceiling, its pending switch-over, the one before and when it ended (R390 to R392). Reset 0, FFh. -/
  schema : Nat := 0
  ceiling : Nat := 0xFF
  schemaPend : Option Instant := none
  schemaOld : Option (Nat × Nat) := none
  /-- Range of the running firmware, OWN_MIN and OWN_MAX (R397). Reset 0. -/
  ownMin : Nat := 0
  ownMax : Nat := 0
  /-- Master routing table: fabric ID to switch and port (R385). Reset empty. -/
  master : NMap (Nat × Nat) := []
  /-- Fabric command sequence (R388). Reset 0. -/
  cmdSeq : Nat := 0
  /-- Version that the Ridge distributes, and the switches whose ACK is awaited (R385). Reset none. -/
  staging : Option (Nat × List Nat) := none
  /-- Pending activation of the staged table: instant, version (R385). Reset none. -/
  routeT : Option Instant := none
  /-- At the old home: by the serial of the flooded HOME_MOVE, the window and the switches that have still to acknowledge it;
  acknowledgements that came before it: serial, switch (R386). Reset empty. -/
  moves : NMap (Nat × List Nat) := []
  early : List (Nat × Nat) := []
  /-- Packets awaiting ACK. Reset empty. -/
  acks : List AckWait := []
  /-- Reassemblies: source, serial, type, fabric time of the first segment, segments come (R373). Reset empty. -/
  reasm : List (Nat × Nat × Nat × Nat × List Nat) := []
  /-- Relays of this origin (R388), the number of the next, and the next sequence number by target. Reset empty, 0. -/
  relays : List Relay := []
  relayN : Nat := 0
  relayNext : NMap Nat := []
  /-- Sequence number expected next by origin, 4,096 for fabric-wide commands, and the packets that came early: that key,
  sequence number, origin, fabric time, bytes (R388). Reset empty. -/
  expect : NMap Nat := []
  heldRelay : List (Nat × Nat × Nat × Nat × List Byte) := []
  /-- Notices by originator: serial expected next, and those held: origin, serial, fabric time, kind, body (R387). Reset
  empty. -/
  ntcNext : NMap Nat := []
  ntcHeld : List (Nat × Nat × Nat × Nat × List Byte) := []
  /-- Time base (R380 to R384): it has ever locked; LOCKED; marks in a row within 4 ns; last mark; holdover since; link
  delay by link in half ns; last offset in ns; it slews. Reset as the defaults. -/
  everLocked : Bool := false
  locked : Bool := false
  marks : Nat := 0
  lastMark : Nat := 0
  holdover : Option Nat := none
  delay : NMap Int := []
  offset : Int := 0
  slew : Bool := false
  /-- It has joined the data path (R384, R391). Reset 0. -/
  joined : Bool := false
deriving DecidableEq, Repr

/-! ## The Doorway (chapter 14) -/

/-- Return record of a channel (R415). -/
structure RetRec where
  serial : Option Nat
  port : Nat
  vcs : Option Nat
  bridge : Nat
deriving DecidableEq, Repr

/-- A Doorway channel (R401); voltages in 10 mV, currents in 10 mA. -/
structure DwCh where
  /-- Port of the board image (R398). -/
  port : Option Nat := none
  /-- Valid parameters by number j (R438), in their step units; an absent one has its default or is invalid. -/
  par : NMap Int := []
  /-- Parameters of DOORWAY_SET that wait for the next ramp (R400). -/
  next : NMap Int := []
  /-- DWY_CH_CTL.EN, 1 bit. -/
  en : Bool := false
  /-- DWY_CH_STAT.STATE, 4 bits (R401). -/
  st : Nat := 0
  /-- PRSNT_N level, and fabric time since which it has it. -/
  prsHigh : Bool := true
  prsT : Nat := 0
  /-- PRESENT, and fabric time at which the count of T_INS runs from (R402, R413). -/
  present : Bool := false
  cntT : Option Nat := none
  /-- PERST_REL. -/
  perst : Bool := false
  /-- ILIM_ACT; the fault timer's count in ns before the present stretch of limiting, and the fabric time at which the limit
  last became active or ended (R405). -/
  ilim : Bool := false
  ftmr : Nat := 0
  ilimT : Nat := 0
  /-- The effective enable has been 0 since the channel latched (R412). -/
  low : Bool := false
  /-- Discharge-and-off timer: fabric time of its end (R413). -/
  off : Option Nat := none
  /-- Ramp: fabric time of its start, VIN then (R406). -/
  rampT : Nat := 0
  rampV : Nat := 0
  /-- Fabric time since which VGS has been at VGS_ON (R406), and of power-good (R407). -/
  vgsT : Option Nat := none
  pgT : Nat := 0
  /-- Microseconds for which OV, UV and PG_LOST have held (R410). -/
  ov : Nat := 0
  uv : Nat := 0
  pgl : Nat := 0
  /-- CAUSE, 4 bits. -/
  cause : Nat := 0
  /-- Last sample: VIN, VSRC, I; P in 0.1 W. -/
  vin : Nat := 0
  vsrc : Nat := 0
  i : Nat := 0
  p : Nat := 0
  /-- Rises T1, T2 and T3 in kelvin (R408). -/
  t1 : Rat := 0
  t2 : Rat := 0
  t3 : Rat := 0
  /-- TJ_PEAK in 0.1 °C. -/
  peak : Int := 0
  /-- Fabric time of the last trip, 64 bits. -/
  tripT : Nat := 0
  ret : Option RetRec := none
  /-- A removal of the channel has happened since its power-up: the next link-up binds again (R416). -/
  back : Bool := false
  /-- Events missed while module 48 is down: kind (R418). -/
  missed : List Nat := []
deriving DecidableEq, Repr

/-! ## Debug, signals, power and boot (chapters 17 to 20) -/

/-- Debug block: spec/17. -/
structure Debug where
  /-- Lifecycle state in force: 0 MANUFACTURE, 1 FIELD, 2 FIELD_LOCKED; none: as the fuses say (R466). Reset none. -/
  lc : Option Nat := none
  /-- DBG_LC.FUSE_ERR (R467). Reset 0. -/
  fuseErr : Bool := false
  /-- Outstanding challenge: through JTAG, its value, its fabric time (R468). Reset none. -/
  chal : Option (Bool × B16 × Nat) := none
  /-- DBG_LC.ADV_DONE (R468). Reset 0. -/
  advDone : Bool := false
  /-- JTAG: the confirmation failed (R468); LC_ADVANCE is loaded. Reset 0. -/
  jFail : Bool := false
  jLoaded : Bool := false
  /-- Monitor lines received and not yet executed, in bytes each (R473). Reset empty. -/
  rx : List (List Byte) := []
  /-- Rate that takes effect at BAUD_CHANGE (R470). Reset none. -/
  baud : Option Nat := none
  /-- Completion events of monitor commands not yet printed: their words (R473). Reset empty. -/
  evs : List (List B64) := []
deriving DecidableEq, Repr

/-- Steps of a reset that are under way (R514, R524). -/
inductive BootSt where
  /-- RESET_N is low. -/
  | reset
  /-- Start-up after a cold reset, before HEARTH_UP. -/
  | cold
  /-- Neither slot is valid (R519). -/
  | recovery
  | run
  /-- Warm reset, steps 1 to 3, and 4 onward. -/
  | warmDrain | warmBoot
  /-- The Hearth restarts (R520). -/
  | restart
deriving DecidableEq, Repr

/-- What is known of one firmware slot (R517). -/
structure FwSlot where
  valid : Bool := false
  verified : Bool := false
  version : Nat := 0
  ownMin : Nat := 0
  ownMax : Nat := 0
deriving DecidableEq, Repr

/-- Power, clocks, boot and pins: spec/18, spec/19, spec/20. -/
structure Power where
  st : BootSt := .reset
  /-- Fabric time at which the present boot, restart or warm reset began. Reset 0. -/
  t0 : Nat := 0
  /-- Indigo and Madder slots (R516). Reset: unknown. -/
  slot0 : FwSlot := {}
  slot1 : FwSlot := {}
  /-- CKP_BOOT.SLOT and PREFERRED. Reset 0. -/
  slot : Bool := false
  preferred : Bool := false
  /-- Slot before a restart of FW_ACTIVATE (R520). Reset none. -/
  previous : Option Bool := none
  /-- RESET_N is high, and the switch waits for a reference clock (R509). Reset 0. -/
  released : Bool := false
  /-- EHREC_WRITE has written the copy that is not active since the last cold reset (R523). Reset 0. -/
  ehNew : Bool := false
  /-- Ehrec copy in force, and the version of its image (R521). Reset 0. -/
  copy : Bool := false
  ehrecVer : Nat := 0
  /-- Bytes of the Ehrec image in force (R521). Reset empty. -/
  ehrec : List Byte := []
  /-- A warm reset was started by WARM_N (2) or CKP_RESET_CTL (3) (R529). Reset 0. -/
  warmCause : Nat := 0
  /-- The warm reset keeps HBM (R515). Reset 0. -/
  keep : Bool := false
  /-- Always-on flags of R83 and R159. Reset 0. -/
  flag83 : Bool := false
  flag159 : Bool := false
  /-- CKP_CLK_CTL.PREFER, always-on (R509). Reset 0. -/
  prefer : Bool := false
  /-- VDD_AON has been lost since the last reset release (R504). Reset 1. -/
  aonLost : Bool := true
  /-- Powered service hours counted in this run (R529). Reset 0. -/
  hours : Nat := 0
  /-- Lifecycle fuse bits blown in this run, and the rollback floor set in it (R466, R517). Reset 0. -/
  fuses : Nat := 0
  floor : Nat := 0
  /-- AVS: BUS_ERR holds the request at 800 mV (R506). Reset 0. -/
  avsFail : Bool := false
  /-- SMBus address, 7 bits (R496), and the I3C dynamic address. Reset 0, none. -/
  smb : Nat := 0
  i3c : Option Nat := none
  /-- PERST_UP_N levels, 32 bits (R302). Reset 0 (log 18). -/
  perstUp : Nat := 0
  /-- GPIO levels as filtered, 8 bits (R412). Reset 0. -/
  gpio : Nat := 0
  /-- Functions of GPIO0 to GPIO7, 2 bits each (R497). Reset 0. -/
  gpioFn : Nat := 0
  /-- WARM_N requests that wait for the Hearth (R528). Reset none. -/
  warmWait : Option Nat := none
  /-- Fabric time until which POOL ports may come up after a warm reset (R564). Reset none. -/
  poolWait : Option Nat := none
deriving DecidableEq, Repr

/-- Event log of the switch for the Fabric Manager API (R325, R327): handle and record bytes. -/
structure MailLog where
  /-- Records, oldest first. Reset empty. -/
  recs : List (Nat × List Byte) := []
  /-- Next handle, 16 bits. Reset 1. -/
  next : Nat := 1
deriving DecidableEq, Repr

/-! ## The management endpoint (chapter 21) -/

/-- The management endpoint's configuration state (R547, R549). -/
structure Endpoint where
  /-- Memory Space Enable and Bus Master Enable of the Command register. Reset 0 (PRESUMED, log 9: PCI Express). -/
  mse : Bool := false
  bme : Bool := false
  /-- The device is in D3hot (R547). Reset 0. -/
  d3 : Bool := false
  /-- MSI-X pending bits: vectors waiting (R549). Reset none. -/
  pba : List Nat := []
deriving DecidableEq, Repr

/-! ## Outputs -/

/-- Status lines of the Camey monitor (R471). -/
inductive MonSt where
  | ok | err (s : Status) | checksum | syntax_ | overflow
  /-- ERR DENIED with a reason of R478 and the first refused address. -/
  | denied (reason addr : Nat)
deriving DecidableEq, Repr

/-- Return codes of the mailboxes (R320, R325). -/
inductive MbRet where
  | success | invalidInput | unsupported | busy
deriving DecidableEq, Repr

/-- Output pins (R495). -/
inductive PinOut where
  | faultN | flushDone | perstDn (n : Nat) | gate (n : Nat) | gpio (n : Nat) | hotReset (port : Nat)
deriving DecidableEq, Repr

/-- What the machine sends out, in order: the model's own record of its observable outputs. -/
inductive Out where
  /-- A reply on a transport (R431). -/
  | reply (src : Source) (r : Reply)
  /-- A message leaves a port. -/
  | send (port : Nat) (b : Body)
  /-- MSI-X vector of the management endpoint. -/
  | msix (vector : Nat)
  /-- MSI-X entry of a window's logical device (R210). -/
  | winMsix (win host entry : Nat)
  /-- Credits returned to a partner: port, channel code of R178 or of R561, count. -/
  | credit (port chan n : Nat)
  /-- Link-level retry asked of the partner of a port (R314). -/
  | retry (port : Nat)
  /-- The Mover writes zeros to every line of an extent of a pool device (R39). -/
  | zeroed (handle ext : Nat)
  /-- A value read from a register, BAR2 or a debug space, as words, on a path. -/
  | value (path : Path) (ws : List Word)
  /-- An access answered with Completer Abort (R12), or Unsupported Request (R547, R549). -/
  | abort (path : Path)
  | unsupported (path : Path)
  /-- A Camey monitor answer (R471): result words, and the status line. -/
  | mon (ws : List Word) (st : MonSt)
  /-- The words of an event that the monitor prints (R473). -/
  | monEv (ws : List B64)
  /-- The monitor's echo of received characters (R483). -/
  | monEcho (line : List Byte)
  /-- RESTART (R473). -/
  | monRestart
  /-- A value captured into a JTAG data register. -/
  | jtag (v : Nat)
  /-- HANDOFF_READY to the new home: its fabric ID, and the window there (R60 H6). -/
  | handoff (sw window : Nat)
  /-- Execution status of a margining request of a partner: lane, NAK (R300). -/
  | marginStatus (lane : Nat) (nak : Bool)
  /-- A mailbox reply: to a host through a window (R320), or to a fabric manager (R325). -/
  | mbox (at_ : Option (Nat × Nat)) (ret : MbRet) (data : List Byte)
  /-- A sequenced flit or packet of a link end (R341, R345): end, SEQ, VC, ACK, CR_VC, CR_CNT, payload. -/
  | frame (k seq vc ack crVc crCnt : Nat) (data : List Byte)
  /-- A message of a virtual channel that an OPF end has received whole (R342): end, VC, bytes. -/
  | opfMsg (k vc : Nat) (data : List Byte)
  /-- A NULL flit of an OPF end (R343): end, KIND, ACK, CR_VC, CR_CNT, contents. -/
  | null (k kind ack crVc crCnt : Nat) (data : List Nat)
  /-- A CTL ordered set (R346) of a link end: end, CTYPE, d0 to d5 by their fields. -/
  | ctl (k ctype : Nat) (data : List Nat)
  /-- A time mark (R344): link, fabric time. -/
  | mark (link time : Nat)
  /-- A level driven on a pin: FAULT_N, FLUSH_DONE, PERST_DN_N n, DW_GATE n, GPIO n, hot reset of a port. -/
  | pin (p : PinOut) (level : Bool)
  /-- A request for a core voltage in mV (R505). -/
  | avs (mv : Nat)
deriving DecidableEq, Repr

/-! ## The whole machine -/

/-- The state of the CF9256. -/
structure State where
  /-- Fabric time in ns, as an exact count; reported modulo 2^64 (R10). Reset 0 (DESIGN CHOICE, log 2). -/
  now : Nat := 0
  /-- Registers of BAR0 that no structured field mirrors, 32 bits each, by offset; an absent register holds its reset
  value (R12, R17). Reset empty. -/
  regs : NMap Word := []
  /-- _HI halves latched by _LO reads: path × 2^32 + offset of _HI (R15, R552). Reset empty. -/
  latch : NMap Word := []
  /-- HBM and flash bytes in canonical form (R133, R516). Reset empty. -/
  mem : List Host.Cell := []
  /-- HBM line addresses that hold poisoned data (R119), ascending. Reset empty. -/
  poison : List Nat := []
  cmds : Cmds := {}
  flt : Faults := {}
  pool : Pool := {}
  home : Home := {}
  pan : Pantry := {}
  ep : Endpoint := {}
  ports : Ports := {}
  mov : Mover := {}
  links : Links := {}
  fab : Fabric := {}
  /-- Doorway channels by number (R398); an absent one has the defaults. Reset empty: DISABLED. -/
  dwy : NMap DwCh := []
  dbg : Debug := {}
  pwr : Power := {}
  /-- Event log of the switch (R327). Reset empty. -/
  mail : MailLog := {}
  /-- The model's own count of free values taken (log 3). Reset 0 (DESIGN CHOICE). -/
  fresh : Nat := 0
  /-- The model's own record of outputs, oldest first. Reset empty. -/
  out : List Out := []
  /-- Commands waiting, first in first out. Reset empty. -/
  pending : List Instr := []
deriving DecidableEq, Repr

/-- The machine right after a cold reset (R17, R45, R466, R512). -/
def State.reset : State := {}

end Sys2Proof.Machine
end

