-- ==== Sys2Proof/Machine/Operands.lean ====
section
/-! DEFINITION. Operand forms: byte strings, little-endian fields (R11), bit fields of entries, CRC-32C (R178) and
CRC-8 (R345, R471), and the line hash (R177). -/

namespace Sys2Proof.Machine

/-- `n` little-endian bytes of a number (R11). -/
def leBytes : Nat → Nat → List Byte
  | 0, _ => []
  | n + 1, v => BitVec.ofNat 8 v :: leBytes n (v / 256)

/-- The number that little-endian bytes spell (R11). -/
def leNat : List Byte → Nat
  | [] => 0
  | b :: bs => b.toNat + 256 * leNat bs

/-- The `n`-byte little-endian field at byte offset `off`; bytes beyond the end read 0. -/
def fieldAt (bs : List Byte) (off n : Nat) : Nat := leNat ((bs.drop off).take n)

/-- Bits `lo` to `lo + w - 1` of a number. -/
def bitsOf (v lo w : Nat) : Nat := v / 2 ^ lo % 2 ^ w

/-- One bit of a number. -/
def bitOf (v i : Nat) : Bool := v / 2 ^ i % 2 == 1

/-- A Bool as a bit. -/
def b2n (b : Bool) : Nat := if b then 1 else 0

/-- Fields packed from bit 0 upward: (value, width) pairs. -/
def packBits : List (Nat × Nat) → Nat
  | [] => 0
  | (v, w) :: fs => v % 2 ^ w + 2 ^ w * packBits fs

/-- The low byte of a two's-complement quantity read as a signed number of `w` bits. -/
def signed (w v : Nat) : Int := if v % 2 ^ w < 2 ^ (w - 1) then (v % 2 ^ w : Nat) else (v % 2 ^ w : Nat) - (2 ^ w : Nat)

/-- One reflected CRC step over the bits of a byte, polynomial reflected in `poly`. -/
def crcBits (poly : Nat) : Nat → Nat → Nat
  | 0, c => c
  | k + 1, c => crcBits poly k (if c % 2 == 1 then (c / 2) ^^^ poly else c / 2)

/-- CRC-32C over bytes with its standard parameters (R178): reflected polynomial 82F6_3B78h. -/
def crc32c (bs : List Byte) : Nat :=
  (bs.foldl (fun c b => crcBits 0x82F63B78 8 (c ^^^ b.toNat)) 0xFFFFFFFF) ^^^ 0xFFFFFFFF

/-- One non-reflected CRC-8 step over `k` bits. -/
def crc8Bits (poly : Nat) : Nat → Nat → Nat
  | 0, c => c
  | k + 1, c => crc8Bits poly k (if c / 128 % 2 == 1 then (c * 2 % 256) ^^^ poly else c * 2 % 256)

/-- CRC-8, polynomial 07h, initial value 0, not reflected, over bytes (R344). -/
def crc8 (bs : List Byte) : Nat := bs.foldl (fun c b => crc8Bits 7 8 (c ^^^ b.toNat)) 0

/-- CRC-32C of a value as an 8-byte little-endian string (R139, R178, R179). -/
def crc64 (v : Nat) : Nat := crc32c (leBytes 8 v)

/-- The home unit of a line address PA[47:6] (R177). -/
def lineHu (line : Nat) : Nat :=
  let pa := line * 64
  (List.range 8).foldl (fun f i => f ^^^ bitsOf pa (11 + 5 * i) 5) (bitsOf pa 6 5)

/-- The crossbar plane of a line address (R177). -/
def linePlane (line : Nat) : Bool :=
  let pa := line * 64
  ([12, 19, 26, 33, 40, 47].foldl (fun x i => x != bitOf pa i) false)

/-- Flow hash for flows whose key is no line address (R178): ingress point, destination fabric ID, channel code. -/
def flowHash (ingress dest chan : Nat) : Nat := crc64 (ingress + dest * 65536 + chan * 4294967296)

/-- Byte enables of a whole line. -/
def allBe : B64 := BitVec.allOnes 64

/-- Write data merged into a line under byte enables. -/
def mergeLine (old new : Line) (be : B64) : Line :=
  (List.range 64).foldl (fun a i =>
    if be.getLsbD i then (a &&& ~~~((0xFF : Line) <<< (8 * i))) ||| (new &&& ((0xFF : Line) <<< (8 * i))) else a) old

/-- The 64 bytes of a line. -/
def lineBytes (l : Line) : List Byte := leBytes 64 l.toNat

/-- A line from bytes, byte 0 lowest. -/
def bytesLine (bs : List Byte) : Line := BitVec.ofNat 512 (leNat (bs.take 64))

/-- `n` bytes of a line at byte offset `off`, as a number. -/
def lineGet (l : Line) (off n : Nat) : Nat := l.toNat / 256 ^ off % 256 ^ n

/-- A line with `n` bytes at offset `off` set to a value, and the byte enables of those bytes. -/
def lineSet (off n v : Nat) : Line × B64 :=
  (BitVec.ofNat 512 (v % 256 ^ n * 256 ^ off), BitVec.ofNat 64 ((2 ^ n - 1) * 2 ^ off))

/-! ## Keyed lists -/

/-- The value at a key. -/
def NMap.get? {α : Type} (m : NMap α) (k : Nat) : Option α := (m.find? fun p => p.1 == k).map (·.2)

/-- The list with a key set, keys rising. -/
def NMap.set {α : Type} : NMap α → Nat → α → NMap α
  | [], k, v => [(k, v)]
  | (k', v') :: m, k, v =>
    if k < k' then (k, v) :: (k', v') :: m
    else if k = k' then (k, v) :: m
    else (k', v') :: NMap.set m k v

/-- The list without a key. -/
def NMap.erase {α : Type} (m : NMap α) (k : Nat) : NMap α := m.filter fun p => p.1 != k

/-- The list with the value at a key changed, if there is one. -/
def NMap.adjust {α : Type} (m : NMap α) (k : Nat) (f : α → α) : NMap α :=
  m.map fun p => if p.1 == k then (p.1, f p.2) else p

/-- The least number from `n` that a list of numbers does not hold, within `fuel` steps. -/
def leastFree (used : List Nat) : Nat → Nat → Nat
  | 0, n => n
  | fuel + 1, n => if used.contains n then leastFree used fuel (n + 1) else n

/-- The list with its first element that satisfies `p` changed. -/
def updFirst {α : Type} (p : α → Bool) (f : α → α) : List α → List α
  | [] => []
  | x :: xs => if p x then f x :: xs else x :: updFirst p f xs

end Sys2Proof.Machine
end

