-- ==== Sys2Proof/Machine/RegMap.lean ====
section
/-! DEFINITION. The register map of BAR0 (R550, R555): each register of the field tables as a `RegDef` with its fields,
access codes (R13), ranges and reset values, and one `RegF` for each field, by which the meanings read and write it.
Written from the field tables of spec/03 to spec/21. -/

namespace Sys2Proof.Machine

/-- Access codes of a register field (R13). -/
inductive Acc where
  | rw | ro | w1c | w1s | wo | rc | rw1 | rwb | rws
deriving DecidableEq, Repr

/-- One field of a register: its lowest bit, its width, its access code, its reset value and the range outside which a
write is ignored (R556). -/
structure FieldDef where
  lo : Nat
  w : Nat
  acc : Acc
  rst : Nat
  min : Nat
  max : Nat
deriving DecidableEq, Repr

/-- A register of BAR0: offset of its first instance, the strides and counts of its instances, and its fields. -/
structure RegDef where
  base : Nat
  dims : List (Nat × Nat)
  fields : List FieldDef
deriving DecidableEq, Repr

/-- One field of one register instance: its BAR0 offset, lowest bit and width. -/
structure RegF where
  off : Nat
  lo : Nat
  w : Nat
deriving DecidableEq, Repr

/-- HSL_TRK_COUNT (R103). -/
def HSL_TRK_COUNT (i : Nat) : Nat := 0x400010 + i * 0x4000
def HSL_TRK_COUNT_fTOTAL (i : Nat) : RegF := ⟨HSL_TRK_COUNT i, 0, 12⟩
def HSL_TRK_COUNT_fRWD_RES (i : Nat) : RegF := ⟨HSL_TRK_COUNT i, 12, 8⟩
def HSL_TRK_COUNT_fSNP_RES (i : Nat) : RegF := ⟨HSL_TRK_COUNT i, 20, 7⟩
/-- HSL_SNP_CFG (R103). -/
def HSL_SNP_CFG (i : Nat) : Nat := 0x400020 + i * 0x4000
def HSL_SNP_CFG_fSNP_TMO (i : Nat) : RegF := ⟨HSL_SNP_CFG i, 0, 17⟩
/-- HSL_SNP_STAT (R103). -/
def HSL_SNP_STAT (i : Nat) : Nat := 0x400024 + i * 0x4000
def HSL_SNP_STAT_fBISNP_OUT (i : Nat) : RegF := ⟨HSL_SNP_STAT i, 0, 9⟩
def HSL_SNP_STAT_fTMO_CNT (i : Nat) : RegF := ⟨HSL_SNP_STAT i, 16, 8⟩
/-- HSL_SCQ_STAT (R103). -/
def HSL_SCQ_STAT (i : Nat) : Nat := 0x400030 + i * 0x4000
def HSL_SCQ_STAT_fLEVEL (i : Nat) : RegF := ⟨HSL_SCQ_STAT i, 0, 7⟩
def HSL_SCQ_STAT_fFULL_SEEN (i : Nat) : RegF := ⟨HSL_SCQ_STAT i, 16, 1⟩
def HSL_SCQ_STAT_fREQ_HELD (i : Nat) : RegF := ⟨HSL_SCQ_STAT i, 17, 1⟩
/-- HSL_DIR_ERR (R103). -/
def HSL_DIR_ERR (i : Nat) : Nat := 0x400040 + i * 0x4000
def HSL_DIR_ERR_fCE_SEEN (i : Nat) : RegF := ⟨HSL_DIR_ERR i, 0, 1⟩
def HSL_DIR_ERR_fB_SEEN (i : Nat) : RegF := ⟨HSL_DIR_ERR i, 1, 1⟩
def HSL_DIR_ERR_fSETLOSS (i : Nat) : RegF := ⟨HSL_DIR_ERR i, 2, 1⟩
def HSL_DIR_ERR_fWARM_LOST (i : Nat) : RegF := ⟨HSL_DIR_ERR i, 3, 1⟩
/-- HSL_DIR_STAT (R103). -/
def HSL_DIR_STAT (i : Nat) : Nat := 0x400050 + i * 0x4000
def HSL_DIR_STAT_fCE_CNT (i : Nat) : RegF := ⟨HSL_DIR_STAT i, 0, 16⟩
def HSL_DIR_STAT_fB_CNT (i : Nat) : RegF := ⟨HSL_DIR_STAT i, 16, 8⟩
def HSL_DIR_STAT_fSETLOSS_CNT (i : Nat) : RegF := ⟨HSL_DIR_STAT i, 24, 4⟩
/-- HSL_NOCACHE_CNT_LO (R103). -/
def HSL_NOCACHE_CNT_LO (i : Nat) : Nat := 0x400058 + i * 0x4000
def HSL_NOCACHE_CNT_LO_fCOUNT (i : Nat) : RegF := ⟨HSL_NOCACHE_CNT_LO i, 0, 32⟩
/-- HSL_NOCACHE_CNT_HI (R103). -/
def HSL_NOCACHE_CNT_HI (i : Nat) : Nat := 0x40005c + i * 0x4000
def HSL_NOCACHE_CNT_HI_fCOUNT (i : Nat) : RegF := ⟨HSL_NOCACHE_CNT_HI i, 0, 32⟩
/-- HSL_SCRUB_CFG (R103). -/
def HSL_SCRUB_CFG (i : Nat) : Nat := 0x400060 + i * 0x4000
def HSL_SCRUB_CFG_fEN (i : Nat) : RegF := ⟨HSL_SCRUB_CFG i, 0, 1⟩
def HSL_SCRUB_CFG_fPASS_MIN (i : Nat) : RegF := ⟨HSL_SCRUB_CFG i, 8, 11⟩
/-- HSL_EVICT_CNT_LO (R103). -/
def HSL_EVICT_CNT_LO (i : Nat) : Nat := 0x400080 + i * 0x4000
def HSL_EVICT_CNT_LO_fCOUNT (i : Nat) : RegF := ⟨HSL_EVICT_CNT_LO i, 0, 32⟩
/-- HSL_EVICT_CNT_HI (R103). -/
def HSL_EVICT_CNT_HI (i : Nat) : Nat := 0x400084 + i * 0x4000
def HSL_EVICT_CNT_HI_fCOUNT (i : Nat) : RegF := ⟨HSL_EVICT_CNT_HI i, 0, 32⟩
/-- HSL_PV_STAT (R132). -/
def HSL_PV_STAT (i : Nat) : Nat := 0x400070 + i * 0x4000
def HSL_PV_STAT_fPV_CNT (i : Nat) : RegF := ⟨HSL_PV_STAT i, 0, 16⟩
def HSL_PV_STAT_fPV_SEEN (i : Nat) : RegF := ⟨HSL_PV_STAT i, 16, 1⟩
/-- HSL_PV_LAST (R132). -/
def HSL_PV_LAST (i : Nat) : Nat := 0x400074 + i * 0x4000
def HSL_PV_LAST_fSRC_ID (i : Nat) : RegF := ⟨HSL_PV_LAST i, 0, 12⟩
def HSL_PV_LAST_fKIND (i : Nat) : RegF := ⟨HSL_PV_LAST i, 12, 8⟩
def HSL_PV_LAST_fSTATE (i : Nat) : RegF := ⟨HSL_PV_LAST i, 20, 4⟩
/-- HSL_PV_ADDR_LO (R132). -/
def HSL_PV_ADDR_LO (i : Nat) : Nat := 0x400078 + i * 0x4000
def HSL_PV_ADDR_LO_fLINE_LO (i : Nat) : RegF := ⟨HSL_PV_ADDR_LO i, 0, 32⟩
/-- HSL_PV_ADDR_HI (R132). -/
def HSL_PV_ADDR_HI (i : Nat) : Nat := 0x40007c + i * 0x4000
def HSL_PV_ADDR_HI_fLINE_HI (i : Nat) : RegF := ⟨HSL_PV_ADDR_HI i, 0, 10⟩
/-- HSL_CFL_STAT (R132). -/
def HSL_CFL_STAT (i : Nat) : Nat := 0x400090 + i * 0x4000
def HSL_CFL_STAT_fLEVEL (i : Nat) : RegF := ⟨HSL_CFL_STAT i, 0, 9⟩
def HSL_CFL_STAT_fDEFER_CNT (i : Nat) : RegF := ⟨HSL_CFL_STAT i, 16, 8⟩
/-- HSL_ATOM_CNT_LO (R132). -/
def HSL_ATOM_CNT_LO (i : Nat) : Nat := 0x4000a0 + i * 0x4000
def HSL_ATOM_CNT_LO_fCOUNT (i : Nat) : RegF := ⟨HSL_ATOM_CNT_LO i, 0, 32⟩
/-- HSL_ATOM_CNT_HI (R132). -/
def HSL_ATOM_CNT_HI (i : Nat) : Nat := 0x4000a4 + i * 0x4000
def HSL_ATOM_CNT_HI_fCOUNT (i : Nat) : RegF := ⟨HSL_ATOM_CNT_HI i, 0, 32⟩
/-- PAN_STAT (R161). -/
def PAN_STAT : Nat := 0xc0000
def PAN_STAT_fPFW : RegF := ⟨PAN_STAT, 0, 1⟩
def PAN_STAT_fFLUSHING : RegF := ⟨PAN_STAT, 1, 1⟩
def PAN_STAT_fFLUSH_DONE : RegF := ⟨PAN_STAT, 2, 1⟩
def PAN_STAT_fSHORT : RegF := ⟨PAN_STAT, 3, 1⟩
def PAN_STAT_fSENSE_FAULT : RegF := ⟨PAN_STAT, 4, 1⟩
def PAN_STAT_fNO_PARAM : RegF := ⟨PAN_STAT, 5, 1⟩
def PAN_STAT_fWARM_LOST : RegF := ⟨PAN_STAT, 6, 1⟩
/-- PAN_BUDGET (R161). -/
def PAN_BUDGET : Nat := 0xc0010
def PAN_BUDGET_fBUDGET : RegF := ⟨PAN_BUDGET, 0, 24⟩
/-- PAN_DIRTY (R161). -/
def PAN_DIRTY : Nat := 0xc0014
def PAN_DIRTY_fDIRTY : RegF := ⟨PAN_DIRTY, 0, 24⟩
/-- PAN_HU_V (R161). -/
def PAN_HU_V : Nat := 0xc0020
def PAN_HU_V_fV_LAST : RegF := ⟨PAN_HU_V, 0, 16⟩
def PAN_HU_V_fV_MIN : RegF := ⟨PAN_HU_V, 16, 16⟩
/-- PAN_WIN_SEL (R161). -/
def PAN_WIN_SEL : Nat := 0xc0030
def PAN_WIN_SEL_fWINDOW : RegF := ⟨PAN_WIN_SEL, 0, 12⟩
/-- PAN_WIN_STAT (R161). -/
def PAN_WIN_STAT : Nat := 0xc0034
def PAN_WIN_STAT_fMODE : RegF := ⟨PAN_WIN_STAT, 0, 2⟩
def PAN_WIN_STAT_fRUN : RegF := ⟨PAN_WIN_STAT, 2, 2⟩
def PAN_WIN_STAT_fGRANT : RegF := ⟨PAN_WIN_STAT, 4, 1⟩
def PAN_WIN_STAT_fDIRTY : RegF := ⟨PAN_WIN_STAT, 8, 24⟩
/-- VST_AGE_CFG (R194). -/
def VST_AGE_CFG : Nat := 0xe0000
def VST_AGE_CFG_fLIMIT : RegF := ⟨VST_AGE_CFG, 0, 14⟩
/-- VST_SHARE_CFG (R194). -/
def VST_SHARE_CFG : Nat := 0xe0004
def VST_SHARE_CFG_fCAP_PCT : RegF := ⟨VST_SHARE_CFG, 0, 7⟩
/-- VST_LD_FREE (R194). -/
def VST_LD_FREE (i : Nat) : Nat := 0xe1000 + i * 0x1000
def VST_LD_FREE_fFREE (i : Nat) : RegF := ⟨VST_LD_FREE i, 0, 19⟩
/-- VST_LD_RES (R194). -/
def VST_LD_RES (i : Nat) : Nat := 0xe1004 + i * 0x1000
def VST_LD_RES_fRES (i : Nat) : RegF := ⟨VST_LD_RES i, 0, 17⟩
/-- VST_LD_SHARED (R194). -/
def VST_LD_SHARED (i : Nat) : Nat := 0xe1008 + i * 0x1000
def VST_LD_SHARED_fSIZE (i : Nat) : RegF := ⟨VST_LD_SHARED i, 0, 19⟩
/-- VST_LD_SHUSED (R194). -/
def VST_LD_SHUSED (i : Nat) : Nat := 0xe100c + i * 0x1000
def VST_LD_SHUSED_fUSED (i : Nat) : RegF := ⟨VST_LD_SHUSED i, 0, 19⟩
/-- VST_ROOM_SEL (R194). -/
def VST_ROOM_SEL (i : Nat) : Nat := 0xe1010 + i * 0x1000
def VST_ROOM_SEL_fROOM (i : Nat) : RegF := ⟨VST_ROOM_SEL i, 0, 6⟩
/-- VST_ROOM_USE (R194). -/
def VST_ROOM_USE (i : Nat) : Nat := 0xe1014 + i * 0x1000
def VST_ROOM_USE_fUSED (i : Nat) : RegF := ⟨VST_ROOM_USE i, 0, 19⟩
def VST_ROOM_USE_fAT_LIMIT (i : Nat) : RegF := ⟨VST_ROOM_USE i, 31, 1⟩
/-- VST_PORT_WAIT (R194). -/
def VST_PORT_WAIT (i : Nat) : Nat := 0xe8000 + i * 0x10
def VST_PORT_WAIT_fWAIT (i : Nat) : RegF := ⟨VST_PORT_WAIT i, 0, 19⟩
/-- VST_PORT_STAT (R194). -/
def VST_PORT_STAT (i : Nat) : Nat := 0xe8004 + i * 0x10
def VST_PORT_STAT_fREQ_HELD (i : Nat) : RegF := ⟨VST_PORT_STAT i, 0, 1⟩
def VST_PORT_STAT_fHELD_SEEN (i : Nat) : RegF := ⟨VST_PORT_STAT i, 1, 1⟩
def VST_PORT_STAT_fPARTIAL_CNT (i : Nat) : RegF := ⟨VST_PORT_STAT i, 8, 8⟩
def VST_PORT_STAT_fAGE_CNT (i : Nat) : RegF := ⟨VST_PORT_STAT i, 16, 16⟩
/-- XBR_PRIO_p (R195). -/
def XBR_PRIO_p (i : Nat) : Nat := 0xf0000 + i * 4
def XBR_PRIO_p_fLEVEL (i : Nat) : RegF := ⟨XBR_PRIO_p i, 0, 3⟩
/-- XBR_ROOM_PRIO_r (R195). -/
def XBR_ROOM_PRIO_r (i : Nat) : Nat := 0xf0100 + i * 4
def XBR_ROOM_PRIO_r_fLEVEL (i : Nat) : RegF := ⟨XBR_ROOM_PRIO_r i, 0, 3⟩
/-- XBR_HBM_PRIO (R195). -/
def XBR_HBM_PRIO : Nat := 0xf0200
def XBR_HBM_PRIO_fHU_LVL : RegF := ⟨XBR_HBM_PRIO, 0, 3⟩
def XBR_HBM_PRIO_fMOV_LVL : RegF := ⟨XBR_HBM_PRIO, 4, 3⟩
def XBR_HBM_PRIO_fHRT_LVL : RegF := ⟨XBR_HBM_PRIO, 8, 3⟩
/-- XBR_ARB_CTL (R195). -/
def XBR_ARB_CTL : Nat := 0xf0210
def XBR_ARB_CTL_fCNT_EN : RegF := ⟨XBR_ARB_CTL, 0, 1⟩
def XBR_ARB_CTL_fCLR : RegF := ⟨XBR_ARB_CTL, 1, 1⟩
/-- XBR_ARB_SEL (R195). -/
def XBR_ARB_SEL : Nat := 0xf0214
def XBR_ARB_SEL_fTYPE : RegF := ⟨XBR_ARB_SEL, 0, 2⟩
def XBR_ARB_SEL_fINST : RegF := ⟨XBR_ARB_SEL, 8, 8⟩
def XBR_ARB_SEL_fREQ : RegF := ⟨XBR_ARB_SEL, 16, 7⟩
/-- XBR_ARB_GRANT_LO (R195). -/
def XBR_ARB_GRANT_LO : Nat := 0xf0220
def XBR_ARB_GRANT_LO_fCOUNT : RegF := ⟨XBR_ARB_GRANT_LO, 0, 32⟩
/-- XBR_ARB_GRANT_HI (R195). -/
def XBR_ARB_GRANT_HI : Nat := 0xf0224
def XBR_ARB_GRANT_HI_fCOUNT : RegF := ⟨XBR_ARB_GRANT_HI, 0, 32⟩
/-- XBR_ARB_WAIT_LO (R195). -/
def XBR_ARB_WAIT_LO : Nat := 0xf0228
def XBR_ARB_WAIT_LO_fCOUNT : RegF := ⟨XBR_ARB_WAIT_LO, 0, 32⟩
/-- XBR_ARB_WAIT_HI (R195). -/
def XBR_ARB_WAIT_HI : Nat := 0xf022c
def XBR_ARB_WAIT_HI_fCOUNT : RegF := ⟨XBR_ARB_WAIT_HI, 0, 32⟩
/-- XBR_ARB_MAXWAIT (R195). -/
def XBR_ARB_MAXWAIT : Nat := 0xf0230
def XBR_ARB_MAXWAIT_fMAX : RegF := ⟨XBR_ARB_MAXWAIT, 0, 32⟩
/-- XBR_LOCK_STAT (R195). -/
def XBR_LOCK_STAT : Nat := 0xf0240
def XBR_LOCK_STAT_fOVR_CNT : RegF := ⟨XBR_LOCK_STAT, 0, 16⟩
def XBR_LOCK_STAT_fOVR_SEEN : RegF := ⟨XBR_LOCK_STAT, 16, 1⟩
/-- XBR_GRP_CFG (R195). -/
def XBR_GRP_CFG : Nat := 0xf0250
def XBR_GRP_CFG_fDRAIN : RegF := ⟨XBR_GRP_CFG, 0, 15⟩
/-- RMC_STATE (R228). -/
def RMC_STATE (i : Nat) : Nat := 0xa0000 + i * 0x400
def RMC_STATE_fSTATE (i : Nat) : RegF := ⟨RMC_STATE i, 0, 2⟩
def RMC_STATE_fACT_BANK (i : Nat) : RegF := ⟨RMC_STATE i, 2, 1⟩
def RMC_STATE_fCOMMIT_PEND (i : Nat) : RegF := ⟨RMC_STATE i, 3, 1⟩
def RMC_STATE_fFABRIC_ROOM (i : Nat) : RegF := ⟨RMC_STATE i, 8, 8⟩
/-- RMC_TRK (R228). -/
def RMC_TRK (i : Nat) : Nat := 0xa0004 + i * 0x400
def RMC_TRK_fALLOT (i : Nat) : RegF := ⟨RMC_TRK i, 0, 16⟩
/-- RMC_DIR (R228). -/
def RMC_DIR (i : Nat) : Nat := 0xa0008 + i * 0x400
def RMC_DIR_fSHARE (i : Nat) : RegF := ⟨RMC_DIR i, 0, 24⟩
/-- RMC_PAN (R228). -/
def RMC_PAN (i : Nat) : Nat := 0xa000c + i * 0x400
def RMC_PAN_fSHARE (i : Nat) : RegF := ⟨RMC_PAN i, 0, 26⟩
/-- RMC_VST (R228). -/
def RMC_VST (i : Nat) : Nat := 0xa0010 + i * 0x400
def RMC_VST_fSHARE (i : Nat) : RegF := ⟨RMC_VST i, 0, 19⟩
/-- RMC_COUNTS (R228). -/
def RMC_COUNTS (i : Nat) : Nat := 0xa0014 + i * 0x400
def RMC_COUNTS_fMOVER (i : Nat) : RegF := ⟨RMC_COUNTS i, 0, 7⟩
def RMC_COUNTS_fSLICES (i : Nat) : RegF := ⟨RMC_COUNTS i, 8, 11⟩
def RMC_COUNTS_fRULES (i : Nat) : RegF := ⟨RMC_COUNTS i, 19, 9⟩
/-- RMC_HOSTS (R228). -/
def RMC_HOSTS (i : Nat) : Nat := 0xa0018 + i * 0x400
def RMC_HOSTS_fHMAX (i : Nat) : RegF := ⟨RMC_HOSTS i, 0, 13⟩
def RMC_HOSTS_fNHOST (i : Nat) : RegF := ⟨RMC_HOSTS i, 16, 13⟩
/-- RMC_OLD_INFL (R228). -/
def RMC_OLD_INFL (i : Nat) : Nat := 0xa0020 + i * 0x400
def RMC_OLD_INFL_fCOUNT (i : Nat) : RegF := ⟨RMC_OLD_INFL i, 0, 24⟩
/-- RMC_DENY (R228). -/
def RMC_DENY (i : Nat) : Nat := 0xa0024 + i * 0x400
def RMC_DENY_fDENY_CNT (i : Nat) : RegF := ⟨RMC_DENY i, 0, 16⟩
def RMC_DENY_fPASID_CNT (i : Nat) : RegF := ⟨RMC_DENY i, 16, 8⟩
def RMC_DENY_fDENY_SEEN (i : Nat) : RegF := ⟨RMC_DENY i, 24, 1⟩
/-- RMC_DENY_ID (R228). -/
def RMC_DENY_ID (i : Nat) : Nat := 0xa0028 + i * 0x400
def RMC_DENY_ID_fSRC_ID (i : Nat) : RegF := ⟨RMC_DENY_ID i, 0, 12⟩
def RMC_DENY_ID_fKIND (i : Nat) : RegF := ⟨RMC_DENY_ID i, 12, 3⟩
def RMC_DENY_ID_fENGINE (i : Nat) : RegF := ⟨RMC_DENY_ID i, 15, 1⟩
def RMC_DENY_ID_fRULE (i : Nat) : RegF := ⟨RMC_DENY_ID i, 16, 8⟩
def RMC_DENY_ID_fNO_MATCH (i : Nat) : RegF := ⟨RMC_DENY_ID i, 24, 1⟩
def RMC_DENY_ID_fDEBUG (i : Nat) : RegF := ⟨RMC_DENY_ID i, 25, 1⟩
/-- RMC_DENY_ADDR_LO (R228). -/
def RMC_DENY_ADDR_LO (i : Nat) : Nat := 0xa002c + i * 0x400
def RMC_DENY_ADDR_LO_fADDR_LO (i : Nat) : RegF := ⟨RMC_DENY_ADDR_LO i, 0, 32⟩
/-- RMC_DENY_ADDR_HI (R228). -/
def RMC_DENY_ADDR_HI (i : Nat) : Nat := 0xa0030 + i * 0x400
def RMC_DENY_ADDR_HI_fADDR_HI (i : Nat) : RegF := ⟨RMC_DENY_ADDR_HI i, 0, 16⟩
/-- QOS_QMAP (R253). -/
def QOS_QMAP (i : Nat) : Nat := 0x80000 + i * 0x400
def QOS_QMAP_fSNP_Q (i : Nat) : RegF := ⟨QOS_QMAP i, 0, 3⟩
def QOS_QMAP_fSRSP_Q (i : Nat) : RegF := ⟨QOS_QMAP i, 3, 3⟩
def QOS_QMAP_fCMP_Q (i : Nat) : RegF := ⟨QOS_QMAP i, 6, 3⟩
def QOS_QMAP_fRWD_Q (i : Nat) : RegF := ⟨QOS_QMAP i, 9, 3⟩
def QOS_QMAP_fREQG_Q (i : Nat) : RegF := ⟨QOS_QMAP i, 12, 3⟩
def QOS_QMAP_fREQY_Q (i : Nat) : RegF := ⟨QOS_QMAP i, 15, 3⟩
/-- QOS_DRR_n (R253). -/
def QOS_DRR_n (i j : Nat) : Nat := 0x80010 + i * 0x400 + j * 4
def QOS_DRR_n_fQUANTUM (i j : Nat) : RegF := ⟨QOS_DRR_n i j, 0, 12⟩
/-- QOS_CIR (R253). -/
def QOS_CIR (i : Nat) : Nat := 0x80040 + i * 0x400
def QOS_CIR_fRATE (i : Nat) : RegF := ⟨QOS_CIR i, 0, 12⟩
/-- QOS_PIR (R253). -/
def QOS_PIR (i : Nat) : Nat := 0x80044 + i * 0x400
def QOS_PIR_fRATE (i : Nat) : RegF := ⟨QOS_PIR i, 0, 12⟩
/-- QOS_CBS (R253). -/
def QOS_CBS (i : Nat) : Nat := 0x80048 + i * 0x400
def QOS_CBS_fDEPTH (i : Nat) : RegF := ⟨QOS_CBS i, 0, 25⟩
/-- QOS_PBS (R253). -/
def QOS_PBS (i : Nat) : Nat := 0x8004c + i * 0x400
def QOS_PBS_fDEPTH (i : Nat) : RegF := ⟨QOS_PBS i, 0, 25⟩
/-- QOS_TC (R253). -/
def QOS_TC (i : Nat) : Nat := 0x80050 + i * 0x400
def QOS_TC_fTOKENS (i : Nat) : RegF := ⟨QOS_TC i, 0, 32⟩
/-- QOS_TP (R253). -/
def QOS_TP (i : Nat) : Nat := 0x80054 + i * 0x400
def QOS_TP_fTOKENS (i : Nat) : RegF := ⟨QOS_TP i, 0, 32⟩
/-- QOS_BKT_STAT (R253). -/
def QOS_BKT_STAT (i : Nat) : Nat := 0x80058 + i * 0x400
def QOS_BKT_STAT_fHELD (i : Nat) : RegF := ⟨QOS_BKT_STAT i, 0, 1⟩
def QOS_BKT_STAT_fHELD_SEEN (i : Nat) : RegF := ⟨QOS_BKT_STAT i, 1, 1⟩
/-- QOS_GREEN_LO (R253). -/
def QOS_GREEN_LO (i : Nat) : Nat := 0x80060 + i * 0x400
def QOS_GREEN_LO_fCOUNT (i : Nat) : RegF := ⟨QOS_GREEN_LO i, 0, 32⟩
/-- QOS_GREEN_HI (R253). -/
def QOS_GREEN_HI (i : Nat) : Nat := 0x80064 + i * 0x400
def QOS_GREEN_HI_fCOUNT (i : Nat) : RegF := ⟨QOS_GREEN_HI i, 0, 32⟩
/-- QOS_YELLOW_LO (R253). -/
def QOS_YELLOW_LO (i : Nat) : Nat := 0x80068 + i * 0x400
def QOS_YELLOW_LO_fCOUNT (i : Nat) : RegF := ⟨QOS_YELLOW_LO i, 0, 32⟩
/-- QOS_YELLOW_HI (R253). -/
def QOS_YELLOW_HI (i : Nat) : Nat := 0x8006c + i * 0x400
def QOS_YELLOW_HI_fCOUNT (i : Nat) : RegF := ⟨QOS_YELLOW_HI i, 0, 32⟩
/-- QOS_GATE_CTL (R253). -/
def QOS_GATE_CTL (i : Nat) : Nat := 0x80080 + i * 0x400
def QOS_GATE_CTL_fEN (i : Nat) : RegF := ⟨QOS_GATE_CTL i, 0, 1⟩
def QOS_GATE_CTL_fACT_BANK (i : Nat) : RegF := ⟨QOS_GATE_CTL i, 1, 1⟩
def QOS_GATE_CTL_fSWAP_PEND (i : Nat) : RegF := ⟨QOS_GATE_CTL i, 2, 1⟩
def QOS_GATE_CTL_fENTRY (i : Nat) : RegF := ⟨QOS_GATE_CTL i, 8, 6⟩
/-- QOS_GATE_STAT (R253). -/
def QOS_GATE_STAT (i : Nat) : Nat := 0x80084 + i * 0x400
def QOS_GATE_STAT_fOVR_CNT (i : Nat) : RegF := ⟨QOS_GATE_STAT i, 0, 16⟩
def QOS_GATE_STAT_fOVR_SEEN (i : Nat) : RegF := ⟨QOS_GATE_STAT i, 16, 1⟩
/-- MOV_CTL (R278). -/
def MOV_CTL : Nat := 0x60000
def MOV_CTL_fMODE : RegF := ⟨MOV_CTL, 0, 1⟩
def MOV_CTL_fBYST_AUTO : RegF := ⟨MOV_CTL, 1, 1⟩
def MOV_CTL_fMIG_RATE : RegF := ⟨MOV_CTL, 8, 9⟩
def MOV_CTL_fNAK_LIMIT : RegF := ⟨MOV_CTL, 20, 8⟩
/-- MOV_STAT (R278). -/
def MOV_STAT : Nat := 0x60004
def MOV_STAT_fENABLED : RegF := ⟨MOV_STAT, 0, 7⟩
def MOV_STAT_fSTOPPED : RegF := ⟨MOV_STAT, 7, 1⟩
def MOV_STAT_fBUF_KIB : RegF := ⟨MOV_STAT, 8, 14⟩
/-- MOV_BUF_CFG (R278). -/
def MOV_BUF_CFG : Nat := 0x60008
def MOV_BUF_CFG_fCH_CAP : RegF := ⟨MOV_BUF_CFG, 0, 14⟩
/-- MOV_CH_CTL (R278). -/
def MOV_CH_CTL (i : Nat) : Nat := 0x61000 + i * 0x40
def MOV_CH_CTL_fEN (i : Nat) : RegF := ⟨MOV_CH_CTL i, 0, 1⟩
def MOV_CH_CTL_fRESUME (i : Nat) : RegF := ⟨MOV_CH_CTL i, 1, 1⟩
def MOV_CH_CTL_fACTION (i : Nat) : RegF := ⟨MOV_CH_CTL i, 2, 2⟩
def MOV_CH_CTL_fROOM (i : Nat) : RegF := ⟨MOV_CH_CTL i, 16, 6⟩
def MOV_CH_CTL_fOWNED (i : Nat) : RegF := ⟨MOV_CH_CTL i, 22, 1⟩
/-- MOV_CH_STAT (R278). -/
def MOV_CH_STAT (i : Nat) : Nat := 0x61004 + i * 0x40
def MOV_CH_STAT_fSTATE (i : Nat) : RegF := ⟨MOV_CH_STAT i, 0, 3⟩
def MOV_CH_STAT_fDIR (i : Nat) : RegF := ⟨MOV_CH_STAT i, 3, 1⟩
def MOV_CH_STAT_fCAUSE (i : Nat) : RegF := ⟨MOV_CH_STAT i, 4, 4⟩
def MOV_CH_STAT_fFETCH (i : Nat) : RegF := ⟨MOV_CH_STAT i, 8, 1⟩
/-- MOV_CH_ERR_LO (R278). -/
def MOV_CH_ERR_LO (i : Nat) : Nat := 0x61008 + i * 0x40
def MOV_CH_ERR_LO_fADDR (i : Nat) : RegF := ⟨MOV_CH_ERR_LO i, 0, 32⟩
/-- MOV_CH_ERR_HI (R278). -/
def MOV_CH_ERR_HI (i : Nat) : Nat := 0x6100c + i * 0x40
def MOV_CH_ERR_HI_fADDR (i : Nat) : RegF := ⟨MOV_CH_ERR_HI i, 0, 32⟩
/-- MOV_CH_DESC_LO (R278). -/
def MOV_CH_DESC_LO (i : Nat) : Nat := 0x61010 + i * 0x40
def MOV_CH_DESC_LO_fADDR (i : Nat) : RegF := ⟨MOV_CH_DESC_LO i, 0, 32⟩
/-- MOV_CH_DESC_HI (R278). -/
def MOV_CH_DESC_HI (i : Nat) : Nat := 0x61014 + i * 0x40
def MOV_CH_DESC_HI_fADDR (i : Nat) : RegF := ⟨MOV_CH_DESC_HI i, 0, 32⟩
/-- MOV_CH_BYTES_LO (R278). -/
def MOV_CH_BYTES_LO (i : Nat) : Nat := 0x61018 + i * 0x40
def MOV_CH_BYTES_LO_fCOUNT (i : Nat) : RegF := ⟨MOV_CH_BYTES_LO i, 0, 32⟩
/-- MOV_CH_BYTES_HI (R278). -/
def MOV_CH_BYTES_HI (i : Nat) : Nat := 0x6101c + i * 0x40
def MOV_CH_BYTES_HI_fCOUNT (i : Nat) : RegF := ⟨MOV_CH_BYTES_HI i, 0, 32⟩
/-- LNG_CFG (R309). -/
def LNG_CFG (i : Nat) : Nat := 0x100000 + i * 0x1000
def LNG_CFG_fMODE (i : Nat) : RegF := ⟨LNG_CFG i, 0, 2⟩
/-- LNG_PORTS (R309). -/
def LNG_PORTS (i : Nat) : Nat := 0x100004 + i * 0x1000
def LNG_PORTS_fPORT_A (i : Nat) : RegF := ⟨LNG_PORTS i, 0, 6⟩
def LNG_PORTS_fVALID_A (i : Nat) : RegF := ⟨LNG_PORTS i, 7, 1⟩
def LNG_PORTS_fPORT_B (i : Nat) : RegF := ⟨LNG_PORTS i, 8, 6⟩
def LNG_PORTS_fVALID_B (i : Nat) : RegF := ⟨LNG_PORTS i, 15, 1⟩
def LNG_PORTS_fPORT_C (i : Nat) : RegF := ⟨LNG_PORTS i, 16, 6⟩
def LNG_PORTS_fVALID_C (i : Nat) : RegF := ⟨LNG_PORTS i, 23, 1⟩
def LNG_PORTS_fPORT_D (i : Nat) : RegF := ⟨LNG_PORTS i, 24, 6⟩
def LNG_PORTS_fVALID_D (i : Nat) : RegF := ⟨LNG_PORTS i, 31, 1⟩
/-- LNG_ADAPT_CTL (R309). -/
def LNG_ADAPT_CTL (i : Nat) : Nat := 0x100010 + i * 0x1000
def LNG_ADAPT_CTL_fFREEZE (i : Nat) : RegF := ⟨LNG_ADAPT_CTL i, 0, 1⟩
/-- LNG_LANE_STAT (R309). -/
def LNG_LANE_STAT (i j : Nat) : Nat := 0x100100 + i * 0x1000 + j * 0x20
def LNG_LANE_STAT_fLOCK (i j : Nat) : RegF := ⟨LNG_LANE_STAT i j, 0, 1⟩
def LNG_LANE_STAT_fPOL_INV (i j : Nat) : RegF := ⟨LNG_LANE_STAT i j, 1, 1⟩
def LNG_LANE_STAT_fACTIVE (i j : Nat) : RegF := ⟨LNG_LANE_STAT i j, 2, 1⟩
def LNG_LANE_STAT_fFAILED (i j : Nat) : RegF := ⟨LNG_LANE_STAT i j, 3, 1⟩
def LNG_LANE_STAT_fADAPT_STOP (i j : Nat) : RegF := ⟨LNG_LANE_STAT i j, 4, 1⟩
def LNG_LANE_STAT_fMARGINING (i j : Nat) : RegF := ⟨LNG_LANE_STAT i j, 5, 1⟩
def LNG_LANE_STAT_fPORT_LANE (i j : Nat) : RegF := ⟨LNG_LANE_STAT i j, 8, 4⟩
/-- LNG_LANE_ERR (R309). -/
def LNG_LANE_ERR (i j : Nat) : Nat := 0x100104 + i * 0x1000 + j * 0x20
def LNG_LANE_ERR_fSYM_CNT (i j : Nat) : RegF := ⟨LNG_LANE_ERR i j, 0, 16⟩
def LNG_LANE_ERR_fLOCK_LOSS (i j : Nat) : RegF := ⟨LNG_LANE_ERR i j, 16, 8⟩
/-- LNG_LANE_EQ (R309). -/
def LNG_LANE_EQ (i j : Nat) : Nat := 0x100108 + i * 0x1000 + j * 0x20
def LNG_LANE_EQ_fTX_PRESET (i j : Nat) : RegF := ⟨LNG_LANE_EQ i j, 0, 4⟩
def LNG_LANE_EQ_fPARTNER_PRESET (i j : Nat) : RegF := ⟨LNG_LANE_EQ i j, 4, 4⟩
def LNG_LANE_EQ_fCTLE (i j : Nat) : RegF := ⟨LNG_LANE_EQ i j, 8, 4⟩
/-- LNG_LANE_EYE (R309). -/
def LNG_LANE_EYE (i j : Nat) : Nat := 0x10010c + i * 0x1000 + j * 0x20
def LNG_LANE_EYE_fEYE_H (i j : Nat) : RegF := ⟨LNG_LANE_EYE i j, 0, 8⟩
def LNG_LANE_EYE_fEYE_W (i j : Nat) : RegF := ⟨LNG_LANE_EYE i j, 8, 8⟩
/-- PRT_CFG (R310). -/
def PRT_CFG (i : Nat) : Nat := 0x200000 + i * 0x1000
def PRT_CFG_fROLE (i : Nat) : RegF := ⟨PRT_CFG i, 0, 3⟩
def PRT_CFG_fMAX_RATE (i : Nat) : RegF := ⟨PRT_CFG i, 4, 3⟩
def PRT_CFG_fMIN_WIDTH (i : Nat) : RegF := ⟨PRT_CFG i, 8, 3⟩
def PRT_CFG_fSRIS (i : Nat) : RegF := ⟨PRT_CFG i, 11, 1⟩
/-- PRT_LINK_CTL (R310). -/
def PRT_LINK_CTL (i : Nat) : Nat := 0x200004 + i * 0x1000
def PRT_LINK_CTL_fRETRAIN (i : Nat) : RegF := ⟨PRT_LINK_CTL i, 0, 1⟩
def PRT_LINK_CTL_fDISABLE (i : Nat) : RegF := ⟨PRT_LINK_CTL i, 1, 1⟩
def PRT_LINK_CTL_fHOT_RESET (i : Nat) : RegF := ⟨PRT_LINK_CTL i, 2, 1⟩
/-- PRT_LINK_STAT (R310). -/
def PRT_LINK_STAT (i : Nat) : Nat := 0x200008 + i * 0x1000
def PRT_LINK_STAT_fSTATE (i : Nat) : RegF := ⟨PRT_LINK_STAT i, 0, 4⟩
def PRT_LINK_STAT_fRATE (i : Nat) : RegF := ⟨PRT_LINK_STAT i, 4, 3⟩
def PRT_LINK_STAT_fWIDTH (i : Nat) : RegF := ⟨PRT_LINK_STAT i, 8, 3⟩
def PRT_LINK_STAT_fFLIT (i : Nat) : RegF := ⟨PRT_LINK_STAT i, 11, 1⟩
def PRT_LINK_STAT_fLINK_UP (i : Nat) : RegF := ⟨PRT_LINK_STAT i, 12, 1⟩
def PRT_LINK_STAT_fREVERSED (i : Nat) : RegF := ⟨PRT_LINK_STAT i, 13, 1⟩
def PRT_LINK_STAT_fRETIMERS (i : Nat) : RegF := ⟨PRT_LINK_STAT i, 14, 2⟩
/-- PRT_LINK_EVT (R310). -/
def PRT_LINK_EVT (i : Nat) : Nat := 0x20000c + i * 0x1000
def PRT_LINK_EVT_fDOWN_SEEN (i : Nat) : RegF := ⟨PRT_LINK_EVT i, 0, 1⟩
def PRT_LINK_EVT_fWIDTH_DEGRADED (i : Nat) : RegF := ⟨PRT_LINK_EVT i, 1, 1⟩
def PRT_LINK_EVT_fRATE_DEGRADED (i : Nat) : RegF := ⟨PRT_LINK_EVT i, 2, 1⟩
def PRT_LINK_EVT_fPARTNER_CHANGE (i : Nat) : RegF := ⟨PRT_LINK_EVT i, 3, 1⟩
def PRT_LINK_EVT_fEQ_FAIL (i : Nat) : RegF := ⟨PRT_LINK_EVT i, 4, 1⟩
def PRT_LINK_EVT_fDOWN_CNT (i : Nat) : RegF := ⟨PRT_LINK_EVT i, 16, 16⟩
/-- PRT_REC_CNT (R310). -/
def PRT_REC_CNT (i : Nat) : Nat := 0x200010 + i * 0x1000
def PRT_REC_CNT_fRECOVERY (i : Nat) : RegF := ⟨PRT_REC_CNT i, 0, 16⟩
/-- PRT_FLIT_ERR (R310). -/
def PRT_FLIT_ERR (i : Nat) : Nat := 0x200014 + i * 0x1000
def PRT_FLIT_ERR_fUNC_CNT (i : Nat) : RegF := ⟨PRT_FLIT_ERR i, 0, 16⟩
def PRT_FLIT_ERR_fCRC_CNT (i : Nat) : RegF := ⟨PRT_FLIT_ERR i, 16, 16⟩
/-- PRT_PROTO_CFG (R339). -/
def PRT_PROTO_CFG (i : Nat) : Nat := 0x200020 + i * 0x1000
def PRT_PROTO_CFG_fLOPT_EN (i : Nat) : RegF := ⟨PRT_PROTO_CFG i, 0, 1⟩
def PRT_PROTO_CFG_fPD_TMO (i : Nat) : RegF := ⟨PRT_PROTO_CFG i, 8, 8⟩
def PRT_PROTO_CFG_fPV_LIMIT (i : Nat) : RegF := ⟨PRT_PROTO_CFG i, 16, 8⟩
/-- PRT_PROTO_STAT (R339). -/
def PRT_PROTO_STAT (i : Nat) : Nat := 0x200024 + i * 0x1000
def PRT_PROTO_STAT_fMODE (i : Nat) : RegF := ⟨PRT_PROTO_STAT i, 0, 2⟩
def PRT_PROTO_STAT_fFLIT (i : Nat) : RegF := ⟨PRT_PROTO_STAT i, 2, 2⟩
def PRT_PROTO_STAT_fPBR (i : Nat) : RegF := ⟨PRT_PROTO_STAT i, 4, 1⟩
def PRT_PROTO_STAT_fMODE_ERR (i : Nat) : RegF := ⟨PRT_PROTO_STAT i, 5, 1⟩
def PRT_PROTO_STAT_fIO (i : Nat) : RegF := ⟨PRT_PROTO_STAT i, 6, 1⟩
def PRT_PROTO_STAT_fCACHE (i : Nat) : RegF := ⟨PRT_PROTO_STAT i, 7, 1⟩
def PRT_PROTO_STAT_fMEM (i : Nat) : RegF := ⟨PRT_PROTO_STAT i, 8, 1⟩
def PRT_PROTO_STAT_fPURGE (i : Nat) : RegF := ⟨PRT_PROTO_STAT i, 9, 1⟩
def PRT_PROTO_STAT_fQUAR (i : Nat) : RegF := ⟨PRT_PROTO_STAT i, 10, 7⟩
/-- PRT_RETRY_CNT (R339). -/
def PRT_RETRY_CNT (i : Nat) : Nat := 0x200028 + i * 0x1000
def PRT_RETRY_CNT_fTX_REPLAY (i : Nat) : RegF := ⟨PRT_RETRY_CNT i, 0, 16⟩
def PRT_RETRY_CNT_fRX_NAK (i : Nat) : RegF := ⟨PRT_RETRY_CNT i, 16, 16⟩
/-- PRT_PV_STAT (R339). -/
def PRT_PV_STAT (i : Nat) : Nat := 0x200030 + i * 0x1000
def PRT_PV_STAT_fPV_CNT (i : Nat) : RegF := ⟨PRT_PV_STAT i, 0, 16⟩
def PRT_PV_STAT_fPV_SEEN (i : Nat) : RegF := ⟨PRT_PV_STAT i, 16, 1⟩
/-- PRT_PV_LAST (R339). -/
def PRT_PV_LAST (i : Nat) : Nat := 0x200034 + i * 0x1000
def PRT_PV_LAST_fSRC_ID (i : Nat) : RegF := ⟨PRT_PV_LAST i, 0, 12⟩
def PRT_PV_LAST_fKIND (i : Nat) : RegF := ⟨PRT_PV_LAST i, 12, 8⟩
/-- PRT_PV_TAG (R339). -/
def PRT_PV_TAG (i : Nat) : Nat := 0x200038 + i * 0x1000
def PRT_PV_TAG_fTAG (i : Nat) : RegF := ⟨PRT_PV_TAG i, 0, 16⟩
/-- PRT_DROP_CNT (R339). -/
def PRT_DROP_CNT (i : Nat) : Nat := 0x20003c + i * 0x1000
def PRT_DROP_CNT_fSYN_CNT (i : Nat) : RegF := ⟨PRT_DROP_CNT i, 0, 16⟩
def PRT_DROP_CNT_fPOSTED_CNT (i : Nat) : RegF := ⟨PRT_DROP_CNT i, 16, 16⟩
/-- OPF_GCFG (R366). -/
def OPF_GCFG : Nat := 0x80f000
def OPF_GCFG_fREPLAY_TMO : RegF := ⟨OPF_GCFG, 0, 8⟩
def OPF_GCFG_fLEAK_PCT : RegF := ⟨OPF_GCFG, 8, 7⟩
def OPF_GCFG_fAUDIT_EN : RegF := ⟨OPF_GCFG, 16, 1⟩
/-- OPF_MOD_STAT (R366). -/
def OPF_MOD_STAT (i : Nat) : Nat := 0x800000 + i * 0x100
def OPF_MOD_STAT_fSTATE (i : Nat) : RegF := ⟨OPF_MOD_STAT i, 0, 3⟩
def OPF_MOD_STAT_fSPARE_A (i : Nat) : RegF := ⟨OPF_MOD_STAT i, 3, 2⟩
def OPF_MOD_STAT_fSPARE_B (i : Nat) : RegF := ⟨OPF_MOD_STAT i, 5, 2⟩
def OPF_MOD_STAT_fLAST_REASON (i : Nat) : RegF := ⟨OPF_MOD_STAT i, 8, 3⟩
/-- OPF_MOD_REPAIR (R366). -/
def OPF_MOD_REPAIR (i : Nat) : Nat := 0x800004 + i * 0x100
def OPF_MOD_REPAIR_fFAIL_A0 (i : Nat) : RegF := ⟨OPF_MOD_REPAIR i, 0, 7⟩
def OPF_MOD_REPAIR_fV_A0 (i : Nat) : RegF := ⟨OPF_MOD_REPAIR i, 7, 1⟩
def OPF_MOD_REPAIR_fFAIL_A1 (i : Nat) : RegF := ⟨OPF_MOD_REPAIR i, 8, 7⟩
def OPF_MOD_REPAIR_fV_A1 (i : Nat) : RegF := ⟨OPF_MOD_REPAIR i, 15, 1⟩
def OPF_MOD_REPAIR_fFAIL_B0 (i : Nat) : RegF := ⟨OPF_MOD_REPAIR i, 16, 7⟩
def OPF_MOD_REPAIR_fV_B0 (i : Nat) : RegF := ⟨OPF_MOD_REPAIR i, 23, 1⟩
def OPF_MOD_REPAIR_fFAIL_B1 (i : Nat) : RegF := ⟨OPF_MOD_REPAIR i, 24, 7⟩
def OPF_MOD_REPAIR_fV_B1 (i : Nat) : RegF := ⟨OPF_MOD_REPAIR i, 31, 1⟩
/-- OPF_MOD_ERR (R366). -/
def OPF_MOD_ERR (i : Nat) : Nat := 0x800008 + i * 0x100
def OPF_MOD_ERR_fCRC_CNT (i : Nat) : RegF := ⟨OPF_MOD_ERR i, 0, 16⟩
def OPF_MOD_ERR_fREPLAY_CNT (i : Nat) : RegF := ⟨OPF_MOD_ERR i, 16, 16⟩
/-- OPF_MOD_LEAK (R366). -/
def OPF_MOD_LEAK (i : Nat) : Nat := 0x80000c + i * 0x100
def OPF_MOD_LEAK_fLEAK_MAX (i : Nat) : RegF := ⟨OPF_MOD_LEAK i, 0, 16⟩
def OPF_MOD_LEAK_fRETRAIN_CNT (i : Nat) : RegF := ⟨OPF_MOD_LEAK i, 16, 8⟩
def OPF_MOD_LEAK_fLEAK_RETRAIN (i : Nat) : RegF := ⟨OPF_MOD_LEAK i, 24, 1⟩
/-- STW_LNK_CFG (R367). -/
def STW_LNK_CFG (i : Nat) : Nat := 0x48000 + i * 0x100
def STW_LNK_CFG_fTX_DEEMPH (i : Nat) : RegF := ⟨STW_LNK_CFG i, 0, 4⟩
def STW_LNK_CFG_fRX_CTLE (i : Nat) : RegF := ⟨STW_LNK_CFG i, 4, 4⟩
def STW_LNK_CFG_fREPLAY_TMO (i : Nat) : RegF := ⟨STW_LNK_CFG i, 8, 8⟩
def STW_LNK_CFG_fLEAK_PCT (i : Nat) : RegF := ⟨STW_LNK_CFG i, 16, 7⟩
def STW_LNK_CFG_fAUDIT_EN (i : Nat) : RegF := ⟨STW_LNK_CFG i, 23, 1⟩
/-- STW_LNK_STAT (R367). -/
def STW_LNK_STAT (i : Nat) : Nat := 0x48004 + i * 0x100
def STW_LNK_STAT_fSTATE (i : Nat) : RegF := ⟨STW_LNK_STAT i, 0, 3⟩
def STW_LNK_STAT_fLOCK (i : Nat) : RegF := ⟨STW_LNK_STAT i, 3, 1⟩
def STW_LNK_STAT_fALIGNED (i : Nat) : RegF := ⟨STW_LNK_STAT i, 4, 1⟩
def STW_LNK_STAT_fPEER_RANK (i : Nat) : RegF := ⟨STW_LNK_STAT i, 16, 16⟩
/-- STW_LNK_ERR (R367). -/
def STW_LNK_ERR (i : Nat) : Nat := 0x48008 + i * 0x100
def STW_LNK_ERR_fCODE_CNT (i : Nat) : RegF := ⟨STW_LNK_ERR i, 0, 8⟩
def STW_LNK_ERR_fCRC_CNT (i : Nat) : RegF := ⟨STW_LNK_ERR i, 8, 8⟩
def STW_LNK_ERR_fREPLAY_CNT (i : Nat) : RegF := ⟨STW_LNK_ERR i, 16, 8⟩
def STW_LNK_ERR_fLEAK_MAX (i : Nat) : RegF := ⟨STW_LNK_ERR i, 24, 8⟩
/-- STW_LNK_CTL (R367). -/
def STW_LNK_CTL (i : Nat) : Nat := 0x4800c + i * 0x100
def STW_LNK_CTL_fRETRAIN (i : Nat) : RegF := ⟨STW_LNK_CTL i, 0, 1⟩
def STW_LNK_CTL_fDISABLE (i : Nat) : RegF := ⟨STW_LNK_CTL i, 1, 1⟩
/-- STW_LNK_PEER (R367). -/
def STW_LNK_PEER (i : Nat) : Nat := 0x48010 + i * 0x100
def STW_LNK_PEER_fPEER_ID (i : Nat) : RegF := ⟨STW_LNK_PEER i, 0, 12⟩
/-- STW_ID (R397). -/
def STW_ID : Nat := 0x40000
def STW_ID_fRANK : RegF := ⟨STW_ID, 0, 16⟩
def STW_ID_fFABRIC_ID : RegF := ⟨STW_ID, 16, 12⟩
def STW_ID_fTOPO : RegF := ⟨STW_ID, 28, 1⟩
/-- STW_ROLE (R397). -/
def STW_ROLE : Nat := 0x40004
def STW_ROLE_fROLE : RegF := ⟨STW_ROLE, 0, 2⟩
def STW_ROLE_fHOLD_CAUSE : RegF := ⟨STW_ROLE, 2, 2⟩
def STW_ROLE_fQUORUM : RegF := ⟨STW_ROLE, 4, 1⟩
def STW_ROLE_fRESTARTING : RegF := ⟨STW_ROLE, 5, 1⟩
def STW_ROLE_fLIVE : RegF := ⟨STW_ROLE, 8, 9⟩
def STW_ROLE_fN_CFG : RegF := ⟨STW_ROLE, 17, 8⟩
/-- STW_RIDGE (R397). -/
def STW_RIDGE : Nat := 0x40008
def STW_RIDGE_fRIDGE_ID : RegF := ⟨STW_RIDGE, 0, 12⟩
def STW_RIDGE_fRIDGE_V : RegF := ⟨STW_RIDGE, 12, 1⟩
def STW_RIDGE_fSTBY_ID : RegF := ⟨STW_RIDGE, 16, 12⟩
def STW_RIDGE_fSTBY_V : RegF := ⟨STW_RIDGE, 28, 1⟩
/-- STW_EPOCH (R397). -/
def STW_EPOCH : Nat := 0x4000c
def STW_EPOCH_fEPOCH : RegF := ⟨STW_EPOCH, 0, 32⟩
/-- STW_SCHEMA (R397). -/
def STW_SCHEMA : Nat := 0x40020
def STW_SCHEMA_fCUR : RegF := ⟨STW_SCHEMA, 0, 8⟩
def STW_SCHEMA_fOWN_MIN : RegF := ⟨STW_SCHEMA, 8, 8⟩
def STW_SCHEMA_fOWN_MAX : RegF := ⟨STW_SCHEMA, 16, 8⟩
def STW_SCHEMA_fCEIL : RegF := ⟨STW_SCHEMA, 24, 8⟩
/-- STW_SCHEMA_PEND (R397). -/
def STW_SCHEMA_PEND : Nat := 0x40024
def STW_SCHEMA_PEND_fNEXT : RegF := ⟨STW_SCHEMA_PEND, 0, 8⟩
def STW_SCHEMA_PEND_fPEND : RegF := ⟨STW_SCHEMA_PEND, 8, 1⟩
/-- STW_SCHEMA_T_LO (R397). -/
def STW_SCHEMA_T_LO : Nat := 0x40028
def STW_SCHEMA_T_LO_fT : RegF := ⟨STW_SCHEMA_T_LO, 0, 32⟩
/-- STW_SCHEMA_T_HI (R397). -/
def STW_SCHEMA_T_HI : Nat := 0x4002c
def STW_SCHEMA_T_HI_fT : RegF := ⟨STW_SCHEMA_T_HI, 0, 32⟩
/-- STW_TIME_LO (R397). -/
def STW_TIME_LO : Nat := 0x40030
def STW_TIME_LO_fTIME : RegF := ⟨STW_TIME_LO, 0, 32⟩
/-- STW_TIME_HI (R397). -/
def STW_TIME_HI : Nat := 0x40034
def STW_TIME_HI_fTIME : RegF := ⟨STW_TIME_HI, 0, 32⟩
/-- STW_TIME_STAT (R397). -/
def STW_TIME_STAT : Nat := 0x40038
def STW_TIME_STAT_fLOCKED : RegF := ⟨STW_TIME_STAT, 0, 1⟩
def STW_TIME_STAT_fHOLDOVER : RegF := ⟨STW_TIME_STAT, 1, 1⟩
def STW_TIME_STAT_fSOURCE : RegF := ⟨STW_TIME_STAT, 2, 1⟩
def STW_TIME_STAT_fPARENT : RegF := ⟨STW_TIME_STAT, 3, 2⟩
def STW_TIME_STAT_fHOPS : RegF := ⟨STW_TIME_STAT, 8, 8⟩
def STW_TIME_STAT_fOFFSET : RegF := ⟨STW_TIME_STAT, 16, 16⟩
/-- STW_ROUTE (R397). -/
def STW_ROUTE : Nat := 0x40040
def STW_ROUTE_fACT_VER : RegF := ⟨STW_ROUTE, 0, 16⟩
def STW_ROUTE_fSTAGED_VER : RegF := ⟨STW_ROUTE, 16, 16⟩
/-- STW_RELAY_STAT (R397). -/
def STW_RELAY_STAT : Nat := 0x40050
def STW_RELAY_STAT_fOUT : RegF := ⟨STW_RELAY_STAT, 0, 8⟩
def STW_RELAY_STAT_fTMO_CNT : RegF := ⟨STW_RELAY_STAT, 8, 8⟩
def STW_RELAY_STAT_fDISC_CNT : RegF := ⟨STW_RELAY_STAT, 16, 8⟩
/-- DWY_CTL (R421). -/
def DWY_CTL : Nat := 0x50000
def DWY_CTL_fMAX_RAMP : RegF := ⟨DWY_CTL, 0, 6⟩
/-- DWY_STAT (R421). -/
def DWY_STAT : Nat := 0x50004
def DWY_STAT_fLINK : RegF := ⟨DWY_STAT, 0, 1⟩
def DWY_STAT_fRAMPING : RegF := ⟨DWY_STAT, 8, 6⟩
/-- DWY_CH_CTL (R421). -/
def DWY_CH_CTL (i : Nat) : Nat := 0x51000 + i * 0x40
def DWY_CH_CTL_fEN (i : Nat) : RegF := ⟨DWY_CH_CTL i, 0, 1⟩
def DWY_CH_CTL_fGPIO_V (i : Nat) : RegF := ⟨DWY_CH_CTL i, 1, 1⟩
def DWY_CH_CTL_fGPIO (i : Nat) : RegF := ⟨DWY_CH_CTL i, 2, 3⟩
def DWY_CH_CTL_fPORT (i : Nat) : RegF := ⟨DWY_CH_CTL i, 8, 6⟩
def DWY_CH_CTL_fPORT_V (i : Nat) : RegF := ⟨DWY_CH_CTL i, 14, 1⟩
/-- DWY_CH_STAT (R421). -/
def DWY_CH_STAT (i : Nat) : Nat := 0x51004 + i * 0x40
def DWY_CH_STAT_fSTATE (i : Nat) : RegF := ⟨DWY_CH_STAT i, 0, 4⟩
def DWY_CH_STAT_fPRESENT (i : Nat) : RegF := ⟨DWY_CH_STAT i, 4, 1⟩
def DWY_CH_STAT_fPGOOD (i : Nat) : RegF := ⟨DWY_CH_STAT i, 5, 1⟩
def DWY_CH_STAT_fPERST_REL (i : Nat) : RegF := ⟨DWY_CH_STAT i, 6, 1⟩
def DWY_CH_STAT_fILIM_ACT (i : Nat) : RegF := ⟨DWY_CH_STAT i, 7, 1⟩
def DWY_CH_STAT_fOFF_TMR (i : Nat) : RegF := ⟨DWY_CH_STAT i, 8, 1⟩
def DWY_CH_STAT_fCOOL_WAIT (i : Nat) : RegF := ⟨DWY_CH_STAT i, 9, 1⟩
def DWY_CH_STAT_fVIN_WAIT (i : Nat) : RegF := ⟨DWY_CH_STAT i, 10, 1⟩
def DWY_CH_STAT_fPRS_EDGE (i : Nat) : RegF := ⟨DWY_CH_STAT i, 11, 1⟩
def DWY_CH_STAT_fCAUSE (i : Nat) : RegF := ⟨DWY_CH_STAT i, 12, 4⟩
def DWY_CH_STAT_fTRIP_CNT (i : Nat) : RegF := ⟨DWY_CH_STAT i, 16, 8⟩
/-- DWY_CH_V (R421). -/
def DWY_CH_V (i : Nat) : Nat := 0x51008 + i * 0x40
def DWY_CH_V_fVIN (i : Nat) : RegF := ⟨DWY_CH_V i, 0, 16⟩
def DWY_CH_V_fVSRC (i : Nat) : RegF := ⟨DWY_CH_V i, 16, 16⟩
/-- DWY_CH_I (R421). -/
def DWY_CH_I (i : Nat) : Nat := 0x5100c + i * 0x40
def DWY_CH_I_fI (i : Nat) : RegF := ⟨DWY_CH_I i, 0, 16⟩
def DWY_CH_I_fP (i : Nat) : RegF := ⟨DWY_CH_I i, 16, 16⟩
/-- DWY_CH_TJ (R421). -/
def DWY_CH_TJ (i : Nat) : Nat := 0x51010 + i * 0x40
def DWY_CH_TJ_fTJ (i : Nat) : RegF := ⟨DWY_CH_TJ i, 0, 16⟩
def DWY_CH_TJ_fTJ_PEAK (i : Nat) : RegF := ⟨DWY_CH_TJ i, 16, 16⟩
/-- DWY_CH_TRIP_T_LO (R421). -/
def DWY_CH_TRIP_T_LO (i : Nat) : Nat := 0x51018 + i * 0x40
def DWY_CH_TRIP_T_LO_fTIME (i : Nat) : RegF := ⟨DWY_CH_TRIP_T_LO i, 0, 32⟩
/-- DWY_CH_TRIP_T_HI (R421). -/
def DWY_CH_TRIP_T_HI (i : Nat) : Nat := 0x5101c + i * 0x40
def DWY_CH_TRIP_T_HI_fTIME (i : Nat) : RegF := ⟨DWY_CH_TRIP_T_HI i, 0, 32⟩
/-- CMD_STAT (R445). -/
def CMD_STAT : Nat := 0x10000
def CMD_STAT_fPENDING : RegF := ⟨CMD_STAT, 0, 10⟩
def CMD_STAT_fHEARTH_UP : RegF := ⟨CMD_STAT, 10, 1⟩
/-- EVT_COUNT (R445). -/
def EVT_COUNT : Nat := 0x10010
def EVT_COUNT_fEVENTS : RegF := ⟨EVT_COUNT, 0, 12⟩
def EVT_COUNT_fWORDS : RegF := ⟨EVT_COUNT, 13, 13⟩
/-- EVT_STAT (R445). -/
def EVT_STAT : Nat := 0x10014
def EVT_STAT_fBACKLOG : RegF := ⟨EVT_STAT, 0, 17⟩
def EVT_STAT_fDROP_SEEN : RegF := ⟨EVT_STAT, 17, 1⟩
def EVT_STAT_fFLUSHED : RegF := ⟨EVT_STAT, 18, 14⟩
/-- EVT_CTL (R445). -/
def EVT_CTL : Nat := 0x10018
def EVT_CTL_fFLUSH : RegF := ⟨EVT_CTL, 0, 1⟩
/-- CMD_RNG_BASE_LO (R445). -/
def CMD_RNG_BASE_LO (i : Nat) : Nat := 0x10100 + i * 0x20
def CMD_RNG_BASE_LO_fADDR (i : Nat) : RegF := ⟨CMD_RNG_BASE_LO i, 0, 32⟩
/-- CMD_RNG_BASE_HI (R445). -/
def CMD_RNG_BASE_HI (i : Nat) : Nat := 0x10104 + i * 0x20
def CMD_RNG_BASE_HI_fADDR (i : Nat) : RegF := ⟨CMD_RNG_BASE_HI i, 0, 32⟩
/-- CMD_RNG_CFG (R445). -/
def CMD_RNG_CFG (i : Nat) : Nat := 0x10108 + i * 0x20
def CMD_RNG_CFG_fEN (i : Nat) : RegF := ⟨CMD_RNG_CFG i, 0, 1⟩
def CMD_RNG_CFG_fIRQ_EN (i : Nat) : RegF := ⟨CMD_RNG_CFG i, 1, 1⟩
def CMD_RNG_CFG_fSIZE (i : Nat) : RegF := ⟨CMD_RNG_CFG i, 4, 4⟩
def CMD_RNG_CFG_fROOM_LOCK (i : Nat) : RegF := ⟨CMD_RNG_CFG i, 8, 8⟩
/-- CMD_RNG_PTR (R445). -/
def CMD_RNG_PTR (i : Nat) : Nat := 0x1010c + i * 0x20
def CMD_RNG_PTR_fHEAD (i : Nat) : RegF := ⟨CMD_RNG_PTR i, 0, 12⟩
def CMD_RNG_PTR_fTAIL (i : Nat) : RegF := ⟨CMD_RNG_PTR i, 16, 12⟩
/-- CMD_RNG_STAT (R445). -/
def CMD_RNG_STAT (i : Nat) : Nat := 0x10110 + i * 0x20
def CMD_RNG_STAT_fSTOPPED (i : Nat) : RegF := ⟨CMD_RNG_STAT i, 0, 1⟩
def CMD_RNG_STAT_fTAIL_ERR (i : Nat) : RegF := ⟨CMD_RNG_STAT i, 1, 1⟩
def CMD_RNG_STAT_fDMA_ERR (i : Nat) : RegF := ⟨CMD_RNG_STAT i, 2, 1⟩
/-- FLT_STATE (R465). -/
def FLT_STATE : Nat := 0x20000
def FLT_STATE_fSTATE : RegF := ⟨FLT_STATE, 0, 2⟩
def FLT_STATE_fFAULT_N : RegF := ⟨FLT_STATE, 2, 1⟩
def FLT_STATE_fFF_VALID : RegF := ⟨FLT_STATE, 3, 1⟩
def FLT_STATE_fLIMIT : RegF := ⟨FLT_STATE, 4, 1⟩
def FLT_STATE_fHBM_KEEP : RegF := ⟨FLT_STATE, 5, 1⟩
/-- FLT_CFG (R465). -/
def FLT_CFG : Nat := 0x20004
def FLT_CFG_fDRAIN_TMO : RegF := ⟨FLT_CFG, 0, 7⟩
def FLT_CFG_fDRAIN_CLEAN : RegF := ⟨FLT_CFG, 8, 1⟩
/-- FLT_CE_CNT (R465). -/
def FLT_CE_CNT : Nat := 0x20010
def FLT_CE_CNT_fCOUNT : RegF := ⟨FLT_CE_CNT, 0, 32⟩
/-- FLT_CT_CNT (R465). -/
def FLT_CT_CNT : Nat := 0x20014
def FLT_CT_CNT_fCOUNT : RegF := ⟨FLT_CT_CNT, 0, 32⟩
/-- FLT_FT_CNT (R465). -/
def FLT_FT_CNT : Nat := 0x20018
def FLT_FT_CNT_fCOUNT : RegF := ⟨FLT_FT_CNT, 0, 32⟩
/-- FLT_RING (R465). -/
def FLT_RING : Nat := 0x20020
def FLT_RING_fNEXT : RegF := ⟨FLT_RING, 0, 5⟩
def FLT_RING_fNVALID : RegF := ⟨FLT_RING, 5, 6⟩
/-- FLT_LOG_STAT (R465). -/
def FLT_LOG_STAT : Nat := 0x20024
def FLT_LOG_STAT_fLOG_ON : RegF := ⟨FLT_LOG_STAT, 0, 1⟩
def FLT_LOG_STAT_fLOST : RegF := ⟨FLT_LOG_STAT, 16, 16⟩
/-- FLT_SEQ (R465). -/
def FLT_SEQ : Nat := 0x20028
def FLT_SEQ_fSEQ : RegF := ⟨FLT_SEQ, 0, 32⟩
/-- FLT_INJ_CTL (R465). -/
def FLT_INJ_CTL : Nat := 0x20030
def FLT_INJ_CTL_fCHECKER : RegF := ⟨FLT_INJ_CTL, 0, 16⟩
def FLT_INJ_CTL_fARM : RegF := ⟨FLT_INJ_CTL, 16, 2⟩
def FLT_INJ_CTL_fFIRED : RegF := ⟨FLT_INJ_CTL, 18, 1⟩
/-- FLT_INJ_MASK (R465). -/
def FLT_INJ_MASK : Nat := 0x20034
def FLT_INJ_MASK_fMASK : RegF := ⟨FLT_INJ_MASK, 0, 32⟩
/-- FLT_HBM_RR_s (R465). -/
def FLT_HBM_RR_s (i : Nat) : Nat := 0x20040 + i * 4
def FLT_HBM_RR_s_fENTRIES (i : Nat) : RegF := ⟨FLT_HBM_RR_s i, 0, 5⟩
def FLT_HBM_RR_s_fFULL (i : Nat) : RegF := ⟨FLT_HBM_RR_s i, 5, 1⟩
def FLT_HBM_RR_s_fUNREPAIRED (i : Nat) : RegF := ⟨FLT_HBM_RR_s i, 8, 6⟩
/-- FLT_DRAIN_DONE (R465). -/
def FLT_DRAIN_DONE : Nat := 0x20050
def FLT_DRAIN_DONE_fCOUNT : RegF := ⟨FLT_DRAIN_DONE, 0, 32⟩
/-- FLT_DRAIN_FAIL (R465). -/
def FLT_DRAIN_FAIL : Nat := 0x20054
def FLT_DRAIN_FAIL_fCOUNT : RegF := ⟨FLT_DRAIN_FAIL, 0, 32⟩
/-- DBG_LC (R483). -/
def DBG_LC : Nat := 0x30000
def DBG_LC_fSTATE : RegF := ⟨DBG_LC, 0, 2⟩
def DBG_LC_fFUSE_ERR : RegF := ⟨DBG_LC, 2, 1⟩
def DBG_LC_fADV_PEND : RegF := ⟨DBG_LC, 3, 1⟩
def DBG_LC_fADV_DONE : RegF := ⟨DBG_LC, 4, 1⟩
/-- DBG_MON_CFG (R483). -/
def DBG_MON_CFG : Nat := 0x30004
def DBG_MON_CFG_fBAUD : RegF := ⟨DBG_MON_CFG, 0, 3⟩
def DBG_MON_CFG_fECHO : RegF := ⟨DBG_MON_CFG, 3, 1⟩
/-- DBG_DENY (R483). -/
def DBG_DENY : Nat := 0x30008
def DBG_DENY_fCNT : RegF := ⟨DBG_DENY, 0, 16⟩
def DBG_DENY_fSEEN : RegF := ⟨DBG_DENY, 16, 1⟩
def DBG_DENY_fLAST_REASON : RegF := ⟨DBG_DENY, 17, 3⟩
def DBG_DENY_fLAST_SPACE : RegF := ⟨DBG_DENY, 20, 2⟩
def DBG_DENY_fLAST_JTAG : RegF := ⟨DBG_DENY, 22, 1⟩
/-- DBG_MON_STAT (R483). -/
def DBG_MON_STAT : Nat := 0x3000c
def DBG_MON_STAT_fRX_DROP : RegF := ⟨DBG_MON_STAT, 0, 16⟩
def DBG_MON_STAT_fBUSY : RegF := ⟨DBG_MON_STAT, 16, 1⟩
def DBG_MON_STAT_fCHK_ERR : RegF := ⟨DBG_MON_STAT, 17, 1⟩
/-- DBG_JTAG_STAT (R483). -/
def DBG_JTAG_STAT : Nat := 0x30010
def DBG_JTAG_STAT_fREFUSED : RegF := ⟨DBG_JTAG_STAT, 0, 1⟩
def DBG_JTAG_STAT_fLAST_IR : RegF := ⟨DBG_JTAG_STAT, 8, 8⟩
/-- CKP_RESET_CTL (R529). -/
def CKP_RESET_CTL : Nat := 0xa00000
def CKP_RESET_CTL_fWARM : RegF := ⟨CKP_RESET_CTL, 0, 1⟩
def CKP_RESET_CTL_fKEY : RegF := ⟨CKP_RESET_CTL, 8, 8⟩
/-- CKP_RESET_CAUSE (R529). -/
def CKP_RESET_CAUSE : Nat := 0xa00004
def CKP_RESET_CAUSE_fLAST : RegF := ⟨CKP_RESET_CAUSE, 0, 3⟩
def CKP_RESET_CAUSE_fAON_KEPT : RegF := ⟨CKP_RESET_CAUSE, 3, 1⟩
def CKP_RESET_CAUSE_fHBM_KEPT : RegF := ⟨CKP_RESET_CAUSE, 4, 1⟩
/-- CKP_CLK_STAT (R529). -/
def CKP_CLK_STAT : Nat := 0xa00010
def CKP_CLK_STAT_fA_OK : RegF := ⟨CKP_CLK_STAT, 0, 1⟩
def CKP_CLK_STAT_fB_OK : RegF := ⟨CKP_CLK_STAT, 1, 1⟩
def CKP_CLK_STAT_fSEL : RegF := ⟨CKP_CLK_STAT, 2, 1⟩
def CKP_CLK_STAT_fROOT_LOCK : RegF := ⟨CKP_CLK_STAT, 3, 1⟩
def CKP_CLK_STAT_fFAIL_SEEN : RegF := ⟨CKP_CLK_STAT, 4, 1⟩
def CKP_CLK_STAT_fFAIL_CNT : RegF := ⟨CKP_CLK_STAT, 8, 8⟩
/-- CKP_CLK_CTL (R529). -/
def CKP_CLK_CTL : Nat := 0xa00014
def CKP_CLK_CTL_fPREFER : RegF := ⟨CKP_CLK_CTL, 0, 1⟩
def CKP_CLK_CTL_fSWITCH : RegF := ⟨CKP_CLK_CTL, 1, 1⟩
/-- CKP_AVS (R529). -/
def CKP_AVS : Nat := 0xa00020
def CKP_AVS_fEN : RegF := ⟨CKP_AVS, 0, 1⟩
def CKP_AVS_fFIXED : RegF := ⟨CKP_AVS, 1, 1⟩
def CKP_AVS_fFUSE_MV : RegF := ⟨CKP_AVS, 16, 10⟩
/-- CKP_AVS_STAT (R529). -/
def CKP_AVS_STAT : Nat := 0xa00024
def CKP_AVS_STAT_fREQ_MV : RegF := ⟨CKP_AVS_STAT, 0, 10⟩
def CKP_AVS_STAT_fMEAS_MV : RegF := ⟨CKP_AVS_STAT, 16, 10⟩
def CKP_AVS_STAT_fBUS_ERR : RegF := ⟨CKP_AVS_STAT, 26, 1⟩
/-- CKP_RAIL_STAT (R529). -/
def CKP_RAIL_STAT : Nat := 0xa00030
def CKP_RAIL_STAT_fIN_RANGE : RegF := ⟨CKP_RAIL_STAT, 0, 9⟩
def CKP_RAIL_STAT_fOUT_SEEN : RegF := ⟨CKP_RAIL_STAT, 16, 1⟩
/-- CKP_BOOT (R529). -/
def CKP_BOOT : Nat := 0xa00040
def CKP_BOOT_fSLOT : RegF := ⟨CKP_BOOT, 0, 1⟩
def CKP_BOOT_fPREFERRED : RegF := ⟨CKP_BOOT, 1, 1⟩
def CKP_BOOT_fFALLBACK : RegF := ⟨CKP_BOOT, 2, 1⟩
def CKP_BOOT_fEHREC_COPY : RegF := ⟨CKP_BOOT, 3, 1⟩
def CKP_BOOT_fEHREC_DEFAULT : RegF := ⟨CKP_BOOT, 4, 1⟩
def CKP_BOOT_fBOOT_MS : RegF := ⟨CKP_BOOT, 16, 16⟩
/-- CKP_HOURS (R529). -/
def CKP_HOURS : Nat := 0xa00044
def CKP_HOURS_fHOURS : RegF := ⟨CKP_HOURS, 0, 32⟩
/-- CKP_TEMP_STAT (R546). -/
def CKP_TEMP_STAT : Nat := 0xa00050
def CKP_TEMP_STAT_fHIGH : RegF := ⟨CKP_TEMP_STAT, 0, 16⟩
def CKP_TEMP_STAT_fHIGH_SEEN : RegF := ⟨CKP_TEMP_STAT, 16, 1⟩
def CKP_TEMP_STAT_fHBM_2XREF : RegF := ⟨CKP_TEMP_STAT, 17, 4⟩
/-- CKP_TEMP_n (R546). -/
def CKP_TEMP_n (i : Nat) : Nat := 0xa00080 + i * 4
def CKP_TEMP_n_fTEMP (i : Nat) : RegF := ⟨CKP_TEMP_n i, 0, 12⟩
def CKP_TEMP_n_fHIGH (i : Nat) : RegF := ⟨CKP_TEMP_n i, 12, 1⟩
def CKP_TEMP_n_fPEAK (i : Nat) : RegF := ⟨CKP_TEMP_n i, 16, 12⟩
/-- GEN_ID (R553). -/
def GEN_ID : Nat := 0
def GEN_ID_fVENDOR : RegF := ⟨GEN_ID, 0, 16⟩
def GEN_ID_fSTEPPING : RegF := ⟨GEN_ID, 16, 8⟩
def GEN_ID_fPRODUCT : RegF := ⟨GEN_ID, 24, 8⟩
/-- GEN_DEVID (R553). -/
def GEN_DEVID : Nat := 4
def GEN_DEVID_fDEVICE : RegF := ⟨GEN_DEVID, 0, 16⟩
def GEN_DEVID_fORDER : RegF := ⟨GEN_DEVID, 16, 8⟩
/-- GEN_UID_LO (R553). -/
def GEN_UID_LO : Nat := 8
def GEN_UID_LO_fUID : RegF := ⟨GEN_UID_LO, 0, 32⟩
/-- GEN_UID_HI (R553). -/
def GEN_UID_HI : Nat := 0xc
def GEN_UID_HI_fUID : RegF := ⟨GEN_UID_HI, 0, 32⟩
/-- GEN_FW_VER (R553). -/
def GEN_FW_VER : Nat := 0x10
def GEN_FW_VER_fVERSION : RegF := ⟨GEN_FW_VER, 0, 32⟩
/-- GEN_STATUS (R553). -/
def GEN_STATUS : Nat := 0x14
def GEN_STATUS_fSTATE : RegF := ⟨GEN_STATUS, 0, 2⟩
def GEN_STATUS_fRECOVERY : RegF := ⟨GEN_STATUS, 2, 1⟩
def GEN_STATUS_fHEARTH_UP : RegF := ⟨GEN_STATUS, 3, 1⟩
def GEN_STATUS_fLIFECYCLE : RegF := ⟨GEN_STATUS, 4, 2⟩
/-- GEN_SCRATCH (R553). -/
def GEN_SCRATCH : Nat := 0x20
def GEN_SCRATCH_fVALUE : RegF := ⟨GEN_SCRATCH, 0, 32⟩
/-- GEN_SCRATCH_S (R553). -/
def GEN_SCRATCH_S : Nat := 0x24
def GEN_SCRATCH_S_fVALUE : RegF := ⟨GEN_SCRATCH_S, 0, 32⟩
/-- GEN_GPIO_IN (R553). -/
def GEN_GPIO_IN : Nat := 0x30
def GEN_GPIO_IN_fLEVEL : RegF := ⟨GEN_GPIO_IN, 0, 8⟩
/-- GEN_GPIO_FN (R553). -/
def GEN_GPIO_FN : Nat := 0x34
def GEN_GPIO_FN_fFN : RegF := ⟨GEN_GPIO_FN, 0, 16⟩
/-- HBM_STK_STAT (R554). -/
def HBM_STK_STAT (i : Nat) : Nat := 0x900000 + i * 0x1000
def HBM_STK_STAT_fTRAINED (i : Nat) : RegF := ⟨HBM_STK_STAT i, 0, 1⟩
def HBM_STK_STAT_fSREF (i : Nat) : RegF := ⟨HBM_STK_STAT i, 1, 1⟩
def HBM_STK_STAT_fLOST (i : Nat) : RegF := ⟨HBM_STK_STAT i, 2, 1⟩
def HBM_STK_STAT_fREF2X (i : Nat) : RegF := ⟨HBM_STK_STAT i, 3, 1⟩
def HBM_STK_STAT_fREPAIRED (i : Nat) : RegF := ⟨HBM_STK_STAT i, 8, 5⟩
/-- HBM_ECC (R554). -/
def HBM_ECC (i : Nat) : Nat := 0x900004 + i * 0x1000
def HBM_ECC_fCE_CNT (i : Nat) : RegF := ⟨HBM_ECC i, 0, 16⟩
def HBM_ECC_fPAR_CNT (i : Nat) : RegF := ⟨HBM_ECC i, 16, 8⟩

/-- Registers of the HSL block. -/
def regsHsl0 : List RegDef := [
  ⟨0x400010, [(0x4000, 32)], [⟨0, 12, .ro, 0, 0, 0xfff⟩, ⟨12, 8, .ro, 0, 0, 0xff⟩, ⟨20, 7, .ro, 0, 0, 0x7f⟩]⟩,
  ⟨0x400020, [(0x4000, 32)], [⟨0, 17, .rw, 0x3e8, 0xa, 0x186a0⟩]⟩,
  ⟨0x400024, [(0x4000, 32)], [⟨0, 9, .ro, 0, 0, 0x1ff⟩, ⟨16, 8, .rc, 0, 0, 0xff⟩]⟩,
  ⟨0x400030, [(0x4000, 32)], [⟨0, 7, .ro, 0, 0, 0x7f⟩, ⟨16, 1, .w1c, 0, 0, 1⟩, ⟨17, 1, .ro, 0, 0, 1⟩]⟩,
  ⟨0x400040, [(0x4000, 32)], [⟨0, 1, .w1c, 0, 0, 1⟩, ⟨1, 1, .w1c, 0, 0, 1⟩, ⟨2, 1, .ro, 0, 0, 1⟩, ⟨3, 1, .w1c, 0, 0, 1⟩]⟩,
  ⟨0x400050, [(0x4000, 32)], [⟨0, 16, .rc, 0, 0, 0xffff⟩, ⟨16, 8, .rc, 0, 0, 0xff⟩, ⟨24, 4, .ro, 0, 0, 0xf⟩]⟩,
  ⟨0x400058, [(0x4000, 32)], [⟨0, 32, .ro, 0, 0, 0xffffffff⟩]⟩,
  ⟨0x40005c, [(0x4000, 32)], [⟨0, 32, .ro, 0, 0, 0xffffffff⟩]⟩,
  ⟨0x400060, [(0x4000, 32)], [⟨0, 1, .rw, 1, 0, 1⟩, ⟨8, 11, .rw, 0x3c, 1, 0x5a0⟩]⟩,
  ⟨0x400080, [(0x4000, 32)], [⟨0, 32, .ro, 0, 0, 0xffffffff⟩]⟩,
  ⟨0x400084, [(0x4000, 32)], [⟨0, 32, .ro, 0, 0, 0xffffffff⟩]⟩,
  ⟨0x400070, [(0x4000, 32)], [⟨0, 16, .rc, 0, 0, 0xffff⟩, ⟨16, 1, .w1c, 0, 0, 1⟩]⟩]

/-- Registers of the HSL block. -/
def regsHsl1 : List RegDef := [
  ⟨0x400074, [(0x4000, 32)], [⟨0, 12, .ro, 0, 0, 0xfff⟩, ⟨12, 8, .ro, 0, 0, 0xff⟩, ⟨20, 4, .ro, 0, 0, 0xf⟩]⟩,
  ⟨0x400078, [(0x4000, 32)], [⟨0, 32, .ro, 0, 0, 0xffffffff⟩]⟩,
  ⟨0x40007c, [(0x4000, 32)], [⟨0, 10, .ro, 0, 0, 0x3ff⟩]⟩,
  ⟨0x400090, [(0x4000, 32)], [⟨0, 9, .ro, 0, 0, 0x1ff⟩, ⟨16, 8, .rc, 0, 0, 0xff⟩]⟩,
  ⟨0x4000a0, [(0x4000, 32)], [⟨0, 32, .ro, 0, 0, 0xffffffff⟩]⟩,
  ⟨0x4000a4, [(0x4000, 32)], [⟨0, 32, .ro, 0, 0, 0xffffffff⟩]⟩]

/-- Registers of the PAN block. -/
def regsPan0 : List RegDef := [
  ⟨0xc0000, [], [⟨0, 1, .ro, 0, 0, 1⟩, ⟨1, 1, .ro, 0, 0, 1⟩, ⟨2, 1, .ro, 0, 0, 1⟩, ⟨3, 1, .w1c, 0, 0, 1⟩, ⟨4, 1, .ro, 0, 0, 1⟩, ⟨5, 1, .ro, 0, 0, 1⟩, ⟨6, 1, .w1c, 0, 0, 1⟩]⟩,
  ⟨0xc0010, [], [⟨0, 24, .ro, 0, 0, 0xffffff⟩]⟩,
  ⟨0xc0014, [], [⟨0, 24, .ro, 0, 0, 0xffffff⟩]⟩,
  ⟨0xc0020, [], [⟨0, 16, .ro, 0, 0, 0xffff⟩, ⟨16, 16, .ro, 0, 0, 0xffff⟩]⟩,
  ⟨0xc0030, [], [⟨0, 12, .rw, 0, 0, 0xfff⟩]⟩,
  ⟨0xc0034, [], [⟨0, 2, .ro, 0, 0, 3⟩, ⟨2, 2, .ro, 0, 0, 3⟩, ⟨4, 1, .ro, 0, 0, 1⟩, ⟨8, 24, .ro, 0, 0, 0xffffff⟩]⟩]

/-- Registers of the VST block. -/
def regsVst0 : List RegDef := [
  ⟨0xe0000, [], [⟨0, 14, .rw, 0x64, 1, 0x2710⟩]⟩,
  ⟨0xe0004, [], [⟨0, 7, .rw, 0x19, 1, 0x64⟩]⟩,
  ⟨0xe1000, [(0x1000, 4)], [⟨0, 19, .ro, 0x60000, 0, 0x7ffff⟩]⟩,
  ⟨0xe1004, [(0x1000, 4)], [⟨0, 17, .ro, 0, 0, 0x1ffff⟩]⟩,
  ⟨0xe1008, [(0x1000, 4)], [⟨0, 19, .ro, 0x60000, 0, 0x7ffff⟩]⟩,
  ⟨0xe100c, [(0x1000, 4)], [⟨0, 19, .ro, 0, 0, 0x7ffff⟩]⟩,
  ⟨0xe1010, [(0x1000, 4)], [⟨0, 6, .rw, 0, 0, 0x3f⟩]⟩,
  ⟨0xe1014, [(0x1000, 4)], [⟨0, 19, .ro, 0, 0, 0x7ffff⟩, ⟨31, 1, .ro, 0, 0, 1⟩]⟩,
  ⟨0xe8000, [(0x10, 64)], [⟨0, 19, .ro, 0, 0, 0x7ffff⟩]⟩,
  ⟨0xe8004, [(0x10, 64)], [⟨0, 1, .ro, 0, 0, 1⟩, ⟨1, 1, .w1c, 0, 0, 1⟩, ⟨8, 8, .rc, 0, 0, 0xff⟩, ⟨16, 16, .rc, 0, 0, 0xffff⟩]⟩]

/-- Registers of the XBR block. -/
def regsXbr0 : List RegDef := [
  ⟨0xf0000, [(4, 64)], [⟨0, 3, .rw, 0, 0, 7⟩]⟩,
  ⟨0xf0100, [(4, 64)], [⟨0, 3, .rw, 0, 0, 7⟩]⟩,
  ⟨0xf0200, [], [⟨0, 3, .rw, 4, 0, 7⟩, ⟨4, 3, .rw, 2, 0, 7⟩, ⟨8, 3, .rw, 3, 0, 7⟩]⟩,
  ⟨0xf0210, [], [⟨0, 1, .rw, 0, 0, 1⟩, ⟨1, 1, .wo, 0, 0, 1⟩]⟩,
  ⟨0xf0214, [], [⟨0, 2, .rw, 0, 0, 3⟩, ⟨8, 8, .rw, 0, 0, 0xff⟩, ⟨16, 7, .rw, 0, 0, 0x7f⟩]⟩,
  ⟨0xf0220, [], [⟨0, 32, .ro, 0, 0, 0xffffffff⟩]⟩,
  ⟨0xf0224, [], [⟨0, 32, .ro, 0, 0, 0xffffffff⟩]⟩,
  ⟨0xf0228, [], [⟨0, 32, .ro, 0, 0, 0xffffffff⟩]⟩,
  ⟨0xf022c, [], [⟨0, 32, .ro, 0, 0, 0xffffffff⟩]⟩,
  ⟨0xf0230, [], [⟨0, 32, .ro, 0, 0, 0xffffffff⟩]⟩,
  ⟨0xf0240, [], [⟨0, 16, .rc, 0, 0, 0xffff⟩, ⟨16, 1, .w1c, 0, 0, 1⟩]⟩,
  ⟨0xf0250, [], [⟨0, 15, .rw, 0xc8, 0xa, 0x4e20⟩]⟩]

/-- Registers of the RMC block. -/
def regsRmc0 : List RegDef := [
  ⟨0xa0000, [(0x400, 64)], [⟨0, 2, .ro, 0, 0, 3⟩, ⟨2, 1, .ro, 0, 0, 1⟩, ⟨3, 1, .ro, 0, 0, 1⟩, ⟨8, 8, .ro, 0, 0, 0xff⟩]⟩,
  ⟨0xa0004, [(0x400, 64)], [⟨0, 16, .ro, 0, 0, 0xffff⟩]⟩,
  ⟨0xa0008, [(0x400, 64)], [⟨0, 24, .ro, 0, 0, 0xffffff⟩]⟩,
  ⟨0xa000c, [(0x400, 64)], [⟨0, 26, .ro, 0, 0, 0x3ffffff⟩]⟩,
  ⟨0xa0010, [(0x400, 64)], [⟨0, 19, .ro, 0, 0, 0x7ffff⟩]⟩,
  ⟨0xa0014, [(0x400, 64)], [⟨0, 7, .ro, 0, 0, 0x7f⟩, ⟨8, 11, .ro, 0, 0, 0x7ff⟩, ⟨19, 9, .ro, 0, 0, 0x1ff⟩]⟩,
  ⟨0xa0018, [(0x400, 64)], [⟨0, 13, .ro, 0, 0, 0x1fff⟩, ⟨16, 13, .ro, 0, 0, 0x1fff⟩]⟩,
  ⟨0xa0020, [(0x400, 64)], [⟨0, 24, .ro, 0, 0, 0xffffff⟩]⟩,
  ⟨0xa0024, [(0x400, 64)], [⟨0, 16, .rc, 0, 0, 0xffff⟩, ⟨16, 8, .rc, 0, 0, 0xff⟩, ⟨24, 1, .w1c, 0, 0, 1⟩]⟩,
  ⟨0xa0028, [(0x400, 64)], [⟨0, 12, .ro, 0, 0, 0xfff⟩, ⟨12, 3, .ro, 0, 0, 7⟩, ⟨15, 1, .ro, 0, 0, 1⟩, ⟨16, 8, .ro, 0, 0, 0xff⟩, ⟨24, 1, .ro, 0, 0, 1⟩, ⟨25, 1, .ro, 0, 0, 1⟩]⟩,
  ⟨0xa002c, [(0x400, 64)], [⟨0, 32, .ro, 0, 0, 0xffffffff⟩]⟩,
  ⟨0xa0030, [(0x400, 64)], [⟨0, 16, .ro, 0, 0, 0xffff⟩]⟩]

/-- Registers of the QOS block. -/
def regsQos0 : List RegDef := [
  ⟨0x80000, [(0x400, 64)], [⟨0, 3, .rw, 0, 0, 7⟩, ⟨3, 3, .rw, 0, 0, 7⟩, ⟨6, 3, .rw, 2, 0, 7⟩, ⟨9, 3, .rw, 3, 0, 7⟩, ⟨12, 3, .rw, 4, 0, 7⟩, ⟨15, 3, .rw, 5, 0, 7⟩]⟩,
  ⟨0x80010, [(0x400, 64), (4, 6)], [⟨0, 12, .rw, 0x40, 1, 0xfff⟩]⟩,
  ⟨0x80040, [(0x400, 64)], [⟨0, 12, .ro, 0, 0, 0xfff⟩]⟩,
  ⟨0x80044, [(0x400, 64)], [⟨0, 12, .ro, 0, 0, 0xfff⟩]⟩,
  ⟨0x80048, [(0x400, 64)], [⟨0, 25, .rw, 0x10000, 0x1000, 0x1000000⟩]⟩,
  ⟨0x8004c, [(0x400, 64)], [⟨0, 25, .rw, 0x40000, 0x1000, 0x1000000⟩]⟩,
  ⟨0x80050, [(0x400, 64)], [⟨0, 32, .ro, 0x10000, 0, 0xffffffff⟩]⟩,
  ⟨0x80054, [(0x400, 64)], [⟨0, 32, .ro, 0x40000, 0, 0xffffffff⟩]⟩,
  ⟨0x80058, [(0x400, 64)], [⟨0, 1, .ro, 0, 0, 1⟩, ⟨1, 1, .w1c, 0, 0, 1⟩]⟩,
  ⟨0x80060, [(0x400, 64)], [⟨0, 32, .ro, 0, 0, 0xffffffff⟩]⟩,
  ⟨0x80064, [(0x400, 64)], [⟨0, 32, .ro, 0, 0, 0xffffffff⟩]⟩,
  ⟨0x80068, [(0x400, 64)], [⟨0, 32, .ro, 0, 0, 0xffffffff⟩]⟩]

/-- Registers of the QOS block. -/
def regsQos1 : List RegDef := [
  ⟨0x8006c, [(0x400, 64)], [⟨0, 32, .ro, 0, 0, 0xffffffff⟩]⟩,
  ⟨0x80080, [(0x400, 64)], [⟨0, 1, .rw, 0, 0, 1⟩, ⟨1, 1, .ro, 0, 0, 1⟩, ⟨2, 1, .ro, 0, 0, 1⟩, ⟨8, 6, .ro, 0, 0, 0x3f⟩]⟩,
  ⟨0x80084, [(0x400, 64)], [⟨0, 16, .rc, 0, 0, 0xffff⟩, ⟨16, 1, .w1c, 0, 0, 1⟩]⟩]

/-- Registers of the MOV block. -/
def regsMov0 : List RegDef := [
  ⟨0x60000, [], [⟨0, 1, .rw, 0, 0, 1⟩, ⟨1, 1, .rw, 1, 0, 1⟩, ⟨8, 9, .rw, 0x20, 1, 0x100⟩, ⟨20, 8, .rw, 0xa, 1, 0xff⟩]⟩,
  ⟨0x60004, [], [⟨0, 7, .ro, 0, 0, 0x7f⟩, ⟨7, 1, .ro, 0, 0, 1⟩, ⟨8, 14, .ro, 0, 0, 0x3fff⟩]⟩,
  ⟨0x60008, [], [⟨0, 14, .rw, 0x200, 0x40, 0x2000⟩]⟩,
  ⟨0x61000, [(0x40, 64)], [⟨0, 1, .rw, 0, 0, 1⟩, ⟨1, 1, .wo, 0, 0, 1⟩, ⟨2, 2, .wo, 0, 0, 3⟩, ⟨16, 6, .ro, 0, 0, 0x3f⟩, ⟨22, 1, .ro, 0, 0, 1⟩]⟩,
  ⟨0x61004, [(0x40, 64)], [⟨0, 3, .ro, 0, 0, 7⟩, ⟨3, 1, .ro, 0, 0, 1⟩, ⟨4, 4, .ro, 0, 0, 0xf⟩, ⟨8, 1, .ro, 0, 0, 1⟩]⟩,
  ⟨0x61008, [(0x40, 64)], [⟨0, 32, .ro, 0, 0, 0xffffffff⟩]⟩,
  ⟨0x6100c, [(0x40, 64)], [⟨0, 32, .ro, 0, 0, 0xffffffff⟩]⟩,
  ⟨0x61010, [(0x40, 64)], [⟨0, 32, .ro, 0, 0, 0xffffffff⟩]⟩,
  ⟨0x61014, [(0x40, 64)], [⟨0, 32, .ro, 0, 0, 0xffffffff⟩]⟩,
  ⟨0x61018, [(0x40, 64)], [⟨0, 32, .ro, 0, 0, 0xffffffff⟩]⟩,
  ⟨0x6101c, [(0x40, 64)], [⟨0, 32, .ro, 0, 0, 0xffffffff⟩]⟩]

/-- Registers of the LNG block. -/
def regsLng0 : List RegDef := [
  ⟨0x100000, [(0x1000, 32)], [⟨0, 2, .ro, 0, 0, 3⟩]⟩,
  ⟨0x100004, [(0x1000, 32)], [⟨0, 6, .ro, 0, 0, 0x3f⟩, ⟨7, 1, .ro, 1, 0, 1⟩, ⟨8, 6, .ro, 0, 0, 0x3f⟩, ⟨15, 1, .ro, 0, 0, 1⟩, ⟨16, 6, .ro, 0, 0, 0x3f⟩, ⟨23, 1, .ro, 0, 0, 1⟩, ⟨24, 6, .ro, 0, 0, 0x3f⟩, ⟨31, 1, .ro, 0, 0, 1⟩]⟩,
  ⟨0x100010, [(0x1000, 32)], [⟨0, 1, .rw, 0, 0, 1⟩]⟩,
  ⟨0x100100, [(0x1000, 32), (0x20, 8)], [⟨0, 1, .ro, 0, 0, 1⟩, ⟨1, 1, .ro, 0, 0, 1⟩, ⟨2, 1, .ro, 0, 0, 1⟩, ⟨3, 1, .ro, 0, 0, 1⟩, ⟨4, 1, .ro, 0, 0, 1⟩, ⟨5, 1, .ro, 0, 0, 1⟩, ⟨8, 4, .ro, 0, 0, 0xf⟩]⟩,
  ⟨0x100104, [(0x1000, 32), (0x20, 8)], [⟨0, 16, .rc, 0, 0, 0xffff⟩, ⟨16, 8, .rc, 0, 0, 0xff⟩]⟩,
  ⟨0x100108, [(0x1000, 32), (0x20, 8)], [⟨0, 4, .ro, 0, 0, 0xf⟩, ⟨4, 4, .ro, 0, 0, 0xf⟩, ⟨8, 4, .ro, 8, 0, 0xf⟩]⟩,
  ⟨0x10010c, [(0x1000, 32), (0x20, 8)], [⟨0, 8, .ro, 0, 0, 0xff⟩, ⟨8, 8, .ro, 0, 0, 0xff⟩]⟩]

/-- Registers of the PRT block. -/
def regsPrt0 : List RegDef := [
  ⟨0x200000, [(0x1000, 64)], [⟨0, 3, .ro, 0, 0, 7⟩, ⟨4, 3, .rw, 6, 0, 6⟩, ⟨8, 3, .rw, 0, 0, 7⟩, ⟨11, 1, .ro, 0, 0, 1⟩]⟩,
  ⟨0x200004, [(0x1000, 64)], [⟨0, 1, .wo, 0, 0, 1⟩, ⟨1, 1, .rw, 0, 0, 1⟩, ⟨2, 1, .wo, 0, 0, 1⟩]⟩,
  ⟨0x200008, [(0x1000, 64)], [⟨0, 4, .ro, 0, 0, 0xf⟩, ⟨4, 3, .ro, 0, 0, 7⟩, ⟨8, 3, .ro, 0, 0, 7⟩, ⟨11, 1, .ro, 0, 0, 1⟩, ⟨12, 1, .ro, 0, 0, 1⟩, ⟨13, 1, .ro, 0, 0, 1⟩, ⟨14, 2, .ro, 0, 0, 3⟩]⟩,
  ⟨0x20000c, [(0x1000, 64)], [⟨0, 1, .w1c, 0, 0, 1⟩, ⟨1, 1, .w1c, 0, 0, 1⟩, ⟨2, 1, .w1c, 0, 0, 1⟩, ⟨3, 1, .w1c, 0, 0, 1⟩, ⟨4, 1, .w1c, 0, 0, 1⟩, ⟨16, 16, .rc, 0, 0, 0xffff⟩]⟩,
  ⟨0x200010, [(0x1000, 64)], [⟨0, 16, .rc, 0, 0, 0xffff⟩]⟩,
  ⟨0x200014, [(0x1000, 64)], [⟨0, 16, .rc, 0, 0, 0xffff⟩, ⟨16, 16, .rc, 0, 0, 0xffff⟩]⟩,
  ⟨0x200020, [(0x1000, 64)], [⟨0, 1, .rw, 1, 0, 1⟩, ⟨8, 8, .rw, 0x14, 1, 0xff⟩, ⟨16, 8, .rw, 0, 0, 0xff⟩]⟩,
  ⟨0x200024, [(0x1000, 64)], [⟨0, 2, .ro, 0, 0, 3⟩, ⟨2, 2, .ro, 0, 0, 3⟩, ⟨4, 1, .ro, 0, 0, 1⟩, ⟨5, 1, .ro, 0, 0, 1⟩, ⟨6, 1, .ro, 0, 0, 1⟩, ⟨7, 1, .ro, 0, 0, 1⟩, ⟨8, 1, .ro, 0, 0, 1⟩, ⟨9, 1, .ro, 0, 0, 1⟩, ⟨10, 7, .ro, 0, 0, 0x7f⟩]⟩,
  ⟨0x200028, [(0x1000, 64)], [⟨0, 16, .rc, 0, 0, 0xffff⟩, ⟨16, 16, .rc, 0, 0, 0xffff⟩]⟩,
  ⟨0x200030, [(0x1000, 64)], [⟨0, 16, .rc, 0, 0, 0xffff⟩, ⟨16, 1, .w1c, 0, 0, 1⟩]⟩,
  ⟨0x200034, [(0x1000, 64)], [⟨0, 12, .ro, 0, 0, 0xfff⟩, ⟨12, 8, .ro, 0, 0, 0xff⟩]⟩,
  ⟨0x200038, [(0x1000, 64)], [⟨0, 16, .ro, 0, 0, 0xffff⟩]⟩]

/-- Registers of the PRT block. -/
def regsPrt1 : List RegDef := [
  ⟨0x20003c, [(0x1000, 64)], [⟨0, 16, .rc, 0, 0, 0xffff⟩, ⟨16, 16, .rc, 0, 0, 0xffff⟩]⟩]

/-- Registers of the OPF block. -/
def regsOpf0 : List RegDef := [
  ⟨0x80f000, [], [⟨0, 8, .rw, 0x20, 0x10, 0xff⟩, ⟨8, 7, .rw, 0x19, 5, 0x4b⟩, ⟨16, 1, .rw, 1, 0, 1⟩]⟩,
  ⟨0x800000, [(0x100, 49)], [⟨0, 3, .ro, 0, 0, 7⟩, ⟨3, 2, .ro, 0, 0, 3⟩, ⟨5, 2, .ro, 0, 0, 3⟩, ⟨8, 3, .ro, 0, 0, 7⟩]⟩,
  ⟨0x800004, [(0x100, 49)], [⟨0, 7, .ro, 0, 0, 0x7f⟩, ⟨7, 1, .ro, 0, 0, 1⟩, ⟨8, 7, .ro, 0, 0, 0x7f⟩, ⟨15, 1, .ro, 0, 0, 1⟩, ⟨16, 7, .ro, 0, 0, 0x7f⟩, ⟨23, 1, .ro, 0, 0, 1⟩, ⟨24, 7, .ro, 0, 0, 0x7f⟩, ⟨31, 1, .ro, 0, 0, 1⟩]⟩,
  ⟨0x800008, [(0x100, 49)], [⟨0, 16, .rc, 0, 0, 0xffff⟩, ⟨16, 16, .rc, 0, 0, 0xffff⟩]⟩,
  ⟨0x80000c, [(0x100, 49)], [⟨0, 16, .ro, 0, 0, 0xffff⟩, ⟨16, 8, .rc, 0, 0, 0xff⟩, ⟨24, 1, .w1c, 0, 0, 1⟩]⟩]

/-- Registers of the STW block. -/
def regsStw0 : List RegDef := [
  ⟨0x48000, [(0x100, 4)], [⟨0, 4, .ro, 7, 0, 0xf⟩, ⟨4, 4, .ro, 8, 0, 0xf⟩, ⟨8, 8, .rw, 0x14, 0xa, 0xff⟩, ⟨16, 7, .rw, 0x19, 5, 0x4b⟩, ⟨23, 1, .rw, 1, 0, 1⟩]⟩,
  ⟨0x48004, [(0x100, 4)], [⟨0, 3, .ro, 0, 0, 7⟩, ⟨3, 1, .ro, 0, 0, 1⟩, ⟨4, 1, .ro, 0, 0, 1⟩, ⟨16, 16, .ro, 0, 0, 0xffff⟩]⟩,
  ⟨0x48008, [(0x100, 4)], [⟨0, 8, .rc, 0, 0, 0xff⟩, ⟨8, 8, .rc, 0, 0, 0xff⟩, ⟨16, 8, .rc, 0, 0, 0xff⟩, ⟨24, 8, .ro, 0, 0, 0xff⟩]⟩,
  ⟨0x4800c, [(0x100, 4)], [⟨0, 1, .wo, 0, 0, 1⟩, ⟨1, 1, .rw, 0, 0, 1⟩]⟩,
  ⟨0x48010, [(0x100, 4)], [⟨0, 12, .ro, 0, 0, 0xfff⟩]⟩,
  ⟨0x40000, [], [⟨0, 16, .ro, 0xffff, 0, 0xffff⟩, ⟨16, 12, .ro, 0, 0, 0xfff⟩, ⟨28, 1, .ro, 0, 0, 1⟩]⟩,
  ⟨0x40004, [], [⟨0, 2, .ro, 0, 0, 3⟩, ⟨2, 2, .ro, 0, 0, 3⟩, ⟨4, 1, .ro, 0, 0, 1⟩, ⟨5, 1, .ro, 0, 0, 1⟩, ⟨8, 9, .ro, 0, 0, 0x1ff⟩, ⟨17, 8, .ro, 0, 0, 0xff⟩]⟩,
  ⟨0x40008, [], [⟨0, 12, .ro, 0, 0, 0xfff⟩, ⟨12, 1, .ro, 0, 0, 1⟩, ⟨16, 12, .ro, 0, 0, 0xfff⟩, ⟨28, 1, .ro, 0, 0, 1⟩]⟩,
  ⟨0x4000c, [], [⟨0, 32, .ro, 0, 0, 0xffffffff⟩]⟩,
  ⟨0x40020, [], [⟨0, 8, .ro, 0, 0, 0xff⟩, ⟨8, 8, .ro, 0, 0, 0xff⟩, ⟨16, 8, .ro, 0, 0, 0xff⟩, ⟨24, 8, .ro, 0xff, 0, 0xff⟩]⟩,
  ⟨0x40024, [], [⟨0, 8, .ro, 0, 0, 0xff⟩, ⟨8, 1, .ro, 0, 0, 1⟩]⟩,
  ⟨0x40028, [], [⟨0, 32, .ro, 0, 0, 0xffffffff⟩]⟩]

/-- Registers of the STW block. -/
def regsStw1 : List RegDef := [
  ⟨0x4002c, [], [⟨0, 32, .ro, 0, 0, 0xffffffff⟩]⟩,
  ⟨0x40030, [], [⟨0, 32, .ro, 0, 0, 0xffffffff⟩]⟩,
  ⟨0x40034, [], [⟨0, 32, .ro, 0, 0, 0xffffffff⟩]⟩,
  ⟨0x40038, [], [⟨0, 1, .ro, 0, 0, 1⟩, ⟨1, 1, .ro, 0, 0, 1⟩, ⟨2, 1, .ro, 0, 0, 1⟩, ⟨3, 2, .ro, 0, 0, 3⟩, ⟨8, 8, .ro, 0, 0, 0xff⟩, ⟨16, 16, .ro, 0, 0, 0xffff⟩]⟩,
  ⟨0x40040, [], [⟨0, 16, .ro, 0, 0, 0xffff⟩, ⟨16, 16, .ro, 0, 0, 0xffff⟩]⟩,
  ⟨0x40050, [], [⟨0, 8, .ro, 0, 0, 0xff⟩, ⟨8, 8, .rc, 0, 0, 0xff⟩, ⟨16, 8, .rc, 0, 0, 0xff⟩]⟩]

/-- Registers of the DWY block. -/
def regsDwy0 : List RegDef := [
  ⟨0x50000, [], [⟨0, 6, .rw, 4, 1, 0x20⟩]⟩,
  ⟨0x50004, [], [⟨0, 1, .ro, 0, 0, 1⟩, ⟨8, 6, .ro, 0, 0, 0x3f⟩]⟩,
  ⟨0x51000, [(0x40, 32)], [⟨0, 1, .rw, 0, 0, 1⟩, ⟨1, 1, .ro, 0, 0, 1⟩, ⟨2, 3, .ro, 0, 0, 7⟩, ⟨8, 6, .ro, 0, 0, 0x3f⟩, ⟨14, 1, .ro, 0, 0, 1⟩]⟩,
  ⟨0x51004, [(0x40, 32)], [⟨0, 4, .ro, 0, 0, 0xf⟩, ⟨4, 1, .ro, 0, 0, 1⟩, ⟨5, 1, .ro, 0, 0, 1⟩, ⟨6, 1, .ro, 0, 0, 1⟩, ⟨7, 1, .ro, 0, 0, 1⟩, ⟨8, 1, .ro, 0, 0, 1⟩, ⟨9, 1, .ro, 0, 0, 1⟩, ⟨10, 1, .ro, 0, 0, 1⟩, ⟨11, 1, .w1c, 0, 0, 1⟩, ⟨12, 4, .ro, 0, 0, 0xf⟩, ⟨16, 8, .rc, 0, 0, 0xff⟩]⟩,
  ⟨0x51008, [(0x40, 32)], [⟨0, 16, .ro, 0, 0, 0xffff⟩, ⟨16, 16, .ro, 0, 0, 0xffff⟩]⟩,
  ⟨0x5100c, [(0x40, 32)], [⟨0, 16, .ro, 0, 0, 0xffff⟩, ⟨16, 16, .ro, 0, 0, 0xffff⟩]⟩,
  ⟨0x51010, [(0x40, 32)], [⟨0, 16, .ro, 0, 0, 0xffff⟩, ⟨16, 16, .rc, 0, 0, 0xffff⟩]⟩,
  ⟨0x51018, [(0x40, 32)], [⟨0, 32, .ro, 0, 0, 0xffffffff⟩]⟩,
  ⟨0x5101c, [(0x40, 32)], [⟨0, 32, .ro, 0, 0, 0xffffffff⟩]⟩]

/-- Registers of the CMD block. -/
def regsCmd0 : List RegDef := [
  ⟨0x10000, [], [⟨0, 10, .ro, 0, 0, 0x3ff⟩, ⟨10, 1, .ro, 0, 0, 1⟩]⟩,
  ⟨0x10100, [(0x20, 4)], [⟨0, 32, .rw, 0, 0, 0xffffffff⟩]⟩,
  ⟨0x10104, [(0x20, 4)], [⟨0, 32, .rw, 0, 0, 0xffffffff⟩]⟩,
  ⟨0x10108, [(0x20, 4)], [⟨0, 1, .rw, 0, 0, 1⟩, ⟨1, 1, .rw, 0, 0, 1⟩, ⟨4, 4, .rw, 4, 4, 0xc⟩, ⟨8, 8, .rw, 0, 0, 0xff⟩]⟩,
  ⟨0x1010c, [(0x20, 4)], [⟨0, 12, .ro, 0, 0, 0xfff⟩, ⟨16, 12, .ro, 0, 0, 0xfff⟩]⟩,
  ⟨0x10110, [(0x20, 4)], [⟨0, 1, .ro, 0, 0, 1⟩, ⟨1, 1, .w1c, 0, 0, 1⟩, ⟨2, 1, .w1c, 0, 0, 1⟩]⟩]

/-- Registers of the EVT block. -/
def regsEvt0 : List RegDef := [
  ⟨0x10010, [], [⟨0, 12, .ro, 0, 0, 0xfff⟩, ⟨13, 13, .ro, 0, 0, 0x1fff⟩]⟩,
  ⟨0x10014, [], [⟨0, 17, .ro, 0, 0, 0x1ffff⟩, ⟨17, 1, .w1c, 0, 0, 1⟩, ⟨18, 14, .rc, 0, 0, 0x3fff⟩]⟩,
  ⟨0x10018, [], [⟨0, 1, .wo, 0, 0, 1⟩]⟩]

/-- Registers of the FLT block. -/
def regsFlt0 : List RegDef := [
  ⟨0x20000, [], [⟨0, 2, .ro, 0, 0, 3⟩, ⟨2, 1, .ro, 0, 0, 1⟩, ⟨3, 1, .ro, 0, 0, 1⟩, ⟨4, 1, .ro, 0, 0, 1⟩, ⟨5, 1, .ro, 0, 0, 1⟩]⟩,
  ⟨0x20004, [], [⟨0, 7, .rw, 0xa, 1, 0x64⟩, ⟨8, 1, .rw, 1, 0, 1⟩]⟩,
  ⟨0x20010, [], [⟨0, 32, .ro, 0, 0, 0xffffffff⟩]⟩,
  ⟨0x20014, [], [⟨0, 32, .ro, 0, 0, 0xffffffff⟩]⟩,
  ⟨0x20018, [], [⟨0, 32, .ro, 0, 0, 0xffffffff⟩]⟩,
  ⟨0x20020, [], [⟨0, 5, .ro, 0, 0, 0x1f⟩, ⟨5, 6, .ro, 0, 0, 0x3f⟩]⟩,
  ⟨0x20024, [], [⟨0, 1, .ro, 0, 0, 1⟩, ⟨16, 16, .rc, 0, 0, 0xffff⟩]⟩,
  ⟨0x20028, [], [⟨0, 32, .ro, 0, 0, 0xffffffff⟩]⟩,
  ⟨0x20030, [], [⟨0, 16, .rw, 0, 0, 0xffff⟩, ⟨16, 2, .rw, 0, 0, 3⟩, ⟨18, 1, .w1c, 0, 0, 1⟩]⟩,
  ⟨0x20034, [], [⟨0, 32, .rw, 0xffffffff, 0, 0xffffffff⟩]⟩,
  ⟨0x20040, [(4, 4)], [⟨0, 5, .ro, 0, 0, 0x1f⟩, ⟨5, 1, .ro, 0, 0, 1⟩, ⟨8, 6, .ro, 0, 0, 0x3f⟩]⟩,
  ⟨0x20050, [], [⟨0, 32, .ro, 0, 0, 0xffffffff⟩]⟩]

/-- Registers of the FLT block. -/
def regsFlt1 : List RegDef := [
  ⟨0x20054, [], [⟨0, 32, .ro, 0, 0, 0xffffffff⟩]⟩]

/-- Registers of the DBG block. -/
def regsDbg0 : List RegDef := [
  ⟨0x30000, [], [⟨0, 2, .ro, 0, 0, 3⟩, ⟨2, 1, .ro, 0, 0, 1⟩, ⟨3, 1, .ro, 0, 0, 1⟩, ⟨4, 1, .ro, 0, 0, 1⟩]⟩,
  ⟨0x30004, [], [⟨0, 3, .rw, 0, 0, 5⟩, ⟨3, 1, .rw, 1, 0, 1⟩]⟩,
  ⟨0x30008, [], [⟨0, 16, .rc, 0, 0, 0xffff⟩, ⟨16, 1, .w1c, 0, 0, 1⟩, ⟨17, 3, .ro, 0, 0, 7⟩, ⟨20, 2, .ro, 0, 0, 3⟩, ⟨22, 1, .ro, 0, 0, 1⟩]⟩,
  ⟨0x3000c, [], [⟨0, 16, .rc, 0, 0, 0xffff⟩, ⟨16, 1, .ro, 0, 0, 1⟩, ⟨17, 1, .w1c, 0, 0, 1⟩]⟩,
  ⟨0x30010, [], [⟨0, 1, .w1c, 0, 0, 1⟩, ⟨8, 8, .ro, 0xff, 0, 0xff⟩]⟩]

/-- Registers of the CKP block. -/
def regsCkp0 : List RegDef := [
  ⟨0xa00000, [], [⟨0, 1, .wo, 0, 0, 1⟩, ⟨8, 8, .wo, 0, 0, 0xff⟩]⟩,
  ⟨0xa00004, [], [⟨0, 3, .ro, 0, 0, 7⟩, ⟨3, 1, .ro, 0, 0, 1⟩, ⟨4, 1, .ro, 0, 0, 1⟩]⟩,
  ⟨0xa00010, [], [⟨0, 1, .ro, 0, 0, 1⟩, ⟨1, 1, .ro, 0, 0, 1⟩, ⟨2, 1, .ro, 0, 0, 1⟩, ⟨3, 1, .ro, 0, 0, 1⟩, ⟨4, 1, .w1c, 0, 0, 1⟩, ⟨8, 8, .rc, 0, 0, 0xff⟩]⟩,
  ⟨0xa00014, [], [⟨0, 1, .rw, 0, 0, 1⟩, ⟨1, 1, .wo, 0, 0, 1⟩]⟩,
  ⟨0xa00020, [], [⟨0, 1, .ro, 0, 0, 1⟩, ⟨1, 1, .ro, 0, 0, 1⟩, ⟨16, 10, .ro, 0, 0, 0x3ff⟩]⟩,
  ⟨0xa00024, [], [⟨0, 10, .ro, 0x2ee, 0, 0x3ff⟩, ⟨16, 10, .ro, 0, 0, 0x3ff⟩, ⟨26, 1, .w1c, 0, 0, 1⟩]⟩,
  ⟨0xa00030, [], [⟨0, 9, .ro, 0, 0, 0x1ff⟩, ⟨16, 1, .w1c, 0, 0, 1⟩]⟩,
  ⟨0xa00040, [], [⟨0, 1, .ro, 0, 0, 1⟩, ⟨1, 1, .ro, 0, 0, 1⟩, ⟨2, 1, .ro, 0, 0, 1⟩, ⟨3, 1, .ro, 0, 0, 1⟩, ⟨4, 1, .ro, 0, 0, 1⟩, ⟨16, 16, .ro, 0, 0, 0xffff⟩]⟩,
  ⟨0xa00044, [], [⟨0, 32, .ro, 0, 0, 0xffffffff⟩]⟩,
  ⟨0xa00050, [], [⟨0, 16, .ro, 0, 0, 0xffff⟩, ⟨16, 1, .w1c, 0, 0, 1⟩, ⟨17, 4, .ro, 0, 0, 0xf⟩]⟩,
  ⟨0xa00080, [(4, 16)], [⟨0, 12, .ro, 0, 0, 0xfff⟩, ⟨12, 1, .ro, 0, 0, 1⟩, ⟨16, 12, .rc, 0, 0, 0xfff⟩]⟩]

/-- Registers of the GEN block. -/
def regsGen0 : List RegDef := [
  ⟨0, [], [⟨0, 16, .ro, 0, 0, 0xffff⟩, ⟨16, 8, .ro, 0x10, 0, 0xff⟩, ⟨24, 8, .ro, 1, 0, 0xff⟩]⟩,
  ⟨4, [], [⟨0, 16, .ro, 0x9200, 0, 0xffff⟩, ⟨16, 8, .ro, 0, 0, 0xff⟩]⟩,
  ⟨8, [], [⟨0, 32, .ro, 0, 0, 0xffffffff⟩]⟩,
  ⟨0xc, [], [⟨0, 32, .ro, 0, 0, 0xffffffff⟩]⟩,
  ⟨0x10, [], [⟨0, 32, .ro, 0, 0, 0xffffffff⟩]⟩,
  ⟨0x14, [], [⟨0, 2, .ro, 0, 0, 3⟩, ⟨2, 1, .ro, 0, 0, 1⟩, ⟨3, 1, .ro, 0, 0, 1⟩, ⟨4, 2, .ro, 0, 0, 3⟩]⟩,
  ⟨0x20, [], [⟨0, 32, .rw, 0, 0, 0xffffffff⟩]⟩,
  ⟨0x24, [], [⟨0, 32, .rws, 0, 0, 0xffffffff⟩]⟩,
  ⟨0x30, [], [⟨0, 8, .ro, 0, 0, 0xff⟩]⟩,
  ⟨0x34, [], [⟨0, 16, .ro, 0, 0, 0xffff⟩]⟩]

/-- Registers of the HBM block. -/
def regsHbm0 : List RegDef := [
  ⟨0x900000, [(0x1000, 4)], [⟨0, 1, .ro, 0, 0, 1⟩, ⟨1, 1, .ro, 0, 0, 1⟩, ⟨2, 1, .ro, 0, 0, 1⟩, ⟨3, 1, .ro, 0, 0, 1⟩, ⟨8, 5, .ro, 0, 0, 0x1f⟩]⟩,
  ⟨0x900004, [(0x1000, 4)], [⟨0, 16, .rc, 0, 0, 0xffff⟩, ⟨16, 8, .rc, 0, 0, 0xff⟩]⟩]

/-- Every register that R555 lists with fields. -/
def regTable : List RegDef :=
  regsHsl0 ++ regsHsl1 ++ regsPan0 ++ regsVst0 ++ regsXbr0 ++ regsRmc0 ++ regsQos0 ++ regsQos1 ++ regsMov0 ++ regsLng0 ++ regsPrt0 ++ regsPrt1 ++ regsOpf0 ++ regsStw0 ++ regsStw1 ++ regsDwy0 ++ regsCmd0 ++ regsEvt0 ++ regsFlt0 ++ regsFlt1 ++ regsDbg0 ++ regsCkp0 ++ regsGen0 ++ regsHbm0

/-- The _LO registers of the latching pairs (R15): base, instances; the _HI register follows at + 4. -/
def latchTable : List (Nat × List (Nat × Nat)) := [
  (0x400058, [(0x4000, 32)]),
  (0x400080, [(0x4000, 32)]),
  (0x400078, [(0x4000, 32)]),
  (0x4000a0, [(0x4000, 32)]),
  (0xf0220, []),
  (0xf0228, []),
  (0xa002c, [(0x400, 64)]),
  (0x80060, [(0x400, 64)]),
  (0x80068, [(0x400, 64)]),
  (0x61008, [(0x40, 64)]),
  (0x61010, [(0x40, 64)]),
  (0x61018, [(0x40, 64)]),
  (0x40028, []),
  (0x40030, []),
  (0x51018, [(0x40, 32)]),
  (8, [])]

/-- Does the offset hit an instance of a register with this base and these instances? -/
def hitsDims (rem : Nat) : List (Nat × Nat) → Bool
  | [] => rem == 0
  | (stride, count) :: ds => rem / stride < count && hitsDims (rem % stride) ds

/-- The register at a BAR0 offset, if one is defined there (R551: other offsets read 0 and discard writes). -/
def regAt (off : Nat) : Option RegDef :=
  regTable.find? fun d => d.base ≤ off && hitsDims (off - d.base) d.dims

/-- Is the offset the _LO register of a latching pair? -/
def isLatchLo (off : Nat) : Bool :=
  latchTable.any fun d => d.1 ≤ off && hitsDims (off - d.1) d.2

/-- The word that a register's field table gives for reset. -/
def RegDef.resetWord (d : RegDef) : BitVec 32 :=
  BitVec.ofNat 32 (d.fields.foldl (fun a f => a + f.rst * 2 ^ f.lo) 0)

/-- Mask of the bits of a register whose fields satisfy `p`. -/
def RegDef.mask (d : RegDef) (p : FieldDef → Bool) : BitVec 32 :=
  BitVec.ofNat 32 (d.fields.foldl (fun a f => if p f then a + (2 ^ f.w - 1) * 2 ^ f.lo else a) 0)

/-- Reset value of the register at an offset (R17), with the fields that the tables give by instance: MOV_CH_CTL.EN of
channels 60 to 63 (R278), LNG_PORTS.PORT_A (R309), the fixed and fused fields of GEN and CKP (R553, R529); the vectors of the
MSI-X table are masked (log 9, PRESUMED: PCI Express). -/
def regReset (off : Nat) : BitVec 32 :=
  if off = 0 then Config.vendorId.setWidth 32 ||| 0x01100000
  else if off = 4 then 0x9200 ||| (Config.orderCode.setWidth 32 <<< 16)
  else if off = 8 then Config.uid.setWidth 32
  else if off = 12 then (Config.uid >>> 32).setWidth 32
  else if 0x8000 ≤ off && off < 0x8080 then (if off % 16 = 12 then 1 else 0)
  else match regAt off with
    | none => 0
    | some d =>
      if d.base = 0x61000 && 60 ≤ (off - 0x61000) / 0x40 then 1
      else if d.base = 0x100004 then BitVec.ofNat 32 ((off - 0x100004) / 0x1000) ||| d.resetWord
      else if d.base = 0xa00020 then d.resetWord ||| (Config.fuseMv.setWidth 32 <<< 16)
      else d.resetWord

end Sys2Proof.Machine
end

