-- ==== Sys2Proof/Machine/Ops.lean ====
section
/-! DEFINITION. The named operations over registers, HBM, outputs, the event FIFO and the Attic that every family uses. -/

namespace Sys2Proof.Machine

/-- What a meaning answers. -/
abbrev Eff := Host.Outcome State Fault Refusal

/-! ## Registers -/

/-- The stored value of a register: what was last written, else its reset value (R17). -/
def State.reg (s : State) (off : Nat) : Word :=
  match NMap.get? s.regs off with
  | some v => v
  | none => regReset off

/-- The state with a register's stored value set. -/
def State.setReg (s : State) (off : Nat) (v : Word) : State := { s with regs := NMap.set s.regs off v }

/-- A field of a register. -/
def State.fld (s : State) (f : RegF) : Nat := (s.reg f.off).toNat / 2 ^ f.lo % 2 ^ f.w

/-- A one-bit field. -/
def State.flag (s : State) (f : RegF) : Bool := s.fld f == 1

/-- A word with the bits of a field replaced. -/
def putBits (r lo w v : Nat) : Nat := r - (r / 2 ^ lo % 2 ^ w) * 2 ^ lo + (v % 2 ^ w) * 2 ^ lo

/-- The state with a field set. -/
def State.setFld (s : State) (f : RegF) (v : Nat) : State :=
  s.setReg f.off (BitVec.ofNat 32 (putBits (s.reg f.off).toNat f.lo f.w v))

/-- The state with a counter field raised by `n`, saturating at its widest value. -/
def State.bumpBy (s : State) (f : RegF) (n : Nat) : State := s.setFld f (Nat.min (2 ^ f.w - 1) (s.fld f + n))

/-- The state with a counter field raised by 1, saturating. -/
def State.bump (s : State) (f : RegF) : State := s.bumpBy f 1

/-- The 64-bit value of a _LO and _HI pair. -/
def State.pair (s : State) (lo : Nat) : Nat := (s.reg lo).toNat + (s.reg (lo + 4)).toNat * 4294967296

/-- The state with both halves of a pair set. -/
def State.setPair (s : State) (lo v : Nat) : State :=
  (s.setReg lo (BitVec.ofNat 32 v)).setReg (lo + 4) (BitVec.ofNat 32 (v / 4294967296))

/-- The state with a 64-bit counter pair raised by `n`. -/
def State.bumpPair (s : State) (lo n : Nat) : State := s.setPair lo (s.pair lo + n)

/-- The machine at fabric time `t`, which never runs back. -/
def State.at (s : State) (t : Nat) : State := { s with now := Nat.max s.now t }

/-! ## HBM and flash bytes -/

/-- What an unlisted byte reads as: 00h (log 4, DESIGN CHOICE). -/
def Memory.unlisted : BitVec 8 := 0

/-- The canonical form: addresses strictly rising, no entry that equals the unlisted value. -/
def Memory.wf : List Host.Cell → Bool
  | [] => true
  | [(_, b)] => b != Memory.unlisted
  | (a, b) :: (a', b') :: m => b != Memory.unlisted && a < a' && Memory.wf ((a', b') :: m)

/-- One byte. -/
def Memory.read : List Host.Cell → Nat → BitVec 8
  | [], _ => Memory.unlisted
  | (a, b) :: m, x => if x = a then b else Memory.read m x

/-- One byte written, the form kept. -/
def Memory.write : List Host.Cell → Nat → BitVec 8 → List Host.Cell
  | [], x, v => if v = Memory.unlisted then [] else [(x, v)]
  | (a, b) :: m, x, v =>
    if x < a then (if v = Memory.unlisted then (a, b) :: m else (x, v) :: (a, b) :: m)
    else if x = a then (if v = Memory.unlisted then m else (x, v) :: m)
    else (a, b) :: Memory.write m x v

/-- Consecutive bytes written. -/
def Memory.writeBytes : List Host.Cell → Nat → List Byte → List Host.Cell
  | m, _, [] => m
  | m, x, b :: bs => Memory.writeBytes (Memory.write m x b) (x + 1) bs

/-- `n` consecutive bytes. -/
def Memory.readBytes (m : List Host.Cell) : Nat → Nat → List Byte
  | _, 0 => []
  | x, n + 1 => Memory.read m x :: Memory.readBytes m (x + 1) n

/-- Bytes written where the enables of their line allow it. -/
def Memory.writeEn : List Host.Cell → Nat → Line → B64 → Nat → List Host.Cell
  | m, _, _, _, 0 => m
  | m, a, l, be, i + 1 =>
    let m' := Memory.writeEn m a l be i
    if be.getLsbD i then Memory.write m' (a + i) (BitVec.ofNat 8 (l.toNat / 256 ^ i)) else m'

/-- The line at an HBM line address. -/
def State.readLine (s : State) (a : Nat) : Line := bytesLine (Memory.readBytes s.mem a 64)

/-- A line written under byte enables. A full-line write ends the poison of the line; a poisoned write poisons it
(R96, R119, R144). -/
def State.writeLine (s : State) (a : Nat) (l : Line) (be : B64) (poison : Bool) : State :=
  { s with
    mem := Memory.writeEn s.mem a l be 64
    poison := if poison then (if s.poison.contains a then s.poison else a :: s.poison)
      else if be = allBe then s.poison.filter (· != a) else s.poison }

/-- Address of a stack byte in the HBM byte space of the model: stack number above the 35 bits of a stack address (R133). -/
def hbmAddr (stack a : Nat) : Nat := stack * 2 ^ 35 + a

/-- The model's place of boot-flash byte `a` (R516): above every HBM address. -/
def flashAddr (a : Nat) : Nat := 2 ^ 40 + a

/-! ## Outputs -/

/-- One more output. -/
def State.emit (s : State) (o : Out) : State := { s with out := s.out ++ [o] }

/-- A number of the model's own, and the state that has used it. -/
def State.fresh1 (s : State) : Nat × State := (s.home.next, { s with home := { s.home with next := s.home.next + 1 } })

/-- A free value (log 3) and the state that has taken it. -/
def State.free (s : State) : B64 × State := (Config.free s.fresh, { s with fresh := s.fresh + 1 })

/-- BAR0 offset of MSI-X table vector control `v` (R549, PCI Express format). -/
def msixCtl (v : Nat) : Nat := 0x800c + 16 * v

/-- Vector `v` of the management endpoint raised: sent while Bus Master Enable is 1 and the vector is not masked, else
pending (R549). -/
def State.raise (s : State) (v : Nat) : State :=
  if s.ep.bme && !s.ep.d3 && ((s.reg (msixCtl v)).toNat % 2 == 0) then s.emit (.msix v)
  else { s with ep := { s.ep with pba := if s.ep.pba.contains v then s.ep.pba else v :: s.ep.pba } }

/-- Work is drained: DRAIN, FAULT, or steps 1 to 3 of a warm reset (R452, R514). -/
def State.draining (s : State) : Bool := s.flt.st != .normal || s.pwr.st == .warmDrain

/-- Between a reset and HEARTH_UP: events wait in the backlog, since RESET comes first (R444). -/
def State.starting (s : State) : Bool := s.pwr.st == .reset || s.pwr.st == .cold || s.pwr.st == .warmBoot

/-! ## Events (R440 to R443) -/

/-- SOURCE code of an event header (R440). -/
def Source.code : Source → Nat
  | .ring n => n.toNat | .mailbox => 4 | .mctp => 5 | .monitor => 6 | .relay => 7

/-- Code of a status (R427). -/
def Status.code : Status → Nat
  | .ok => 0 | .pending => 1 | .badOpcode => 2 | .badParam => 3 | .noResource => 4 | .denied => 5 | .busy => 6
  | .conflict => 7 | .aborted => 8 | .schemaMismatch => 9 | .timeout => 10 | .faulted => 11

/-- Payload bytes as words of four bytes each, VALID set; the last has END (R440). -/
def payloadWords : Nat → List Byte → List B64
  | 0, _ => []
  | n + 1, bs =>
    BitVec.ofNat 64 (2 ^ 63 + (if n = 0 then 2 ^ 62 else 0) + leNat (bs.take 4)) :: payloadWords n (bs.drop 4)

/-- The words of an event (R440): header, time, payload; an event has at least one payload word. -/
def eventWords (type tag status source time : Nat) (payload : List Byte) : List B64 :=
  let n := Nat.max 1 ((payload.length + 3) / 4)
  BitVec.ofNat 64 (2 ^ 63 + type % 65536 + tag % 65536 * 2 ^ 16 + status % 65536 * 2 ^ 32 + (n + 2) % 1024 * 2 ^ 48
      + source % 16 * 2 ^ 58)
    :: BitVec.ofNat 64 (2 ^ 63 + time % 2 ^ 62) :: payloadWords n payload

/-- Words waiting in the backlog. -/
def Cmds.backlogWords (c : Cmds) : Nat := c.backlog.foldl (fun n e => n + e.length) 0

/-- Backlog words reserved for completions (R443). -/
def Cmds.reserved (c : Cmds) : Nat := c.pend.foldl (fun n p => n + p.words) 0

/-- An event posted: into the FIFO if it fits and none waits, else into the backlog; an event that is no completion is
dropped and counted if the backlog cannot take it (R443). -/
def State.postWords (s : State) (ws : List B64) (completion : Bool) : State :=
  let c := s.cmds
  if !s.starting && c.backlog.isEmpty && c.fifo.length + ws.length ≤ 4096 then
    ({ s with cmds := { c with fifo := c.fifo ++ ws } }).raise 0
  else if completion || c.backlogWords + c.reserved + ws.length ≤ 65536 then
    { s with cmds := { c with backlog := c.backlog ++ [ws] } }
  else
    ({ s with cmds := { c with dropped := Nat.min 0xFFFFFFFF (c.dropped + 1) } }).setFld EVT_STAT_fDROP_SEEN 1

/-- An event of the switch itself (SOURCE 8h), at the present fabric time (R441). -/
def State.post (s : State) (type : Nat) (payload : List Byte) : State :=
  s.postWords (eventWords type 0 0 8 s.now payload) false

/-! ## PENDING commands (R430, R431) -/

/-- The result of a PENDING command's work recorded; COMMAND_COMPLETION posts it. -/
def State.finish (s : State) (p : Pend → Bool) (r : WorkRes) : State :=
  { s with cmds := { s.cmds with
      pend := s.cmds.pend.map fun c => if p c && c.res.isNone then { c with res := some r } else c } }

/-- The work of a command with this work item has ended. -/
def State.finishWork (s : State) (w : Work) (st : Status) (data : List Byte) : State :=
  s.finish (fun c => c.work == w) ⟨st, 0, data⟩

/-! ## The Attic (R458 to R461) -/

/-- What a checker reports (R459); the switch adds the time, SEQ, DRAIN and COUNT. -/
structure Report where
  checker : Nat
  /-- Class code: 0 corrected, 1 contained, 2 fatal (R446). -/
  cls : Nat := 1
  source : Nat := 0
  unit : Nat := 0
  room : Nat := 0
  tag : Nat := 0
  addr : Nat := 0
  payload : Nat := 0
  transient : Bool := false
  lasting : Bool := false
  injected : Bool := false
deriving DecidableEq, Repr

/-- An Attic event as its 64 bytes (R459). -/
def eventBytes (e : Event) : List Byte :=
  leBytes 64 (packBits [(e.time, 64), (e.seq, 32), (e.checker, 16), (e.cls, 2), (b2n e.transient, 1), (b2n e.lasting, 1),
    (b2n e.injected, 1), (b2n e.drain, 1), (e.room, 6), (e.source, 4), (e.unit, 32), (e.tag, 16), (e.count, 16),
    (e.addr, 64), (e.payload, 256)])

/-- Is HBM stack `i` trained and not lost (R554)? -/
def State.stackUp (s : State) (i : Nat) : Bool :=
  s.flag (HBM_STK_STAT_fTRAINED i) && !s.flag (HBM_STK_STAT_fLOST i)

/-- The event that a report makes now. -/
def State.eventOf (s : State) (r : Report) : Event :=
  { time := s.now, seq := s.flt.seq, checker := r.checker, cls := r.cls, transient := r.transient, lasting := r.lasting,
    injected := r.injected, drain := s.flt.st != .normal, room := r.room, source := r.source, unit := r.unit, tag := r.tag,
    count := 1, addr := r.addr, payload := r.payload }

/-- Does an event merge into the newest ring entry (R461)? -/
def mergesInto (n e : Event) : Bool :=
  e.cls != 2 && n.checker == e.checker && n.source == e.source && n.unit == e.unit && n.cls == e.cls
    && n.time ≤ e.time && e.time - n.time ≤ 1000000

/-- The overflow log with one more record; it holds 65,536, and an unread record that is overwritten is lost (R461). -/
def State.logRecord (s : State) (e : Event) : State :=
  if !s.stackUp 1 then s
  else
    let full := 65536 ≤ s.flt.log.length
    let lost := full && (match s.flt.log with | (_, rd) :: _ => !rd | [] => false)
    let s1 := { s with flt := { s.flt with log := (if full then s.flt.log.drop 1 else s.flt.log) ++ [(e, false)] } }
    if lost then s1.bump FLT_LOG_STAT_fLOST else s1

/-- The class counter of an event (R465). -/
def clsCounter (cls : Nat) : RegF :=
  if cls = 0 then FLT_CE_CNT_fCOUNT else if cls = 1 then FLT_CT_CNT_fCOUNT else FLT_FT_CNT_fCOUNT

/-- An event written to the Attic: counted, logged, merged or given a ring entry, and a FAULT event posted for a new ring
entry (R461). -/
def State.record (s : State) (r : Report) : State :=
  let e := s.eventOf r
  let s1 := (s.logRecord e).bump (clsCounter r.cls)
  let s2 := { s1 with flt := { s1.flt with seq := (s1.flt.seq + 1) % 4294967296 } }
  match s2.flt.ring.getLast? with
  | some n =>
    if mergesInto n e then
      { s2 with flt := { s2.flt with
          ring := s2.flt.ring.dropLast ++ [{ n with count := Nat.min 65535 (n.count + 1) }] } }
    else
      ({ s2 with flt := { s2.flt with
          ring := (if 32 ≤ s2.flt.ring.length then s2.flt.ring.drop 1 else s2.flt.ring) ++ [e]
          ringNext := (s2.flt.ringNext + 1) % 32 } }).post 0x30 (eventBytes e)
  | none =>
    ({ s2 with flt := { s2.flt with ring := [e], ringNext := (s2.flt.ringNext + 1) % 32 } }).post 0x30 (eventBytes e)

/-- A corrected fault. -/
def State.corrected (s : State) (checker source unit : Nat) : State :=
  s.record { checker := checker, cls := 0, source := source, unit := unit }

end Sys2Proof.Machine
end

