-- ==== Sys2Proof/Machine/Switch.lean ====
section
/-! DEFINITION. The switch core (spec/06): ports seen from the Vestibule, its accounting and credits, egress, synthetic
completions, and the arbiters' order. -/

namespace Sys2Proof.Machine

/-! ## Parts of the state -/

def State.mapHome (s : State) (f : Home → Home) : State := { s with home := f s.home }
def State.mapPool (s : State) (f : Pool → Pool) : State := { s with pool := f s.pool }
def State.mapPan (s : State) (f : Pantry → Pantry) : State := { s with pan := f s.pan }
def State.mapPorts (s : State) (f : Ports → Ports) : State := { s with ports := f s.ports }
def State.mapCmds (s : State) (f : Cmds → Cmds) : State := { s with cmds := f s.cmds }
def State.mapFlt (s : State) (f : Faults → Faults) : State := { s with flt := f s.flt }

/-- A port's own state. -/
def State.port (s : State) (p : Nat) : PortSt :=
  match NMap.get? s.ports.st p with
  | some x => x
  | none => {}

/-- The state with a port's own state changed. -/
def State.mapPort (s : State) (p : Nat) (f : PortSt → PortSt) : State :=
  s.mapPorts fun x => { x with st := NMap.set x.st p (f (s.port p)) }

/-- The fabric ID that the routing table gives a port: that of its host or edge device (R328); 0 while it gives none. -/
def State.portId (s : State) (p : Nat) : Nat :=
  match s.ports.route.find? fun r => r.2 == (p, false) with
  | some r => r.1
  | none => 0

/-- A Doorway channel (R401). -/
def State.dch (s : State) (n : Nat) : DwCh := (NMap.get? s.dwy n).getD {}

/-- The state with a Doorway channel changed. -/
def State.mapDch (s : State) (n : Nat) (f : DwCh → DwCh) : State := { s with dwy := NMap.set s.dwy n (f (s.dch n)) }

/-- The return record of a port's Doorway channel discarded (R416). -/
def State.dropRet (s : State) (p : Nat) : State :=
  match (s.port p).dch with
  | some n => s.mapDch n fun c => { c with ret := none, back := false }
  | none => s

/-! ## Ports (R280, R302) -/

/-- Mode and ports of a lane group (R280, R285). -/
def State.group (s : State) (g : Nat) : Nat × List Nat :=
  match NMap.get? s.ports.grp g with
  | some x => x
  | none => (0, [g])

/-- The lane group that holds a port number (the even one of a pair, R281). -/
def State.portGroup (s : State) (p : Nat) : Option Nat := (List.range 32).find? fun g => (s.group g).2.contains p

/-- Does a port of this number exist (R563)? -/
def State.portExists (s : State) (p : Nat) : Bool := (s.portGroup p).isSome

/-- Configured width of a port in lanes (R280); 0 if there is none. -/
def State.portWidth (s : State) (p : Nat) : Nat :=
  match s.portGroup p with
  | none => 0
  | some g => match (s.group g).1 with | 0 => 8 | 1 => 4 | 2 => 2 | _ => 16

/-- First lane of a port, and its lane numbers in port lane order (R279, R280). -/
def State.portLanes (s : State) (p : Nat) : List Nat :=
  match s.portGroup p with
  | none => []
  | some g =>
    let w := s.portWidth p
    (List.range w).map fun i => 8 * g + (s.group g).2.idxOf p * w + i

/-- Lane die of a port (R20). -/
def State.portDie (s : State) (p : Nat) : Nat :=
  match s.portGroup p with
  | none => 0
  | some g => g / 8

/-- ROLE codes (R302). -/
def roleUnused : Nat := 0
def roleUpstream : Nat := 1
def rolePt : Nat := 2
def rolePool : Nat := 3
def roleFabric : Nat := 4

def State.role (s : State) (p : Nat) : Nat := s.fld (PRT_CFG_fROLE p)

/-- Is the port's link in L0 (PRT_LINK_STAT.STATE 4h)? -/
def State.inL0 (s : State) (p : Nat) : Bool := s.fld (PRT_LINK_STAT_fSTATE p) == 4

/-- Local Room that a port's REQ messages are charged to (R168): pool-device and fabric ports belong to Room 0 (R196) and
draw on their own reserves. -/
def State.portRoom (s : State) (p : Nat) : Option Nat :=
  if s.role p == roleUpstream || s.role p == rolePt then (s.port p).room else none

/-! ## Rooms -/

/-- A Room by local number. -/
def State.room? (s : State) (r : Nat) : Option Room := NMap.get? s.pool.rooms r

/-- The local Room of a fabric Room ID (R196). -/
def State.localRoom (s : State) (fid : Nat) : Option Nat := (s.pool.rooms.find? fun p => p.2.fid == fid).map (·.1)

def State.mapRoom (s : State) (r : Nat) (f : Room → Room) : State :=
  s.mapPool fun p => { p with rooms := NMap.adjust p.rooms r f }

/-- Allotments of a Room; none if it does not exist. -/
def State.share (s : State) (r : Nat) : Share :=
  match s.room? r with
  | some x => x.share
  | none => {}

/-! ## Message sizes and classes (R165, R166) -/

/-- Data bytes that a message carries. -/
def msgData (m : MsgIn) : Nat :=
  match m.kind with
  | .memWr | .memWrPtl | .drs | .d2hData | .h2dData => 64
  | .ioWrite | .ioCpl | .uio => m.len
  | .ioCfg => if m.be != 0 then 4 else 0
  | .ioAtomic op => if op == .cas then 2 * m.len else m.len
  | _ => 0

/-- Cells of a message (R165). -/
def msgCells (m : MsgIn) : Nat := 1 + (msgData m + 31) / 32

/-- Cells of a message that the switch sends (R165). -/
def Body.cells : Body → Nat
  | .memData .. => 3
  | .ioCpl _ _ _ data _ => 1 + (data.length + 31) / 32
  | .goErr _ _ data => if data then 3 else 1
  | .devReq _ _ wr _ => if wr.isSome then 3 else 1
  | .remReq _ _ _ wr _ => if wr.isSome then 3 else 1
  | .fwd m => msgCells m
  | _ => 1

/-- Accounting class of an arriving message at a port of a role (R166). -/
def msgCls (role : Nat) : MKind → Cls
  | .memRd | .memRdData | .memInv | .memInvNT | .memSpecRd => .req
  | .ioRead | .ioWrite | .ioCfg | .ioAtomic _ | .d2hReq | .uio | .malformed => .req
  | .memWr | .memWrPtl => .rwd
  | .biSnp | .h2dReq => .snp
  | .biRspI | .biRspS | .biRspE | .biConflict | .d2hRsp | .d2hData => .srsp
  | .ndr | .drs => if role = rolePool then .mrsp else .cmp
  | .ioCpl | .h2dRsp | .h2dData | .biConflictAck => .cmp

/-- Rank of a class in the table of R166; the later class wins at a crossbar input (R186). -/
def Cls.rank : Cls → Nat
  | .req => 0 | .rwd => 1 | .snp => 2 | .srsp => 3 | .mrsp => 4 | .cmp => 5

/-- Rank at a home-unit input arbiter: Q-SRSP, then Q-RWD, then Q-REQ (R110). -/
def Cls.homeRank : Cls → Nat
  | .srsp => 2 | .rwd => 1 | _ => 0

/-- Channel code of the flow hash (R178). -/
def chanCode : MKind → Nat
  | .memRd | .memRdData | .memInv | .memInvNT | .memSpecRd => 1
  | .memWr | .memWrPtl => 2
  | .biRspI | .biRspS | .biRspE | .biConflict => 3
  | .biSnp => 4
  | .ndr | .biConflictAck => 5
  | .drs => 6
  | .d2hReq => 7
  | .d2hRsp => 8
  | .d2hData => 9
  | .h2dReq => 10
  | .h2dRsp => 11
  | .h2dData => 12
  | _ => 0

/-- Channel code of a message that the switch makes. -/
def Body.chan : Body → Nat
  | .memData .. => 6
  | .ndr .. | .biConflictAck .. => 5
  | .biSnp .. => 4
  | .ioCpl .. | .errNonfatal .. | .bridgeEvt .. => 0
  | .goErr .. => 11
  | .devReq _ _ wr _ | .remReq _ _ _ wr _ => if wr.isSome then 2 else 1
  | .fwd m => chanCode m.kind

/-- Is a message's flow key its line address (R176): CXL.mem to or from a window? A CXL.io flow has one key for its pair of ports, and
S2M responses on their way through a switch carry no address (DEDUCED, log 225). -/
def byLine : MKind → Bool
  | .memRd | .memRdData | .memInv | .memInvNT | .memSpecRd | .memWr | .memWrPtl => true
  | .biRspI | .biRspS | .biRspE | .biConflict | .biSnp => true
  | _ => false

/-! ## Vestibule accounting (R165 to R172) -/

/-- Reserve of a class at a port of a role and width, in cells (R167). -/
def reserveCells (role w : Nat) (c : Cls) : Nat :=
  match c with
  | .req => if role = roleFabric then 512 * w else 0
  | .rwd => if role = roleUpstream || role = roleFabric then 384 else 0
  | .snp => if role = roleUpstream || role = roleFabric then 128 else 0
  | .srsp => if role = roleUpstream || role = roleFabric then 512 else if role = rolePt then 384 else 0
  | .mrsp => if role = rolePool then 768 * w else 0
  | .cmp => if role = rolePool || role = roleUnused then 0 else 256 * w

/-- All class reserves of one port. -/
def State.portReserve (s : State) (p : Nat) : Nat :=
  [Cls.req, .rwd, .snp, .srsp, .mrsp, .cmp].foldl (fun n c => n + reserveCells (s.role p) (s.portWidth p) c) 0

/-- Ports of a lane die. -/
def State.diePorts (s : State) (die : Nat) : List Nat :=
  (List.range 8).flatMap fun i => (s.group (8 * die + i)).2

/-- VST_LD_RES: cells in class reserves on a die (R194). -/
def State.dieRes (s : State) (die : Nat) : Nat := (s.diePorts die).foldl (fun n p => n + s.portReserve p) 0

/-- Has a Room a port on a die? -/
def State.roomOnDie (s : State) (r die : Nat) : Bool := (s.diePorts die).any fun p => s.portRoom p == some r

/-- Room shares held on a die (R168). -/
def State.dieShares (s : State) (die : Nat) : Nat :=
  s.pool.rooms.foldl (fun n x => if s.roomOnDie x.1 die then n + x.2.share.vst else n) 0

/-- VST_LD_SHARED: the shared pool of a die (R169). -/
def State.sharedPool (s : State) (die : Nat) : Nat := 393216 - s.dieRes die - s.dieShares die

/-- The cap of each Room on a die (R169). -/
def State.sharedCap (s : State) (die : Nat) : Nat := s.fld VST_SHARE_CFG_fCAP_PCT * s.sharedPool die / 100

/-- Key of a port's credits of a REQ channel (R170, R561): 0 M2S Req, 1 CXL.io posted header, 2 CXL.io non-posted header,
3 posted data, 4 non-posted data, 5 CXL.cache D2H Req. -/
def credKey (p chan : Nat) : Nat := p * 16 + chan

/-- The REQ credit channels. -/
def reqChans : List Nat := [0, 1, 2, 3, 4, 5]

def State.creds (s : State) (p chan : Nat) : Nat := (NMap.get? s.home.credits (credKey p chan)).getD 0

/-- Cells that `n` credits of a channel commit (R170): one for each header or request, one for each two data credits. -/
def credCells (chan n : Nat) : Nat := if chan = 3 || chan = 4 then (n + 1) / 2 else n

/-- The most credits of a REQ channel that a port advertises (R561): M2S Req arrives on upstream ports, D2H Req on pass-through ports
whose binding enables CXL.cache. The spec gives the figures of upstream ports; DESIGN CHOICE (log 224): a pass-through port has the
same ones, and as many for D2H Req as for M2S Req. -/
def State.credMax (s : State) (p chan : Nat) : Nat :=
  let w := s.portWidth p
  if chan = 0 then (if s.role p == roleUpstream then 32 * w else 0)
  else if chan = 3 then 64 * w
  else if chan = 5 then (if s.role p == rolePt && s.ports.vppb.any fun v => v.port == p && v.cache then 32 * w else 0)
  else 8 * w

/-- Cells that a port's REQ credits commit (R170). -/
def State.portCommit (s : State) (p : Nat) : Nat := reqChans.foldl (fun n c => n + credCells c (s.creds p c)) 0

/-- Cells that the credits of a Room's ports on a die commit (R170). -/
def State.committed (s : State) (r die : Nat) : Nat :=
  ((s.diePorts die).filter fun p => s.portRoom p == some r).foldl (fun n p => n + s.portCommit p) 0

/-- Cells that a Room's REQ messages hold on a die; one that came by the extra credit of R76 lies outside. -/
def State.heldCells (s : State) (r die : Nat) : Nat :=
  s.home.vst.foldl (fun n v =>
    if v.cls == .req && v.room == some r && s.portDie v.port == die && !v.extra then n + v.cells else n) 0

/-- VST_ROOM_USE: cells that a Room holds or has committed on a die (R194). -/
def State.roomCells (s : State) (r die : Nat) : Nat := s.heldCells r die + s.committed r die

/-- Cells that the credits and REQ messages of upstream and pass-through ports in no Room take from the shared pool of a die
(R561). -/
def State.looseCells (s : State) (die : Nat) : Nat :=
  (((s.diePorts die).filter fun p => (s.role p == roleUpstream || s.role p == rolePt) && (s.portRoom p).isNone).foldl (fun n p =>
    n + s.portCommit p) 0) +
  s.home.vst.foldl (fun n v =>
    if v.cls == .req && v.room.isNone && (s.role v.port == roleUpstream || s.role v.port == rolePt) && s.portDie v.port == die
    then n + v.cells else n) 0

/-- VST_LD_SHUSED: shared-pool cells in use on a die (R169, R561). -/
def State.sharedUsed (s : State) (die : Nat) : Nat :=
  s.looseCells die + s.pool.rooms.foldl (fun n x =>
    if s.roomOnDie x.1 die then n + (s.roomCells x.1 die - x.2.share.vst) else n) 0

/-- Cells that a Room can commit on a die, from its share or within its cap and the shared pool (R169, R170). -/
def State.roomAvail (s : State) (r die : Nat) : Nat :=
  let share := (s.share r).vst
  let have_ := s.roomCells r die
  share + Nat.min (s.sharedCap die) (s.sharedPool die - (s.sharedUsed die - (have_ - share))) - have_

/-- Can a Room commit `n` more cells on a die? -/
def State.canCommit (s : State) (r die n : Nat) : Bool := n ≤ s.roomAvail r die

/-- Credits of a REQ channel returned to a port's partner, as many as its Room can commit cells for and the channel still lacks,
while its peak bucket does not withhold them: M2S Req and CXL.io request credits (R170, R239). -/
def State.returnCredits (s : State) (p chan : Nat) : State :=
  match s.portRoom p with
  | none => s
  | some r =>
    if !s.inL0 p || (chan != 5 && s.flag (QOS_BKT_STAT_fHELD p)) then s
    else
      let n := s.creds p chan
      let room := s.roomAvail r (s.portDie p)
      let k := Nat.min (s.credMax p chan - n) (if chan = 3 || chan = 4 then 2 * room + n % 2 else room)
      if k = 0 then s
      else (s.mapHome fun h => { h with credits := NMap.set h.credits (credKey p chan) (n + k) }).emit (.credit p chan k)

/-- REQ_HELD of a port after its credits were looked at (R194). -/
def State.noteHeld (s : State) (p : Nat) : State :=
  match s.portRoom p with
  | none => s
  | some r =>
    let held := s.inL0 p && (s.flag (QOS_BKT_STAT_fHELD p) || !s.canCommit r (s.portDie p) 1)
    let s1 := s.setFld (VST_PORT_STAT_fREQ_HELD p) (b2n held)
    if held then s1.setFld (VST_PORT_STAT_fHELD_SEEN p) 1 else s1

/-- The other ports of a die that carry REQ messages of a Room and are in L0. -/
def State.sharers (s : State) (p : Nat) : List Nat :=
  (s.diePorts (s.portDie p)).filter fun q => q != p && (s.portRoom q).isSome && s.inL0 q

/-- Credits looked at after cells were freed at a port: its own channels first, then those of the other ports on its die, which
share its Room's share or the shared pool, in ascending number (DESIGN CHOICE, log 224). -/
def State.refill (s : State) (p : Nat) : State :=
  let one := fun (a : State) (q : Nat) => (reqChans.foldl (fun b c => b.returnCredits q c) a).noteHeld q
  (s.sharers p).foldl one (one s p)

/-! ## Egress (R175, R229 to R231) -/

/-- Queue of a message at an egress port by class and colour, as QOS_QMAP stands (R230). -/
def State.queueOf (s : State) (p : Nat) (c : Cls) (yellow : Bool) : Nat :=
  match c with
  | .snp => s.fld (QOS_QMAP_fSNP_Q p)
  | .srsp => s.fld (QOS_QMAP_fSRSP_Q p)
  | .cmp | .mrsp => s.fld (QOS_QMAP_fCMP_Q p)
  | .rwd => s.fld (QOS_QMAP_fRWD_Q p)
  | .req => if yellow then s.fld (QOS_QMAP_fREQY_Q p) else s.fld (QOS_QMAP_fREQG_Q p)

/-- A message made a member of a queue of an egress port (R230, R231). -/
def State.join (s : State) (p id : Nat) (c : Cls) (yellow : Bool) : State :=
  s.mapPort p fun x => { x with queue := NMap.set x.queue id (s.queueOf p c yellow) }

/-- The plane of a message that leaves an ingress point for a port (R178): from a home unit by its number and the port's, from a port
by the flow hash with the destination's fabric ID. -/
def State.egressPlane (s : State) (p src : Nat) (b : Body) : Bool :=
  if 64 ≤ src then (src + p) % 2 == 1
  else
    let dest := match b with
      | .fwd m => if s.role p == roleFabric then m.dpid.toNat else s.portId p
      | _ => s.portId p
    flowHash src dest b.chan % 2 == 1

/-- A message of the switch placed at an egress port; a message to a port whose link is down is handled as one queued at
the down instant: a response is discarded (R335), and in DRAIN and FAULT counted as failed (R454). A request sent on keeps the
fabric time of its notice, from which it is aged (R181). -/
def State.push (s : State) (p : Nat) (c : Cls) (src : Nat) (b : Body) (t0 : Option Nat := none) : State :=
  if s.inL0 p then
    let (id, s1) := s.fresh1
    (s1.mapHome fun h => { h with egress := h.egress ++
      [{ id := id, port := p, cls := c, room := s.portRoom p, src := src,
         plane := s.egressPlane p src b, t0 := t0.getD s.now, bytes := 32 * b.cells, body := b }] }).join p id c false
  else if s.flt.st != .normal then s.mapFlt fun f => { f with failed := f.failed + 1 }
  else s

/-- A completion of home unit `hu` (R178). -/
def State.pushHome (s : State) (p hu : Nat) (c : Cls) (b : Body) : State := s.push p c (64 + hu) b

/-! ## Routing (R179, R328) -/

/-- Live members of the fabric-port group to a neighbouring switch, ascending (R179, R306). -/
def State.members (s : State) (sw : Nat) : List Nat :=
  (s.ports.st.filter fun p => p.2.neighbour == some sw && p.2.member && s.inL0 p.1).map (·.1)

/-- The member of the group to a neighbouring switch that a flow of this hash takes (R179). -/
def State.memberOf (s : State) (sw hash : Nat) : Option Nat :=
  let ms := s.members sw
  if ms.isEmpty then none else ms[hash % ms.length]?

/-- The lowest member of the group to a neighbouring switch. -/
def State.portTo (s : State) (sw : Nat) : Option Nat := s.memberOf sw 0

/-- The port that the routing table gives a fabric ID for a flow of this hash (R179, R328, R329). -/
def State.routeTo (s : State) (fid hash : Nat) : Option Nat :=
  match NMap.get? s.ports.route fid with
  | some (p, false) => some p
  | some (sw, true) => s.memberOf sw hash
  | none => none

/-! ## Synthetic completions (R183) -/

/-- Does a CXL.mem request expect data? -/
def expectsData : MKind → Bool
  | .memRd | .memRdData => true
  | _ => false

/-- The port to whose host the virtual bridge of entry reports: for a pass-through port, the upstream port of its virtual switch. -/
def State.bridgeHost (s : State) (p : Nat) : Nat :=
  if s.role p == rolePt then (match s.ports.vppb.find? fun v => v.port == p with | some v => v.vcs | none => p) else p

/-- The synthetic completion of a discarded request, to the port it came from (R183). -/
def State.synth (s : State) (p src : Nat) (m : MsgIn) : State :=
  let h := m.host.toNat
  let g := m.tag.toNat
  match m.kind with
  | .memRd | .memRdData => (s.push p .cmp src (.memData h g 0 true 0)).push p .cmp src (.ndr h g .cmpI 0)
  | .memInv | .memInvNT | .memWr | .memWrPtl => s.push p .cmp src (.ndr h g .err 0)
  | .ioRead | .ioCfg | .ioAtomic _ => s.push p .cmp src (.ioCpl h g .ca [] false)
  | .ioWrite => s.push (s.bridgeHost p) .cmp src (.errNonfatal h g)
  | .d2hReq => s.push p .cmp src (.goErr h g (0 < m.len))
  | _ => s

/-- A message that leaves the Vestibule of its ingress port (R164); its cells are free. -/
def State.leave (s : State) (v : VMsg) : State :=
  (s.mapHome fun h => { h with vst := h.vst.filter fun x => x.id != v.id }).refill v.port

/-- SOURCE and UNIT codes of R460 used by several families. -/
def srcPort : Nat := 1
def srcHome : Nat := 5
def srcWindow : Nat := 6
def srcBinding : Nat := 7
def srcRoom : Nat := 8
def unitBinding (win host : Nat) : Nat := win + host * 4096

/-- A request discarded with its synthetic completion and a record of checker type `ck` (R183, R184). -/
def State.discard (s : State) (v : VMsg) (ck : Nat) : State :=
  let s1 := (s.leave v).synth v.port v.port v.m
  let s2 := s1.record
    { checker := ck, source := srcPort, unit := v.port, room := v.room.getD 0, tag := v.m.tag.toNat,
      addr := v.m.addr.toNat, payload := packBits [(s.now - v.t0, 64), (v.cls.rank, 8)] }
  if ck = 0x4300 then s2.bump (VST_PORT_STAT_fAGE_CNT v.port) else s2

/-! ## Arbiters (R186, R188, R190 to R192) -/

/-- Counters of one arbiter decision (R188): a grant for the winner, a waiting cycle for each loser. -/
def State.countArb (s : State) (type inst winner : Nat) (losers : List Nat) : State :=
  if !s.flag XBR_ARB_CTL_fCNT_EN then s
  else
    let key := fun r => (type * 256 + inst) * 128 + r
    let bumpW := fun (m : NMap (Nat × Nat × Nat × Nat)) r =>
      let c := (NMap.get? m (key r)).getD (0, 0, 0, 0)
      NMap.set m (key r) (c.1, c.2.1 + 1, Nat.max c.2.2.1 (c.2.2.2 + 1), c.2.2.2 + 1)
    s.mapHome fun h =>
      let m := losers.foldl bumpW h.arb
      let c := (NMap.get? m (key winner)).getD (0, 0, 0, 0)
      { h with arb := NMap.set m (key winner) (c.1 + 1, c.2.1, c.2.2.1, 0) }

/-- Crossbar destination attachment and plane as an arbiter instance (R195): ports 0 to 63, home units 64 to 95. -/
def xbarInst (a : Nat) (plane : Bool) : Nat := 2 * a + b2n plane

/-- Key of a crossbar input arbiter's round-robin pointer. -/
def xbarRr (inst level : Nat) : Nat := 0x10000 + inst * 8 + level

/-- Level of a source attachment at a crossbar input (R186). -/
def State.srcLevel (s : State) (src : Nat) : Nat := if 64 ≤ src then 7 else s.fld (XBR_PRIO_p_fLEVEL src)

/-- A crossbar input arbiter has granted a source (R186, R188); a message of several beats is a locked sequence (R190). -/
def State.xbarGrant (s : State) (a : Nat) (plane : Bool) (src cells : Nat) (losers : List Nat) : State :=
  let k := xbarInst a plane
  (s.countArb 0 k src losers).mapHome fun h => { h with
    rr := NMap.set h.rr (xbarRr k (s.srcLevel src)) src
    xlock := if 1 < cells then (if h.xlock.contains k then h.xlock else k :: h.xlock) else h.xlock.filter (· != k) }

/-- An HBM channel's arbiter. -/
def State.hchan (s : State) (k : Nat) : HChan := (NMap.get? s.home.hbm k).getD {}

/-- Level of a requester of an HBM channel (R186). -/
def State.hbmLevel (s : State) (req : Nat) : Nat :=
  if req = 8 then s.fld XBR_HBM_PRIO_fMOV_LVL else if req = 9 then s.fld XBR_HBM_PRIO_fHRT_LVL else s.fld XBR_HBM_PRIO_fHU_LVL

/-- Key of an HBM channel arbiter's round-robin pointer. -/
def hbmRr (k level : Nat) : Nat := 0x20000 + k * 8 + level

/-- A sequence granted an HBM channel while others wait: it holds the channel, and its lock, until the next one is granted. -/
def State.hbmGrant (s : State) (k : Nat) (q : HSeq) (wait : List HSeq) : State :=
  (s.countArb 2 k q.req (wait.map (·.req))).mapHome fun h => { h with
    hbm := NMap.set h.hbm k { cur := some q, wait := wait }
    rr := if q.req < 10 then NMap.set h.rr (hbmRr k (s.hbmLevel q.req)) q.req else h.rr }

/-- A request at an HBM channel (R190 to R192). A sequence granted earlier has ended by its last beat; while refresh has the channel the
request waits, behind the sequence that refresh displaced. -/
def State.hbmAsk (s : State) (k : Nat) (q : HSeq) : State :=
  if s.home.refresh.contains k then
    s.mapHome fun h => { h with hbm := NMap.set h.hbm k { s.hchan k with wait := (s.hchan k).wait ++ [q] } }
  else s.hbmGrant k q []

/-- Does requester `b` win an HBM channel over `a` (R186, R191): the debug port first, then by level, then by round-robin? -/
def State.hbmBetter (s : State) (k : Nat) (a b : Nat) : Bool :=
  if a = 11 || b = 11 then a != 11
  else
    let la := s.hbmLevel a
    let lb := s.hbmLevel b
    let dist := fun (r : Nat) => match NMap.get? s.home.rr (hbmRr k la) with | some l => (r + 9 - l) % 10 | none => r
    la < lb || (la == lb && dist b < dist a)

/-- Grants to the requesters that waited for the end of refresh, one after the other, once the displaced sequence has gone on to its
end (R191, R192). -/
def State.hbmDrain (k : Nat) : Nat → State → State
  | 0, s => s
  | n + 1, s =>
    match (s.hchan k).wait with
    | [] => s
    | x :: xs =>
      let best := xs.foldl (fun b q => if s.hbmBetter k b.req q.req then q else b) x
      State.hbmDrain k n (s.hbmGrant k best ((x :: xs).erase best))

/-- The age limit in ns (R182). -/
def State.ageLimit (s : State) : Nat := s.fld VST_AGE_CFG_fLIMIT * 1000

/-- Has a REQ-class message reached the age limit (R181, R182)? -/
def State.aged (s : State) (v : VMsg) : Bool := v.cls == .req && s.ageLimit ≤ s.now - v.t0

/-! ## Fault injection (R463) and the outcome of a check (R447) -/

/-- What one check sees. -/
inductive Seen where
  | clean | ce | ue
deriving DecidableEq, Repr

/-- Set bits of the low `w` bits of a number. -/
def onesIn (v : Nat) : Nat → Nat
  | 0 => 0
  | w + 1 => onesIn v w + (if v / 2 ^ w % 2 = 1 then 1 else 0)

/-- One check of a checker whose code has `w` check bits, SEC-DED if `w` is 8: the armed checker inverts the bits that
FLT_INJ_MASK selects (R463). -/
def State.check1 (s : State) (ck w : Nat) (secded : Bool) : Seen × State :=
  if s.fld FLT_INJ_CTL_fARM != 0 && s.fld FLT_INJ_CTL_fCHECKER == ck then
    let s1 := s.setFld FLT_INJ_CTL_fFIRED 1
    let s2 := if s.fld FLT_INJ_CTL_fARM == 1 then s1.setFld FLT_INJ_CTL_fARM 0 else s1
    let n := onesIn (s.fld FLT_INJ_MASK_fMASK) w
    (if n = 0 then .clean else if secded && n = 1 then .ce else .ue, s2)
  else (.clean, s)

/-- Crossbar beat parity at a home unit (type 06h of R449): the checker of its core die and plane. -/
def xbarChecker (hu : Nat) (plane : Bool) : Nat := 0x0600 + 2 * (hu / 16) + b2n plane

/-- A lasting single-bit error of a stack adds its row, a free value (log 3), to the retired-row list of 16 entries; a row that
finds the list full sets FULL (R448). -/
def State.retire (s : State) (k : Nat) : State :=
  let (row, s1) := s.free
  let rows := s1.flt.retired.getD k []
  if 16 ≤ rows.length then s1.setFld (FLT_HBM_RR_s_fFULL k) 1
  else
    { s1 with flt := { s1.flt with retired := s1.flt.retired.set k (rows ++ [row.toNat]) } }.setFld (FLT_HBM_RR_s_fENTRIES k)
      (rows.length + 1)

/-- A corrected error of data read from HBM by home unit `ck % 256` (types 0Ah, 0Bh and 0Ch) counts at its stack (R134, R554). -/
def State.hbmCe (s : State) (ck : Nat) (lasting : Bool) : State :=
  if 0x0a ≤ ck / 256 && ck / 256 ≤ 0x0c then
    let k := 2 * (ck % 256 / 16) + ck % 2
    let s1 := s.bump (HBM_ECC_fCE_CNT k)
    if lasting then s1.retire k else s1
  else s

/-- A check without a retry (R449): true means uncorrectable, which the caller records. -/
def State.checkOnce (s : State) (r : Report) : Bool × State :=
  match s.check1 r.checker 8 true with
  | (.clean, s1) => (false, s1)
  | (.ce, s1) => (false, s1.record { r with cls := 0, injected := true })
  | (.ue, s1) => (true, s1)

/-- A check with one retry (R447): a corrected outcome is recorded; true means uncorrectable, which the caller records. -/
def State.checkRetry (s : State) (r : Report) : Bool × State :=
  match s.check1 r.checker 8 true with
  | (.clean, s1) => (false, s1)
  | (_, s1) =>
    match s1.check1 r.checker 8 true with
    | (.clean, s2) => (false, (s2.hbmCe r.checker false).record { r with cls := 0, transient := true, injected := true })
    | (.ce, s2) => (false, (s2.hbmCe r.checker true).record { r with cls := 0, lasting := true, injected := true })
    | (.ue, s2) => (true, s2)

end Sys2Proof.Machine
end

