-- ==== Sys2Proof/Machine/Extent.lean ====
section
/-! DEFINITION. Windows, the extent map and translation (R40 to R47), rule checks (R212 to R218), and the placement of
lines in the Pantry and the house pool (R133 to R142). -/

namespace Sys2Proof.Machine

/-! ## Windows and bindings -/

def State.win? (s : State) (w : Nat) : Option Window := NMap.get? s.pool.wins w

def State.mapWin (s : State) (w : Nat) (f : Window → Window) : State :=
  s.mapPool fun p => { p with wins := NMap.adjust p.wins w f }

/-- The binding of a host to a window. -/
def Window.bind? (w : Window) (host : Nat) : Option Binding := w.binds.find? fun b => b.host == host

def State.mapBind (s : State) (w host : Nat) (f : Binding → Binding) : State :=
  s.mapWin w fun x => { x with binds := x.binds.map fun b => if b.host == host then f b else b }

/-- BAR0 offset of a logical device's MSI-X table and of its pending bits (log 218). -/
def winMsixTable : Nat := 0x4000
def winMsixPba : Nat := 0x6000

/-- Key in `Binding.regs` of a configuration register, above every BAR0 offset. -/
def cfgKey (reg : Nat) : Nat := 0x1000000 + reg

/-- A register of a binding's logical device: as the host has written it, else its reset value. -/
def Binding.word (b : Binding) (key reset : Nat) : Nat := match NMap.get? b.regs key with | some v => v.toNat | none => reset

/-- Is a vector held back (PCI Express format): MSI-X is not enabled, or the function or the entry is masked? Every vector is
masked at reset. -/
def Binding.masked (b : Binding) (entry : Nat) : Bool :=
  let ctl := b.word (cfgKey 0x40) 0
  !bitOf ctl 31 || bitOf ctl 30 || b.word (winMsixTable + 16 * entry + 12) 1 % 2 == 1

/-- A vector of a logical device raised (R210): sent, or pending while its entry is masked. -/
def State.winVector (s : State) (w host entry : Nat) : State :=
  match (s.win? w).bind (·.bind? host) with
  | none => s
  | some b =>
    if b.masked entry then s.mapBind w host fun y => { y with pba := if y.pba.contains entry then y.pba else entry :: y.pba }
    else s.emit (.winMsix w host entry)

/-- Vectors that are pending and no longer masked are sent. -/
def State.winUnmask (s : State) (w host : Nat) : State :=
  match (s.win? w).bind (·.bind? host) with
  | none => s
  | some b =>
    let go := b.pba.filter fun e => !b.masked e
    go.foldl (fun a e => a.emit (.winMsix w host e)) (s.mapBind w host fun y => { y with pba := y.pba.filter fun e => y.masked e })

/-- An event record of the logical device's mailbox: 0 Add Capacity, 1 Release Capacity, 2 General Media; MSI-X entry 0 is
raised while the host's event interrupt policy asks for it (R210, R320). -/
def State.bindEvent (s : State) (w host kind : Nat) (xs : List Nat) : State :=
  match (s.win? w).bind (·.bind? host) with
  | none => s
  | some b =>
    let s1 := s.mapBind w host fun y => { y with events := y.events ++ [(y.nextEvt, kind, xs)], nextEvt := y.nextEvt % 65535 + 1 }
    if b.evtPolicy != 0 then s1.winVector w host 0 else s1

/-- The home has seen poison of a line of a window: a General Media event for each bound host (R320). -/
def State.mediaEvent (s : State) (line w : Nat) : State :=
  match s.win? w with
  | none => s
  | some x => (x.binds.filter fun b => b.st == .bound).foldl (fun a b => a.bindEvent w b.host 2 [line]) s

/-- Size of a window in bytes. -/
def Window.bytes (w : Window) : Nat := w.extents * 2 ^ 28

/-- Pool base of a window. -/
def Window.base (w : Window) : Nat := w.baseX * 2 ^ 28

/-- Line of a window offset: PA[47:6] with PA = pool base + W (R46). -/
def Window.lineAt (w : Window) (off : Nat) : Nat := (w.base + off) / 64

/-- Does a line belong to the range of a window? -/
def Window.holds (w : Window) (line : Nat) : Bool := w.baseX ≤ line / 2 ^ 22 && line / 2 ^ 22 < w.baseX + w.extents

/-- The window whose range holds a pool address line. -/
def State.winOfLine (s : State) (line : Nat) : Option Nat := (s.pool.wins.find? fun p => p.2.holds line).map (·.1)

/-- Is a host bound to the window: a binding that snoops reach (R84)? -/
def Window.bound (w : Window) (host : Nat) : Bool :=
  w.binds.any fun b => b.host == host && (b.st == .bound || b.st == .binding || b.st == .unbinding) && !b.r96

/-! ## The extent map (R40) -/

/-- An entry of 0 (R40, R45). -/
def Ext.zero : Ext := { valid := false, st := .free }

def State.ext (s : State) (x : Nat) : Ext := (NMap.get? s.pool.ext x).getD Ext.zero

def State.setExt (s : State) (x : Nat) (e : Ext) : State :=
  s.mapPool fun p => { p with ext := if e = Ext.zero then NMap.erase p.ext x else NMap.set p.ext x e }

/-- XSTATE codes (R41). -/
def XState.code : XState → Nat
  | .free => 0 | .live => 1 | .dual => 2 | .retire => 3 | .lost => 4 | .offered => 5 | .releasing => 6 | .reserved => 7

/-- The 128-bit image of an entry, with its check bits (R40). -/
def Ext.image (e : Ext) : Nat :=
  let v := packBits [(b2n e.valid, 1), (e.st.code, 3), (b2n e.srcHouse, 1), (b2n e.dstHouse, 1), (e.window, 12),
    (e.room, 6), (e.gen, 4), (b2n e.srcRemote, 1), (b2n e.dstRemote, 1), (0, 2), (e.srcDev, 8), (e.srcExt, 24),
    (e.dstDev, 8), (e.dstExt, 24), (0, 4), (e.remoteSw, 12), (0, 8)]
  v + (Config.secDed v).toNat * 2 ^ 120

/-- One backing of a line: a pool device at a DPA, a house extent, or an extent of another switch (R46). -/
inductive Back where
  | dev (handle dpa : Nat)
  | house (ext : Nat)
  | remote (sw addr : Nat)
deriving DecidableEq, Repr

/-- Source backing of a line under an entry (R46). -/
def Ext.src (e : Ext) (line : Nat) : Back :=
  if e.srcRemote then .remote e.remoteSw (e.srcExt * 2 ^ 28 + line * 64 % 2 ^ 28)
  else if e.srcHouse then .house e.srcExt
  else .dev e.srcDev (e.srcExt * 2 ^ 28 + line * 64 % 2 ^ 28)

/-- Destination backing of a line under an entry (R46). -/
def Ext.dst (e : Ext) (line : Nat) : Back :=
  if e.dstRemote then .remote e.remoteSw (e.dstExt * 2 ^ 28 + line * 64 % 2 ^ 28)
  else if e.dstHouse then .house e.dstExt
  else .dev e.dstDev (e.dstExt * 2 ^ 28 + line * 64 % 2 ^ 28)

/-- Translation of reads (R41): the backing, or none where the access is refused. -/
def Ext.read? (e : Ext) (line : Nat) : Option Back :=
  if !e.valid then none
  else match e.st with
    | .live | .dual => some (e.src line)
    | .retire => some (e.dst line)
    | .releasing => if e.closed then none else some (e.src line)
    | _ => none

/-- Translation of writes (R41): the backings to be written. -/
def Ext.write? (e : Ext) (line : Nat) : Option (List Back) :=
  if !e.valid then none
  else match e.st with
    | .live => some [e.src line]
    | .dual => some [e.src line, e.dst line]
    | .retire => some [e.dst line]
    | .releasing => if e.closed then none else some [e.src line]
    | _ => none

/-- A window marked failed as a contained fault, recorded once (R43). -/
def State.failWin (s : State) (w : Nat) (ck : Nat) (addr : Nat) : State :=
  match s.win? w with
  | none => s
  | some x =>
    if x.failed then s
    else (s.mapWin w fun y => { y with failed := true }).record
      { checker := ck, source := srcWindow, unit := w, room := x.room, addr := addr }

/-- An access of a window refused by the extent's state (R41), recorded. -/
def State.refusedExt (s : State) (w line tag : Nat) : State :=
  s.record { checker := 0x5200, source := srcWindow, unit := w, tag := tag, addr := line * 64,
             room := match s.win? w with | some x => x.room | none => 0 }

/-- The port that a line's backing has lost: that of a pool device whose link is still to come up after a warm reset, or 64, another switch
that no live fabric port leads to (R335: a message that arrives for the port later is answered as a queued one). -/
def State.cutOff (s : State) (e : Ext) (line : Nat) : Option Nat :=
  match e.read? line with
  | some (.dev h _) =>
    match NMap.get? s.pool.devs h with
    | some d => if d.awaitLink then some d.port else none
    | none => none
  | some (.remote sw _) => if (s.routeTo sw 0).isNone then some 64 else none
  | _ => none

/-- A request for a line whose backing is cut off: counted at its port and recorded (R336). -/
def State.cutNote (s : State) (w line p : Nat) : State :=
  let s1 := if p < 64 then s.bump (PRT_DROP_CNT_fSYN_CNT p) else s
  s1.record { checker := 0x4400, source := if p < 64 then srcPort else srcWindow, unit := if p < 64 then p else w, addr := line * 64
              room := match s.win? w with | some x => x.room | none => 0 }

/-- The entry of a line read and checked for an access of window `w` (R43): false if the access is refused with the window
failed, or if its backing is cut off, and the state after the check. -/
def State.checkExt (s : State) (w line : Nat) : Bool × State :=
  let x := line / 2 ^ 22
  let (ue, s1) := s.checkRetry { checker := 0x0700 + x % 2, source := srcWindow, unit := w, addr := line * 64 }
  if ue then (false, s1.failWin w (0x0700 + x % 2) (line * 64))
  else
    let e := s1.ext x
    match s1.win? w with
    | none => (false, s1)
    | some win =>
      if e.valid && (e.window != w || e.room != win.room) then (false, s1.failWin w 0x5200 (line * 64))
      else match s1.cutOff e line with
        | some p => (false, s1.cutNote w line p)
        | none => (true, s1)

/-! ## Decoding of host addresses (R25, R46, R47) -/

/-- The window and offset that a host address decodes to at a port. -/
def State.decodeAddr (s : State) (port host addr : Nat) : Option (Nat × Nat) :=
  s.pool.wins.findSome? fun p =>
    match p.2.bind? host with
    | some b =>
      if b.port == port && b.decode && b.hpa ≤ addr && addr < b.hpa + p.2.bytes then some (p.1, addr - b.hpa) else none
    | none => none

/-- The remote window and offset that a host address decodes to (R47). -/
def State.decodeRemote (s : State) (port host addr : Nat) : Option (RemoteWin × Nat) :=
  s.pool.remote.findSome? fun r =>
    if r.port == port && r.host == host && r.hpa ≤ addr && addr < r.hpa + r.size then some (r, addr - r.hpa) else none

/-! ## Access rules (R212 to R220) -/

/-- Identity that an access carries (R214). -/
inductive Ident where
  | host (h : Nat) (pasid : Option Nat)
  | mover
  | debug
deriving DecidableEq, Repr

/-- Does a rule match an identity (R213)? -/
def Rule.matches (r : Rule) (i : Ident) : Bool :=
  match i with
  | .host h p =>
    match r.mat with
    | 1 => true
    | 2 => r.host == h
    | 3 => r.host == h && p == some r.pasid
    | 4 => r.host == h && p == none
    | _ => false
  | .mover => r.mat == 5 && r.engine == 0
  | .debug => r.mat == 5 && r.engine == 1

/-- The rules of a Room's bank: false Indigo, true Madder. -/
def Room.bankRules (r : Room) (bank : Bool) : NMap Rule := if bank then r.rules1 else r.rules0

/-- The rule that decides an access: of those that apply, the one with the highest index (R215). -/
def Room.decide (r : Room) (pa : Nat) (i : Ident) : Option (Nat × Rule) :=
  ((r.bankRules r.bank).filter fun p =>
    p.2.mat != 0 && p.2.base ≤ pa / 4096 && pa / 4096 ≤ p.2.limit && p.2.matches i).getLast?

/-- Permissions that an access needs (R216): read, write, atomic. -/
structure Needs where
  r : Bool := false
  w : Bool := false
  a : Bool := false
deriving DecidableEq, Repr

/-- Does the rule check permit an access of a page of a Room (R215)? -/
def Room.permits (r : Room) (pa : Nat) (i : Ident) (n : Needs) : Bool :=
  match r.decide pa i with
  | none => false
  | some (_, x) => (!n.r || x.r) && (!n.w || x.w) && (!n.a || x.a)

/-- Is a page sealed (R220)? -/
def Room.sealedPage (r : Room) (bank : Bool) (page : Nat) : Bool :=
  (r.bankRules bank).any fun p => p.2.mat != 0 && p.2.sealed && p.2.base ≤ page && page ≤ p.2.limit

/-- A refusal of the rule check in the Room's registers (R218, R228): KIND code. -/
def State.denyNote (s : State) (room pa : Nat) (i : Ident) (kind : Nat) : State :=
  let d := match s.room? room with | some r => r.decide pa i | none => none
  let src := match i with | .host h _ => h | _ => 0
  let s1 := ((s.bump (RMC_DENY_fDENY_CNT room)).setFld (RMC_DENY_fDENY_SEEN room) 1).setReg (RMC_DENY_ID room)
    (BitVec.ofNat 32 (packBits [(src, 12), (kind, 3), (b2n (i == .mover), 1), (match d with | some (k, _) => k | none => 0, 8),
      (b2n d.isNone, 1), (b2n (i == .debug), 1)]))
  s1.setPair (RMC_DENY_ADDR_LO room) pa

/-- A refusal of the rule check recorded in the Room's registers and the Attic. -/
def State.deny (s : State) (room pa : Nat) (i : Ident) (kind tag : Nat) : State :=
  (s.denyNote room pa i kind).record
    { checker := 0x4500, source := srcRoom, unit := room, room := room, tag := tag, addr := pa }

/-- The rule check of an access with its rule-table check (type 0Fh, always corrected, R449): permitted, and the state. -/
def State.ruleCheck (s : State) (hu room pa : Nat) (i : Ident) (n : Needs) : Bool × State :=
  let (sn, s1) := s.check1 (0x0f00 + hu / 16) 8 true
  let s2 := if sn == .clean then s1
    else s1.record { checker := 0x0f00 + hu / 16, cls := 0, source := srcHome, unit := hu, injected := true, transient := true }
  match s2.room? room with
  | none => (false, s2)
  | some r => (r.permits pa i n, s2)

/-! ## Placement in HBM (R134, R138, R139) -/

/-- Pantry units (R137). -/
def State.panUnits (s : State) : Nat := 45 - s.pool.house

/-- Stack and position of a home unit (R134). -/
def huStack (hu : Nat) : Nat := 2 * (hu / 16) + hu % 2
def huPos (hu : Nat) : Nat := hu % 16 / 2

/-- HBM address of a home unit's part of a unit, plus an offset (R134). -/
def partAddr (hu unit off : Nat) : Nat :=
  hbmAddr (huStack hu) (0x60000000 + unit * 0x20000000 + huPos hu * 0x4000000 + off)

/-- A home unit's sequence at the channel that holds an HBM address: its requester number is its position in the stack (R134, R190,
R195). -/
def State.huAsk (s : State) (hu addr : Nat) (lock : Option Nat) : State :=
  s.hbmAsk (16 * huStack hu + (Config.hbmChannel (huStack hu) (addr % 2 ^ 35)).toNat) { req := huPos hu, lock := lock }

/-- Pantry set of a line (R139). -/
def State.panSet (s : State) (line : Nat) : Nat := crc64 line % (s.panUnits * 57344)

/-- Index of the tag of a way: home unit, set, way. -/
def panKey (hu set way : Nat) : Nat := hu * 2 ^ 26 + set * 16 + way

/-- HBM address of the data of a way (R138). -/
def panData (key : Nat) : Nat :=
  let hu := key / 2 ^ 26
  let k := key % 2 ^ 26 / 16
  partAddr hu (k / 57344) ((16 * (k % 57344) + key % 16) * 64)

/-- HBM address of a line of a house extent: unit 44 - j of house unit j (R136), and in the home unit's 64 MiB part the
8 MiB of the extent, one line for each value of PA[27:11] (log 15, DEDUCED). -/
def houseAddr (hu ext line : Nat) : Nat :=
  partAddr hu (44 - ext / 8) (ext % 8 * 0x800000 + bitsOf line 5 17 * 64)

/-- The way that caches a line, if any (R139). -/
def State.panFind (s : State) (line : Nat) : Option Nat :=
  if s.panUnits = 0 then none
  else
    let hu := lineHu line
    let set := s.panSet line
    ((List.range 16).find? fun w =>
      match NMap.get? s.pan.tags (panKey hu set w) with
      | some t => t.line == line
      | none => false).map (panKey hu set)

def State.panTag (s : State) (key : Nat) : Option PTag := NMap.get? s.pan.tags key
def State.setTag (s : State) (key : Nat) (t : PTag) : State := s.mapPan fun p => { p with tags := NMap.set p.tags key t }
def State.dropTag (s : State) (key : Nat) : State := s.mapPan fun p => { p with tags := NMap.erase p.tags key }

/-- Dirty lines of a window. -/
def State.winDirty (s : State) (w : Window) : Nat :=
  s.pan.tags.foldl (fun n p => if p.2.d && w.holds p.2.line then n + 1 else n) 0

/-- Dirty lines of the whole Pantry. -/
def State.allDirty (s : State) : Nat := s.pan.tags.foldl (fun n p => if p.2.d then n + 1 else n) 0

/-- Mode that a window runs in (R145): write-through without a grant, or with a quota of 0 (R48). -/
def Window.run (w : Window) : PMode := if w.pmode == .wb && (!w.grant || w.quota == 0) then .wt else w.pmode

/-- Pantry tag REPL after an access (R92, R142). -/
def State.touchTag (s : State) (key : Nat) : State :=
  s.mapPan fun p => { p with tags := NMap.adjust p.tags key fun t => { t with repl := 0 } }

/-- Ways that a Room holds in a home unit. -/
def State.roomWays (s : State) (room hu : Nat) : Nat :=
  s.pan.tags.foldl (fun n p => if p.1 / 2 ^ 26 == hu && p.2.room == room then n + 1 else n) 0

/-- Has a line an open tracker entry? -/
def State.lineOpen (s : State) (line : Nat) : Bool := s.home.trk.any fun t => t.line == line

/-- Of some ways, one of the highest REPL, lowest number first (R142). -/
def oldestWay (ws : List (Nat × PTag)) : Option Nat :=
  (ws.foldl (fun (b : Option (Nat × PTag)) w =>
    match b with
    | none => some w
    | some x => if x.2.repl < w.2.repl then some w else some x) none).map (·.1)

/-- The way that an allocation takes for a line of a Room (R142): the key, or none. -/
def State.panVictim (s : State) (line room : Nat) : Option Nat :=
  if s.panUnits = 0 then none
  else
    let hu := lineHu line
    let set := s.panSet line
    let keys := (List.range 16).map (panKey hu set)
    let full := keys.filterMap fun k => (s.panTag k).map fun t => (k, t)
    let cand := full.filter fun p => !s.lineOpen p.2.line
    let below := s.roomWays room hu < (s.share room).pan
    let pick := fun (ws : List (Nat × PTag)) =>
      match oldestWay (ws.filter fun p => !p.2.d) with
      | some k => some k
      | none => oldestWay (ws.filter fun p => p.2.d)
    if below then
      match keys.find? fun k => (s.panTag k).isNone with
      | some k => some k
      | none => pick cand
    else pick (cand.filter fun p => p.2.room == room)

/-- A line installed in a way: the other ways of the set grow older (R92). -/
def State.panInstall (s : State) (key line room : Nat) (data : Line) (poison dirty : Bool) : State :=
  let s1 := s.mapPan fun p => { p with tags := p.tags.map fun t =>
    if t.1 / 16 == key / 16 && t.2.repl < 15 then (t.1, { t.2 with repl := t.2.repl + 1 }) else t }
  (s1.setTag key { line := line, d := dirty, room := room, repl := 0 }).writeLine (panData key) data allBe poison

end Sys2Proof.Machine
end

