-- ==== Sys2Proof/Machine/Directory.lean ====
section
/-! DEFINITION. The directory in HBM and its cache (R77 to R93): indices, lookup, sharers, allocation of ways. -/

namespace Sys2Proof.Machine

/-! ## Indices (R78) -/

/-- HBM set index S = PA[29:11]. -/
def dirSet (line : Nat) : Nat := bitsOf line 5 19
/-- TAG = PA[47:30] followed by PA[10:6]. -/
def dirTag (line : Nat) : Nat := bitsOf line 24 18 * 32 + bitsOf line 0 5
/-- Cache set index C = PA[23:11]. -/
def cacheSet (line : Nat) : Nat := bitsOf line 5 13
/-- CTAG = PA[47:24] followed by PA[10:6]. -/
def cacheTag (line : Nat) : Nat := bitsOf line 18 24 * 32 + bitsOf line 0 5

def dirKey (hu set way : Nat) : Nat := hu * 2 ^ 23 + set * 16 + way
def cacheKey (hu set way : Nat) : Nat := hu * 2 ^ 17 + set * 16 + way

/-- The line that a trusted tag and a set index name (R99). -/
def tagLine (tag set : Nat) : Nat := tag / 32 * 2 ^ 24 + set * 32 + tag % 32

/-- STATE codes (R79). -/
def stI : Nat := 0
def stS : Nat := 1
def stE : Nat := 2
def stB : Nat := 3

def State.dirEnt (s : State) (key : Nat) : DEnt := (NMap.get? s.home.dir key).getD {}
def State.setDir (s : State) (key : Nat) (e : DEnt) : State := s.mapHome fun h => { h with dir := NMap.set h.dir key e }
def State.cacheEnt? (s : State) (key : Nat) : Option CEnt := NMap.get? s.home.cache key
def State.setCache (s : State) (key : Nat) (e : CEnt) : State :=
  s.mapHome fun h => { h with cache := NMap.set h.cache key e }
def State.dropCache (s : State) (key : Nat) : State := s.mapHome fun h => { h with cache := NMap.erase h.cache key }

/-- A set-loss marker (R100). -/
def DEnt.isMarker (e : DEnt) : Bool := e.st == stB && e.fmt

/-- The 128-bit image of an HBM entry (R79). -/
def DEnt.image (e : DEnt) : Nat :=
  let par := onesIn e.tag 23 % 2
  let v := packBits [(e.tag, 23), (e.room, 6), (e.st, 2), (b2n e.fmt, 1), (e.sharers, 48), (e.nsh, 3), (b2n e.pending, 1),
    (e.repl, 4), (2 ^ 23 - 1 - e.tag % 2 ^ 23, 23), (par, 1)]
  v + (Config.secDed v).toNat * 2 ^ 112

/-- Parity of the dirty bit, kept beside it (R81; odd over the pair is an error, log 213). -/
def CEnt.dirtyPar (e : CEnt) : Bool := e.dirty

/-- The 96-bit image of a cache entry (R81). -/
def CEnt.image (e : CEnt) : Nat :=
  let v := packBits [(e.ctag, 29), (e.st, 2), (b2n e.fmt, 1), (e.sharers, 48), (e.nsh, 3), (b2n e.pending, 1), (e.repl, 4)]
  v + (Config.secDed v).toNat * 2 ^ 88

/-- The cache way of a line. -/
def State.cacheFind (s : State) (line : Nat) : Option Nat :=
  let hu := lineHu line
  ((List.range 16).find? fun w =>
    match s.cacheEnt? (cacheKey hu (cacheSet line) w) with
    | some e => e.ctag == cacheTag line
    | none => false).map (cacheKey hu (cacheSet line))

/-- The HBM way of a line: a tag that matches, STATE not I, no marker. -/
def State.dirFind (s : State) (line : Nat) : Option Nat :=
  let hu := lineHu line
  ((List.range 16).find? fun w =>
    let e := s.dirEnt (dirKey hu (dirSet line) w)
    e.st != stI && !e.isMarker && e.tag == dirTag line).map (dirKey hu (dirSet line))

/-- Does the line's HBM set hold a set-loss marker (R100)? -/
def State.hasMarker (s : State) (line : Nat) : Bool :=
  (List.range 16).any fun w => (s.dirEnt (dirKey (lineHu line) (dirSet line) w)).isMarker

/-- The entry that governs a line (R82): the cached one, else the HBM one; none: the line is in I. -/
def State.entry? (s : State) (line : Nat) : Option DEnt :=
  match s.cacheFind line with
  | some k =>
    match s.cacheEnt? k with
    | some c => some ⟨dirTag line, c.room, c.st, c.fmt, c.sharers, c.nsh, c.pending, 0⟩
    | none => none
  | none => (s.dirFind line).map s.dirEnt

/-- Stable state of a line that has no open tracker entry: a line with no entry in a set with a marker is B (R100). -/
def State.stable (s : State) (line : Nat) : Nat :=
  match s.entry? line with
  | some e => e.st
  | none => if s.hasMarker line then stB else stI

/-- A home unit reads or writes a directory set: four beats of 64 bytes, locked (R77, R134, R190). -/
def State.useSet (s : State) (hu set : Nat) : State := s.huAsk hu (huPos hu * 0x8000000 + set * 256) (some 0)

/-! ## Sharers (R85 to R88) -/

/-- Fabric IDs of an explicit entry. -/
def DEnt.ids (e : DEnt) : List Nat := (List.range e.nsh).map fun i => bitsOf e.sharers (12 * i) 12

/-- The sharer field and NSH of an explicit list of at most four IDs. -/
def idsField (hs : List Nat) : Nat := packBits (hs.map fun h => (h, 12))

/-- Group size of a Room's coarse vector (R86). -/
def Room.groupSize (r : Room) : Nat := (r.hmax + 47) / 48

/-- Position of a host in a Room's list. -/
def Room.pos? (r : Room) (host : Nat) : Option Nat := (r.hosts.find? fun p => p.2 == host).map (·.1)

/-- Coarse bit of a host (R86). -/
def Room.coarseBit (r : Room) (host : Nat) : Nat :=
  match r.pos? host with
  | some p => 2 ^ (p / r.groupSize)
  | none => 0

/-- The vector with a bit set. -/
def orBit (v b : Nat) : Nat := v ||| b

/-- Hosts of the Room bound to a window, ascending list position. -/
def State.boundHosts (s : State) (w : Nat) : List Nat :=
  match s.win? w with
  | none => []
  | some x =>
    match s.room? x.room with
    | none => []
    | some r => (r.hosts.map (·.2)).filter x.bound

/-- The hosts that an entry names (R88). -/
def State.named (s : State) (e : DEnt) (w : Nat) : List Nat :=
  if e.st = stB then s.boundHosts w
  else if e.fmt then
    match s.win? w with
    | none => []
    | some x =>
      match s.room? x.room with
      | none => []
      | some r => (s.boundHosts w).filter fun h => e.sharers &&& r.coarseBit h != 0
  else e.ids

/-- An entry in S with one more sharer (R87). -/
def State.addSharer (s : State) (e : DEnt) (w host : Nat) : DEnt :=
  let r := match s.win? w with | some x => s.room? x.room | none => none
  match r with
  | none => e
  | some r =>
    if e.fmt then { e with sharers := orBit e.sharers (r.coarseBit host) }
    else if e.ids.contains host then e
    else if e.nsh < 4 then { e with sharers := idsField (e.ids ++ [host]), nsh := e.nsh + 1 }
    else { e with fmt := true, nsh := 0, sharers := (e.ids ++ [host]).foldl (fun v h => orBit v (r.coarseBit h)) 0 }

/-- E or S with explicit hosts. -/
def mkEnt (e : DEnt) (st : Nat) (hs : List Nat) : DEnt :=
  { e with st := st, fmt := false, sharers := idsField hs, nsh := hs.length }

/-! ## Cache installation and entry writes (R82, R92) -/

/-- A cache way leaves: a dirty entry is written to its HBM way with REPL 0 (R82, R92); never over a set-loss marker that
has taken its way (R100). -/
def State.evictCache (s : State) (key : Nat) : State :=
  match s.cacheEnt? key with
  | none => s
  | some c =>
    let hu := key / 2 ^ 17
    let line := c.ctag / 32 * 2 ^ 18 + key % 2 ^ 17 / 16 * 32 + c.ctag % 32
    let s1 := s.dropCache key
    if c.dirty && !(s.dirEnt (dirKey hu (dirSet line) c.way)).isMarker then
      (s1.useSet hu (dirSet line)).setDir (dirKey hu (dirSet line) c.way)
        { tag := dirTag line, room := c.room, st := c.st, fmt := c.fmt, sharers := c.sharers, nsh := c.nsh,
          pending := c.pending, repl := 0 }
    else s1

/-- The cache way that an installation of a line takes: a free one, else the non-pending one of highest REPL, lowest number
first; none if every way is pending (R82, R93). -/
def State.cacheVictim (s : State) (line : Nat) : Option Nat :=
  let keys := (List.range 16).map (cacheKey (lineHu line) (cacheSet line))
  match keys.find? fun k => (s.cacheEnt? k).isNone with
  | some k => some k
  | none =>
    (keys.foldl (fun (b : Option (Nat × Nat)) k =>
      match s.cacheEnt? k with
      | some e => if e.pending then b else
        match b with
        | none => some (k, e.repl)
        | some x => if x.2 < e.repl then some (k, e.repl) else b
      | none => b) none).map (·.1)

/-- The other non-pending entries of a cache set grow older (R92). -/
def State.ageCache (s : State) (key : Nat) : State :=
  s.mapHome fun h => { h with cache := h.cache.map fun p =>
    if p.1 / 16 == key / 16 && p.1 != key && !p.2.pending && p.2.repl < 15 then (p.1, { p.2 with repl := p.2.repl + 1 })
    else p }

/-- Is an HBM entry PENDING: a cached copy governs (R82)? -/
def State.dirPending (s : State) (key : Nat) (e : DEnt) : Bool :=
  match (s.cacheFind (tagLine e.tag (key % 2 ^ 23 / 16))).bind s.cacheEnt? with
  | some c => c.pending
  | none => e.pending

/-- The other non-pending entries of an HBM set grow older (R92). -/
def State.ageDir (s : State) (key : Nat) : State :=
  s.mapHome fun h => { h with dir := h.dir.map fun p =>
    if p.1 / 16 == key / 16 && p.1 != key && p.2.st != stI && p.2.repl < 15 && !s.dirPending p.1 p.2 then
      (p.1, { p.2 with repl := p.2.repl + 1 }) else p }

/-- An entry written for a line whose HBM way is `way`: into the cache, dirty; an entry in I is written to its HBM way and
leaves the cache (log 16, DEDUCED). No change if every cache way is pending (R93 keeps the request waiting). -/
def State.putEntry (s : State) (line way : Nat) (e : DEnt) : State :=
  let hk := dirKey (lineHu line) (dirSet line) way
  if e.st = stI then
    let s1 := (match s.cacheFind line with | some k => s.dropCache k | none => s).useSet (lineHu line) (dirSet line)
    if (s1.dirEnt hk).isMarker then s1 else s1.setDir hk { s1.dirEnt hk with st := stI, fmt := false, sharers := 0, nsh := 0, pending := false }
  else
    let c : CEnt := { ctag := cacheTag line, st := e.st, fmt := e.fmt, sharers := e.sharers, nsh := e.nsh,
                      pending := e.pending, repl := 0, dirty := true, way := way, room := e.room }
    match s.cacheFind line with
    | some k => s.setCache k c
    | none =>
      match s.cacheVictim line with
      | none => s
      | some k => ((s.evictCache k).setCache k c).ageCache k

/-- The lookup of a line (the steps after R83): a cache hit makes its REPL 0; an entry found in HBM has its REPL there made 0
and is installed in the cache, clean, unless every way of the cache set is pending (R82, R92, R93). The Room of a cached entry
is that of the line's extent-map entry (R81). -/
def State.lookup (s : State) (line : Nat) : State :=
  match s.cacheFind line with
  | some k => s.mapHome fun h => { h with cache := NMap.adjust h.cache k fun c => { c with repl := 0 } }
  | none =>
    let s := s.useSet (lineHu line) (dirSet line)
    match s.dirFind line with
    | none => s
    | some hk =>
      let e := s.dirEnt hk
      match s.cacheVictim line with
      | none => s
      | some k =>
        let c : CEnt := { ctag := cacheTag line, st := e.st, fmt := e.fmt, sharers := e.sharers, nsh := e.nsh, pending := e.pending,
                          repl := 0, dirty := false, way := hk % 16, room := (s.ext (line / 2 ^ 22)).room }
        (((s.evictCache k).setCache k c).ageCache k).setDir hk { e with repl := 0 }

/-- Has a line an entry in HBM that its cache set has no room for (R93)? -/
def State.noCacheWay (s : State) (line : Nat) : Bool :=
  (s.cacheFind line).isNone && (s.dirFind line).isSome && (s.cacheVictim line).isNone

/-- The HBM way of a line's entry, by the cache or by the tag. -/
def State.wayOf (s : State) (line : Nat) : Option Nat :=
  match s.cacheFind line with
  | some k => (s.cacheEnt? k).map (·.way)
  | none => (s.dirFind line).map (· % 16)

/-- The entry of a line changed; no change if it has none. -/
def State.updEntry (s : State) (line : Nat) (f : DEnt → DEnt) : State :=
  match s.entry? line, s.wayOf line with
  | some e, some w => s.putEntry line w (f e)
  | _, _ => s

/-- A way of an HBM set taken for a new entry of a line (R90): the entry is written to HBM and to the cache. -/
def State.newEntry (s : State) (line way : Nat) (e : DEnt) : State :=
  let hk := dirKey (lineHu line) (dirSet line) way
  let old := s.dirEnt hk
  let ol := tagLine old.tag (dirSet line)
  let s0 := match s.cacheFind ol with
    | some k => if (match s.cacheEnt? k with | some c => c.way == way | none => false) && old.st != stI then s.dropCache k else s
    | none => s
  let e' := { e with tag := dirTag line, repl := 0 }
  ((((s0.useSet (lineHu line) (dirSet line)).setDir hk e').ageDir hk).putEntry line way e')

/-! ## Allocation of a way (R90, R91) -/

/-- What R90 finds for a line that needs a new entry. -/
inductive Alloc where
  /-- A free way. -/
  | way (w : Nat)
  /-- A victim to be removed first. -/
  | evict (w : Nat)
  /-- No entry is made (step 4). -/
  | noCache
deriving DecidableEq, Repr

/-- Entries that a Room holds in a home unit (R90). -/
def State.roomEntries (s : State) (room hu : Nat) : Nat :=
  s.home.dir.foldl (fun n p => if p.1 / 2 ^ 23 == hu && p.2.st != stI && !p.2.isMarker && p.2.room == room then n + 1 else n) 0

/-- An HBM way as R90 sees it: a cached entry's PENDING bit governs, and its REPL counts as 0 (R82, R92). -/
def State.wayView (s : State) (hu set w : Nat) : DEnt :=
  let e := s.dirEnt (dirKey hu set w)
  if e.st = stI || e.isMarker then e
  else match s.cacheFind (tagLine e.tag set) with
    | some k => match s.cacheEnt? k with
      | some c => { e with pending := c.pending, repl := 0, st := c.st }
      | none => e
    | none => e

/-- The way that R90 gives a line of a Room. -/
def State.allocWay (s : State) (line room : Nat) : Alloc :=
  let hu := lineHu line
  let set := dirSet line
  let ways := (List.range 16).map fun w => (w, s.wayView hu set w)
  let below := s.roomEntries room hu < (s.share room).dir
  let free := if below then (ways.find? fun p => p.2.st == stI).map (·.1) else none
  let old := fun (ws : List (Nat × DEnt)) =>
    (ws.foldl (fun (b : Option (Nat × DEnt)) w =>
      match b with
      | none => some w
      | some x => if x.2.repl < w.2.repl then some w else some x) none).map (·.1)
  let victims := ways.filter fun p => p.2.st != stI && !p.2.pending && !p.2.isMarker
  match free with
  | some w => .way w
  | none =>
    match (if below then old victims else none) with
    | some w => .evict w
    | none =>
      match old (victims.filter fun p => p.2.room == room) with
      | some w => .evict w
      | none => .noCache

end Sys2Proof.Machine
end

