-- ==== Sys2Proof/Machine/Home.lean ====
section
/-! DEFINITION. The home unit's engine (spec/03, spec/04): tracker entries, memory requests, snoops, and the state table
of R113 and R114. -/

namespace Sys2Proof.Machine

/-! ## Tracker entries (R67 to R71) -/

def State.trk? (s : State) (id : Nat) : Option Trk := s.home.trk.find? fun t => t.id == id
def State.mapTrk (s : State) (id : Nat) (f : Trk → Trk) : State :=
  s.mapHome fun h => { h with trk := h.trk.map fun t => if t.id == id then f t else t }

/-- Entries of a pool in use at a home unit. -/
def State.trkCount (s : State) (hu : Nat) (p : TPool) : Nat :=
  s.home.trk.foldl (fun n t => if t.hu == hu && t.pool == p then n + 1 else n) 0

/-- General entries that a Room holds in a unit (R68). -/
def State.roomTrk (s : State) (room hu : Nat) : Nat :=
  s.home.trk.foldl (fun n t => if t.hu == hu && t.pool == .general && t.room == room then n + 1 else n) 0

/-- May a Room take a general entry in a unit (R67, R68)? -/
def State.hasGeneral (s : State) (room hu : Nat) : Bool :=
  s.roomTrk room hu < (s.share room).tracker / 32 && s.trkCount hu .general < 1856

/-- DevLoad of a Room at a home unit (R317). -/
def State.devLoad (s : State) (room hu : Nat) : Nat :=
  let a := (s.share room).tracker / 32
  let u := s.roomTrk room hu
  if u * 100 < a * 50 then 0 else if u * 100 < a * 75 then 1 else if u * 100 < a * 90 then 2 else 3

/-- The entry that has the line open: not chained, no writeback beside the chain (R70). -/
def State.openTrk (s : State) (line : Nat) : Option Trk :=
  s.home.trk.find? fun t => t.line == line && t.st != .chained && !t.par

/-- The entry whose operation on the line is under way. -/
def State.busyTrk (s : State) (line : Nat) : Option Trk :=
  s.home.trk.find? fun t => t.line == line && t.st != .chained && t.st != .done && !t.par

/-- Does a writeback accepted at once still await its acknowledgement? -/
def State.parOpen (s : State) (line : Nat) : Bool := s.home.trk.any fun t => t.line == line && t.par && t.st != .done

def State.addTrk (s : State) (t : Trk) : State := s.mapHome fun h => { h with trk := h.trk ++ [t] }

/-- HSL_TRK_COUNT of a unit (R103). -/
def State.trkCountWord (s : State) (hu : Nat) : Nat :=
  packBits [(s.trkCount hu .general + s.trkCount hu .rwdRes + s.trkCount hu .snpRes, 12), (s.trkCount hu .rwdRes, 8),
    (s.trkCount hu .snpRes, 7)]

/-- The conflict-table entries whose owed completions are all sent: BIConflictAck leaves (R117). -/
def State.pumpCfl (s : State) : State :=
  let sent := fun (i : Nat) => match s.trk? i with | some t => t.st == .done | none => true
  let ready := s.home.cfl.filter fun c => c.owed.all sent
  let s1 := s.mapHome fun h => { h with cfl := h.cfl.filter fun c => !c.owed.all sent }
  ready.foldl (fun a c => a.pushHome c.port c.hu .cmp (.biConflictAck c.host c.line)) s1

/-- Requests in a home unit's set-conflict queue (R93, R103). -/
def State.scqLevel (s : State) (hu : Nat) : Nat :=
  (s.home.scq.filter fun i => match s.trk? i with | some t => t.hu == hu | none => false).length

/-- A request put into its unit's set-conflict queue. While the 64 places are taken, a request already granted waits in place
with its tracker entry until one is free (log 214). -/
def State.joinScq (s : State) (t : Trk) : State :=
  let s1 := s.mapTrk t.id fun x => { x with scq := true }
  if s1.home.scq.contains t.id || 64 ≤ s1.scqLevel t.hu then s1
  else
    let s2 := s1.mapHome fun h => { h with scq := h.scq ++ [t.id] }
    if s2.scqLevel t.hu = 64 then s2.setFld (HSL_SCQ_STAT_fFULL_SEEN t.hu) 1 else s2

/-- A request that has found its way leaves the set-conflict queue; the oldest one that waits for a place takes it. -/
def State.leaveScq (s : State) (t : Trk) : State :=
  if !s.home.scq.contains t.id then s
  else
    let s1 := s.mapHome fun h => { h with scq := h.scq.filter (· != t.id) }
    match s1.home.trk.find? fun x => x.hu == t.hu && x.scq && !s1.home.scq.contains x.id with
    | some x => s1.joinScq x
    | none => s1

/-- A PENDING bit of a cache set has cleared: the oldest member of the set-conflict queue for the set is retried; it keeps its
place until it succeeds (R93). -/
def State.retryScq (s : State) (line : Nat) : State :=
  if (s.cacheVictim line).isNone then s
  else match s.home.scq.find? fun i => (match s.trk? i with
      | some t => t.hu == lineHu line && cacheSet t.line == cacheSet line
      | none => false) with
  | some i => s.mapTrk i fun x => { x with scq := false }
  | none => s

/-! ## Memory requests (R74, R112, R141 to R145, R172) -/

def State.devPort (s : State) (h : Nat) : Nat := match NMap.get? s.pool.devs h with | some d => d.port | none => 64

/-- Response slots of a POOL port in use, quarantine included (R172, R334). -/
def State.slotsUsed (s : State) (p : Nat) : Nat :=
  s.home.memq.foldl (fun n r =>
    match r.tgt with
    | .dev h _ => if r.sent && s.devPort h == p then n + 1 else n
    | _ => n) (s.port p).quar.length

/-- The message of a memory request to a device or another switch. -/
def State.sendReq (s : State) (r : MemReq) : State :=
  match r.tgt with
  | .dev h dpa => s.pushHome (s.devPort h) r.hu (if r.wr.isSome then .rwd else .req)
      (.devReq r.id dpa (r.wr.map fun w => (w.1, w.2.1)) (match r.wr with | some w => w.2.2 | none => false))
  | .remote sw addr =>
    match s.routeTo sw (crc64 r.line) with
    | some p => s.pushHome p r.hu (if r.wr.isSome then .rwd else .req)
        (.remReq r.id sw addr (r.wr.map fun w => (w.1, w.2.1)) (match r.wr with | some w => w.2.2 | none => false))
    | none => s
  | _ => s

/-- A memory request issued; one to a pool device waits for a free response slot (R172), one to HBM asks its channel, a Pantry line
with its tag as a locked sequence (R190). -/
def State.issue (s : State) (hu line win : Nat) (use : MUse) (wr : Option (Line × B64 × Bool)) (tgt : Tgt) : State :=
  let (id, s1) := s.fresh1
  let ok := match tgt with
    | .dev h _ => s1.slotsUsed (s1.devPort h) < 256 * s1.portWidth (s1.devPort h)
    | _ => true
  let r : MemReq := { id := id, hu := hu, line := line, win := win, use := use, wr := wr, tgt := tgt, t0 := s.now, sent := ok }
  let s2 := s1.mapHome fun h => { h with memq := h.memq ++ [r] }
  match tgt with
  | .pantry k => s2.huAsk hu (panData k) (some 1)
  | .house a => s2.huAsk hu a none
  | _ => if ok then s2.sendReq r else s2

/-- The oldest request that waits for a slot of a device, sent if a slot is free. -/
def State.pumpDev (s : State) : State :=
  match s.home.memq.find? fun r => !r.sent &&
      (match r.tgt with
       | .dev h _ => s.slotsUsed (s.devPort h) < 256 * s.portWidth (s.devPort h)
       | _ => false) with
  | some r =>
    (s.mapHome fun h => { h with memq := h.memq.map fun x => if x.id == r.id then { x with sent := true, t0 := s.now } else x }
      ).sendReq r
  | none => s

/-- Target of a backing of a line. -/
def Back.tgt (hu line : Nat) : Back → Tgt
  | .dev h d => .dev h d
  | .house e => .house (houseAddr hu e line)
  | .remote sw a => .remote sw a

/-- Does a group of 16 Pantry sets hold a dirty line (R143, R157)? -/
def State.groupDirty (s : State) (key : Nat) : Bool :=
  s.pan.tags.any fun p => p.1 / 256 == key / 256 && p.2.d

/-- An uncorrectable tag of the lowest way met at a Pantry miss (R143, R463): a way known to be clean is invalidated; else the
whole set is, and the windows of the Rooms that its other tags name fail. -/
def State.panTagBad (s : State) (hu line : Nat) : State :=
  let k0 := panKey hu (s.panSet line) 0
  if !s.groupDirty k0 then
    (s.dropTag k0).record { checker := 0x0b00 + hu, cls := 0, source := srcHome, unit := hu, addr := line * 64, injected := true }
  else
    let rooms := ((List.range 16).filterMap fun w => if w = 0 then none else (s.panTag (k0 + w)).map (·.room)).eraseDups
    let s1 := (List.range 16).foldl (fun a w => a.dropTag (k0 + w)) s
    (s1.pool.wins.filter fun p => rooms.contains p.2.room).foldl (fun a p => a.failWin p.1 (0x0b00 + hu) (line * 64)) s1

/-- The tags of a line's Pantry set checked at a miss (R143, R463). -/
def State.panMiss (s : State) (line : Nat) : State :=
  if s.panUnits = 0 || (s.panFind line).isSome then s
  else
    let hu := lineHu line
    let (bad, s1) := s.checkRetry { checker := 0x0b00 + hu, source := srcHome, unit := hu, addr := line * 64 }
    if bad then s1.panTagBad hu line else s1

/-- A read of a line's backing through the Pantry as the window's mode directs (rdM of R113); none: the extent refuses. -/
def State.readMem (s : State) (use : MUse) (line win : Nat) : Option State :=
  match (s.ext (line / 2 ^ 22)).read? line with
  | none => none
  | some b =>
    let hu := lineHu line
    match b, s.panFind line with
    | .dev _ _, some k => some (s.issue hu line win use none (.pantry k))
    | .dev h d, none => some ((s.panMiss line).issue hu line win use none (.dev h d))
    | b, _ => some (s.issue hu line win use none (b.tgt hu line))

/-- An uncorrectable error of a Pantry way met at a hit (R143): a clean line is invalidated and its access goes to the device; a
dirty line is poisoned. -/
def State.panBad (s : State) (hu win line k : Nat) : State :=
  match s.panTag k with
  | none => s
  | some t =>
    if t.d then
      ({ s with poison := if s.poison.contains (panData k) then s.poison else panData k :: s.poison }).record
        { checker := 0x0b00 + hu, source := srcWindow, unit := win, addr := line * 64, injected := true }
    else
      (s.dropTag k).record { checker := 0x0b00 + hu, cls := 0, source := srcHome, unit := hu, addr := line * 64, injected := true }

/-- The Pantry tags of a line checked before a write: at a hit the way, at a miss the set (R143, R463). -/
def State.panCheck (s : State) (line win : Nat) : State :=
  match s.panFind line with
  | some k =>
    let hu := lineHu line
    let (bad, s1) := s.checkRetry { checker := 0x0b00 + hu, source := srcHome, unit := hu, addr := line * 64 }
    if bad then s1.panBad hu win line k else s1
  | none => s.panMiss line

/-- Does a write of a WB window run as WB (R145)? -/
def State.runsWb (s : State) (w : Window) (key : Option Nat) : Bool :=
  w.run == .wb && (s.winDirty w < w.quota * 64 ||
    (match key with | some k => (match s.panTag k with | some t => t.d | none => false) | none => false))

/-- The backing that a target stands for; a house line and a Pantry way stand for none. -/
def Back.of : Tgt → Back
  | .dev h d => .dev h d
  | .remote sw a => .remote sw a
  | .house a => .house a
  | .pantry k => .house k

/-- May a write of a line be held in the Pantry now (R141, R145)? -/
def State.wbNow (s : State) (line win : Nat) : Bool :=
  let e := s.ext (line / 2 ^ 22)
  (e.st == .live || e.st == .releasing) && !(s.mov.migs.any fun m => m.x == line / 2 ^ 22) &&
    (match s.win? win with | some w => s.runsWb w (s.panFind line) | none => false)

/-- A write sent to every backing of its line, as a full line where the line is cached (R41, R144). -/
def State.writeThrough (s : State) (trk line win : Nat) (data : Line) (be : B64) (poison : Bool) (bs : List Back) : State :=
  let w := match s.panFind line with
    | some k => (mergeLine (s.readLine (panData k)) data be, allBe, poison || (be != allBe && s.poison.contains (panData k)))
    | none => (data, be, poison)
  bs.foldl (fun a b => a.issue (lineHu line) line win (.store trk)
    (some (match b with | .dev .. => w | _ => if bs.length = 1 then (data, be, poison) else w)) (b.tgt (lineHu line) line)) s

/-- A line to be allocated in the Pantry as R142 gives; a dirty victim is written to its device first, for a tracker entry's
write or for a fill. -/
def State.allocateFor (s : State) (trk : Option Nat) (line win : Nat) (d : Line × Bool) (dirty : Bool) : State :=
  match s.win? win with
  | none => s
  | some w =>
    match s.panVictim line w.room with
    | none => s
    | some k =>
      match s.panTag k with
      | some t =>
        if t.d then
          match (s.ext (t.line / 2 ^ 22)).write? t.line with
          | some (b :: _) => s.issue (lineHu line) t.line ((s.winOfLine t.line).getD win) (.victim trk line d.1 d.2 dirty w.room)
              (some (s.readLine (panData k), allBe, s.poison.contains (panData k))) (b.tgt (lineHu line) t.line)
          | _ => s
        else s.panInstall k line w.room d.1 d.2 dirty
      | none => s.panInstall k line w.room d.1 d.2 dirty

/-- Does a tracker entry's write wait for the write of a dirty victim (R142)? -/
def State.awaitsVictim (s : State) (trk : Nat) : Bool :=
  s.home.memq.any fun r => match r.use with | .victim (some t) .. => t == trk | _ => false

/-- A whole line allocated for a tracker entry's write that runs as WB: acknowledged when the Pantry write completes; written
through where no way is found (R142 step 4, R144). `w` is what is written through then. -/
def State.storeWb (s : State) (trk line win : Nat) (d : Line × Bool) (w : Line × B64 × Bool) (bs : List Back) : State :=
  let s1 := s.allocateFor (some trk) line win d true
  match s1.panFind line with
  | some k => s1.issue (lineHu line) line win (.store trk) none (.pantry k)
  | none => if s1.awaitsVictim trk then s1 else s1.writeThrough trk line win w.1 w.2.1 w.2.2 bs

/-- A write of a line's backing through the Pantry as the window's mode directs (wrM of R113); none: the extent refuses. -/
def State.writeMem (s0 : State) (trk line win : Nat) (data : Line) (be : B64) (poison : Bool) : Option State :=
  let s := match (s0.ext (line / 2 ^ 22)).write? line with | some (.dev _ _ :: _) => s0.panCheck line win | _ => s0
  let hu := lineHu line
  match (s.ext (line / 2 ^ 22)).write? line with
  | none => none
  | some [] => none
  | some [.dev h d] =>
    if s.wbNow line win then
      match s.panFind line with
      | some k =>
        let keep := poison || (be != allBe && s.poison.contains (panData k))
        let s1 := s.writeLine (panData k) data be keep
        let s2 := s1.mapPan fun p => { p with tags := NMap.adjust p.tags k fun t => { t with d := true, repl := 0 } }
        some (s2.issue hu line win (.store trk) none (.pantry k))
      | none =>
        if be = allBe then some (s.storeWb trk line win (data, poison) (data, be, poison) [.dev h d])
        else some (s.issue hu line win (.fillWr trk data be poison) none (.dev h d))
    else some (s.writeThrough trk line win data be poison [.dev h d])
  | some bs => some (s.writeThrough trk line win data be poison bs)

/-- Memory requests of a tracker entry still outstanding. -/
def State.memOut (s : State) (trk : Nat) : Nat :=
  s.home.memq.foldl (fun n r =>
    match r.use with
    | .fill t | .store t | .fillWr t _ _ _ => if t == trk then n + 1 else n
    | .victim (some t) .. => if t == trk then n + 1 else n
    | _ => n) 0

/-! ## Ends of tracker entries (R69, R96, R337) -/

/-- A line written poisoned to its backing, because its owner is lost (R96, R335, R337). -/
def State.poisonLine (s0 : State) (line win : Nat) : State :=
  let hu := lineHu line
  let s := (s0.mapWin win fun w =>
    { w with poisoned := (if 256 ≤ w.poisoned.length then w.poisoned.drop 1 else w.poisoned) ++ [line] }).mediaEvent line win
  match s.panFind line with
  | some k => { s with poison := if s.poison.contains (panData k) then s.poison else panData k :: s.poison }
  | none =>
    match (s.ext (line / 2 ^ 22)).write? line with
    | some (.house e :: _) =>
      { s with poison := if s.poison.contains (houseAddr hu e line) then s.poison else houseAddr hu e line :: s.poison }
    | some bs => bs.foldl (fun a b => a.issue hu line win .poison (some (0, allBe, true)) (b.tgt hu line)) s
    | none => s

/-- A host purged from the entry of one line that no operation has open (R96 step 3, R337): removed from an explicit sharer set;
a line it owns in E is written poisoned and becomes I; coarse vectors and lines in B stay. -/
def State.purgeLine (s : State) (w host line : Nat) : State :=
  match s.entry? line with
  | none => s
  | some e =>
    if e.pending || e.fmt || !e.ids.contains host then s
    else if e.st = stE then (s.poisonLine line w).updEntry line fun x => mkEnt x stI []
    else if e.st = stS then
      let rest := e.ids.filter (· != host)
      s.updEntry line fun x => mkEnt x (if rest.isEmpty then stI else stS) rest
    else s

/-- A line whose operation has ended purged of the hosts that R96 or R337 removes from its window. -/
def State.purgeBinds (s : State) (w line : Nat) : State :=
  match s.win? w with
  | none => s
  | some x => (x.binds.filter fun b => b.r96 || (s.port b.port).purge).foldl (fun a b => a.purgeLine w b.host line) s

/-- Is a message that waits to enter the crossbar the answer to an entry's requester (R175)? -/
def Trk.sends (t : Trk) (e : EMsg) : Bool :=
  let mine := fun (h g : Nat) => match t.req with
    | .rd _ _ _ host tag _ | .wr host tag .. | .wbk host tag .. | .atom _ host tag .. => host == h && tag == g
    | _ => false
  e.src == 64 + t.hu && (match e.body with
    | .memData h g .. | .ndr h g .. | .ioCpl h g .. => mine h g
    | _ => false)

/-- A tracker entry taken out (R69): its line's chain, the eviction's waiter and the set-conflict queue may go on. The first entry
that waits behind a recovery has its line recovered (R99, R100). -/
def State.dropTrk (s : State) (id : Nat) : State :=
  let o : Option Trk := s.trk? id
  let line := match o with | some t => t.line | none => 0
  let s0 := if s.flt.st == FState.drain then s.mapFlt fun f => { f with done := Nat.min 0xFFFFFFFF (f.done + 1) } else s
  let next : Option Nat := match o with
    | some t =>
      if t.st == LSt.bi then (s.home.trk.find? fun u => u.line == line && u.st == LSt.chained).map (·.id) else none
    | none => none
  let s1 := s0.mapHome fun h => { h with
    trk := (h.trk.filter fun t => t.id != id).map fun t =>
      { t with
        needV := t.needV && h.trk.any fun u => u.id != id && u.req == .evict t.id
        recovered := t.recovered || next == some t.id }
    scq := h.scq.filter (· != id) }
  let s2 := match o with
    | some t => if t.par then s1 else s1.purgeBinds t.win line
    | none => s1
  (s2.pumpCfl).retryScq line

/-- The end of an entry's operation: the entry is freed, or held until its last message has entered the crossbar (R69, R175). -/
def State.freeTrk (s : State) (id : Nat) : State :=
  match s.trk? id with
  | none => s
  | some t =>
    if s.home.egress.any t.sends then ((s.mapTrk id fun x => { x with st := .done }).purgeBinds t.win t.line).pumpCfl
    else s.dropTrk id

/-! ## Snoops (R75, R88, R95, R171) -/

/-- BISnp messages outstanding of a unit (HSL_SNP_STAT, R103). -/
def State.bisnpOut (s : State) (hu : Nat) : Nat :=
  s.home.trk.foldl (fun n t => if t.hu == hu then n + t.snoops.length else n) 0

/-- The upstream port of a host's binding to a window; for a host at another switch, the routed fabric port. -/
def State.hostPort (s : State) (w host line : Nat) : Option Nat :=
  match s.win? w with
  | some x =>
    match x.bind? host with
    | some b => some b.port
    | none => s.routeTo host (crc64 line)
  | none => none

/-- BISnp messages outstanding to an upstream port (R171). -/
def State.snoopsOn (s : State) (p : Nat) : Nat :=
  s.home.trk.foldl (fun n t =>
    n + t.snoops.foldl (fun m x => if s.hostPort t.win x.host t.line == some p then m + 1 else m) 0) 0

/-- One BISnp sent to a host (R95, R171), with the extra M2S Req credit while REQ credits are withheld (R76). -/
def State.sendSnoop (s : State) (t : Trk) (host : Nat) (again : Bool) : State :=
  match s.hostPort t.win host t.line with
  | none => s
  | some p =>
    let s1 := s.pushHome p t.hu .snp (.biSnp host t.skind t.line)
    let s2 := s1.mapTrk t.id fun x => { x with
      unsent := x.unsent.filter (· != host)
      snoops := x.snoops ++ [{ host := host, kind := t.skind, t0 := s.now, again := again }] }
    if s2.flag (VST_PORT_STAT_fREQ_HELD p) then
      (s2.mapHome fun h => { h with extra := host :: h.extra }).emit (.credit p 0 1)
    else s2

/-! ## Answers -/

/-- Byte position of a line in an access of CXL.io, and the bytes it takes. -/
def ioSpan (pa len line : Nat) : Nat × Nat :=
  let lo := Nat.max pa (line * 64)
  let hi := Nat.min (pa + len) (line * 64 + 64)
  (lo - line * 64, hi - lo)

/-- One line of a CXL.io access done: when the last is in, the completion leaves (R219). -/
def State.ioLine (s : State) (acc line : Nat) (data : Option (Line × Bool)) (refused : Bool) : State :=
  match s.home.io.find? fun a => a.id == acc with
  | none => s
  | some a =>
    let a1 : IoAcc := { a with
      left := a.left - 1
      refused := a.refused || refused
      poison := a.poison || (match data with | some d => d.2 | none => false)
      data := match data with | some d => NMap.set a.data line d.1 | none => a.data }
    if a1.left = 0 then
      let s1 := s.mapHome fun h => { h with io := h.io.filter fun x => x.id != acc }
      if a.write then
        if a1.refused then s1.push a.port .cmp (64 + lineHu line) (.errNonfatal a.host a.tag) else s1
      else if a1.refused then s1.push a.port .cmp (64 + lineHu line) (.ioCpl a.host a.tag .ca [] false)
      else
        let bytes := a1.data.flatMap fun p => ((lineBytes p.2).drop (ioSpan a.pa a.len p.1).1).take (ioSpan a.pa a.len p.1).2
        s1.push a.port .cmp (64 + lineHu line) (.ioCpl a.host a.tag .sc bytes a1.poison)
    else s.mapHome fun h => { h with io := h.io.map fun x => if x.id == acc then a1 else x }

/-- A slot's result written, DONE set after it, and the slice's vector raised if NOTIFY is set (R128); a result whose page
was withdrawn goes to the Attic (R131); an operation granted before its slice went carries the slice number plus 1,024. -/
def State.slotDone (s : State) (slice slot status result : Nat) : State :=
  match NMap.get? s.pool.slices slice with
  | none => s.record { checker := 0x4d00, source := 14, unit := slice % 1024 + slot * 65536, payload := status + result * 2 ^ 64 }
  | some x =>
    let y := (NMap.get? x.slots slot).getD {}
    let notify := match y.flight with | some f => f.2.2.2.1 | none => false
    let y1 : XSlot := { y with status := status, result := result, done := true, flight := none, granted := false }
    let s1 := s.mapPool fun p => { p with
      slices := NMap.adjust p.slices slice fun z => { z with slots := NMap.set z.slots slot y1 } }
    if notify then s1.winVector x.window x.host (1 + x.page) else s1

/-- Extended-operation statuses (R129). -/
def xOk : Nat := 0
def xBadOp : Nat := 1
def xAlign : Nat := 2
def xRange : Nat := 3
def xDenied : Nat := 4
def xPoison : Nat := 5
def xHole : Nat := 6
def xAborted : Nat := 7
def xWriteErr : Nat := 8

/-- New value of an AtomicOp (R120): `a` is the add, swap or compare operand, `b` the swap operand of CAS. -/
def atomNew (op : AtomOp) (size old a b : Nat) : Nat :=
  match op with
  | .fetchAdd => (old + a) % 256 ^ size
  | .swap => a % 256 ^ size
  | .cas => if old = a % 256 ^ size then b % 256 ^ size else old

/-- New value of an extended operation (R126). -/
def xopNew (op size old opnd : Nat) : Nat :=
  let x := opnd % 256 ^ size
  match op with
  | 1 => Nat.min old x
  | 2 => Nat.max old x
  | 3 => if signed (8 * size) old ≤ signed (8 * size) x then old else x
  | 4 => if signed (8 * size) old ≤ signed (8 * size) x then x else old
  | 5 => old &&& x
  | 6 => old ||| x
  | 7 => old ^^^ x
  | 8 => (old + x) % 256 ^ size
  | 9 => if old < x then old + 1 else old
  | _ => old

/-- Is a size allowed for an operation code (R126)? -/
def xopSize (op size : Nat) : Bool :=
  match op with
  | 1 | 2 | 3 | 4 | 9 => size == 4 || size == 8
  | 5 | 6 | 7 => size == 4 || size == 8 || size == 16
  | 8 => size == 16
  | _ => false

/-- The requester of a read answered with data and a grant (R114). -/
def State.answerRead (s : State) (t : Trk) (d : Line × Bool) (g : Grant) : State :=
  let ld := s.devLoad t.room t.hu
  match t.req with
  | .rd _ _ _ host tag port =>
    (s.pushHome port t.hu .cmp (.memData host tag d.1 d.2 ld)).pushHome port t.hu .cmp (.ndr host tag g ld)
  | .io acc _ => s.ioLine acc t.line (some d) false
  | .int n _ => s.mapHome fun h => { h with intDone := h.intDone ++ [(n, d.1, d.2, 0)] }
  | _ => s

/-- The requester of a read on a window without directory tracking answered: HDM-H has the data alone (R108). -/
def State.answerHdmH (s : State) (t : Trk) (d : Line × Bool) : State :=
  match t.req with
  | .rd _ _ _ host tag port => s.pushHome port t.hu .cmp (.memData host tag d.1 d.2 (s.devLoad t.room t.hu))
  | _ => s.answerRead t d .cmp

/-- The synthetic answer of R183 for a request whose memory request has no answer (R334, R335): poisoned data and Cmp
granting I, or Completer Abort. -/
def State.answerSyn (s : State) (t : Trk) : State :=
  match t.req with
  | .rd _ _ _ host tag port =>
    (s.pushHome port t.hu .cmp (.memData host tag 0 true 0)).pushHome port t.hu .cmp (.ndr host tag .cmpI 0)
  | .io acc _ => s.ioLine acc t.line none true
  | _ => s.answerRead t (0, true) .cmpI

/-- The requester of a write answered; `err`: the backing refused it (R119). -/
def State.answerWrite (s : State) (t : Trk) (err : Bool) : State :=
  let ld := s.devLoad t.room t.hu
  match t.req with
  | .wr host tag port _ _ _ => s.pushHome port t.hu .cmp (.ndr host tag (if err then .err else .cmp) ld)
  | .wbk host tag port _ _ _ _ _ => s.pushHome port t.hu .cmp (.ndr host tag (if err then .err else .cmp) ld)
  | .rd _ _ _ host tag port => s.pushHome port t.hu .cmp (.ndr host tag (if err then .err else .cmpE) ld)
  | .atom _ host tag port _ size _ _ =>
    s.pushHome port t.hu .cmp (.ioCpl host tag (if err then .ca else .sc) (if err then [] else leBytes size (t.old.getD 0)) false)
  | .xop slice slot _ _ _ _ _ => s.slotDone slice slot (if err then xWriteErr else xOk) (t.old.getD 0)
  | .io acc _ => s.ioLine acc t.line none err
  | .int n _ => s.mapHome fun h => { h with intDone := h.intDone ++ [(n, 0, false, b2n err)] }
  | _ => s

/-- A memory error logged as a contained fault of the window (R119; checker type, log 17). -/
def State.memFaultOf (s : State) (t : Trk) (inj : Bool) : State :=
  s.record { checker := 0x0c00 + t.hu, source := srcWindow, unit := t.win, room := t.room, addr := t.line * 64, injected := inj }

def State.memFault (s : State) (t : Trk) : State := s.memFaultOf t false

/-! ## Ends of operations -/

/-- The grant of R113: PENDING cleared, the entry freed. -/
def State.endTrk (s : State) (t : Trk) : State :=
  (s.updEntry t.line fun e => { e with pending := false }).freeTrk t.id

/-- The entry's new stable state written. -/
def State.setStable (s : State) (line st : Nat) (hs : List Nat) : State := s.updEntry line fun e => mkEnt e st hs

/-- Requester of an entry: its fabric ID. -/
def Trk.q (t : Trk) : Nat :=
  match t.req with
  | .rd _ _ _ host _ _ | .wr host .. | .wbk host .. | .atom _ host .. => host
  | _ => 0

def Trk.isOwn (t : Trk) : Bool := match t.req with | .rd _ own _ _ _ _ => own | _ => false
def Trk.isShr (t : Trk) : Bool := match t.req with | .rd _ _ shr _ _ _ => shr | _ => false
/-- MemInv and MemInvNT need no data. -/
def Trk.noData (t : Trk) : Bool :=
  match t.req with
  | .rd .memInv .. | .rd .memInvNT .. => true
  | _ => false
/-- A write, an atomic or an internal write: the operation goes on in WM. -/
def Trk.isStore (t : Trk) : Bool :=
  match t.req with
  | .wr .. | .wbk .. | .atom .. | .xop .. => true
  | .io _ w | .int _ w => w.isSome
  | _ => false
def Trk.isEvict (t : Trk) : Bool := match t.req with | .evict _ | .recall _ _ => true | _ => false

/-- Does an operation read before it writes (rmw)? -/
def Trk.isRmw (t : Trk) : Bool := match t.req with | .atom .. | .xop .. => true | _ => false

/-- Data, enables and poison that a store writes. -/
def Trk.storeData (t : Trk) : Line × B64 × Bool :=
  match t.req with
  | .wr _ _ _ d be p | .wbk _ _ _ d be p _ _ => (d, be, p)
  | .io _ (some w) | .int _ (some w) => (w.1, w.2, false)
  | _ => (0, 0, false)

/-- The stable state that WM leaves (R104, R113): for the owner's writeback the state that its MetaValue gives, else I. The state
from which the operation was opened stands with PENDING until then. -/
def State.endStable (s : State) (t : Trk) : State :=
  if t.par then s
  else match t.req with
  | .wbk host _ _ _ _ _ mv _ =>
    if t.opened = stE && t.owner = host then
      (match mv with
       | .s => s.setStable t.line stS [host]
       | .a => s.setStable t.line stE [host]
       | _ => s.setStable t.line stI [])
    else if t.opened = stI then s else s.setStable t.line stI []
  | _ => if t.opened = stI then s else s.setStable t.line stI []

/-- The memory work of WM begun (R113): a write, or the read of an rmw. An extent that refuses it ends the operation with
an error (R41). -/
def State.startStore (s : State) (t : Trk) : State :=
  let s1 := s.mapTrk t.id fun x => { x with st := .wm }
  if t.isRmw then
    match s1.readMem (.fill t.id) t.line t.win with
    | some s2 => s2
    | none =>
      let s2 := (s1.refusedExt t.win t.line 0).endStable t
      (match t.req with
       | .xop slice slot .. => s2.slotDone slice slot xHole 0
       | _ => s2.answerWrite t true).endTrk t
  else
    let w := t.storeData
    match s1.writeMem t.id t.line t.win w.1 w.2.1 w.2.2 with
    | some s2 => s2
    | none =>
      let s2 := ((s1.refusedExt t.win t.line 0).endStable t).answerWrite t true
      if t.par then s2.freeTrk t.id else s2.endTrk t

/-- The memory read of an entry begun; an extent that refuses it gives poisoned data (R41). -/
def State.startRead (s : State) (t : Trk) : State :=
  if s.parOpen t.line || s.memOut t.id != 0 then s
  else match s.readMem (.fill t.id) t.line t.win with
    | some s2 => s2
    | none => (s.refusedExt t.win t.line 0).mapTrk t.id fun x => { x with data := some (0, true) }

/-! ## Advance of an open entry (R114) -/

/-- The stable state that a synthetic answer leaves (R334, R335): its requester is granted I, and every other host has what
the snoops have left it (log 210). -/
def State.synStable (s : State) (t : Trk) : State :=
  match t.st with
  | .f => if t.opened = stI then s.setStable t.line stI [] else s
  | .se =>
    if (match s.entry? t.line with | some e => e.ids.contains t.q | none => false) then s.setStable t.line stS [t.q]
    else s.setStable t.line stI []
  | .es => if t.ans = 2 then s.setStable t.line stS [t.owner] else s.setStable t.line stI []
  | .ec => if t.ans = 3 then s else if t.ans = 2 then s.setStable t.line stS [t.owner] else s.setStable t.line stI []
  | _ => s.setStable t.line stI []

/-- Does the synthetic answer end an open entry: its memory request is lost, and no writeback holds the whole line? -/
def Trk.lost (t : Trk) : Bool := t.syn && t.wb.isNone && t.st != .wm

/-- An open entry looked at once after a snoop answer or a memory response: it grants, goes on or waits, as R114 gives. -/
def State.advance1 (s : State) (id : Nat) : State :=
  match s.trk? id with
  | none => s
  | some t =>
    let quiet := t.snoops.isEmpty && t.unsent.isEmpty
    let shared := match s.win? t.win with | some w => w.type == .shared | none => false
    if t.lost then (if quiet && s.memOut t.id = 0 then ((s.synStable t).answerSyn t).endTrk t else s)
    else match t.st with
    | .f =>
      match (match t.wb with | some d => some d | none => t.data) with
      | none => if t.wbSeen then s.startRead t else s
      | some d =>
        if s.memOut t.id != 0 then s
        else if s.parOpen t.line && t.wb.isNone then s
        else if !shared then (s.answerHdmH t d).endTrk t
        else if t.isOwn then ((s.setStable t.line stE [t.q]).answerRead t d .cmpE).endTrk t
        else if t.isShr && !t.noCache then
          let s1 := if t.opened = stE then s.setStable t.line stS [t.q]
            else if t.opened = stS then s.updEntry t.line fun e => s.addSharer e t.win t.q
            else s.setStable t.line stS [t.q]
          (s1.answerRead t d .cmpS).endTrk t
        else (s.answerRead t d (if t.noCache then .cmpI else .cmp)).endTrk t
    | .se =>
      if !quiet then s
      else if t.noData then ((s.setStable t.line stE [t.q]).answerWrite t false).endTrk t
      else match t.data with
        | some d => ((s.setStable t.line stE [t.q]).answerRead t d .cmpE).endTrk t
        | none => s.startRead t
    | .ei =>
      if !quiet || t.ans = 0 then s
      else if t.isEvict then (s.setStable t.line stI []).freeTrk t.id
      else if t.isStore then (if s.parOpen t.line then s else s.startStore t)
      else if t.grantS then
        match (match t.wb with | some d => some d | none => t.data) with
        | some d => ((s.setStable t.line stS [t.q]).answerRead t d .cmpS).endTrk t
        | none => s.startRead t
      else if t.noData then ((s.setStable t.line stE [t.q]).answerWrite t false).endTrk t
      else match (match t.wb with | some d => some d | none => t.data) with
        | some d => ((s.setStable t.line stE [t.q]).answerRead t d .cmpE).endTrk t
        | none => s.startRead t
    | .es =>
      if !quiet || t.ans = 0 then s
      else match (match t.wb with | some d => some d | none => t.data) with
        | some d =>
          ((s.setStable t.line stS (if t.ans = 2 then [t.owner, t.q] else [t.q])).answerRead t d .cmpS).endTrk t
        | none => s.startRead t
    | .ec =>
      if !quiet || t.ans = 0 then s
      else match (match t.wb with | some d => some d | none => t.data) with
        | some d =>
          let s1 := if t.ans = 3 then s else if t.ans = 2 then s.setStable t.line stS [t.owner] else s.setStable t.line stI []
          (s1.answerRead t d .cmp).endTrk t
        | none => s.startRead t
    | .si =>
      if !quiet then s
      else match t.req with
        | .recall _ host =>
          if host < 4096 then
            (s.updEntry t.line fun e =>
              if e.fmt then { e with pending := false }
              else mkEnt { e with pending := false } (if (e.ids.filter (· != host)).isEmpty then stI else stS)
                (e.ids.filter (· != host))).freeTrk t.id
          else (s.setStable t.line stI []).freeTrk t.id
        | _ =>
          if t.isEvict then (s.setStable t.line stI []).freeTrk t.id
          else s.startStore t
    | .bi => if quiet && !s.parOpen t.line then (s.setStable t.line stI []).freeTrk t.id else s
    | .wm =>
      if s.memOut t.id != 0 then s
      else if t.isRmw && t.old.isNone then
        match t.data with
        | none => s
        | some d =>
          match t.req with
          | .atom op host tag port off size a b =>
            let old := lineGet d.1 off size
            let w := lineSet off size (atomNew op size old a b)
            let s1 := s.bumpPair (HSL_ATOM_CNT_LO t.hu) 1
            let e1 := s1.endStable t
            if t.syn then ((s.endStable t).pushHome port t.hu .cmp (.ioCpl host tag .ca [] false)).endTrk t
            else if d.2 then (e1.pushHome port t.hu .cmp (.ioCpl host tag .sc (leBytes size old) true)).endTrk t
            else if op == .cas && old != a % 256 ^ size then
              (e1.pushHome port t.hu .cmp (.ioCpl host tag .sc (leBytes size old) false)).endTrk t
            else match (s1.mapTrk t.id fun x => { x with old := some old }).writeMem t.id t.line t.win w.1 w.2 false with
              | some s2 => s2
              | none => ((e1.refusedExt t.win t.line 0).answerWrite t true).endTrk t
          | .xop slice slot off size op opnd _ =>
            let old := lineGet d.1 off size
            let w := lineSet off size (xopNew op size old opnd)
            let s1 := s.bumpPair (HSL_ATOM_CNT_LO t.hu) 1
            let e1 := s1.endStable t
            if d.2 then (e1.slotDone slice slot xPoison 0).endTrk t
            else if op = 9 && opnd % 256 ^ size ≤ old then (e1.slotDone slice slot xOk old).endTrk t
            else match (s1.mapTrk t.id fun x => { x with old := some old }).writeMem t.id t.line t.win w.1 w.2 false with
              | some s2 => s2
              | none => ((e1.refusedExt t.win t.line 0).slotDone slice slot xHole 0).endTrk t
          | _ => s
      else
        let s2 := (s.endStable t).answerWrite t t.wrErr
        if t.par then s2.freeTrk t.id else s2.endTrk t
    | .chained | .done => s

/-- An open entry looked at: again if a read that an extent refuses has given its data at once (R41). -/
def State.advance (s : State) (id : Nat) : State :=
  let s1 := s.advance1 id
  match s.trk? id, s1.trk? id with
  | some t, some t1 => if t.data.isNone && t1.data.isSome && s1.memOut id = 0 then s1.advance1 id else s1
  | _, _ => s1

/-- A snoop that has still to leave is dropped because its host cannot be reached, answered as BIRspI (R335): an owner's line is
written poisoned, and the entry goes on. -/
def State.dropUnsent (s : State) (t : Trk) (host : Nat) : State :=
  let own := t.opened == stE && t.owner == host
  let s1 := s.mapTrk t.id fun x => { x with
    unsent := x.unsent.filter (· != host)
    ans := if x.ans = 0 then 1 else x.ans
    wb := if own then none else x.wb
    data := if own then some (0, true) else x.data }
  (if own then s1.poisonLine t.line t.win else s1).advance t.id

/-- Has a host's port lost its link, or is there none? -/
def State.hostGone (s : State) (t : Trk) (host : Nat) : Bool :=
  match s.hostPort t.win host t.line with
  | some p => !s.inL0 p
  | none => true

/-- May a BISnp to a host leave now (R75, R171)? -/
def State.mayBisnp (s : State) (t : Trk) (host : Nat) : Bool :=
  match s.hostPort t.win host t.line with
  | some p => s.bisnpOut t.hu < 256 && s.snoopsOn p < 512
  | none => false

/-- The oldest unsent snoop that can leave or be dropped: one that must wait holds back no other (R73, R75, R171). -/
def State.nextSnoop (s : State) : Option (Trk × Nat) :=
  s.home.trk.findSome? fun t =>
    (t.unsent.find? fun h => s.hostGone t h || s.mayBisnp t h).map fun h => (t, h)

/-- One unsent snoop sent or dropped. -/
def State.pumpSnoop1 (s : State) : State :=
  match s.nextSnoop with
  | none => s
  | some (t, h) => if s.hostGone t h then s.dropUnsent t h else s.sendSnoop t h false

def State.pumpSnoops : Nat → State → State
  | 0, s => s
  | n + 1, s => State.pumpSnoops n s.pumpSnoop1

/-! ## Start of an operation (R113) -/

/-- Can a recovery of a line begin: the snoop reserve has an entry, and the line's entry, if it has one, a cache way? -/
def State.canRecover (s : State) (line : Nat) : Bool :=
  s.trkCount (lineHu line) .snpRes < 64 && !((s.entry? line).isSome && (s.cacheFind line).isNone && (s.cacheVictim line).isNone)

/-- A recovery of a line in B begun (R99): an entry of the snoop reserve, BISnpInv to the bound hosts. A line of no window
becomes I at once. While the reserve is full the entry stays in B, and its next use or the next scrub recovers it (log 211). -/
def State.startRecover (s : State) (line : Nat) : State :=
  let hu := lineHu line
  match s.winOfLine line with
  | none => s.setStable line stI []
  | some w =>
    let room := match s.win? w with | some x => x.room | none => 0
    if !s.canRecover line then s.updEntry line fun e => { e with st := stB, fmt := false, nsh := 0, sharers := 0 }
    else
      let (id, s1) := s.fresh1
      let s2 := (s1.setFld (HSL_DIR_ERR_fB_SEEN hu) 1).bump (HSL_DIR_STAT_fB_CNT hu)
      let s3 := s2.updEntry line fun e => { e with st := stB, fmt := false, nsh := 0, sharers := 0, pending := true }
      let s4 := s3.addTrk { id := id, hu := hu, pool := .snpRes, room := room, line := line, win := w, st := .bi, opened := stB,
                            req := .recover, unsent := s3.boundHosts w, skind := .snpInv }
      (s4.record { checker := 0x0a00 + hu, source := srcWindow, unit := w, room := room, addr := line * 64 }).advance id

/-- The set-loss marker (R100). -/
def markerEnt : DEnt := { tag := 0, st := stB, fmt := true }

/-- Set-loss markers of a home unit (HSL_DIR_STAT). -/
def State.markers (s : State) (hu : Nat) : Nat :=
  s.home.dir.foldl (fun n p => if p.1 / 2 ^ 23 == hu && p.2.isMarker then n + 1 else n) 0

/-- A single-bit error of a directory entry corrected (R97). -/
def State.dirCe (s : State) (hu ck : Nat) (inj lasting : Bool) : State :=
  (((s.hbmCe ck lasting).setFld (HSL_DIR_ERR_fCE_SEEN hu) 1).bump (HSL_DIR_STAT_fCE_CNT hu)).record
    { checker := ck, cls := 0, source := srcHome, unit := hu, injected := inj, lasting := lasting, transient := !lasting }

/-- An uncorrectable HBM entry met in a set (R99, R100): with a trusted tag its line is recovered through B, else a set-loss
marker is written. The entry of a line that is open is in the cache, which governs and will rewrite it (log 211). -/
def State.dirBad (s : State) (hu set way : Nat) (trusted inj : Bool) : State :=
  let key := dirKey hu set way
  let e := s.dirEnt key
  if trusted && e.tag != 0 then
    let line := tagLine e.tag set
    if (s.openTrk line).isSome then s
    else
      let s1 := if e.st = stI then s.setDir key { e with st := stB, fmt := false, sharers := 0, nsh := 0 } else s
      s1.startRecover line
  else
    let s0 := { s with home := { s.home with cache := s.home.cache.filter fun p =>
      !(p.1 / 2 ^ 17 == hu && p.2.way == way && !p.2.pending &&
        dirSet (p.2.ctag / 32 * 2 ^ 18 + p.1 % 2 ^ 17 / 16 * 32 + p.2.ctag % 32) == set) } }
    (s0.setDir key markerEnt).record
      { checker := 0x0a00 + hu, source := srcHome, unit := hu, addr := set, injected := inj }

/-- A check of a directory checker with its retry (R97, R447): true means uncorrectable. -/
def State.dirCheck (s : State) (hu ck : Nat) : Bool × State :=
  match s.check1 ck 8 true with
  | (.clean, s1) => (false, s1)
  | (_, s1) =>
    match s1.check1 ck 8 true with
    | (.clean, s2) => (false, s2.dirCe hu ck true false)
    | (.ce, s2) => (false, s2.dirCe hu ck true true)
    | (.ue, s2) => (true, s2)

/-- An uncorrectable error of a directory-cache entry (R98): a clean one is read again from HBM; a dirty one stands for an
error of its HBM entry. -/
def State.cacheBad (s : State) (hu line key : Nat) : State :=
  match s.cacheEnt? key with
  | none => s
  | some c =>
    if c.dirty || c.dirtyPar != c.dirty then s.dirBad hu (dirSet line) c.way true true
    else
      let s1 := (s.dropCache key).record
        { checker := 0x0900 + hu, cls := 0, source := srcHome, unit := hu, addr := line * 64, injected := true }
      s1.lookup line

/-- The directory lookup of a line checked (R97 to R100, R463): the cache entry that hits, else the HBM set, whose matching
way, or lowest way at a miss, an injection strikes. -/
def State.dirLookup (s : State) (line : Nat) : State :=
  let hu := lineHu line
  match s.cacheFind line with
  | some k =>
    let (bad, s1) := s.dirCheck hu (0x0900 + hu)
    (if bad then s1.cacheBad hu line k else s1).lookup line
  | none =>
    let (bad, s1) := s.dirCheck hu (0x0a00 + hu)
    (if bad then s1.dirBad hu (dirSet line) (match s1.dirFind line with | some k => k % 16 | none => 0) true true else s1
      ).lookup line

/-- An eviction transaction for a way of a line's set (R91): an entry of the snoop reserve, BISnpInv to the hosts it
names. -/
def State.startEvict (s : State) (t : Trk) (way : Nat) : State :=
  let hu := t.hu
  let key := dirKey hu (dirSet t.line) way
  let vl := tagLine (s.dirEnt key).tag (dirSet t.line)
  if 64 ≤ s.trkCount hu .snpRes then s.mapTrk t.id fun x => { x with needV := true }
  else match s.entry? vl with
    | none => s
    | some e =>
      let w := (s.winOfLine vl).getD 4096
      let (id, s1) := s.fresh1
      let s2 := (s1.updEntry vl fun e => { e with pending := true }).bumpPair (HSL_EVICT_CNT_LO hu) 1
      let s3 := s2.addTrk { id := id, hu := hu, pool := .snpRes, room := t.room, line := vl, win := w,
                            st := if e.st = stE then .ei else if e.st = stB then .bi else .si, opened := e.st,
                            owner := e.ids.headD 0, req := .evict t.id, unsent := s.named e w, skind := .snpInv }
      (s3.mapTrk t.id fun x => { x with needV := true }).advance id

/-- A fill of a line that waits for its dirty victim's write is given up, because an operation opens on the line: the victim
becomes clean and stays (R107, R142). -/
def State.abandonFill (s : State) (line : Nat) : State :=
  s.mapHome fun h => { h with memq := h.memq.map fun r =>
    match r.use with
    | .victim none l _ _ _ _ => if l == line then { r with use := .clean false } else r
    | _ => r }

/-- The entry of a line opened with a state, snoops to hosts, from a stable state. -/
def State.openAs (s : State) (t : Trk) (st : LSt) (from_ owner : Nat) (hosts : List Nat) (k : SnpType) : State :=
  (s.mapTrk t.id fun x => { x with st := st, opened := from_, owner := owner, unsent := hosts, skind := k, ans := 0 })

/-- A new directory entry for a reader of a line in I (R89, R90): entry made with PENDING, or an eviction begun, or none. -/
def State.withEntry (s : State) (t : Trk) (st : Nat) (go : State → Trk → State) (none_ : State → Trk → State) : State :=
  if (s.cacheFind t.line).isNone && (s.cacheVictim t.line).isNone then s.joinScq t
  else match s.allocWay t.line t.room with
    | .way w => go ((s.leaveScq t).newEntry t.line w { room := t.room, st := st, sharers := t.q, nsh := 1, pending := true }) t
    | .evict w => (s.leaveScq t).startEvict t w
    | .noCache => none_ ((s.leaveScq t).bumpPair (HSL_NOCACHE_CNT_LO t.hu) 1) t

/-- A memory read opened in F and begun. -/
def State.openFill (s : State) (t : Trk) (from_ owner : Nat) : State :=
  let s1 := s.openAs t .f from_ owner [] .snpInv
  match s1.trk? t.id with
  | some t1 => (s1.startRead t1).advance t.id
  | none => s1

/-- A MemRdData is OWN on a line in I and SHR otherwise (R105); a read-only binding has SHR alone (R106). -/
def State.sortKind (s : State) (t : Trk) : Trk :=
  match t.req with
  | .rd .memRdData own _ h g p =>
    if own && s.stable t.line = stI then t else { t with req := .rd .memRdData false true h g p }
  | _ => t

/-- An operation that no older one on its line holds back starts, by the rows I, S, E and B of R113; on windows without
directory tracking, by R108. -/
def State.startTrk (s : State) (t0 : Trk) : State :=
  let t := s.sortKind t0
  let s := (s.mapTrk t.id fun x => { x with req := t.req }).abandonFill t.line
  let shared := match s.win? t.win with | some w => w.type == .shared | none => false
  if !shared then
    if t.isStore then (s.openAs t .wm stI 0 [] .snpInv).startStore t
    else if t.noData then
      (match t.req with
       | .rd _ _ _ host tag port => s.pushHome port t.hu .cmp (.ndr host tag .cmp (s.devLoad t.room t.hu))
       | _ => s).freeTrk t.id
    else s.openFill t stI 0
  else
    let s := s.dirLookup t.line
    if (s.openTrk t.line).isSome then s
    else if s.noCacheWay t.line then s.joinScq t
    else
    let s := s.leaveScq t
    let st := if t.recovered && (s.entry? t.line).isNone then stI else s.stable t.line
    let e := (s.entry? t.line).getD {}
    let pend := fun (a : State) => a.updEntry t.line fun x => { x with pending := true }
    if st = stB then
      if s.canRecover t.line then s.startRecover t.line else s.mapTrk t.id fun x => { x with needV := true }
    else if st = stI then
      if t.isStore then (s.openAs t .wm stI 0 [] .snpInv).startStore t
      else if t.isEvict then s.freeTrk t.id
      else if t.isOwn then
        s.withEntry t stE
          (fun a t => if t.noData then (a.answerWrite t false).endTrk t else a.openFill t stI 0)
          (fun a t => if t.noData then
              (match t.req with
               | .rd _ _ _ host tag port => a.pushHome port t.hu .cmp (.ndr host tag .cmpI (a.devLoad t.room t.hu))
               | _ => a).freeTrk t.id
            else (a.mapTrk t.id fun x => { x with noCache := true, req := match x.req with
              | .rd k _ _ h g p => .rd k false false h g p
              | r => r }).openFill t stI 0)
      else if t.isShr then
        s.withEntry t stS (fun a t => a.openFill t stI 0)
          (fun a t => (a.mapTrk t.id fun x => { x with noCache := true }).openFill t stI 0)
      else s.openFill t stI 0
    else if st = stS then
      let n := s.named e t.win
      if t.isStore then ((pend s).openAs t .si stS 0 n .snpInv).advance t.id
      else if t.isEvict then
        let n1 := match t.req with | .recall _ host => if host < 4096 then n.filter (· == host) else n | _ => n
        ((pend s).openAs t .si stS 0 n1 .snpInv).advance t.id
      else if t.isOwn then
        let others := n.filter (· != t.q)
        if others.isEmpty then
          if t.noData then ((s.setStable t.line stE [t.q]).answerWrite t false).endTrk t
          else (pend s).openFill t stS 0
        else
          let s1 := (pend s).openAs t .se stS 0 others .snpInv
          if t.noData then s1.advance t.id
          else match s1.trk? t.id with
            | some t1 => (s1.startRead t1).advance t.id
            | none => s1
      else (pend s).openFill t stS 0
    else
      let o := e.ids.headD 0
      if t.isEvict then ((pend s).openAs t .ei stE o [o] .snpInv).advance t.id
      else match t.req with
        | .wbk host _ _ _ _ _ _ _ =>
          if host = o then ((pend s).openAs t .wm stE o [] .snpInv).startStore { t with opened := stE }
          else ((pend s).openAs t .ei stE o [o] .snpInv).advance t.id
        | _ =>
          if t.isStore then ((pend s).openAs t .ei stE o [o] .snpInv).advance t.id
          else if t.isOwn then
            if t.q = o then
              if t.noData then ((s.setStable t.line stE [o]).answerWrite t false).endTrk t else (pend s).openFill t stE o
            else ((pend s).openAs t .ei stE o [o] .snpInv).advance t.id
          else if t.isShr then
            if t.q = o then (pend s).openFill t stE o
            else ((pend s).openAs t .es stE o [o] .snpData).advance t.id
          else match t.req with
            | .rd .. =>
              if t.q = o then (pend s).openFill t stE o
              else ((pend s).openAs t .ec stE o [o] .snpCur).advance t.id
            | _ => ((pend s).openAs t .ec stE o [o] .snpCur).advance t.id

/-- The oldest entry that can start: chained, no open entry on its line, none older chained on it, not waiting. -/
def State.nextStart (s : State) : Option Trk :=
  s.home.trk.find? fun t => t.st == .chained && !t.needV && !t.scq && (s.openTrk t.line).isNone &&
    (match s.home.trk.find? fun u => u.line == t.line && u.st == .chained with | some u => u.id == t.id | none => false)

/-- A fill of MemSpecRd abandoned because a tracker entry opens on its line (R107). -/
def State.abandonSpec (s : State) (line : Nat) : State :=
  (s.mapHome fun h => { h with spec := h.spec.filter fun f => f.line != line }).abandonFill line

/-- The tracker entry of a granted request (R67, R68), with the rule bank and GEN that it carries (R42, R223). -/
def State.mkTrk (s : State) (id hu room line w : Nat) (rwd : Bool) (req : Req) (bank : Option Bool) : Trk :=
  { id := id, hu := hu, room := room, line := line, win := w, st := .chained, req := req, bank := bank,
    pool := if rwd && !s.hasGeneral room hu then .rwdRes else .general, gen := (s.ext (line / 2 ^ 22)).gen }

/-- The oldest CXL.io access with a line for which its Room has an entry (R68, R219). -/
def State.nextIo (s : State) : Option (IoAcc × Nat × Option (Line × B64)) :=
  s.home.io.findSome? fun a => (a.todo.find? fun l => s.hasGeneral a.room (lineHu l.1)).map fun l => (a, l.1, l.2)

/-- One line of a CXL.io access takes its tracker entry. -/
def State.openIo (s : State) (a : IoAcc) (line : Nat) (wr : Option (Line × B64)) : State :=
  let s1 := s.mapHome fun h => { h with io := h.io.map fun x =>
    if x.id == a.id then { x with todo := x.todo.filter fun l => l.1 != line } else x }
  let (id, s2) := (s1.abandonSpec line).fresh1
  s2.addTrk (s2.mkTrk id (lineHu line) a.room line a.win false (.io a.id wr) a.bank)

/-- The oldest writeback that waits for an earlier one of its line, once that is over (R112). -/
def State.nextHeld (s : State) : Option Trk :=
  s.home.trk.find? fun t => t.held && !(s.home.trk.any fun u => u.line == t.line && u.id != t.id && u.st == .wm && !u.held)

/-- Everything that can go on goes on: held writebacks (R112), chains (R70), lines of CXL.io accesses (R219), snoops (R75). -/
def State.settle : Nat → State → State
  | 0, s => s
  | n + 1, s =>
    match s.nextHeld with
    | some t => State.settle n ((s.mapTrk t.id fun x => { x with held := false }).startStore { t with held := false })
    | none =>
      match s.nextStart with
      | some t => State.settle n ((s.startTrk t).pumpSnoops 4)
      | none =>
        match s.nextIo with
        | some (a, line, wr) => State.settle n (s.openIo a line wr)
        | none => s.pumpSnoops 16

/-- `settle` with fuel for every entry in use and every line that waits for one. -/
def State.run (s : State) : State :=
  State.settle (2 * s.home.trk.length + 4 * s.home.io.foldl (fun n a => n + a.todo.length) 0 + 2) s

/-- Entries whose last message has left the home unit are freed (R69, R175). -/
def State.freeDone (s : State) : State :=
  let gone := s.home.trk.filter fun t => t.st == .done && !s.home.egress.any t.sends
  if gone.isEmpty then s else (gone.foldl (fun a t => a.dropTrk t.id) s).run

/-- A BISnp that leaves the home unit starts the timer of its snoop (R95). -/
def State.snoopLeft (s : State) (host line : Nat) : State :=
  s.mapHome fun h => { h with trk := h.trk.map fun t =>
    if t.line == line then { t with snoops := t.snoops.map fun y => if y.host == host then { y with t0 := s.now } else y }
    else t }

end Sys2Proof.Machine
end

