-- ==== Sys2Proof/Machine/Grant.lean ====
section
/-! DEFINITION. Grants at the home-unit input arbiters (R110, R186), the sorting of messages into kinds (R105), the
admission of requests (R41, R106, R215), snoop answers and protocol violations (R115 to R118), and the snoop timeout
(R96). -/

namespace Sys2Proof.Machine

/-! ## The input arbiter (R110, R186) -/

/-- Room that a message at a home unit is ranked and counted under: the Room of the window decoded. -/
def State.msgRoom (s : State) (v : VMsg) : Nat :=
  match v.win with
  | some w => match s.win? w with | some x => x.room | none => 0
  | none => v.room.getD 0

/-- May a message be granted now (R68, R94: no Q-REQ grant while the set-conflict queue is full; R174, R337)? One that is to be discarded always may. -/
def State.mayGrant (s : State) (hu : Nat) (v : VMsg) : Bool :=
  match v.cls with
  | .req =>
    if s.aged v || s.draining then true
    else s.scqLevel hu < 64 && !((s.port v.port).purge && (match v.win with
        | some w => (match s.win? w with | some x => x.type == .shared | none => false)
        | none => false)) && (v.m.kind == .memSpecRd || s.hasGeneral (s.msgRoom v) hu)
  | .rwd => s.hasGeneral (s.msgRoom v) hu || s.trkCount hu .rwdRes < 128
  | _ => true

/-- Is a message the first of its virtual output queue in the Vestibule of its lane die (R173)? -/
def State.headOfQueue (s : State) (v : VMsg) : Bool :=
  match s.home.vst.find? fun x => x.dst == v.dst && x.plane == v.plane && x.cls == v.cls &&
      (v.cls != .req || x.room == v.room) && s.portDie x.port == s.portDie v.port with
  | some x => x.id == v.id
  | none => false

/-- Key of a round-robin pointer of an attachment and level (R186). -/
def rrKey (hu : Nat) (plane : Bool) (level : Nat) : Nat := (2 * hu + b2n plane) * 8 + level

/-- Distance of a Room after the last winner (R186). DESIGN CHOICE (log 215): before any winner, Room 0 comes first; the spec gives no
first position. -/
def rrDist (last : Option Nat) (room : Nat) : Nat :=
  match last with
  | none => room
  | some l => (room + 63 - l) % 64

/-- Does source port `b` win the crossbar input of a home unit over `a` (R186): level of the port slot, then round-robin? -/
def State.srcBetter (s : State) (hu : Nat) (plane : Bool) (a b : Nat) : Bool :=
  let la := s.srcLevel a
  let lb := s.srcLevel b
  let dist := fun (p : Nat) => match NMap.get? s.home.rr (xbarRr (xbarInst (64 + hu) plane) la) with
    | some l => (p + 95 - l) % 96
    | none => p
  la < lb || (la == lb && dist b < dist a)

/-- The better of two candidates: class, then level of the Room, then round-robin of Rooms (R110, R186); between sources of one Room
and class the crossbar input has decided. -/
def State.better (s : State) (hu : Nat) (plane : Bool) (a b : VMsg) : VMsg :=
  let la := s.fld (XBR_ROOM_PRIO_r_fLEVEL (s.msgRoom a))
  let lb := s.fld (XBR_ROOM_PRIO_r_fLEVEL (s.msgRoom b))
  if a.cls.homeRank != b.cls.homeRank then (if a.cls.homeRank < b.cls.homeRank then b else a)
  else if la != lb then (if la < lb then b else a)
  else
    let last := NMap.get? s.home.rr (rrKey hu plane la)
    let da := rrDist last (s.msgRoom a)
    let db := rrDist last (s.msgRoom b)
    if db < da || (db == da && s.srcBetter hu plane a.port b.port) then b else a

/-- The message that the arbiter of an attachment grants next. -/
def State.pick (s : State) (hu : Nat) (plane : Bool) : Option VMsg :=
  (s.home.vst.filter fun v => v.dst == .home hu && v.plane == plane && s.headOfQueue v && s.mayGrant hu v).foldl
    (fun b v => match b with | none => some v | some x => some (s.better hu plane x v)) none

/-- Does a Q-REQ requester of a Room that waits outside the Vestibule, an extended operation or an internal request (R72, R174),
win the decision of an attachment against the messages there (R110, R186)? -/
def State.reqWins (s : State) (hu : Nat) (plane : Bool) (room : Nat) : Bool :=
  match s.pick hu plane with
  | none => true
  | some v =>
    let lv := s.fld (XBR_ROOM_PRIO_r_fLEVEL (s.msgRoom v))
    let lr := s.fld (XBR_ROOM_PRIO_r_fLEVEL room)
    if v.cls.homeRank != 0 then false
    else if lv != lr then lv < lr
    else
      let last := NMap.get? s.home.rr (rrKey hu plane lv)
      rrDist last room < rrDist last (s.msgRoom v)

/-! ## Protocol violations (R118) -/

/-- Line state code of R104. -/
def State.stCode (s : State) (line : Nat) : Nat :=
  match s.openTrk line with
  | some t => match t.st with
    | .f => 4 | .se => 5 | .ei => 6 | .es => 7 | .ec => 8 | .si => 9 | .bi => 10 | .wm => 11 | .chained | .done => s.stable line
  | none => s.stable line

/-- A violation counted, and recorded in HSL_PV_LAST and HSL_PV_ADDR (R118, R132). -/
def State.noteViol (s : State) (hu kind host line : Nat) : State :=
  let s1 := ((s.bump (HSL_PV_STAT_fPV_CNT hu)).setFld (HSL_PV_STAT_fPV_SEEN hu) 1).setReg (HSL_PV_LAST hu)
    (BitVec.ofNat 32 (packBits [(host, 12), (kind, 8), (s.stCode line, 4)]))
  (s1.setReg (HSL_PV_ADDR_LO hu) (BitVec.ofNat 32 line)).setReg (HSL_PV_ADDR_HI hu) (BitVec.ofNat 32 (line / 4294967296 % 1024))

/-- A violation of a binding, written to the Attic (R118). -/
def State.homeViol (s : State) (hu kind host win line tag : Nat) : State :=
  (s.noteViol hu kind host line).record
    { checker := 0x4000 + hu, source := srcBinding, unit := unitBinding win host, tag := tag, addr := line * 64,
      payload := kind }

/-- Violation 0Ch: a response whose request is no longer open, recorded against its port (R118). No rule gives its line address:
a free value (log 216). -/
def State.strayResp (s : State) (v : VMsg) (hu : Nat) : State :=
  let (line, s1) := (s.leave v).free
  (s1.noteViol hu 12 (s1.portId v.port) (line.toNat % 2 ^ 42)).record
    { checker := 0x4000 + hu, source := srcPort, unit := v.port, tag := v.m.tag.toNat, payload := 12 }

/-! ## Refusals -/

/-- The answer to a CXL.mem request that the extent's state, the rules or a failed window refuses (R41, R218). -/
def State.refuseMem (s : State) (v : VMsg) (hu : Nat) : State :=
  let h := v.m.host.toNat
  let g := v.m.tag.toNat
  match v.m.kind with
  | .memRd | .memRdData => (s.pushHome v.port hu .cmp (.memData h g 0 true 0)).pushHome v.port hu .cmp (.ndr h g .cmpI 0)
  | .memSpecRd => s
  | _ => s.pushHome v.port hu .cmp (.ndr h g .err 0)

/-! ## Writebacks of an owner (R105, R113) -/

/-- Is a write from a host a WBK in the line's present state (R105)? -/
def State.isWbk (s : State) (m : MsgIn) (w : Window) (line : Nat) : Bool :=
  let host := m.host.toNat
  w.type == .shared && m.snp == .noOp &&
  (match s.busyTrk line with
   | some t =>
     match t.st with
     | .ei | .es | .ec => t.owner == host && t.opened == stE
     | .f => t.opened == stE && t.owner == host
     | .wm => (match t.req with | .wbk h .. => h == host && t.opened == stE | _ => false)
     | .bi => w.bound host
     | _ => false
   | none =>
     match s.entry? line with
     | some e => (e.st == stE && e.ids == [host]) || (e.st == stB && w.bound host)
     | none => s.hasMarker line && w.bound host)

/-- A writeback accepted at once beside the chain: its own entry, its data kept for the open one (R70, R112). It is committed
after every writeback of the line accepted before it; a partial one has the fill of an open F read again. -/
def State.acceptWbk (s : State) (t : Trk) (open_ : Trk) (full : Bool) (d : Line × Bool) : State :=
  let s1 := s.mapTrk open_.id fun x =>
    if full then { x with wb := some d }
    else { x with wb := none, wbSeen := true, data := if x.st == .f then none else x.data,
                  reread := x.reread || (x.st == .f && s.memOut x.id != 0) }
  let s2 := match open_.req with
    | .recall w h => if h < 4096 then s1.mapBind w h fun b => { b with linesWb := b.linesWb + 1 } else s1
    | _ => s1
  let t1 := { t with par := true, st := LSt.wm }
  if s.home.trk.any fun u => u.line == t.line && u.st == .wm then s2.addTrk { t1 with held := true }
  else (s2.addTrk t1).startStore t1

/-! ## Admission -/

/-- Identity and permissions of a CXL.mem request (R214, R216). -/
def State.memNeeds (s : State) (v : VMsg) (line : Nat) : Needs :=
  match v.m.kind with
  | .memRd => if v.m.mval == .a then { r := true, w := true } else { r := true }
  | .memRdData => if s.stable line = stI then { r := true, w := true } else { r := true }
  | .memSpecRd => { r := true }
  | _ => { w := true }

/-- A MemSpecRd that has passed its checks (R107): a fill starts in a fill slot, or the message is discarded. -/
def State.specRead (s : State) (w line : Nat) (x : Window) : State :=
  let hu := lineHu line
  if s.lineOpen line || x.pmode == .off || 64 ≤ (s.home.spec.filter fun f => f.hu == hu).length
      || (s.panFind line).isSome then s
  else match (s.ext (line / 2 ^ 22)).read? line with
    | some (.dev h d) =>
      let req := s.home.next
      (s.issue hu line w .spec none (.dev h d)).mapHome fun a =>
        { a with spec := a.spec ++ [{ hu := hu, line := line, req := req }] }
    | _ => s

/-- A request for a window handed to its new home: HANDOFF_OUT and PROXY forward (R60 H2). -/
def State.forwardHome (s : State) (v : VMsg) (r : Rehome) : State :=
  match s.routeTo r.peer (crc64 (v.off / 64)) with
  | some p => s.push p v.cls v.port
      (.fwd { v.m with addr := BitVec.ofNat 64 (v.off + r.peerWin * 2 ^ 52), dpid := BitVec.ofNat 12 r.peer }) (some v.t0)
  | none => s.synth v.port v.port v.m

/-- A request from another switch for a pool address, not a window offset (R46; log 32). -/
def VMsg.direct (v : VMsg) : Bool := v.m.addr.getLsbD 51

/-- The binding that a request comes by; one that another switch has decoded comes by a fabric port (R47). -/
def State.bindOf (s : State) (v : VMsg) (x : Window) : Option Binding :=
  match x.bind? v.m.host.toNat with
  | some b => some b
  | none =>
    if s.role v.port == roleFabric && (x.st != .incoming || v.direct) then
      some { host := v.m.host.toNat, port := v.port, st := .bound, rw := true, hpa := 0, bridge := 0 }
    else none

/-- Is a message a raw access of another switch to an extent of the pool here (R46, R58)? The home of its window has checked it. -/
def State.isRaw (s : State) (v : VMsg) : Bool := s.role v.port == roleFabric && v.direct

/-- The re-homing that a granted request is handed over by (R60): at the old home from H1 on, but for the writebacks that the sweep of
H4 asks for; at the new home until H7. -/
def State.handedOver (s : State) (v : VMsg) (x : Window) : Option Rehome :=
  if s.isRaw v then none
  else match x.rehome with
    | none => none
    | some r =>
      if r.old then
        (if x.st == .proxy || (x.st == .handoffOut && (v.cls == .req || !s.isWbk v.m x (x.lineAt v.off))) then some r else none)
      else if x.st == .incoming then some r else none

/-- May a raw access of another switch enter: an INCOMING window takes those of its old home alone, which the first one makes
known (R58; log 221)? -/
def Window.takesRaw (x : Window) (host : Nat) : Bool :=
  match x.rehome with
  | some r => x.st != .incoming || !r.known || r.peer == host
  | none => x.st != .incoming

/-- A raw access to an INCOMING window noted: who the old home is, and the extent that it writes. -/
def State.noteRaw (s : State) (w host i : Nat) (wr : Bool) : State :=
  s.mapWin w fun y => if y.st == .incoming then
      { y with rehome := y.rehome.map fun r => { r with
          known := true
          peer := host
          wrote := if wr && !r.wrote.contains i then i :: r.wrote else r.wrote } }
    else y

/-- A message granted to the home unit and taken from the Vestibule (R113): the admission checks in order, then its
tracker entry. -/
def State.letIn (s0 : State) (v : VMsg) (hu w : Nat) (x : Window) : State :=
  let line := x.lineAt v.off
  let host := v.m.host.toNat
  let tag := v.m.tag.toNat
  let isReq := v.cls == .req
  let u := s0.leave v
  let raw := u.isRaw v
  let s := if raw && x.takesRaw host then u.noteRaw w host (v.off / 2 ^ 28) (!isReq) else u
  match u.handedOver v x with
  | some r =>
    if r.old then s.forwardHome v r
    else s.mapHome fun h => { h with hold := h.hold ++ [{ win := w, t0 := s.now, v := v }] }
  | none =>
  if raw && !x.takesRaw host then s.refuseMem v hu
  else
  match s.bindOf v x with
  | none => s.synth v.port v.port v.m
  | some b =>
    if b.r96 && !isReq then (s.homeViol hu 9 host w line tag).refuseMem v hu
    else if x.failed then s.refuseMem v hu
    else
      let (ok, s1) := s.checkExt w line
      if !ok then s1.refuseMem v hu
      else
        let e := s1.ext (line / 2 ^ 22)
        let wbk := !isReq && s1.isWbk v.m x line
        let reads := expectsData v.m.kind || v.m.kind == .memSpecRd
        if (if reads then (e.read? line).isNone else (e.write? line).isNone) then (s1.refusedExt w line tag).refuseMem v hu
        else if !b.rw && (v.m.kind == .memInv || v.m.kind == .memInvNT || !isReq) then s1.refuseMem v hu
        else
          let needs := if b.rw then s1.memNeeds v line else { r := true }
          let (perm, s2) := if wbk || raw then (true, s1)
            else s1.ruleCheck hu x.room (line * 64) (.host host none) needs
          if !perm then
            (s2.deny x.room (line * 64) (.host host none) (if isReq && expectsData v.m.kind then 0 else 1) tag).refuseMem v hu
          else if v.m.kind == .memSpecRd then s2.specRead w line x
          else
            let (id, s3) := (s2.abandonSpec line).fresh1
            let bank := if wbk || raw then none else (s3.room? x.room).map (·.bank)
            if isReq then
              let own := b.rw && !raw && (v.m.mval == .a || v.m.kind != .memRd)
              let shr := !own && !raw && (v.m.mval == .s || v.m.mval == .a || v.m.kind != .memRd)
              let s4 := if v.m.mval == .reserved && x.type == .shared && !raw then s3.homeViol hu 8 host w line tag else s3
              ((s4.addTrk (s4.mkTrk id hu x.room line w false (.rd v.m.kind own shr host tag v.port) bank))).run
            else
              let full := v.m.kind == .memWr
              let be := if full then allBe else v.m.be
              if wbk then
                let t := s3.mkTrk id hu x.room line w true (.wbk host tag v.port v.m.data be v.m.poison v.m.mval full) none
                match s3.busyTrk line with
                | some o => (s3.acceptWbk t o full (v.m.data, v.m.poison)).run
                | none =>
                  if s3.stable line = stB then
                    let s4 := s3.startRecover line
                    match s4.busyTrk line with
                    | some o => (s4.acceptWbk t o full (v.m.data, v.m.poison)).run
                    | none => (s4.addTrk t).run
                  else (s3.addTrk t).run
              else
                let s4 := if x.type != .shared || raw then s3
                  else if v.m.snp == .noOp then s3.homeViol hu 5 host w line tag
                  else if v.m.snp == .snpInv then s3
                  else s3.homeViol hu 6 host w line tag
                (s4.addTrk (s4.mkTrk id hu x.room line w true (.wr host tag v.port v.m.data be v.m.poison) bank)).run

/-! ## Snoop answers (R114 to R117) -/

/-- The host purge of R96 step 3 and of R337 for one host and window, line by line; a line that an operation has open is purged
when the operation ends (`State.dropTrk`). -/
def State.purgeHost (s : State) (w host : Nat) : State :=
  match s.win? w with
  | none => s
  | some x =>
    let lines := (s.home.dir.filterMap fun p =>
      let l := tagLine p.2.tag (p.1 % 2 ^ 23 / 16)
      if p.2.st != stI && !p.2.isMarker && x.holds l then some l else none)
    lines.foldl (fun a l => a.purgeLine w host l) s

/-- Does the entry of a line that an operation has open name a host explicitly? -/
def State.namedOpen (s : State) (w host : Nat) : Bool :=
  s.home.trk.any fun t => t.win == w && (match s.entry? t.line with
    | some e => !e.fmt && e.ids.contains host
    | none => false)

/-- A Mover channel stopped with everything it buffers dropped (R270): its progress and byte count are undefined. -/
def State.stopChan (s : State) (n : Nat) (c : MChan) : State :=
  let (v, s1) := s.free
  let c1 : MChan := { c with
    st := if c.en then ChSt.idle else ChSt.disabled
    job := none
    cur := none
    pos := 0
    count := 0
    wait := none
    got := []
    writes := []
    todo := none
    tries := 0
    parts := []
    bytes := v.toNat }
  { s1 with
    mov := { s1.mov with chans := NMap.set s1.mov.chans n c1 }
    home := { s1.home with intq := s1.home.intq.filter fun r => r.chan != some n } }

/-- A slice destroyed with its doorbell page (R131, R211): every submitted operation that the home has not granted ends with
ABORTED, recorded in the Attic since the page is withdrawn; one already granted executes, its result recorded in the same way; its
jobs end with ABORTED, their records written to the Attic (R271). -/
def State.dropSlice (s : State) (n : Nat) : State :=
  match NMap.get? s.pool.slices n with
  | none => s
  | some x =>
    let mine := fun (j : Job) => match j.slice with | some (k, _) => k == n | none => false
    let s0 := x.slots.foldl (fun a p =>
      if p.2.flight.isSome && !p.2.granted then
        a.record { checker := 0x4d00, source := 14, unit := n + p.1 * 65536, payload := xAborted }
      else a) s
    let s1 := s0.mapHome fun h => { h with trk := h.trk.map fun t =>
      match t.req with
      | .xop k slot off size op b nt => if k == n then { t with req := .xop (k + 1024) slot off size op b nt } else t
      | _ => t }
    let running := s1.mov.chans.filter fun c => match c.2.job with | some j => mine j | none => false
    let s2 := x.jobs.foldl (fun a p =>
      if p.2.flight then
        let at_ := running.find? fun c => match c.2.job with | some j => j.slice == some (n, p.1) | none => false
        let rec_ := packBits [(4, 16), (0, 16), (match at_ with | some c => c.2.count | none => 0, 32),
           (match at_ with | some c => c.2.desc | none => 0, 64)]
        a.record { checker := 0x4d00, source := 14, unit := n + p.1 * 65536 + 2 ^ 24, payload := rec_ }
      else a) s1
    let s3 := running.foldl (fun a c => a.stopChan c.1 c.2) s2
    ({ s3 with mov := { s3.mov with queue := s3.mov.queue.filter fun j => !mine j, heads := NMap.erase s3.mov.heads n } }
      ).mapPool fun p => { p with slices := NMap.erase p.slices n }

/-- Every slice on a binding destroyed (R54 step 2, R211). -/
def State.dropSlices (s : State) (w host : Nat) : State :=
  (s.pool.slices.filter fun p => p.2.window == w && p.2.host == host).foldl (fun a p => a.dropSlice p.1) s

/-- A host's snoop ended by R96: answered as BIRspI, an owner's line poisoned, the binding failed and its decode entry
removed, the host purged. `State.removeFailed` ends the forced unbind. -/
def State.failSnoop (s : State) (t : Trk) (host : Nat) : State :=
  let s1 := (s.bump (HSL_SNP_STAT_fTMO_CNT t.hu)).record
    { checker := 0x4200 + t.hu, source := srcBinding, unit := unitBinding t.win host, room := t.room, addr := t.line * 64 }
  let own := t.opened == stE && t.owner == host
  let s2 := s1.mapTrk t.id fun x => { x with
    snoops := x.snoops.filter fun y => y.host != host
    ans := if x.ans = 0 then 1 else x.ans
    wb := if own then none else x.wb
    data := if own then some (0, true) else x.data }
  let s3 := if own then s2.poisonLine t.line t.win else s2
  let s4 := s3.mapBind t.win host fun b => { b with
    st := .failed, r96 := true, decode := false, presPend := false, removed := true, sweep := [], deadline := none }
  let s5 := (s4.dropSlices t.win host).finishWork (.windowBind t.win host) .aborted []
  (s5.purgeHost t.win host)

/-- A BIRsp at the home (R114, R115, R116). -/
def State.snoopAnswer (s : State) (hu w line host tag : Nat) (k : MKind) (block : Bool) : State :=
  match s.home.trk.find? fun t => t.line == line && t.snoops.any fun x => x.host == host with
  | none => s.homeViol hu 1 host w line tag
  | some t =>
    match t.snoops.find? fun x => x.host == host with
    | none => s
    | some sn =>
      let s1 := if block then s.homeViol hu 7 host w line tag else s
      let drop := fun (a : State) (n : Nat) => a.mapTrk t.id fun x => { x with
        snoops := x.snoops.filter fun y => y.host != host
        ans := n }
      let counted := match t.req with
        | .recall rw rh => if rh < 4096 then s1.mapBind rw rh fun b => { b with linesInv := b.linesInv + 1 } else s1
        | _ => s1
      let bad := fun (a : State) (kind : Nat) =>
        let v := a.homeViol hu kind host w line tag
        if sn.again then v.failSnoop t host
        else
          let u := v.mapTrk t.id fun x => { x with
            snoops := x.snoops.filter fun y => y.host != host
            skind := .snpInv
            st := if kind = 3 then .ei else x.st
            grantS := x.grantS || kind = 3 }
          u.sendSnoop { t with skind := .snpInv } host true
      let s3 := match sn.kind, k with
        | _, .biRspI => drop counted 1
        | .snpData, .biRspS => drop s1 2
        | .snpData, _ => bad s1 3
        | .snpCur, .biRspS => drop s1 2
        | .snpCur, _ => drop s1 3
        | _, _ => bad s1 2
      (s3.advance t.id).run

/-- A BIConflict at the home (R117): its acknowledgement leaves at once, or after the completions owed to the host. -/
def State.conflict (s : State) (hu w line host tag port : Nat) : State :=
  match s.home.trk.find? fun t => t.line == line && t.snoops.any fun x => x.host == host with
  | none => (s.homeViol hu 4 host w line tag).pushHome port hu .cmp (.biConflictAck host line)
  | some t =>
    let second := t.snoops.any fun x => x.host == host && x.cfl != 0
    let s1 := if second then s.homeViol hu 13 host w line tag else s
    let s2 := s1.mapTrk t.id fun x => { x with
      snoops := x.snoops.map fun y => if y.host == host then { y with cfl := y.cfl + 1 } else y }
    let owed := (s2.home.trk.filter fun u => u.line == line && u.q == host && u.id != t.id && u.st != .done &&
      (u.par || (u.id < t.id && u.st != .chained))).map (·.id)
    if owed.isEmpty then s2.pushHome port hu .cmp (.biConflictAck host line)
    else (s2.mapHome fun h => { h with cfl := h.cfl ++ [{ hu := hu, host := host, line := line, port := port, owed := owed }] }
      ).bump (HSL_CFL_STAT_fDEFER_CNT hu)

/-! ## One grant -/

/-- A message for a window at its home granted at fabric time `s.now`: discarded if aged or in DRAIN and FAULT (R182, R453),
answered, matched to its snoop, or admitted. -/
def State.grantMsg (s : State) (v : VMsg) (hu : Nat) : State :=
  let host := v.m.host.toNat
  let tag := v.m.tag.toNat
  if s.aged v then s.discard v 0x4300
  else if v.cls == .req && s.draining then
    ((s.leave v).synth v.port v.port v.m).mapFlt fun f => { f with refused := Nat.min 0xFFFFFFFF (f.refused + 1) }
  else match v.win with
    | none => (s.leave v).synth v.port v.port v.m
    | some w =>
      match s.win? w with
      | none => (s.leave v).synth v.port v.port v.m
      | some x =>
        let line := x.lineAt v.off
        match v.m.kind with
        | .biRspI | .biRspS | .biRspE =>
          if x.type == .shared then (s.leave v).snoopAnswer hu w line host tag v.m.kind v.m.block
          else (s.leave v).homeViol hu 1 host w line tag
        | .biConflict => (s.leave v).conflict hu w line host tag v.port
        | .memWr | .memWrPtl =>
          if s.draining && !(s.isWbk v.m x line) then (s.leave v).refuseMem v hu else s.letIn v hu w x
        | _ => s.letIn v hu w x

/-- The elements of a list, each once. -/
def uniq (xs : List Nat) : List Nat := xs.foldl (fun l x => if l.contains x then l else l ++ [x]) []

/-- The arbiters of an attachment have granted a message: the decisions at the crossbar input and at the home-unit input are counted,
and the message's source and Room are the last winners of their levels (R186, R188). -/
def State.countsGrant (s : State) (hu : Nat) (plane : Bool) (v : VMsg) : State :=
  let room := s.msgRoom v
  let rest := s.home.vst.filter fun x => x.dst == .home hu && x.plane == plane && x.id != v.id && s.headOfQueue x
  let s1 := s.xbarGrant (64 + hu) plane v.port v.cells (uniq ((rest.map (·.port)).filter (· != v.port)))
  (s1.countArb 1 (2 * hu + b2n plane) room (uniq ((rest.map s.msgRoom).filter (· != room)))).mapHome fun h =>
    { h with rr := NMap.set h.rr (rrKey hu plane (s.fld (XBR_ROOM_PRIO_r_fLEVEL room))) room }

/-- The grant row of one message kind: it acts if the arbiter's choice at the attachment is of that kind. -/
def State.grantRow (s0 : State) (hu : Nat) (plane : Bool) (t : Nat) (k : MKind → Bool) : State :=
  let s := s0.at t
  match s.pick hu plane with
  | none => s
  | some v => if k v.m.kind then (s.countsGrant hu plane v).grantMsg v hu else s

end Sys2Proof.Machine
end

