-- ==== Sys2Proof/Machine/Memory.lean ====
section
/-! DEFINITION. Responses of the Pantry, the house pool and pool devices (R114, R119, R142 to R144, R334), and internal
requests (R71). -/

namespace Sys2Proof.Machine

/-- A memory request removed, its slot free: the next waiting one is sent (R172). -/
def State.dropReq (s : State) (id : Nat) : State :=
  (s.mapHome fun h => { h with memq := h.memq.filter fun r => r.id != id }).pumpDev

/-- Data that a memory request's target answers with: the Pantry and the house pool from HBM, a pool device or another
switch from the response (R119). `ok` and `poison` of the response stand for a clean and an uncorrectable read. -/
def State.respData (s : State) (r : MemReq) (rsp : DevRsp) : Line × Bool :=
  let at_ := fun (a : Nat) => (s.readLine a, s.poison.contains a || (match rsp with | .ok _ => false | _ => true))
  match r.tgt with
  | .pantry k => at_ (panData k)
  | .house a => at_ a
  | _ => match rsp with
    | .ok d => (d, false)
    | .poison d => (d, true)
    | .error => (0, true)

/-- A filled line allocated in the Pantry as R142 gives. -/
def State.allocate (s : State) (line win : Nat) (d : Line × Bool) : State := s.allocateFor none line win d false

/-- Is a line read from this target to be allocated: a pool device that still backs it, in a window whose Pantry mode is not OFF
(R141, R144)? -/
def State.cacheable (s : State) (r : MemReq) : Bool :=
  match r.tgt, s.win? r.win with
  | .dev h d, some w => w.pmode != .off && (s.ext (r.line / 2 ^ 22)).read? r.line == some (.dev h d)
  | _, _ => false

/-- The response of a read for a tracker entry, or a fill for its partial write. -/
def State.readResp (s : State) (r : MemReq) (rsp : DevRsp) (trk : Nat) : State :=
  let isPan := match r.tgt with | .pantry _ => true | _ => false
  let (ue, s0) := if isPan then
      s.checkRetry { checker := 0x0b00 + r.hu, source := srcHome, unit := r.hu, addr := r.line * 64 } else (false, s)
  let s1 := if ue then (match r.tgt with | .pantry k => s0.panBad r.hu r.win r.line k | _ => s0) else s0
  let gone := match r.tgt with | .pantry k => (s1.panTag k).isNone | _ => false
  if gone then
    match (s1.dropReq r.id).readMem (.fill trk) r.line r.win with
    | some s2 => s2
    | none => s1.dropReq r.id
  else
    let (hurt, sh) := match r.tgt with
      | .house _ => s1.checkRetry { checker := 0x0c00 + r.hu, source := srcHome, unit := r.hu, addr := r.line * 64 }
      | _ => (false, s1)
    let d0 := sh.respData r rsp
    let d := (d0.1, d0.2 || hurt)
    let s2 := sh.dropReq r.id
    let syn := match s2.trk? trk with | some t => t.syn | none => false
    let s3 := match r.tgt with
      | .pantry k => s2.touchTag k
      | _ => if s2.cacheable r && rsp != DevRsp.error && !syn then s2.allocate r.line r.win d else s2
    let s4 := if d.2 && !syn then
        ((match s3.trk? trk with | some t => s3.memFaultOf t hurt | none => s3).mediaEvent r.line r.win) else s3
    ((s4.mapTrk trk fun t => { t with data := if t.reread then none else some d, reread := false }).advance trk).run

/-- Does a line written through leave the Pantry: mode OFF, or a line held from before a change of mode that is still being cleaned
(R144, R146)? -/
def State.leavesPan (s : State) (line win : Nat) : Bool :=
  (match s.win? win with | some x => x.pmode == PMode.off | none => true) || s.pan.cleans.any fun c => c.old.contains line

/-- The acknowledgement of a tracker entry's write: a cached copy follows the mode, or leaves on an error (R144). -/
def State.storeResp (s : State) (r : MemReq) (rsp : DevRsp) (trk : Nat) : State :=
  let err := match rsp with | .error => (match r.tgt with | .pantry _ => false | _ => true) | _ => false
  let s1 := s.dropReq r.id
  let s2 := match r.tgt, r.wr with
    | .house a, some w => if err then s1 else s1.writeLine a w.1 w.2.1 w.2.2
    | .dev .., some w =>
      match s1.panFind r.line with
      | none => s1
      | some k =>
        if err then s1.dropTag k
        else if s1.leavesPan r.line r.win then s1.dropTag k
        else ((s1.writeLine (panData k) w.1 w.2.1 w.2.2).mapPan fun p =>
          { p with tags := NMap.adjust p.tags k fun t => { t with d := false, repl := 0 } })
    | _, _ => s1
  let s3 := if err then
      (match s2.trk? trk with
       | some t => (if t.syn then s2 else s2.memFault t).mapTrk trk fun x => { x with wrErr := true }
       | none => s2) else s2
  let s4 := s3.advance trk
  -- an entry that waited for this writeback's acknowledgement goes on (R112)
  (match s4.busyTrk r.line with
   | some t =>
     if t.id == trk then s4
     else if (t.st == LSt.f || t.st == LSt.se) && !t.noData && t.data.isNone && t.wb.isNone then (s4.startRead t).advance t.id
     else s4.advance t.id
   | none => s4).run

/-- A cleaning whose write of a line has been answered: the line is no longer awaited. -/
def Clean.answered (c : Clean) (line : Nat) (err : Bool) : Clean :=
  if c.todo.contains line then
    { c with
      todo := c.todo.filter (· != line)
      failed := if err then c.failed + 1 else c.failed
      cleaned := if err then c.cleaned else c.cleaned + 1 }
  else c

/-- The response of a cleaning write (R146, R151 to R156): the line is clean, or stays dirty and is counted failed. -/
def State.cleanResp (s : State) (r : MemReq) (rsp : DevRsp) (pfw : Bool) : State :=
  let err := rsp == .error
  let s1 := s.dropReq r.id
  let s2 := match s1.panFind r.line with
    | none => s1
    | some k =>
      if err then s1.record { checker := 0x5400, source := srcWindow, unit := r.win, addr := r.line * 64 }
      else if (match r.wr with | some w => w.1 != s1.readLine (panData k) | none => true) then s1
      else s1.mapPan fun p => { p with tags := NMap.adjust p.tags k fun t => { t with d := false } }
  if pfw then
    s2.mapPan fun p => { p with flush := p.flush.map fun f =>
      if err then { f with failed := f.failed + 1 } else { f with flushed := f.flushed + 1 } }
  else
    s2.mapPan fun p => { p with cleans := p.cleans.map (·.answered r.line err) }

/-- The acknowledgement of a dirty victim's write (R142): its way is reused for the waiting line, unless the write failed, the
victim was written again or has an operation open, or the line may no longer be held dirty (R145). A tracker entry's write then
goes to the backing. -/
def State.victimResp (s : State) (r : MemReq) (rsp : DevRsp) (trk : Option Nat) (line : Nat) (data : Line) (poison dirty : Bool)
    (room : Nat) : State :=
  let s1 := (s.dropReq r.id).mapHome fun h => { h with spec := h.spec.filter fun f => f.req != r.id }
  let win := match trk.bind s1.trk? with | some x => x.win | none => (s1.winOfLine line).getD 4096
  let key := s1.panFind r.line
  let same := match key, r.wr with
    | some k, some w => w.1 == s1.readLine (panData k) && w.2.2 == s1.poison.contains (panData k)
    | _, _ => false
  let s2 := if rsp == .error then s1.record { checker := 0x5400, source := srcWindow, unit := r.win, addr := r.line * 64 }
    else match key with
      | some k => if same then s1.mapPan fun p => { p with tags := NMap.adjust p.tags k fun t => { t with d := false } } else s1
      | none => s1
  let reuse := rsp != .error && same && !s1.lineOpen r.line && (!dirty || s1.wbNow line win)
  match key, reuse, trk with
  | some k, true, some t => (((s2.dropTag k).panInstall k line room data poison dirty).issue r.hu line win (.store t) none (.pantry k))
  | some k, true, none => (s2.dropTag k).panInstall k line room data poison dirty
  | _, _, some t =>
    match s2.trk? t, (s2.ext (line / 2 ^ 22)).write? line with
    | some x, some bs => s2.writeThrough t line x.win data allBe poison bs
    | some x, none => (((s2.refusedExt x.win line 0).mapTrk t fun y => { y with wrErr := true }).advance t).run
    | none, _ => s2
  | _, _, none => s2

/-- A memory response taken into its reserved buffer (R114, R119). -/
def State.memResp (s : State) (r : MemReq) (rsp : DevRsp) : State :=
  match r.use with
  | .fill trk => s.readResp r rsp trk
  | .store trk => s.storeResp r rsp trk
  | .fillWr trk data be poison =>
    let d := s.respData r rsp
    let s1 := s.dropReq r.id
    match rsp with
    | .error => (((match s1.trk? trk with | some t => if t.syn then s1 else s1.memFault t | none => s1).mapTrk trk fun x => { x with wrErr := true }
        ).advance trk).run
    | _ =>
      let bs := ((s1.ext (r.line / 2 ^ 22)).write? r.line).getD []
      if s1.wbNow r.line r.win && bs == [Back.of r.tgt] then
        s1.storeWb trk r.line r.win (mergeLine d.1 data be, d.2 || poison) (data, be, poison) bs
      else if bs.isEmpty then
        (((s1.refusedExt r.win r.line 0).mapTrk trk fun x => { x with wrErr := true }).advance trk).run
      else s1.writeThrough trk r.line r.win data be poison bs
  | .spec =>
    let mine := s.home.spec.any fun f => f.req == r.id
    let s1 := s.dropReq r.id
    let s2 := if mine && rsp != .error && s1.cacheable r then s1.allocate r.line r.win (s.respData r rsp) else s1
    let next := s2.home.memq.find? fun q => match q.use with | .victim none l .. => l == r.line | _ => false
    let keep := fun (f : SpecFill) => if f.req != r.id then some f else next.map fun q => { f with req := q.id }
    s2.mapHome fun h => { h with spec := h.spec.filterMap keep }
  | .clean pfw => s.cleanResp r rsp pfw
  | .victim trk line data poison dirty room => s.victimResp r rsp trk line data poison dirty room
  | .poison => match r.tgt with
    | .house a => (s.dropReq r.id).writeLine a 0 0 true
    | _ => s.dropReq r.id

/-! ## Internal requests (R71, R105 INT) -/

/-- The identity that an internal request is checked under. -/
def IntReq.ident (r : IntReq) : Ident :=
  match r.chk with
  | some (some (h, p)) => .host h p
  | _ => .mover

/-- What an internal request ended with: 0 served, 1 refused by the backing, 2 by a rule, 3 by the extent map. -/
def State.intEnds (s : State) (r : IntReq) (code : Nat) : State :=
  s.mapHome fun h => { h with intDone := h.intDone ++ [(r.id, 0, false, code)] }

/-- A part of a channel's descriptor checked: it carries its Room's active bank until it retires (R223). -/
def State.notePart (s : State) (r : IntReq) : State :=
  match r.chan, (s.win? r.win).bind fun x => (s.room? x.room).map fun y => (x.room, y.bank) with
  | some n, some c => { s with mov := { s.mov with chans := NMap.adjust s.mov.chans n fun x =>
      { x with parts := NMap.set x.parts r.part c } } }
  | _, _ => s

/-- The checks of a Mover access as it is granted (R41, R215, R219): the rule check where a part begins, and the extent; the code of
the refusal, 0 if there is none. -/
def State.checkInt (s : State) (r : IntReq) : Nat × State :=
  let wr := r.wr.isSome
  let (perm, s1) := match r.chk, s.win? r.win with
    | some _, some x => s.ruleCheck (lineHu r.line) x.room (r.line * 64) r.ident { r := !wr, w := wr }
    | _, _ => (true, s)
  if !perm then (2, s1.deny (match s.win? r.win with | some x => x.room | none => 0) (r.line * 64) r.ident (if wr then 7 else 6) 0)
  else if r.chan.isNone then (0, s1)
  else
    let (ok, s2) := s1.checkExt r.win r.line
    let e := s2.ext (r.line / 2 ^ 22)
    if !ok then (3, s2)
    else if (if wr then (e.write? r.line).isNone else (e.read? r.line).isNone) then (3, s2.refusedExt r.win r.line 0)
    else (0, if r.chk.isSome then s2.notePart r else s2)

/-- An internal request offered to its home unit: NAKed (R71, R113), refused by the checks of its grant, or admitted into a tracker
entry. -/
def State.offerInt (s0 : State) (r : IntReq) : Bool × State :=
  let hu := lineHu r.line
  let shared := match s0.win? r.win with | some w => w.type == .shared | none => false
  if s0.lineOpen r.line || !s0.hasGeneral r.room hu || s0.draining || (shared && s0.noCacheWay r.line) then (false, s0)
  else if shared && s0.stable r.line = stB then (false, (s0.startRecover r.line).run)
  else match s0.checkInt r with
  | (0, s) =>
    let (id, s1) := (s.abandonSpec r.line).fresh1
    (true, (s1.addTrk (s1.mkTrk id hu r.room r.line r.win false (.int r.id r.wr) none)).run)
  | (code, s) => (true, s.intEnds r code)

/-- A NAKed internal request kept for its retry: the delay doubles from 64 ns up to 8 us (R71). -/
def State.nakInt (s : State) (r : IntReq) : State :=
  s.mapHome fun h => { h with intq := (h.intq.filter fun x => x.id != r.id) ++
    [{ r with next := s.now + r.delay, delay := Nat.min 8000 (2 * r.delay), since := if r.since = 0 then s.now else r.since }] }

/-- The arbiter of an attachment has granted a requester that waits outside the Vestibule (R174, R186, R188). -/
def State.countsReq (s : State) (hu : Nat) (plane : Bool) (room : Nat) : State :=
  let losers := (s.home.vst.filter fun x => x.dst == .home hu && x.plane == plane && s.headOfQueue x).map s.msgRoom
  (s.countArb 1 (2 * hu + b2n plane) room (uniq (losers.filter (· != room)))).mapHome fun h =>
    { h with rr := NMap.set h.rr (rrKey hu plane (s.fld (XBR_ROOM_PRIO_r_fLEVEL room))) room }

/-- An internal request that the arbiter does not grant yet waits at its requester, without a NAK (R94, R174). -/
def State.waitInt (s : State) (r : IntReq) : State :=
  s.mapHome fun h => { h with intq := (h.intq.filter fun x => x.id != r.id) ++ [{ r with next := s.now }] }

/-- An internal request made: it waits for its grant, or is admitted, or kept for a retry. -/
def State.askInt (s : State) (r : IntReq) : State :=
  let hu := lineHu r.line
  let plane := linePlane r.line
  if !s.reqWins hu plane r.room || 64 ≤ s.scqLevel hu then s.waitInt r
  else match (s.countsReq hu plane r.room).offerInt r with
  | (true, s1) => s1.mapHome fun h => { h with intq := h.intq.filter fun x => x.id != r.id }
  | (false, s1) => s1.nakInt r

end Sys2Proof.Machine
end

