-- ==== Sys2Proof/Machine/Atomic.lean ====
section
/-! DEFINITION. AtomicOps, extended operations, CXL.io accesses to windows and doorbell pages (R120 to R131, R207 to
R219). -/

namespace Sys2Proof.Machine

/-! ## AtomicOps (R120 to R122) -/

/-- Operand sizes of an AtomicOp (R120). -/
def atomSize (op : AtomOp) (n : Nat) : Bool := n == 4 || n == 8 || (op == .cas && n == 16)

/-- An AtomicOp granted: the checks of R122 in order, then its tracker entry. -/
def State.grantAtom (s0 : State) (v : VMsg) (hu : Nat) (op : AtomOp) : State :=
  let host := v.m.host.toNat
  let tag := v.m.tag.toNat
  if s0.aged v then s0.discard v 0x4300
  else
    let s := s0.leave v
    let ans := fun (a : State) (c : CplSt) => a.pushHome v.port hu .cmp (.ioCpl host tag c [] false)
    if s.draining then
      (s.synth v.port v.port v.m).mapFlt fun f => { f with refused := Nat.min 0xFFFFFFFF (f.refused + 1) }
    else match v.win with
    | none => ans s .ur
    | some w =>
      match s.win? w with
      | none => ans s .ur
      | some x =>
        let line := x.lineAt v.off
        match s.bindOf v x with
        | none => ans s .ur
        | some b =>
          if !x.atomic || !atomSize op v.m.len || x.bytes ≤ v.off then ans s .ur
          else if v.off % v.m.len != 0 then ans (s.homeViol hu 10 host w line tag) .ca
          else if !b.rw then ans s .ca
          else
            let pas := v.m.pasid.map (·.toNat)
            let (perm, s1) := s.ruleCheck hu x.room (line * 64) (.host host pas) { r := true, w := true, a := true }
            if !perm then ans (s1.deny x.room (x.base + v.off) (.host host pas) 2 tag) .ca
            else if x.failed then ans s1 .ca
            else
              let (ok, s2) := s1.checkExt w line
              let e := s2.ext (line / 2 ^ 22)
              if !ok then ans s2 .ca
              else if (e.write? line).isNone then ans (s2.refusedExt w line tag) .ca
              else
                let (id, s3) := (s2.abandonSpec line).fresh1
                let d := v.m.data.toNat
                (s3.addTrk (s3.mkTrk id hu x.room line w false
                  (.atom op host tag v.port (v.off % 64) v.m.len (d % 2 ^ 128) (d / 2 ^ 128 % 2 ^ 128))
                  ((s3.room? x.room).map (·.bank)))).run

/-- The grant row of one AtomicOp. -/
def State.atomRow (s0 : State) (hu : Nat) (plane : Bool) (t : Nat) (op : AtomOp) : State :=
  let s := s0.at t
  match s.pick hu plane with
  | none => s
  | some v => if v.m.kind == .ioAtomic op then (s.countsGrant hu plane v).grantAtom v hu op else s

/-- FETCHADD (R120). -/
def execFetchadd (hu : Hu) (plane : Bool) (t : Nat) (s : State) : Eff := .next (s.atomRow hu.toNat plane t .fetchAdd)
/-- SWAP (R120). -/
def execSwap (hu : Hu) (plane : Bool) (t : Nat) (s : State) : Eff := .next (s.atomRow hu.toNat plane t .swap)
/-- CAS (R120). -/
def execCas (hu : Hu) (plane : Bool) (t : Nat) (s : State) : Eff := .next (s.atomRow hu.toNat plane t .cas)

/-! ## Extended operations (R125 to R131) -/

/-- Bytes of a SIZE code (R125): 02h 4, 03h 8, 04h 16. -/
def xopBytes (size : Nat) : Nat := if size = 2 then 4 else if size = 3 then 8 else if size = 4 then 16 else 0

/-- Is the operation of a slot the oldest ungranted one of its slice on its line (R130)? -/
def Slice.firstOn (x : Slice) (w : Window) (slot : Nat) : Bool :=
  match (NMap.get? x.slots slot) with
  | none => false
  | some y =>
    match y.flight with
    | none => false
    | some f => !(x.slots.any fun p =>
        p.1 != slot && !p.2.granted && p.2.order < y.order &&
        (match p.2.flight with | some g => w.lineAt g.1 == w.lineAt f.1 | none => false))

/-- The grant of the operation that a slot submitted (R126, R129): a Q-REQ requester at its home unit's arbiter (R72, R110); one
that has reached the age limit ends with ABORTED (R182, R183). -/
def State.grantXop (s : State) (slice slot op : Nat) : State :=
  match NMap.get? s.pool.slices slice with
  | none => s
  | some x =>
    match s.win? x.window, (NMap.get? x.slots slot) with
    | some w, some y =>
      match y.flight with
      | none => s
      | some (target, op1, size, _, opnd) =>
        if op1 != op || y.granted || !x.firstOn w slot then s
        else
          let n := xopBytes size
          let line := w.lineAt target
          let hu := lineHu line
          if s.draining || s.ageLimit ≤ s.now - y.t0 then s.slotDone slice slot xAborted 0
          else if !s.reqWins hu (linePlane line) w.room || 64 ≤ s.scqLevel hu then s
          else if !xopSize op n then s.slotDone slice slot xBadOp 0
          else if w.bytes < target + n then s.slotDone slice slot xRange 0
          else if target % n != 0 then (s.homeViol hu 10 x.host x.window line slot).slotDone slice slot xAlign 0
          else if !(match w.bind? x.host with | some b => b.rw | none => false) then s.slotDone slice slot xDenied 0
          else
            let (perm, s1) := s.ruleCheck hu w.room (line * 64) (.host x.host x.pasid) { r := true, w := true, a := true }
            if !perm then (s1.deny w.room (w.base + target) (.host x.host x.pasid) 3 slot).slotDone slice slot xDenied 0
            else if w.failed then s1.slotDone slice slot xHole 0
            else
              let (ok, s2) := s1.checkExt x.window line
              let e := s2.ext (line / 2 ^ 22)
              if !ok then s2.slotDone slice slot xHole 0
              else if (e.write? line).isNone then (s2.refusedExt x.window line slot).slotDone slice slot xHole 0
              else if !s2.hasGeneral w.room hu then s2
              else
                let (id, s3) := ((s2.countsReq hu (linePlane line) w.room).abandonSpec line).fresh1
                let s4 := s3.mapPool fun p => { p with slices := NMap.adjust p.slices slice fun z =>
                  { z with slots := NMap.adjust z.slots slot fun q => { q with granted := true } } }
                (s4.addTrk (s4.mkTrk id hu w.room line x.window false (.xop slice slot (target % 64) n op opnd false)
                  ((s4.room? w.room).map (·.bank)))).run
    | _, _ => s

/-- UMIN, operation code 01h (R126). -/
def execUmin (slice : SliceId) (slot : BitVec 5) (t : Nat) (s : State) : Eff :=
  .next ((s.at t).grantXop slice.toNat slot.toNat 1)
/-- UMAX, 02h. -/
def execUmax (slice : SliceId) (slot : BitVec 5) (t : Nat) (s : State) : Eff :=
  .next ((s.at t).grantXop slice.toNat slot.toNat 2)
/-- SMIN, 03h. -/
def execSmin (slice : SliceId) (slot : BitVec 5) (t : Nat) (s : State) : Eff :=
  .next ((s.at t).grantXop slice.toNat slot.toNat 3)
/-- SMAX, 04h. -/
def execSmax (slice : SliceId) (slot : BitVec 5) (t : Nat) (s : State) : Eff :=
  .next ((s.at t).grantXop slice.toNat slot.toNat 4)
/-- AND, 05h. -/
def execAnd (slice : SliceId) (slot : BitVec 5) (t : Nat) (s : State) : Eff :=
  .next ((s.at t).grantXop slice.toNat slot.toNat 5)
/-- OR, 06h. -/
def execOr (slice : SliceId) (slot : BitVec 5) (t : Nat) (s : State) : Eff :=
  .next ((s.at t).grantXop slice.toNat slot.toNat 6)
/-- XOR, 07h. -/
def execXor (slice : SliceId) (slot : BitVec 5) (t : Nat) (s : State) : Eff :=
  .next ((s.at t).grantXop slice.toNat slot.toNat 7)
/-- ADD128, 08h. -/
def execAdd128 (slice : SliceId) (slot : BitVec 5) (t : Nat) (s : State) : Eff :=
  .next ((s.at t).grantXop slice.toNat slot.toNat 8)
/-- BINC, 09h. -/
def execBinc (slice : SliceId) (slot : BitVec 5) (t : Nat) (s : State) : Eff :=
  .next ((s.at t).grantXop slice.toNat slot.toNat 9)

/-! ## Doorbell pages (R125, R127, R207 to R209) -/

/-- The slice of a page of a binding, by window, host and page index. -/
def State.sliceAt (s : State) (w host page : Nat) : Option (Nat × Slice) :=
  s.pool.slices.find? fun p => p.2.window == w && p.2.host == host && p.2.page == page

/-- The 512-bit image of an operation slot (R125). -/
def XSlot.image (x : XSlot) : Nat :=
  packBits [(x.target, 64), (x.op, 8), (x.size, 8), (b2n x.notify, 1), (x.rsvd, 15), (x.status, 16), (b2n x.done, 1),
    (0, 15), (x.operand, 128), (x.result, 128), (0, 128)]

/-- A slot with its RW fields replaced from a 512-bit image; RO fields keep their values (R125). -/
def XSlot.write (x : XSlot) (v : Nat) : XSlot :=
  { x with target := bitsOf v 0 64, op := bitsOf v 64 8, size := bitsOf v 72 8, notify := bitOf v 80,
           rsvd := bitsOf v 81 15, operand := bitsOf v 128 128 }

/-- The image of a job record: 128 bits (R272). -/
def JSlot.image (j : JSlot) : Nat := packBits [(j.status, 16), (0, 16), (j.count, 32), (j.last, 64)]

/-- Bits of MJ_DONE (R272). -/
def Slice.jobBits (x : Slice) : Nat := x.jobs.foldl (fun n p => if p.2.done then n + 2 ^ p.1 else n) 0

/-- The next order number of a slice's submits. -/
def Slice.nextOrder (x : Slice) : Nat := x.slots.foldl (fun n p => Nat.max n (p.2.order + 1)) 0

/-- A submit of a slot by XOP_SUBMIT (R127): a slot with an operation in flight, or a value above 31, is violation 0Bh.
An unknown OP ends at once with BAD_OP (R126). The violation is recorded at the home unit and with the line of the slot's
present TARGET (log 219). -/
def State.submitXop (s : State) (id : Nat) (x : Slice) (value : Nat) : State :=
  let n := value % 32
  let y := (NMap.get? x.slots n).getD {}
  let w := s.win? x.window
  let line := match w with | some z => z.lineAt y.target | none => 0
  if 32 ≤ value || y.flight.isSome then s.homeViol (lineHu line) 11 x.host x.window line n
  else
    let y1 := { y with done := false, granted := false, order := x.nextOrder, t0 := s.now,
                       flight := some (y.target, y.op, y.size, y.notify, y.operand) }
    let s1 := s.mapPool fun p => { p with slices := NMap.adjust p.slices id fun z => { z with slots := NMap.set z.slots n y1 } }
    if y.op = 0 || 9 < y.op then s1.slotDone id n xBadOp 0 else s1

/-- Bits of XOP_DONE (R127). -/
def Slice.doneBits (x : Slice) : Nat := x.slots.foldl (fun n p => if p.2.done then n + 2 ^ p.1 else n) 0

/-- The 32-bit word of a doorbell page at an offset that is a multiple of 4 (R125, R127, R208, R272). -/
def State.pageWord (s : State) (id : Nat) (x : Slice) (off : Nat) : Nat :=
  if off < 0x800 then ((NMap.get? x.slots (off / 64)).getD {}).image / 256 ^ (off % 64) % 2 ^ 32
  else if off = 0x804 then x.doneBits
  else if off = 0x808 then packBits [(id, 10), (0, 6), (match s.room? x.room with | some r => r.fid | none => 0, 8)]
  else if 0x900 ≤ off && off < 0x908 then (NMap.get? s.mov.heads id).getD 0 / 256 ^ (off - 0x900) % 2 ^ 32
  else if off = 0x90c then x.jobBits
  else if 0x910 ≤ off && off < 0x990 then ((NMap.get? x.jobs ((off - 0x910) / 16)).getD {}).image / 256 ^ (off % 16) % 2 ^ 32
  else 0

/-- Value of a doorbell page at a byte offset, for a read of `size` bytes, up to 8. -/
def State.readPage (s : State) (id : Nat) (x : Slice) (off size : Nat) : Nat :=
  let o := off / 4 * 4
  let v := s.pageWord id x o + s.pageWord id x (o + 4) * 2 ^ 32 + s.pageWord id x (o + 8) * 2 ^ 64
  v / 256 ^ (off % 4) % 256 ^ size

/-- The message in a Vestibule of a CXL.io access to a window. -/
def State.ioMsg (s : State) (w host tag : Nat) (wr : Bool) : Option VMsg :=
  s.home.vst.find? fun v => v.win == some w && v.m.host.toNat == host && v.m.tag.toNat == tag &&
    v.m.kind == (if wr then .ioWrite else .ioRead)

/-- Does the message of a CXL.io access wait behind others: in its queue, or at the arbiter of its attachment (R110, R173)? -/
def State.ioWaits (s : State) (w host tag : Nat) (wr : Bool) : Bool :=
  match s.ioMsg w host tag wr with
  | some v => match v.dst with
    | .home hu => (match s.pick hu v.plane with | some x => x.id != v.id | none => true)
    | .egress _ => false
  | none => false

/-- The message of a CXL.io access that has reached the age limit (R182). -/
def State.ioStale (s : State) (w host tag : Nat) (wr : Bool) : Option VMsg := (s.ioMsg w host tag wr).filter fun v => s.aged v

/-- The message of a CXL.io access granted and taken from the Vestibule. -/
def State.takeIo (s : State) (w host tag : Nat) (wr : Bool) : State :=
  match s.ioMsg w host tag wr with
  | some v => match v.dst with
    | .home hu => (s.countsGrant hu v.plane v).leave v
    | .egress _ => s.leave v
  | none => s

/-! ## CXL.io memory accesses to a window (R218, R219) -/

/-- Lines of an access, with the bytes of each. -/
def accLines (pa len : Nat) : List Nat := (List.range ((pa + len + 63) / 64 - pa / 64)).map (pa / 64 + ·)

/-- Write data and enables of one line of a CXL.io write. -/
def ioWriteLine (pa : Nat) (data : List Byte) (line : Nat) : Line × B64 :=
  let (o, n) := ioSpan pa data.length line
  let bs := (data.drop (line * 64 + o - pa)).take n
  lineSet o n (leNat bs)

/-- Pages of 4 KiB that an access of `len` bytes at `pa` touches. -/
def accPages (pa len : Nat) : List Nat := (List.range ((pa + len + 4095) / 4096 - pa / 4096)).map (pa / 4096 + ·)

/-- The rule checks of an access, one for each 4 KiB page; a refused part is recorded. The pages permitted (R219). -/
def State.ioPages (s : State) (x : Window) (host tag : Nat) (pasid : Option Nat) (pa len : Nat) (wr : Bool) : List Nat × State :=
  (accPages pa len).foldl (fun (acc : List Nat × State) p =>
    let from_ := Nat.max (p * 4096) pa
    let (perm, a) := acc.2.ruleCheck (lineHu (from_ / 64)) x.room (p * 4096) (.host host pasid) { r := !wr, w := wr }
    if perm then (acc.1 ++ [p], a)
    else (acc.1, a.deny x.room from_ (.host host pasid) (if wr then 5 else 4) tag)) ([], s)

/-- The extents of the lines of an access checked; one that cannot serve its line is recorded. The lines served. -/
def State.ioLines (s : State) (w tag : Nat) (wr : Bool) (lines : List Nat) : List Nat × State :=
  lines.foldl (fun (acc : List Nat × State) l =>
    let (ok, a) := acc.2.checkExt w l
    let e := a.ext (l / 2 ^ 22)
    if ok && (if wr then (e.write? l).isSome else (e.read? l).isSome) then (acc.1 ++ [l], a)
    else (acc.1, if ok then a.refusedExt w l tag else a)) ([], s)

/-- The permitted lines of an access opened under one access record (R219): each takes a tracker entry as soon as its Room has
one (R68). -/
def State.ioOpen (s : State) (w host tag port : Nat) (x : Window) (pa len : Nat) (data : Option (List Byte)) (go : List Nat)
    (refused : Bool) : State :=
  let (acc, s1) := s.fresh1
  let lines := go.map fun l => (l, data.map fun d => ioWriteLine pa d l)
  (s1.mapHome fun h => { h with io := h.io ++
    [{ id := acc, host := host, tag := tag, port := port, pa := pa, len := len, write := data.isSome, left := go.length,
       data := [], poison := false, refused := refused, win := w, room := x.room, bank := (s1.room? x.room).map (·.bank),
       todo := lines }] }).run

/-- The binding that a CXL.io access comes by: the host's own, or that of a host at another switch, whose completion is routed by its
fabric ID (R47, R329). -/
def State.ioBind (s : State) (w host tag : Nat) (wr : Bool) (x : Window) : Option Binding :=
  match x.bind? host with
  | some b => some b
  | none => ((s.ioMsg w host tag wr).bind fun v => s.bindOf v x).map fun b =>
      { b with port := (s.routeTo host (flowHash (64 + lineHu (x.lineAt 0)) host 0)).getD b.port }

/-- Does an access of `len` bytes at an offset leave a window of `bytes`, or have a length that no request has (R216)? -/
def ioOut (bytes off len : Nat) : Bool := bytes < off + len || len = 0 || 4096 < len

/-- A CXL.io access answered without effect: an error for a write, a completion for a read. -/
def State.ioFail (s : State) (host tag port : Nat) (wr : Bool) (c : CplSt) : State :=
  if wr then s.push port .cmp port (.errNonfatal host tag) else s.push port .cmp port (.ioCpl host tag c [] false)

/-- The lines that their extents serve are opened; a read that lacks one, or an access that has none, fails. -/
def ioGo (w host tag off len : Nat) (data : Option (List Byte)) (x : Window) (b : Binding) (g : List Nat × State) : State :=
  let n := (accLines (x.base + off) len).length
  if g.1.isEmpty || (!data.isSome && g.1.length != n) then g.2.ioFail host tag b.port data.isSome .ca
  else g.2.ioOpen w host tag b.port x (x.base + off) len data g.1 (g.1.length != n)

/-- The pages that the rules permit go on to their extents; a read that lacks one fails. -/
def ioPermitted (w host tag off len : Nat) (data : Option (List Byte)) (x : Window) (b : Binding) (p : List Nat × State) : State :=
  if p.1.length != (accPages (x.base + off) len).length && !data.isSome then p.2.ioFail host tag b.port data.isSome .ca
  else ioGo w host tag off len data x b
    (p.2.ioLines w tag data.isSome ((accLines (x.base + off) len).filter fun l => p.1.contains (l / 64)))

/-- A CXL.io access taken from its queue: its bounds, the state of its window, the rules of its pages and the extents of its lines,
then its lines are opened (R214, R216, R41). -/
def State.ioServe (s : State) (w host tag : Nat) (pasid : Option Nat) (off len : Nat) (data : Option (List Byte)) (x : Window)
    (b : Binding) : State :=
  if ioOut x.bytes off len then s.ioFail host tag b.port data.isSome .ur
  else if s.draining || x.failed || (data.isSome && !b.rw) then s.ioFail host tag b.port data.isSome .ca
  else ioPermitted w host tag off len data x b (s.ioPages x host tag pasid (x.base + off) len data.isSome)

/-- A CXL.io memory access to a window (R214 to R219): the parts of each 4 KiB page are checked by themselves; the lines
of the permitted parts take tracker entries; the completion leaves when the last line is done. Its message waits for its grant,
and is discarded at the age limit (R182). -/
def State.ioAccess (s0 : State) (w host tag : Nat) (pasid : Option Nat) (off len : Nat) (data : Option (List Byte)) : State :=
  match s0.win? w with
  | none => s0
  | some x =>
    match s0.ioBind w host tag data.isSome x with
    | none => s0
    | some b =>
      if s0.ioWaits w host tag data.isSome then s0
      else match s0.ioStale w host tag data.isSome with
        | some v => s0.discard v 0x4300
        | none => (s0.takeIo w host tag data.isSome).ioServe w host tag pasid off len data x b

/-- CXL_IO_MEMORY_READ (R219). -/
def execCxlIoMemoryRead (window : Win) (host : Fid) (pasid : Option (BitVec 20)) (tag : B16) (off len : Nat) (s : State) : Eff :=
  .next (s.ioAccess window.toNat host.toNat tag.toNat (pasid.map (·.toNat)) off len none)

/-- CXL_IO_MEMORY_WRITE (R219). -/
def execCxlIoMemoryWrite (window : Win) (host : Fid) (pasid : Option (BitVec 20)) (tag : B16) (off : Nat) (data : List Byte)
    (s : State) : Eff :=
  .next (s.ioAccess window.toNat host.toNat tag.toNat (pasid.map (·.toNat)) off data.length (some data))

end Sys2Proof.Machine
end

