-- ==== Sys2Proof/Machine/LinkLayer.lean ====
section
/-! DEFINITION. The link layer that OPF and Stairwell links share (R340 to R354), and the control packets of the Stairwell
that stand on it (R372 to R374): sending, flooding, paths, and the answers to relayed commands (R389). -/

namespace Sys2Proof.Machine

/-! ## Link ends -/

/-- One end of a link. -/
def State.lend (s : State) (k : Nat) : LinkEnd := (NMap.get? s.links.ends k).getD {}

def State.mapLinks (s : State) (f : Links → Links) : State := { s with links := f s.links }

/-- The state with a link end changed. -/
def State.mapLend (s : State) (k : Nat) (f : LinkEnd → LinkEnd) : State :=
  s.mapLinks fun x => { x with ends := NMap.set x.ends k (f (s.lend k)) }

/-- Number of the link of an end: module 0 to 48, or 64 + n. -/
def lineNo (k : Nat) : Nat := if k < 98 then k / 2 else k - 36

/-- The other end of an OPF module. -/
def peerEnd (k : Nat) : Nat := k ^^^ 1

/-- Virtual channels of a link: 7 on OPF, FAB alone on module 48, 3 on a Stairwell link. -/
def endVcs (k : Nat) : Nat := if k < 96 then 7 else if k < 98 then 1 else 3

/-- Receive slots of a virtual channel (R347). -/
def endSlots (k vc : Nat) : Nat :=
  if k < 96 then [96, 64, 16, 32, 64, 96, 16].getD vc 0
  else if k < 98 then (if vc = 0 then 16 else 0)
  else if vc < 3 then 32 else 0

/-- A count by virtual channel. -/
def vcCount (m : NMap Nat) (vc : Nat) : Nat := (NMap.get? m vc).getD 0

/-- STATE of an end's link: DOWN 0; on OPF and module 48 UP 1, RETRAIN 2, LOST 3; on a Stairwell link TRAINING 1, UP 2,
RETRAIN 3. -/
def State.lineState (s : State) (k : Nat) : Nat :=
  if k < 98 then s.fld (OPF_MOD_STAT_fSTATE (k / 2)) else s.fld (STW_LNK_STAT_fSTATE (k - 100))

def State.lineUp (s : State) (k : Nat) : Bool := s.lineState k == (if k < 98 then 1 else 2)

/-- A bad flit, packet or ordered set counted (R349). -/
def State.bumpCrc (s : State) (k : Nat) : State :=
  if k < 98 then s.bump (OPF_MOD_ERR_fCRC_CNT (k / 2)) else s.bump (STW_LNK_ERR_fCRC_CNT (k - 100))

/-- ACK as a receiver sends it: the SEQ before the next expected one. -/
def LinkEnd.ack (e : LinkEnd) : Nat := (e.rx + 4095) % 4096

/-- Has the replay buffer of an end room for a payload of `n` bytes (R347)? A packet takes its 6-byte header, payload and
CRC. -/
def LinkEnd.room (e : LinkEnd) (k n : Nat) : Bool :=
  if k < 96 then e.unacked.length < 256
  else
    let used := e.unacked.foldl (fun a u => a + u.data.length + 10) 0
    e.unacked.length < (if k < 98 then 128 else 1024) && used + n + 10 ≤ (if k < 98 then 2048 else 16384)

/-- The credit return that travels with what an end sends now: virtual channel and count, at most the width of CR_CNT; its
ACK is sent with it (R348, R352). -/
def State.takeReturns (s : State) (k : Nat) : (Nat × Nat) × State :=
  let e := s.lend k
  match e.owe.find? fun p => p.2 != 0 with
  | some (vc, n) =>
    let m := Nat.min n (if k < 96 then 31 else 15)
    ((vc, m), s.mapLend k fun x => { x with owe := NMap.set x.owe vc (n - m), ackDue := false, sentT := s.now })
  | none => ((0, 0), s.mapLend k fun x => { x with ackDue := false, sentT := s.now })

/-- What an end's sender records at the first transmission of a flit or packet (R347, R350, R352). -/
def State.noteFirst (s : State) (k seq vc : Nat) (data : List Byte) : State :=
  s.mapLend k fun e => { e with
    tx := (seq + 1) % 4096
    unacked := e.unacked ++ [⟨seq, vc, data⟩]
    spent := NMap.set e.spent vc (vcCount e.spent vc + 1)
    timer := match e.timer with | some t => some t | none => some s.now }

/-- A packet sent for the first time. -/
def State.sendFirst (s : State) (k vc : Nat) (data : List Byte) : State :=
  let (r, s1) := s.takeReturns k
  let e := s1.lend k
  (s1.noteFirst k e.tx vc data).emit (.frame k e.tx vc e.ack r.1 r.2 data)

/-- Waiting packets sent in order while credits of their channel and replay space last; those that stay. -/
def State.pumpGo (s : State) (k : Nat) : List (Nat × List Byte) → List (Nat × List Byte) × State
  | [] => ([], s)
  | (vc, d) :: xs =>
    let e := s.lend k
    if !e.room k d.length then ((vc, d) :: xs, s)
    else if endSlots k vc ≤ vcCount e.spent vc then
      let (ys, s1) := s.pumpGo k xs
      ((vc, d) :: ys, s1)
    else (s.sendFirst k vc d).pumpGo k xs

/-- The waiting packets of an end looked at. -/
def State.pump (s : State) (k : Nat) : State :=
  if s.lineUp k then
    let (w, s1) := s.pumpGo k (s.lend k).wait
    s1.mapLend k fun e => { e with wait := w }
  else s

/-- A packet given to the sender of an end. -/
def State.linkSend (s : State) (k vc : Nat) (data : List Byte) : State :=
  (s.mapLend k fun e => { e with wait := e.wait ++ [(vc, data)] }).pump k

/-- An ACK acted on (R347, R350): entries at or before it are freed; the replay timer restarts or stops. -/
def State.ackIn (s : State) (k ack : Nat) : State :=
  s.mapLend k fun e =>
    let left := e.unacked.filter fun u => 2048 ≤ (ack + 4096 - u.seq) % 4096
    if left.length = e.unacked.length then e
    else { e with unacked := left, expiries := 0, timer := if left.isEmpty then none else some s.now }

/-- A credit return acted on (R352). -/
def State.credIn (s : State) (k vc n : Nat) : State :=
  if n = 0 || endVcs k ≤ vc then s
  else s.mapLend k fun e => { e with
    returned := NMap.set e.returned vc ((vcCount e.returned vc + n) % 65536)
    spent := NMap.set e.spent vc (vcCount e.spent vc - n) }

/-- The link fields of a good flit, packet or ordered set (R349). -/
def State.fieldsIn (s : State) (k ack vc n : Nat) : State := ((s.ackIn k ack).credIn k vc n).pump k

/-- A flit or packet accepted by a receiver: it leaves its receive slot at once (log 60), so a credit return is owed. -/
def State.accept (s : State) (k vc : Nat) : State :=
  s.mapLend k fun e => { e with
    rx := (e.rx + 1) % 4096
    freed := NMap.set e.freed vc ((vcCount e.freed vc + 1) % 65536)
    owe := NMap.set e.owe vc (vcCount e.owe vc + 1)
    ackDue := true }

/-- Unacknowledged entries sent again, in SEQ order, as one burst, with link fields as they stand now (R350). -/
def State.burst (s : State) (k : Nat) : State :=
  (s.lend k).unacked.foldl (fun a u =>
    let (r, a1) := a.takeReturns k
    a1.emit (.frame k u.seq u.vc (a1.lend k).ack r.1 r.2 u.data)) s

/-! ## Control packets (R372, R373) -/

/-- Virtual channel of a packet type: FAB, CMD or NTC. -/
def ctlVc (type : Nat) : Nat := if type = 0x10 || type = 0x11 then 1 else if type = 0x20 then 2 else 0

/-- The three prefix words. -/
def ctlPfx (type schema src dst : Nat) (bcast : Bool) (hops serial seg nseg : Nat) : List Byte :=
  leBytes 12 (packBits [(type, 8), (schema, 8), (src, 12), (0, 4), (dst, 12), (b2n bcast, 1), (0, 3), (hops, 8), (0, 8),
    (serial, 16), (seg, 8), (nseg, 8)])

/-- Parts of 244 bytes of a body, at least one; the fuel is its length. -/
def segsOf : Nat → List Byte → List (List Byte)
  | 0, bs => [bs]
  | n + 1, bs => if bs.length ≤ 244 then [bs] else bs.take 244 :: segsOf n (bs.drop 244)

/-- Bytes made up to whole words. -/
def padWords (bs : List Byte) : List Byte := bs ++ List.replicate ((4 - bs.length % 4) % 4) 0

/-- The packets of one body, prefix and all; HOPS starts at 255 (log 61). -/
def ctlPackets (type schema src : Nat) (dst : Option Nat) (serial : Nat) (body : List Byte) : List (List Byte) :=
  let ss := segsOf body.length body
  (List.range ss.length).zip ss |>.map fun p =>
    ctlPfx type schema src (dst.getD 0) dst.isNone 255 serial p.1 (ss.length - 1) ++ padWords p.2

/-- A control packet of this switch sent on one link. -/
def State.ctlOn (s : State) (l type : Nat) (dst : Option Nat) (serial : Nat) (body : List Byte) : State :=
  (ctlPackets type (if type ≤ 3 then 0 else s.fab.schema) (s.fab.fid.getD 0) dst serial body).foldl
    (fun a p => a.linkSend (100 + l) (ctlVc type) p) s

/-- Stairwell links that are up. -/
def State.upLinks (s : State) : List Nat := (List.range 4).filter fun l => s.lineUp (100 + l)

def State.mapFab (s : State) (f : Fabric → Fabric) : State := { s with fab := f s.fab }

/-- A control packet of this switch flooded on every up link (R374); a switch that runs alone floods nothing. -/
def State.flood (s : State) (type serial : Nat) (body : List Byte) : State :=
  if s.fab.fid.isNone then s else s.upLinks.foldl (fun a l => a.ctlOn l type none serial body) s

/-- The next serial of this originator, outside MEMBER and NOTICE. -/
def State.nextSerial (s : State) : Nat × State :=
  (s.fab.serial, s.mapFab fun f => { f with serial := (f.serial + 1) % 65536 })

/-- The up link of the shortest live path to a switch (R374): the link by which its newest MEMBER record came first; else
another by which its records come. -/
def State.pathTo (s : State) (dst : Nat) : Option Nat :=
  match NMap.get? s.fab.members dst with
  | some m =>
    if s.upLinks.contains m.link then some m.link else s.upLinks.find? fun l => m.links.contains l
  | none => none

/-- A packet that no up link leads to its destination discarded, counted and recorded (R374). -/
def State.ctlLost (s : State) : State :=
  (s.bump STW_RELAY_STAT_fDISC_CNT).record { checker := 0x1200, source := 4 }

/-- A control packet of this switch sent to one switch (R374). -/
def State.unicast (s : State) (type dst serial : Nat) (body : List Byte) : State :=
  match s.pathTo dst with
  | some l => s.ctlOn l type (some dst) serial body
  | none => s.ctlLost

/-- A control packet with a serial of its own sent to one switch. -/
def State.unicastNew (s : State) (type dst : Nat) (body : List Byte) : State :=
  let (n, s1) := s.nextSerial
  s1.unicast type dst n body

/-- A FAB packet that expects an ACK (R373): sent, and kept until the ACK comes. -/
def State.unicastAck (s : State) (type dst : Nat) (body : List Byte) : Nat × State :=
  let (n, s1) := s.nextSerial
  (n, (s1.unicast type dst n body).mapFab fun f => { f with acks := f.acks ++ [⟨n, type, dst, s.now, body⟩] })

/-- A FAB packet of the Ridge or of this switch flooded, its epoch first (log 62). -/
def State.floodNew (s : State) (type : Nat) (body : List Byte) : State :=
  let (n, s1) := s.nextSerial
  s1.flood type n (leBytes 4 s.fab.epoch ++ body)

/-! ## Answers to relayed commands (R389, R439) -/

/-- Completion data of a relay whose targets have all answered. -/
def Relay.data (r : Relay) : List Byte :=
  if r.all then leBytes 2 r.done.length ++ r.done.flatMap fun d => leBytes 2 d.1 ++ leBytes 2 d.2.1
  else r.done.flatMap fun d => d.2.2

/-- A relay with all its answers ends: OK, or for one target its TIMEOUT. -/
def State.endRelay (s : State) (r : Relay) : State :=
  if r.open_.isEmpty then
    let st : Status := if !r.all && r.done.any (fun d => d.2.1 == Status.timeout.code) then .timeout else .ok
    (s.mapFab fun f => { f with relays := f.relays.filter fun x => x.n != r.n }).finishWork (.relay r.n) st r.data
  else s

/-- The relay that an answer from a switch belongs to: bit 31 of the sequence number tells a fabric-wide one (log 63). -/
def State.relayOf (s : State) (src seq : Nat) : Option Relay :=
  s.fab.relays.find? fun r =>
    (r.all == (2147483648 ≤ seq)) && r.seq == some (seq % 2147483648) && r.open_.any fun p => p.1 == src

/-- An answer of a target taken at the origin: PENDING keeps it open; a final one closes it. -/
def State.relayAnswer (s : State) (src seq : Nat) (completion : Bool) (status : Nat) (bytes : List Byte) : State :=
  match s.relayOf src seq with
  | none => s
  | some r =>
    let r1 : Relay := if !completion && status == Status.pending.code then { r with open_ := NMap.set r.open_ src none }
      else { r with open_ := NMap.erase r.open_ src, done := r.done ++ [(src, status, bytes)] }
    (s.mapFab fun f => { f with relays := updFirst (fun x => x.n == r.n) (fun _ => r1) f.relays }).endRelay r1

/-- A target reported TIMEOUT (R389). -/
def State.relayTmo (s : State) (r : Relay) (fid : Nat) : State :=
  let r1 : Relay := { r with open_ := NMap.erase r.open_ fid, done := r.done ++ [(fid, Status.timeout.code, [])] }
  ((s.bump STW_RELAY_STAT_fTMO_CNT).mapFab fun f => { f with
    relays := updFirst (fun x => x.n == r.n) (fun _ => r1) f.relays }).endRelay r1

/-- A reply or a completion event sent to the origin of a relayed command (R389). -/
def State.relayBack (s : State) (o : Nat × Nat) (completion : Bool) (status : Nat) (bytes : List Byte) : State :=
  if s.fab.fid == some o.1 then s.relayAnswer o.1 o.2 completion status bytes
  else s.unicastNew 0x11 o.1 (leBytes 4 o.2 ++ leBytes 1 (b2n completion) ++ leBytes 2 status ++ bytes)

end Sys2Proof.Machine
end

