-- ==== Sys2Proof/Machine/Command.lean ====
section
/-! DEFINITION. What every Dermel command shares (R422 to R432, R563): the checks of R426 in order, the reply, the pending
table, and the completion event. -/

namespace Sys2Proof.Machine

/-! ## Replies -/

/-- What a command's own rules and work give (check 10 of R426 and after). -/
inductive DRes where
  | ok (data : List Byte) (s : State)
  | pending (w : Work) (data : List Byte) (s : State)
  | refuse (st : Status) (detail : Nat)

/-- One command, with what the checks of R426 need of it. -/
structure Cmd where
  opcode : Nat
  /-- BANK_V must be 1 (R423). -/
  bank : Bool := false
  forceOk : Bool := false
  invalOk : Bool := false
  /-- Check 6 for a ROOM other than 00h: the fabric Room ID is permitted. -/
  room : State → Nat → Bool := fun _ _ => false
  /-- Fabric Room IDs that the command names: BUSY while one is CLOSING (R204). -/
  names : List Nat := []
  /-- Check 8: the byte offset of the first faulty parameter. -/
  bad : State → Option Nat := fun _ => none
  /-- Check 9: permitted in this lifecycle state. -/
  life : State → Bool := fun _ => true
  /-- Largest completion result data in bytes (R443). -/
  most : Nat := 0
  /-- Check 10 and the command's work. -/
  run : State → DRes

/-- The offset that goes with the first condition that holds. -/
def firstBad : List (Bool × Nat) → Option Nat
  | [] => none
  | (b, off) :: xs => if b then some off else firstBad xs

/-- Is the device in its fault state for Dermel: DRAIN, FAULT, or the drain of a warm reset (R428, R514)? -/
def State.faulted (s : State) : Bool := s.flt.st != .normal || s.pwr.st == .warmDrain

/-- Does a command of groups 01xxh and 09xxh only read (R428)? -/
def onlyReads (op : Nat) : Bool :=
  op == 0x0101 || op == 0x0102 || op == 0x0901 || op == 0x0902 || op == 0x0904 || op == 0x0906

/-- Opcodes that recovery accepts (R519). -/
def inRecovery (op : Nat) : Bool :=
  op == 0x0101 || op == 0x0102 || op == 0x0b01 || op == 0x0b02 || op == 0x0b03 || op == 0x0b06

/-- Is a schema accepted (R392, R426 check 4; the fabric's own commands, R396)? -/
def State.schemaOk (s : State) (op schema : Nat) : Bool :=
  if schema = 0 then true
  else match s.fab.fid with
    | none => s.fab.ownMin ≤ schema && schema ≤ s.fab.ownMax
    | some _ =>
      schema == s.fab.schema ||
      (op / 256 != 0x0a && (
        (match s.fab.schemaOld with | some (v, t) => schema == v && s.now - t ≤ 1000000 | none => false) ||
        (match s.fab.schemaPend with | some i => schema == i.value && i.t ≤ s.now + 1000000 | none => false)))

/-- Does a ring's ROOM_LOCK permit the Room (R433)? -/
def State.lockOk (s : State) (src : Source) (room : Nat) : Bool :=
  match src with
  | .ring n => s.fld (CMD_RNG_CFG_fROOM_LOCK n.toNat) == 0 || s.fld (CMD_RNG_CFG_fROOM_LOCK n.toNat) == room
  | _ => true

/-- Result data filled with zeros to whole words (R424). -/
def pad4 (bs : List Byte) : List Byte := bs ++ List.replicate ((4 - bs.length % 4) % 4) 0

/-- The reply to a command (R424). -/
def State.mkReply (s : State) (h : Hdr) (op : Nat) (st : Status) (detail : Nat) (data : List Byte) : Reply :=
  { opcode := BitVec.ofNat 16 op, tag := h.tag, status := st, crcErr := false, detail := detail,
    schema := if h.schema = 0 || st == .schemaMismatch then BitVec.ofNat 8 s.fab.schema else h.schema, data := pad4 data }

/-- A reply as bytes (R424): the header with its CRC, then the result data. -/
def replyBytes (r : Reply) : List Byte :=
  let hdr := fun (crc : Nat) => leBytes 32 (packBits [(r.opcode.toNat, 16), (r.tag.toNat, 16), (r.status.code, 16),
    (b2n r.crcErr, 1), (0, 15), (r.data.length, 16), (r.schema.toNat, 8), (0, 8), (r.detail, 16), (0, 112), (crc, 32)])
  hdr (crc32c (hdr 0 ++ r.data)) ++ r.data

/-- A reply made on the transport that the command came from (R431); that of a relayed command goes to its origin (R389). -/
def State.sendReply (s : State) (src : Source) (relay : Option (Nat × Nat)) (r : Reply) : State :=
  match relay with
  | some o => s.relayBack o false r.status.code (replyBytes r)
  | none => s.emit (.reply src r)

def State.reply (s : State) (h : Hdr) (relay : Option (Nat × Nat)) (op : Nat) (st : Status) (detail : Nat) (data : List Byte) :
    State := s.sendReply h.src relay (s.mkReply h op st detail data)

/-- Completion words of result data of `n` bytes (R440, R441). -/
def compWords (n : Nat) : Nat := 2 + (4 + n + 3) / 4

/-- Is the local Room of a fabric Room ID CLOSING (R204)? -/
def State.fidClosing (s : State) (fid : Nat) : Bool :=
  match s.pool.rooms.find? fun p => p.2.fid == fid with
  | some p => p.2.st == .closing
  | none => false

/-- What is asked of every opcode before check 5: recovery (R519), the fault state (R428), check 4. -/
def State.checkFirst (s : State) (op schema : Nat) : Option Status :=
  if s.pwr.st == .recovery && !inRecovery op then some .busy
  else if s.faulted && !onlyReads op then some .faulted
  else if !s.schemaOk op schema then some .schemaMismatch else none

/-- The checks of R426 from check 4 on, and the fault state of R428; the first failing one decides. -/
def State.checkCmd (s : State) (h : Hdr) (c : Cmd) : Option (Status × Nat) :=
  match s.checkFirst c.opcode h.schema.toNat with
  | some st => some (st, 0)
  | none =>
  if !s.lockOk h.src h.room.toNat || (h.room != 0 && !c.room s h.room.toNat) then some (.denied, 0)
  else if s.cmds.pend.any fun p => p.src == h.src && p.tag == h.tag then some (.conflict, 0)
  else if h.bankV != c.bank || (h.force && !c.forceOk) || (h.invalidate && !c.invalOk) then some (.badParam, 0xFFFF)
  else match c.bad s with
    | some off => some (.badParam, off)
    | none =>
      if !c.life s then some (.denied, 0)
      else if c.opcode != 0x0307 && (h.room.toNat :: c.names).any s.fidClosing then some (.busy, 0) else none

/-- A command checked, executed and answered. -/
def State.runCmd (s : State) (h : Hdr) (relay : Option (Nat × Nat)) (c : Cmd) : State :=
  match s.checkCmd h c with
  | some (st, d) => s.reply h relay c.opcode st d []
  | none =>
    match c.run s with
    | .refuse st d => s.reply h relay c.opcode st d []
    | .ok data s1 => s1.reply h relay c.opcode .ok 0 data
    | .pending w data s1 =>
      let words := compWords c.most
      if 512 ≤ s.cmds.pend.length || 65536 < s.cmds.backlogWords + s.cmds.reserved + words then
        s.reply h relay c.opcode .noResource 0 []
      else
        let p : Pend := { id := s1.cmds.nextId, src := h.src, tag := h.tag, opcode := BitVec.ofNat 16 c.opcode,
                          room := h.room, work := w, words := words, relay := relay, res := none }
        (s1.mapCmds fun x => { x with pend := x.pend ++ [p], nextId := x.nextId + 1 }).reply h relay c.opcode .pending 0 data

/-- Transports that serve in recovery: the management rings and the Camey monitor (R519). -/
def servesRecovery (src : Source) : Bool :=
  match src with
  | .ring _ | .monitor => true
  | _ => false

/-- May the Hearth take a command of this header now: it takes commands, and a fence has nothing earlier to wait for
(R430, R519, R525)? -/
def State.takes (s : State) (h : Hdr) : Bool :=
  (s.cmds.hearthUp || (s.pwr.st == .recovery && servesRecovery h.src)) && !(h.fence && s.cmds.pend.any fun p => p.src == h.src)

/-- The row of one Dermel command: the Hearth takes it and answers it; while it cannot be taken, nothing happens. -/
def State.dermel (s : State) (h : Hdr) (c : Cmd) : Eff := .next (if s.takes h then s.runCmd h none c else s)

/-! ## Completion events (R430, R431, R441) -/

/-- SOURCE code of a Pend, as a transport of the switch itself has none. -/
def Pend.code (p : Pend) : Nat := Source.code p.src

/-- Payload of a COMPLETION event (R441). -/
def compPayload (opcode detail : Nat) (data : List Byte) : List Byte := leBytes 2 opcode ++ leBytes 2 detail ++ data

/-- A record of the switch's event log for the Fabric Manager API (R327). -/
def State.mailRecord (s : State) (bs : List Byte) : State :=
  { s with mail := { s.mail with recs := s.mail.recs ++ [(s.mail.next, bs)], next := (s.mail.next % 65535) + 1 } }

/-- The completion event of a PENDING command posted, and the command ended (R431): a mailbox or MCTP command also gets an
event record (R327), a monitor command a printed event (R473), and a relayed one is reported to its origin (R389). -/
def State.complete (s : State) (p : Pend) (r : WorkRes) : State :=
  let ws := eventWords 1 p.tag.toNat r.status.code (Source.code p.src) s.now (compPayload p.opcode.toNat r.detail r.data)
  let s1 := (s.mapCmds fun c => { c with pend := c.pend.filter fun x => x.id != p.id }).postWords ws true
  match p.relay with
  | some o => s1.relayBack o true r.status.code (compPayload p.opcode.toNat r.detail r.data)
  | none =>
    match p.src with
    | .mailbox | .mctp => s1.mailRecord (ws.flatMap fun w => leBytes 8 w.toNat)
    | .monitor => { s1 with dbg := { s1.dbg with evs := s1.dbg.evs ++ [ws] } }
    | _ => s1

/-- The PENDING command with a work item. -/
def State.pendOf (s : State) (f : Work → Bool) : Option Pend := s.cmds.pend.find? fun p => f p.work && p.res.isNone

/-- Is a command with such work PENDING? -/
def State.busyWith (s : State) (f : Work → Bool) : Bool := s.cmds.pend.any fun p => f p.work

/-! ## Room permissions (R432, R563) -/

/-- The fabric Room ID of a local Room. -/
def State.roomFid (s : State) (r : Nat) : Option Nat := (s.room? r).map (·.fid)

/-- Check 6 for a command that names a window: the Room that owns it. -/
def State.winRoom (s : State) (w fid : Nat) : Bool :=
  match s.win? w with
  | some x => s.roomFid x.room == some fid
  | none => false

/-- Check 6 for a command that names a fabric Room ID: that Room itself, if it exists. -/
def State.ownRoom (s : State) (froom fid : Nat) : Bool := froom == fid && (s.localRoom froom).isSome

/-- The local Room in which a Dermel header acts. -/
def State.hdrRoom (s : State) (h : Hdr) : Option Nat := s.localRoom h.room.toNat

/-- Is a Room CLOSING (R204)? -/
def State.closing (s : State) (r : Nat) : Bool := match s.room? r with | some x => x.st == .closing | none => false

/-- Notices (R387), in order of kind: insertion, removal, link-up, link-down, adopted, lost, released, fatal fault, Room
created, Room destroyed, handover, schema switch-over (kinds 0 to 11, log 19). -/
def ntcInsert : Nat := 0
def ntcRemove : Nat := 1
def ntcUp : Nat := 2
def ntcDown : Nat := 3
def ntcAdopt : Nat := 4
def ntcLost : Nat := 5
def ntcRelease : Nat := 6
def ntcFatal : Nat := 7
def ntcRoomNew : Nat := 8
def ntcRoomEnd : Nat := 9
def ntcHandover : Nat := 10
def ntcSchema : Nat := 11

/-- Payload of a NOTICE event (R441). -/
def noticeBytes (origin serial kind : Nat) (body : List Byte) : List Byte :=
  leBytes 2 origin ++ leBytes 2 serial ++ leBytes 1 kind ++ leBytes 3 0 ++ body

/-- A notice of this switch flooded (R387): on every up link, and posted here if NOTICE_MASK selects its kind. A switch that
runs alone floods nothing. -/
def State.notice (s : State) (kind : Nat) (body : List Byte) : State :=
  let serial := s.fab.ntcSerial
  let s1 := { s with fab := { s.fab with ntcSerial := (serial + 1) % 65536 } }
  let s2 := s1.flood 0x20 serial (leBytes 1 kind ++ body)
  if s2.cmds.noticeMask.getLsbD kind then s2.post 0x40 (noticeBytes (s.fab.fid.getD 0) serial kind body) else s2

end Sys2Proof.Machine
end

