-- ==== Sys2Proof/Machine/Backing.lean ====
section
/-! DEFINITION. Pool devices, free extents, zeroing, windows and bindings as the commands of spec/02 change them (R34 to
R63). -/

namespace Sys2Proof.Machine

/-! ## Free extents (R36 to R39, R48) -/

def State.dev? (s : State) (h : Nat) : Option PoolDev := NMap.get? s.pool.devs h
def State.mapDev (s : State) (h : Nat) (f : PoolDev → PoolDev) : State :=
  s.mapPool fun p => { p with devs := NMap.adjust p.devs h f }

/-- Extents of a device. -/
def PoolDev.extents (d : PoolDev) : Nat := d.capacity / 2 ^ 28

/-- Free extents of a device. -/
def PoolDev.free (d : PoolDev) : Nat := d.extents - d.used.length

/-- House extents that exist: 8 for each house unit (R38). -/
def State.houseExtents (s : State) : Nat := 8 * s.pool.house

/-- Free extents of a backing. -/
def State.freeOf (s : State) (house : Bool) (devs : List Nat) : Nat :=
  if house then s.houseExtents - s.pool.hUsed.length
  else devs.foldl (fun n h => n + (match s.dev? h with | some d => d.free | none => 0)) 0

/-- A house extent holds an HBM address. -/
def inHouse (ext a : Nat) : Bool :=
  (List.range 32).any fun hu =>
    let b := partAddr hu (44 - ext / 8) (ext % 8 * 0x800000)
    b ≤ a && a < b + 0x800000

/-- An extent zeroed by the Mover (R39): a house extent's bytes become 0 and lose their poison; the writes of a device's
extent are sent to it. -/
def State.zeroExt (s : State) (house : Bool) (h ext : Nat) : State :=
  if house then
    { s with mem := s.mem.filter fun c => !inHouse ext c.1, poison := s.poison.filter fun a => !inHouse ext a }
  else s.emit (.zeroed h ext)

/-- An extent of one backing taken, the lowest free one: handle (0 for the house pool), extent, clean (R48). -/
def State.takeOne (s : State) (house : Bool) (h : Nat) : Option ((Nat × Bool) × State) :=
  if house then
    let e := leastFree s.pool.hUsed (s.pool.hUsed.length + 1) 0
    if e < s.houseExtents then
      some ((e, s.pool.hClean.contains e), s.mapPool fun p => { p with
        hUsed := e :: p.hUsed, hClean := p.hClean.filter (· != e) })
    else none
  else match s.dev? h with
    | none => none
    | some d =>
      let e := leastFree d.used (d.used.length + 1) 0
      if e < d.extents then
        some ((e, d.clean.contains e), s.mapDev h fun x => { x with used := e :: x.used, clean := x.clean.filter (· != e) })
      else none

/-- The first of some devices that gives an extent. -/
def State.takeDev (s : State) : List Nat → Option (Nat × Nat × Bool × State)
  | [] => none
  | h :: hs =>
    match s.takeOne false h with
    | some ((e, c), s1) => some (h, e, c, s1)
    | none => s.takeDev hs

/-- The extent that window extent index i takes (R48): handle, extent, clean. -/
def State.takeFor (s : State) (house : Bool) (devs : List Nat) (i : Nat) : Option (Nat × Nat × Bool × State) :=
  if house then (s.takeOne true 0).map fun r => (0, r.1.1, r.1.2, r.2)
  else s.takeDev (devs.rotate (i % devs.length))

/-- An extent returned to the free list, clean or unclean (R39). -/
def State.giveBack (s : State) (house : Bool) (h e : Nat) (clean : Bool) : State :=
  if house then s.mapPool fun p => { p with
    hUsed := p.hUsed.filter (· != e), hClean := if clean then e :: p.hClean else p.hClean }
  else s.mapDev h fun d => { d with used := d.used.filter (· != e), clean := if clean then e :: d.clean else d.clean }

/-- The source extent of an entry returned to its free list. -/
def State.giveSrc (s : State) (e : Ext) (clean : Bool) : State :=
  if e.srcRemote then s else s.giveBack e.srcHouse e.srcDev e.srcExt clean

/-- The destination extent of an entry in DUAL or RETIRE returned, unclean. -/
def State.giveDst (s : State) (e : Ext) : State :=
  if e.dstRemote then s else s.giveBack e.dstHouse e.dstDev e.dstExt false

/-! ## Ranges of pool address space (R48) -/

/-- Does a range of extents overlap no window's range? -/
def State.rangeFree (s : State) (base n : Nat) : Bool :=
  s.pool.wins.all fun p => base + n ≤ p.2.baseX || p.2.baseX + p.2.extents ≤ base

/-- The lowest free range: 0, or the end of some window's range (R48). -/
def State.lowestRange (s : State) (n : Nat) : Option Nat :=
  ((0 :: s.pool.wins.map fun p => p.2.baseX + p.2.extents).filter fun b => b + n ≤ 2 ^ 20 && s.rangeFree b n).foldl
    (fun (m : Option Nat) b => match m with | none => some b | some x => some (Nat.min x b)) none

/-- The lowest free window ID. -/
def State.freeWin (s : State) : Option Nat :=
  let w := leastFree (s.pool.wins.map (·.1)) (s.pool.wins.length + 1) 0
  if w < 4096 then some w else none

/-! ## Window creation and removal (R48, R55) -/

/-- Extents for the indexes of a window taken and entered in the map; an unclean one is zeroed first: true if any was
(R39, R48). `st` is the state of the entries. -/
def State.fillWin (s : State) (w : Nat) (x : Window) (st : XState) (is : List Nat) : Bool × State :=
  is.foldl (fun (acc : Bool × State) i =>
    match acc.2.takeFor x.house x.devs i with
    | none => acc
    | some (h, e, clean, a) =>
      let a1 := if clean then a else a.zeroExt x.house h e
      (acc.1 || !clean, a1.setExt (x.baseX + i)
        { st := st, window := w, room := x.room, gen := (a1.ext (x.baseX + i)).gen, srcHouse := x.house,
          srcDev := h, srcExt := e })) (false, s)

/-- Every Pantry line of a window dropped, and every directory entry of it set to I, with its tag kept (R80): no host holds it and
its extents are given up. -/
def State.dropLines (s : State) (x : Window) : State :=
  let mine := fun (k : Nat) (d : DEnt) => !d.isMarker && x.holds (tagLine d.tag (k % 2 ^ 23 / 16))
  (s.mapPan fun p => { p with tags := p.tags.filter fun t => !x.holds t.2.line }).mapHome fun h =>
    { h with
      dir := h.dir.map fun d => if mine d.1 d.2 then
          (d.1, { d.2 with st := stI, fmt := false, sharers := 0, nsh := 0, pending := false }) else d
      cache := h.cache.filter fun c => !x.holds (c.2.ctag / 32 * 2 ^ 18 + c.1 % 2 ^ 17 / 16 * 32 + c.2.ctag % 32) }

/-- The extents of a window returned to their free lists, zeroed (`clean`) or not, and its entries cleared; an entry of a
lost device has no extent to return. -/
def State.freeExts (s : State) (x : Window) (clean : Bool) : State :=
  (List.range x.extents).foldl (fun a i =>
    let e := a.ext (x.baseX + i)
    if !e.valid then a
    else if e.st == .lost then a.setExt (x.baseX + i) Ext.zero
    else
      let a1 := if e.st == .dual || e.st == .retire then a.giveDst e else a
      let a2 := if clean && !e.srcRemote then a1.zeroExt e.srcHouse e.srcDev e.srcExt else a1
      (a2.giveSrc e clean).setExt (x.baseX + i) Ext.zero) s

/-- A window removed with its extents (R55). -/
def State.removeWin (s : State) (w : Nat) (clean : Bool) : State :=
  match s.win? w with
  | none => s
  | some x => (((s.dropLines x).freeExts x clean).mapPool fun p => { p with wins := NMap.erase p.wins w })

/-! ## Bindings (R52 to R55) -/

/-- Windows that an upstream port decodes. -/
def State.portEntries (s : State) (p : Nat) : Nat :=
  s.pool.wins.foldl (fun n w => n + (w.2.binds.filter fun b => b.port == p && b.decode).length)
    ((s.pool.remote.filter fun r => r.port == p).length)

/-- Decode entries of a lane die (R47). -/
def State.dieEntries (s : State) (die : Nat) : Nat := (s.diePorts die).foldl (fun n p => n + s.portEntries p) 0

/-- Do two ranges overlap, each by its base and its size? -/
def overlaps (a n b m : Nat) : Bool := n != 0 && m != 0 && a < b + m && b < a + n

/-- Size of BAR2, the atomic alias: that of the window rounded up to a power of two, at least 1 (R49). -/
def Window.aliasSize (x : Window) : Nat := 2 ^ ((List.range 64).filter fun i => 2 ^ i < x.bytes).length

/-- Does an HPA range overlap another target of a host at a port (R25): a window's HDM range, BAR0 or BAR2, a window homed elsewhere,
or the ranges of a virtual bridge of the port's virtual switch? -/
def State.hpaOverlap (s : State) (host port hpa n : Nat) : Bool :=
  (s.pool.wins.any fun w => w.2.binds.any fun b => b.host == host && (
    (b.decode && overlaps hpa n b.hpa w.2.bytes) || (b.bar != 0 && overlaps hpa n b.bar 0x1000000) ||
    (w.2.atomic && b.bar2 != 0 && overlaps hpa n b.bar2 w.2.aliasSize))) ||
  (s.pool.remote.any fun r => r.host == host && overlaps hpa n r.hpa r.size) ||
  s.ports.vppb.any fun v => v.vcs == port &&
    (overlaps hpa n v.base (v.limit + 1 - v.base) || overlaps hpa n v.pbase (v.plimit + 1 - v.pbase))

/-- The lowest virtual bridge index free at a port for a window: 0 to 63 (R322). -/
def State.freeBridge (s : State) (p : Nat) : Nat :=
  leastFree (s.pool.wins.flatMap fun w => (w.2.binds.filter fun b => b.port == p).map (·.bridge)) 64 0

/-- Codes of a bridge's hot-plug messages to its host (R53, R54): presence-detect change, attention button, withdrawal. -/
def evtPresence : Nat := 1
def evtAttention : Nat := 2
def evtWithdraw : Nat := 3
/-- An uncorrectable or Unsupported Request error that a virtual bridge logs under AER. -/
def evtAer : Nat := 4

/-- A bridge message to a host. -/
def State.bridgeMsg (s : State) (port host bridge code : Nat) : State :=
  s.push port .req port (.bridgeEvt host bridge code)

/-- R53 steps 3 and 4: the logical device is presented and the binding becomes BOUND; with the link down it waits for the
next link-up. -/
def State.present (s : State) (w host : Nat) : State :=
  match s.win? w with
  | none => s
  | some x =>
    match x.bind? host with
    | none => s
    | some b =>
      if s.inL0 b.port then
        let up := fun (y : Binding) => { y with presPend := false, st := if y.st == BState.binding then BState.bound else y.st }
        let s1 := (s.mapBind w host up).bridgeMsg b.port host b.bridge evtPresence
        if b.st == .binding then s1.finishWork (.windowBind w host) .ok (leBytes 1 b.bridge) else s1
      else s.mapBind w host fun y => { y with presPend := true }

/-- Lines of a window whose directory entry names a host: what R54 step 3 and H4 sweep. -/
def State.heldLines (s : State) (w host : Nat) : List Nat :=
  match s.win? w with
  | none => []
  | some x =>
    if x.type != .shared then []
    else
      let held := fun (l : Nat) => x.holds l && (match s.entry? l with
        | some e => e.st != stI && (host ≥ 4096 || (s.named e w).contains host)
        | none => false)
      (s.home.dir.filterMap fun p =>
        let l := tagLine p.2.tag (p.1 % 2 ^ 23 / 16)
        if !p.2.isMarker && held l then some l else none)

/-- One back-invalidation begun with an entry of the snoop reserve; false if its unit has none free. -/
def State.recall (s : State) (w host line : Nat) : Bool × State :=
  let hu := lineHu line
  if 64 ≤ s.trkCount hu .snpRes then (false, s)
  else
    let (id, s1) := s.fresh1
    let room := match s.win? w with | some x => x.room | none => 0
    (true, (s1.addTrk { id := id, hu := hu, pool := .snpRes, room := room, line := line, win := w, st := .chained,
                        req := .recall w host }).run)

/-- As many of some lines back-invalidated as their units have entries for; the rest is returned. -/
def State.recallSome (s : State) (w host : Nat) : List Nat → List Nat × State
  | [] => ([], s)
  | l :: ls =>
    match s.recall w host l with
    | (true, s1) => s1.recallSome w host ls
    | (false, s1) =>
      let r := s1.recallSome w host ls
      (l :: r.1, r.2)

/-- The sweep of an unbind goes on. -/
def State.pumpSweep (s : State) (w host : Nat) : State :=
  match s.win? w with
  | none => s
  | some x =>
    match x.bind? host with
    | none => s
    | some b =>
      let (left, s1) := s.recallSome w host b.sweep
      s1.mapBind w host fun y => { y with sweep := left }

/-- R54 step 2, and the start of step 3: the decode entry goes, the slices on the binding end, the sweep begins. -/
def State.unbind2 (s : State) (w host : Nat) : State :=
  match s.win? w with
  | none => s
  | some x =>
    match x.bind? host with
    | none => s
    | some b =>
      if b.removed then s
      else
        let s1 := (s.mapBind w host fun y => { y with decode := false, removed := true, presPend := false, deadline := none })
        let s2 := s1.dropSlices w host
        if b.r96 then s2 else (s2.mapBind w host fun y => { y with sweep := s2.heldLines w host }).pumpSweep w host

/-- Tracker entries that a host holds for a window, recalls of its lines among them. -/
def State.hostTrk (s : State) (w host : Nat) : Bool :=
  s.home.trk.any fun t => t.win == w && (t.q == host || (match t.req with | .recall _ h => h == host | _ => false))

/-- R54 step 5, once steps 3 and 4 are over: the logical device is withdrawn and the binding freed. -/
def State.unbind5 (s : State) (w host : Nat) : State :=
  match s.win? w with
  | none => s
  | some x =>
    match x.bind? host with
    | none => s
    | some b =>
      if !b.removed || !b.sweep.isEmpty || s.hostTrk w host || s.namedOpen w host then s
      else
        let s1 := ((s.bridgeMsg b.port host b.bridge evtWithdraw).mapWin w fun y =>
          { y with binds := y.binds.filter fun z => z.host != host })
        (s1.finishWork (.windowUnbind w host) .ok (leBytes 4 b.linesInv ++ leBytes 4 b.linesWb)).finishWork
          (.windowBind w host) .aborted []

/-- A forced unbind begun (R54, R205 D5). -/
def State.forceUnbind (s : State) (w host : Nat) : State :=
  ((s.mapBind w host fun y => { y with st := .unbinding }).unbind2 w host).unbind5 w host

/-! ## Pool devices (R35, R44) -/

/-- An extent-map entry that has lost a device (R44). -/
def Ext.lose (e : Ext) (h : Nat) : Ext :=
  let src := !e.srcHouse && !e.srcRemote && e.srcDev == h
  let dst := (e.st == .dual || e.st == .retire) && !e.dstHouse && !e.dstRemote && e.dstDev == h
  if !e.valid then e
  else if e.st == .dual && dst && !src then { e with st := .live, dstHouse := false, dstDev := 0, dstExt := 0 }
  else if e.st == .retire then (if src || dst then { e with st := .lost } else e)
  else if src then { e with st := .lost }
  else e

/-- R44 for a device: its entries become LOST; a migration to it fails and one from it is faulted (R275). The extent of the other
copy of a lost entry goes back to its free list, unclean. -/
def State.loseDev (s : State) (h : Nat) : State :=
  let isSrc := fun (e : Ext) => !e.srcHouse && !e.srcRemote && e.srcDev == h
  let hit := s.mov.migs.filter fun m =>
    let e := s.ext m.x
    (e.st == .dual || e.st == .retire) && (isSrc e || (!e.dstHouse && e.dstDev == h && !e.dstRemote))
  let s1 := s.mapPool fun p => { p with ext := p.ext.map fun e => (e.1, e.2.lose h) }
  hit.foldl (fun a m =>
    let e := s.ext m.x
    let a1 := if isSrc e then a.giveDst e else if e.st == .retire then a.giveSrc e false else a
    { a1.finishWork (.migrate m.win m.x) (if isSrc e then .faulted else .aborted) [] with
      mov := { a1.mov with migs := a1.mov.migs.filter fun y => y.x != m.x } }) s1

/-- A pool device released with its handle freed (R37, R415, R564). -/
def State.dropDev (s : State) (h : Nat) : State :=
  (s.mapPool fun p => { p with devs := NMap.erase p.devs h }).notice ntcRelease (leBytes 1 h)

/-- The adopted device of a port. -/
def State.devAt (s : State) (p : Nat) : Option (Nat × PoolDev) := s.pool.devs.find? fun d => d.2.port == p

end Sys2Proof.Machine
end

