-- ==== Sys2Proof/Machine/LogDev.lean ====
section
/-! DEFINITION. The logical device that a bound window is to its host (R49 to R51, R210, R319): its configuration registers, and
BAR0 below the doorbell pages. Field places inside the capability structures of the PCI Express and CXL standards are those of
the standards (log 218). -/

namespace Sys2Proof.Machine

/-- Device ID of a window's logical device (R49). -/
def Window.devId (x : Window) : Nat := match x.type with | .priv => 0x9201 | .shared => 0x9202 | .dynamic => 0x9203

/-- A configuration register of a window's logical device (R49, R50, R210); none: the standard gives it a value that this model
does not hold. -/
def State.ldCfg (s : State) (x : Window) (b : Binding) (reg : Nat) : Option Nat :=
  let vendor := Config.vendorId.toNat
  if reg = 0x00 then some (packBits [(vendor, 16), (x.devId, 16)])
  else if reg = 0x04 then some (packBits [(b.word (cfgKey 4) 0, 16), (0x10, 16)])
  else if reg = 0x08 then some (packBits [(s.fld GEN_ID_fSTEPPING, 8), (0x050210, 24)])
  else if reg = 0x10 then some (b.bar % 2 ^ 32 + 4)
  else if reg = 0x14 then some (b.bar / 2 ^ 32)
  else if reg = 0x18 then some (if x.atomic then b.bar2 % 2 ^ 32 + 4 else 0)
  else if reg = 0x1C then some (if x.atomic then b.bar2 / 2 ^ 32 else 0)
  else if reg = 0x20 || reg = 0x24 then some 0
  else if reg = 0x2C then some (packBits [(vendor, 16), (x.subsys, 16)])
  else if reg = 0x34 then some 0x40
  else if reg = 0x40 then some (b.word (cfgKey 0x40) 0 + 256 * 2 ^ 16 + 0x11)
  else if reg = 0x44 then some winMsixTable
  else if reg = 0x48 then some winMsixPba
  else if reg = 0x100 then some 0x10003
  else if reg = 0x104 then some (x.serial % 2 ^ 32)
  else if reg = 0x108 then some (x.serial / 2 ^ 32)
  else none

/-- A register with the bytes that the byte enables name replaced. -/
def mergeBytes (old new be : Nat) : Nat :=
  (List.range 4).foldl (fun v i => if bitOf be i then putBits v (8 * i) 8 (bitsOf new (8 * i) 8) else v) old

/-- A configuration write to a window's logical device: the command register, BAR0, BAR2 where the window has the alias, and the
MSI-X control; the identity is read-only. -/
def Binding.ldCfgWrite (x : Window) (b : Binding) (reg v : Nat) : Binding :=
  let size := x.aliasSize
  let b2 := fun (n : Nat) => if x.atomic then { b with bar2 := n / size * size } else b
  if reg = 0x04 then { b with regs := NMap.set b.regs (cfgKey 4) (BitVec.ofNat 32 (v &&& 0x546)) }
  else if reg = 0x10 then { b with bar := b.bar / 2 ^ 32 * 2 ^ 32 + v / 2 ^ 24 * 2 ^ 24 }
  else if reg = 0x14 then { b with bar := v * 2 ^ 32 + b.bar % 2 ^ 32 }
  else if reg = 0x18 then b2 (b.bar2 / 2 ^ 32 * 2 ^ 32 + v)
  else if reg = 0x1C then b2 (v * 2 ^ 32 + b.bar2 % 2 ^ 32)
  else if reg = 0x40 then { b with regs := NMap.set b.regs (cfgKey 0x40) (BitVec.ofNat 32 (v &&& 0xC0000000)) }
  else b

/-- A configuration write with byte enables; vectors that it unmasks are sent. -/
def State.ldCfgPut (s : State) (w host reg v be : Nat) : State :=
  match (s.win? w).bind fun x => (x.bind? host).map fun b => (x, b) with
  | none => s
  | some (x, b) =>
    let v1 := mergeBytes ((s.ldCfg x b reg).getD 0) v be
    (s.mapBind w host fun y => y.ldCfgWrite x reg v1).winUnmask w host

/-- Bits of the pending events of a logical device, by event log: informational, warning, failure, fatal, dynamic capacity. -/
def Binding.logBits (b : Binding) : Nat :=
  (List.range 5).foldl (fun n i => if b.events.any fun e => (if e.2.1 = 2 then 2 else 4) == i then n + 2 ^ i else n) 0

/-- BAR0 offsets of the mailbox payload: 2 KiB. -/
def mbPayload : Nat := 0x11020

/-- CXL component registers (R51, R319): the CXL.cache and CXL.mem block with the RAS capability and one HDM decoder, committed and
locked, with the base and size of the binding and one way. -/
def Binding.compWord (x : Window) (b : Binding) (off : Nat) : Nat :=
  if off = 0x1000 then 0x2110001
  else if off = 0x1004 then 0x10020002
  else if off = 0x1008 then 0x20010005
  else if off = 0x1104 || off = 0x1108 then b.word off 0x1CFFF
  else if off = 0x1110 then b.word off 0x7F
  else if off = 0x1204 then 2
  else if off = 0x1210 then b.hpa % 2 ^ 32
  else if off = 0x1214 then b.hpa / 2 ^ 32
  else if off = 0x1218 then x.bytes % 2 ^ 32
  else if off = 0x121C then x.bytes / 2 ^ 32
  else if off = 0x1220 then (if x.type == .shared then 0x2700 else 0x1700)
  else 0

/-- Device registers (R319): the capabilities array, device status with the event logs that hold records, and memory device status,
where a failed window is a media error. -/
def Binding.devWord (x : Window) (b : Binding) (off : Nat) : Nat :=
  if off = 0x10000 then 0x1010000
  else if off = 0x10004 then 3
  else if off = 0x10010 then 0x10001
  else if off = 0x10014 then 0x100
  else if off = 0x10018 then 8
  else if off = 0x10020 then 0x10002
  else if off = 0x10024 then 0x1000
  else if off = 0x10028 then 0x820
  else if off = 0x10030 then 0x14000
  else if off = 0x10034 then 0x200
  else if off = 0x10038 then 8
  else if off = 0x10100 then b.logBits
  else if off = 0x10200 then 0x10 + (if x.failed then 8 else 4)
  else 0

/-- The 32-bit word of BAR0 below the doorbell pages at an offset that is a multiple of 4 (R210, R319). Reserved offsets read as
0. The mailbox holds the command and the payload that the host has written, and the return code and output of the last command. -/
def Binding.ldWord (x : Window) (b : Binding) (off : Nat) : Nat :=
  if winMsixTable ≤ off && off < winMsixTable + 16 * 257 then b.word off (if off % 16 = 12 then 1 else 0)
  else if winMsixPba ≤ off && off < winMsixPba + 36 then
    (List.range 32).foldl (fun n i => if b.pba.contains (8 * (off - winMsixPba) + i) then n + 2 ^ i else n) 0
  else if off < 0x10000 then b.compWord x off
  else if off < 0x11000 then b.devWord x off
  else if off = 0x11000 then 11
  else if off = 0x11008 || off = 0x1100C || off = 0x11014 || (mbPayload ≤ off && off < mbPayload + 2048) then b.word off 0
  else 0

/-- The bits of a word of BAR0 below the doorbell pages that a host may write. -/
def ldWritable (off : Nat) : Nat :=
  if off = 0x1104 || off = 0x1108 then 0x1CFFF
  else if off = 0x1110 then 0x7F
  else if winMsixTable ≤ off && off < winMsixTable + 16 * 257 then (if off % 16 = 12 then 1 else 0xFFFFFFFF)
  else if off = 0x11008 then 0xFFFFFFFF
  else if off = 0x1100C then 0x1F
  else if mbPayload ≤ off && off < mbPayload + 2048 then 0xFFFFFFFF
  else 0

/-- A read of `n` bytes of BAR0 below the doorbell pages. -/
def Binding.ldRead (x : Window) (b : Binding) (off n : Nat) : Nat :=
  let o := off / 4 * 4
  let v := b.ldWord x o + b.ldWord x (o + 4) * 2 ^ 32 + b.ldWord x (o + 8) * 2 ^ 64
  v / 256 ^ (off % 4) % 256 ^ n

/-- A write of one word of BAR0 below the doorbell pages; the HDM decoder and every other offset ignore it. -/
def Binding.ldPut (b : Binding) (off v : Nat) : Binding :=
  if ldWritable off = 0 then b
  else { b with regs := NMap.set b.regs off (BitVec.ofNat 32 (v &&& ldWritable off)) }

/-- Opcodes of the table of R320. -/
def mbOpcodes : List Nat :=
  [0x0001, 0x0002, 0x0100, 0x0101, 0x0102, 0x0103, 0x0300, 0x0301, 0x0400, 0x0401, 0x4000, 0x4200, 0x4300]

/-- Opcodes that a window's mailbox accepts: those of dynamic capacity for a dynamic capacity window alone. -/
def Window.mbOps (x : Window) : List Nat := mbOpcodes ++ (if x.type == .dynamic then [0x4800, 0x4801, 0x4802, 0x4803] else [])

/-- Return codes of the mailbox, as the CXL standard numbers them. -/
def MbRet.code : MbRet → Nat | .success => 0 | .invalidInput => 2 | .unsupported => 3 | .busy => 6

/-- The end of a mailbox command: its return code, output length and output stand in the mailbox (R319, R320). -/
def State.mbPost (s : State) (w host : Nat) (r : MbRet) (data : List Byte) : State :=
  let up := fun (b : Binding) =>
    let r1 := NMap.set b.regs 0x11014 (BitVec.ofNat 32 r.code)
    let r2 := NMap.set r1 0x11008 (BitVec.ofNat 32 (putBits (b.word 0x11008 0) 16 16 data.length))
    { b with regs := (List.range ((data.length + 3) / 4)).foldl (fun m i =>
      if i < 512 then NMap.set m (mbPayload + 4 * i) (BitVec.ofNat 32 (leNat ((data.drop (4 * i)).take 4))) else m) r2 }
  (s.mapBind w host up).emit (.mbox (some (w, host)) r data)

/-- A write of `n` bytes, 4 or 8, of BAR0 below the doorbell pages; vectors that it unmasks are sent. The mailbox doorbell runs the command
register's opcode: one outside the table returns Unsupported here, the others by the rows of their commands (R320). -/
def State.ldWrite (s : State) (w host off n v : Nat) : State :=
  match (s.win? w).bind fun x => (x.bind? host).map fun b => (x, b) with
  | none => s
  | some (x, b) =>
    let o := off / 4 * 4
    let all := putBits (b.ldWord x o + b.ldWord x (o + 4) * 2 ^ 32 + b.ldWord x (o + 8) * 2 ^ 64) (8 * (off % 4)) (8 * n) v
    let put := fun (y : Binding) (k : Nat) =>
      if 4 * k < off % 4 + n then y.ldPut (o + 4 * k) (bitsOf all (32 * k) 32) else y
    let s1 := (s.mapBind w host fun y => put (put (put y 0) 1) 2).winUnmask w host
    let rung := off ≤ 0x11004 && 0x11004 < off + n && bitOf v (8 * (0x11004 - off))
    if rung && b.st == .bound && !x.mbOps.contains (b.word 0x11008 0 % 65536) then
      s1.mbPost w host (if s.cmds.hearthUp then .unsupported else .busy) []
    else s1

end Sys2Proof.Machine
end

