-- ==== Sys2Proof/Machine/PoolCmds.lean ====
section
/-! DEFINITION. Commands of group 04xxh (spec/02, R437) but those that start a copy: adoption, windows, bindings, dynamic
capacity, and the reads of the extent map and the directory; each command's completion stands beside it. -/

namespace Sys2Proof.Machine

/-- A fabric Room ID with no local Room (R563). -/
def State.noRoom (s : State) (froom : Nat) : Bool := (s.localRoom froom).isNone
/-- A window ID with no window (R563). -/
def State.noWin (s : State) (w : Nat) : Bool := (s.win? w).isNone
/-- No binding between a window and a host (R563). -/
def State.noBind (s : State) (w host : Nat) : Bool :=
  match s.win? w with | some x => (x.bind? host).isNone | none => true

/-! ## Pool devices (R34 to R37) -/

/-- POOL_ADOPT. -/
def cmdPoolAdopt (port : Nat) : Cmd :=
  { opcode := 0x0401, most := 16
    bad := fun s => firstBad [(!s.portExists port, 0)]
    run := fun s =>
      if s.role port != rolePool then .refuse .badParam 0
      else if (s.devAt port).isSome then .refuse .conflict 0
      else if !s.inL0 port || s.busyWith (· == .poolAdopt port) then .refuse .busy 0
      else if (s.port port).unfit then .refuse .badParam 0
      else if 64 ≤ s.pool.devs.length then .refuse .noResource 0
      else .pending (.poolAdopt port) [] s }

def execPoolAdopt (h : Hdr) (port : Byte) (s : State) : Eff := s.dermel h (cmdPoolAdopt port.toNat)

/-- The end of an adoption: the device's extents enter the free list unclean (R36), or the step that failed. A capacity
above 2^52 bytes is BAD_PARAM (R34). -/
def State.endAdopt (s : State) (port : Nat) (e : WorkEnd) : WorkRes × State :=
  match e with
  | .adopted cap serial =>
    let c := cap.toNat
    if 2 ^ 52 < c then (⟨.badParam, 0, []⟩, s)
    else if c < 2 ^ 28 then (⟨.faulted, 2, []⟩, s)
    else
      let h := leastFree (s.pool.devs.map (·.1)) 65 0
      if 64 ≤ h then (⟨.noResource, 0, []⟩, s)
      else
        let d : PoolDev := { port := port, capacity := c, serial := some serial.toNat }
        let s1 := (s.mapPool fun p => { p with devs := NMap.set p.devs h d }).notice ntcAdopt (leBytes 1 h ++ leBytes 1 port)
        (⟨.ok, 0, leBytes 4 h ++ leBytes 4 d.extents ++ leBytes 8 (c % 2 ^ 28)⟩, s1)
  | .failed step => (⟨.faulted, step.toNat, []⟩, s)
  | _ => (⟨.faulted, 1, []⟩, s)

/-- POOL_RELEASE. -/
def cmdPoolRelease (handle : Nat) : Cmd :=
  { opcode := 0x0402
    bad := fun s => firstBad [((s.dev? handle).isNone, 0)]
    run := fun s =>
      match s.dev? handle with
      | none => .refuse .badParam 0
      | some d => if !d.used.isEmpty then .refuse .busy 0 else .ok [] (s.dropDev handle) }

def execPoolRelease (h : Hdr) (handle : Byte) (s : State) : Eff := s.dermel h (cmdPoolRelease handle.toNat)

/-- POOL_LIST. -/
def cmdPoolList : Cmd :=
  { opcode := 0x0403
    run := fun s => .ok (leBytes 4 s.pool.devs.length ++ s.pool.devs.flatMap fun d =>
      leBytes 1 d.1 ++ leBytes 1 d.2.port ++ leBytes 2 0 ++ leBytes 8 d.2.capacity ++ leBytes 4 d.2.free) s }

def execPoolList (h : Hdr) (s : State) : Eff := s.dermel h cmdPoolList

/-! ## Windows (R48, R55) -/

/-- The window type of a code. -/
def wtypeOf (n : Nat) : WType := if n = 0 then .priv else if n = 1 then .shared else .dynamic
def WType.code : WType → Nat | .priv => 0 | .shared => 1 | .dynamic => 2
def WState.code : WState → Nat
  | .active => 0 | .creating => 1 | .destroying => 2 | .incoming => 3 | .copying => 4 | .handoffOut => 5 | .proxy => 6
def BState.code : BState → Nat | .binding => 0 | .bound => 1 | .unbinding => 2 | .failed => 3
def PMode.code : PMode → Nat | .off => 0 | .wt => 1 | .wb => 2
def pmodeOf (n : Nat) : PMode := if n = 0 then .off else if n = 1 then .wt else .wb

/-- Flags of WINDOW_CREATE (R437). -/
def wfAlias (p : WinParams) : Bool := p.flags.getLsbD 0
def wfBase (p : WinParams) : Bool := p.flags.getLsbD 1
def wfHouse (p : WinParams) : Bool := p.flags.getLsbD 2

/-- Offset of the first handle of a list that no device has, or that the list holds twice (R48, R563). -/
def State.badHandle (s : State) (hs : List Byte) : Option Nat :=
  ((List.range hs.length).find? fun i =>
    (s.dev? ((hs.getD i 0).toNat)).isNone || (hs.take i).contains (hs.getD i 0)).map (20 + ·)

/-- Check 8 of WINDOW_CREATE and REHOME_PREPARE, with R48's and R144's own BAD_PARAM conditions. -/
def State.badWin (s : State) (p : WinParams) (prep : Bool) : Option Nat :=
  match firstBad [(2 < p.type.toNat, 0), (!prep && s.noRoom p.froom.toNat, 1),
      (2 < p.pmode.toNat || (wfHouse p && p.pmode != 0), 2),
      (7 < p.flags.toNat || (p.type.toNat == 2 && wfAlias p) || (prep && wfBase p), 3),
      (p.extents.toNat = 0 || 262144 < p.extents.toNat, 4),
      (wfBase p && (p.poolBase.toNat % 2 ^ 28 != 0 || 2 ^ 48 < p.poolBase.toNat + p.extents.toNat * 2 ^ 28), 8),
      (64 < p.handles.length || (wfHouse p && !p.handles.isEmpty) || (!wfHouse p && p.handles.isEmpty), 16)] with
  | some o => some o
  | none => s.badHandle p.handles

/-- R48's refusals after BAD_PARAM, or the window ID and base extent that the window takes. -/
def State.placeWin (s : State) (p : WinParams) (prep : Bool) : Except Status (Nat × Nat) :=
  let n := p.extents.toNat
  let base := p.poolBase.toNat / 2 ^ 28
  if p.handles.any fun h => (match s.dev? h.toNat with | some d => !s.inL0 d.port | none => true) then .error .busy
  else if wfBase p && !s.rangeFree base n then .error .conflict
  else
    match (if wfBase p then some base else s.lowestRange n), s.freeWin with
    | some b, some w =>
      if (p.type.toNat != 2 || prep) && s.freeOf (wfHouse p) (p.handles.map (·.toNat)) < n then .error .noResource else .ok (w, b)
    | _, _ => .error .noResource

/-- The window that the parameters make: its home is this switch, its serial as R50 gives. -/
def State.newWin (s : State) (p : WinParams) (w base room : Nat) (st : WState) : Window :=
  { type := wtypeOf p.type.toNat, st := st, room := room, pmode := pmodeOf p.pmode.toNat, house := wfHouse p,
    devs := p.handles.map (·.toNat), atomic := wfAlias p, extents := p.extents.toNat, baseX := base,
    serial := Config.uid.toNat % 2 ^ 48 * 2 ^ 16 + w, subsys := w, home := s.fab.fid.getD 0 }

/-- Result of WINDOW_CREATE: 0: WINDOW, 8: POOL_BASE. -/
def winResult (w base : Nat) : List Byte := leBytes 8 w ++ leBytes 8 (base * 2 ^ 28)

/-- WINDOW_CREATE. -/
def cmdWindowCreate (p : WinParams) : Cmd :=
  { opcode := 0x0410, most := 16, names := [p.froom.toNat]
    room := fun s fid => s.ownRoom p.froom.toNat fid
    bad := fun s => s.badWin p false
    run := fun s =>
      match s.placeWin p false, s.localRoom p.froom.toNat with
      | .ok (w, b), some room =>
        let x := s.newWin p w b room .creating
        let s1 := s.mapPool fun q => { q with wins := NMap.set q.wins w x }
        if x.type == .dynamic then .ok (winResult w b) (s1.mapWin w fun y => { y with st := .active })
        else
          let r := s1.fillWin w x .free (List.range x.extents)
          if r.1 then .pending (.windowCreate w) [] r.2
          else .ok (winResult w b) ((r.2.mapPool fun q => { q with ext := q.ext.map fun e =>
            if e.2.window == w then (e.1, { e.2 with st := .live }) else e }).mapWin w fun y => { y with st := .active })
      | .error st, _ => .refuse st 0
      | _, none => .refuse .badParam 1 }

def execWindowCreate (h : Hdr) (p : WinParams) (s : State) : Eff := s.dermel h (cmdWindowCreate p)

/-- The extents of a new window are zeroed: it becomes ACTIVE. -/
def State.endCreate (s : State) (w : Nat) : WorkRes × State :=
  match s.win? w with
  | none => (⟨.aborted, 0, []⟩, s)
  | some x =>
    (⟨.ok, 0, winResult w x.baseX⟩, (s.mapPool fun q => { q with ext := q.ext.map fun e =>
      if e.2.window == w && x.baseX ≤ e.1 && e.1 < x.baseX + x.extents && e.2.st == .free then
        (e.1, { e.2 with st := .live }) else e }).mapWin w fun y => { y with st := .active })

/-- WINDOW_DESTROY. -/
def cmdWindowDestroy (w : Nat) : Cmd :=
  { opcode := 0x0411
    room := fun s fid => s.winRoom w fid
    bad := fun s => firstBad [(s.noWin w, 0)]
    run := fun s =>
      match s.win? w with
      | none => .refuse .badParam 0
      | some x =>
        if !x.binds.isEmpty || x.st == .creating || x.st == .destroying || x.rehome.isSome then .refuse .busy 0
        else .pending (.windowDestroy w) [] (s.mapWin w fun y => { y with st := .destroying }) }

def execWindowDestroy (h : Hdr) (window : B16) (s : State) : Eff := s.dermel h (cmdWindowDestroy window.toNat)

/-- WINDOW_QUERY: the window record and a part of the bindings (R437). -/
def cmdWindowQuery (w first n : Nat) : Cmd :=
  { opcode := 0x0412
    room := fun s fid => s.winRoom w fid
    bad := fun s => firstBad [(s.noWin w, 0), (250 < n, 4)]
    run := fun s =>
      match s.win? w with
      | none => .refuse .badParam 0
      | some x => .ok (leBytes 1 x.type.code ++ leBytes 1 x.st.code ++ leBytes 1 ((s.roomFid x.room).getD 0)
          ++ leBytes 1 x.pmode.code ++ leBytes 4 x.extents ++ leBytes 8 x.base ++ leBytes 2 x.home
          ++ leBytes 2 x.binds.length ++ leBytes 12 (b2n x.failed)
          ++ ((x.binds.drop first).take n).flatMap fun b =>
            leBytes 2 b.host ++ leBytes 1 b.port ++ leBytes 1 b.st.code ++ leBytes 1 (b2n b.rw) ++ leBytes 1 b.bridge
              ++ leBytes 2 0 ++ leBytes 8 b.hpa) s }

def execWindowQuery (h : Hdr) (window first n : B16) (s : State) : Eff :=
  s.dermel h (cmdWindowQuery window.toNat first.toNat n.toNat)

/-! ## Bindings (R52 to R54) -/

/-- The first refusal of R52's table that holds. -/
def State.bindRefusal (s : State) (host port hpa : Nat) (x : Window) : Option Status :=
  let hosts := match s.room? x.room with | some r => r.hosts.map (fun (p : Nat × Nat) => p.2) | none => []
  if !hosts.contains host then some .denied
  else if (s.port port).room != some x.room then some .denied
  else if (x.st != .active && x.st != .copying) || x.failed || s.closing x.room then some .busy
  else if x.binds.any fun b => b.host == host && (b.st == .binding || b.st == .unbinding) then some .busy
  else if x.type != .shared && !x.binds.isEmpty then some .conflict
  else if x.binds.any fun b => b.host == host then some .conflict
  else if hpa % 2 ^ 28 != 0 || s.hpaOverlap host port hpa x.bytes then some .conflict
  else if 1024 ≤ s.dieEntries (s.portDie port) || 64 ≤ s.portEntries port then some .noResource
  else none

/-- WINDOW_BIND (R52, R53): the decode entry is written as the command is accepted; COMMAND_COMPLETION, or the host's
next link-up, presents the logical device. -/
def cmdWindowBind (w host port access hpa : Nat) : Cmd :=
  { opcode := 0x0420, most := 4
    room := fun s fid => s.winRoom w fid
    bad := fun s => firstBad [(s.noWin w, 0), (4095 < host, 2), (!s.portExists port || s.role port != roleUpstream, 4),
      (1 < access, 5)]
    run := fun s =>
      match s.win? w with
      | none => .refuse .badParam 0
      | some x =>
        match s.bindRefusal host port hpa x with
        | some st => .refuse st 0
        | none =>
          let b : Binding := { host := host, port := port, st := .binding, rw := access == 1, hpa := hpa,
                               bridge := s.freeBridge port }
          .pending (.windowBind w host) [] (s.mapWin w fun y => { y with binds := y.binds ++ [b] }) }

def execWindowBind (h : Hdr) (window host : B16) (port access : Byte) (hpa : B64) (s : State) : Eff :=
  s.dermel h (cmdWindowBind window.toNat host.toNat port.toNat access.toNat hpa.toNat)

/-- WINDOW_UNBIND (R54, R55). -/
def cmdWindowUnbind (force : Bool) (w host timeout : Nat) : Cmd :=
  { opcode := 0x0421, forceOk := true, most := 8
    room := fun s fid => s.winRoom w fid && !s.noBind w host
    bad := fun s => firstBad [(s.noWin w, 0), (s.noBind w host, 2), (timeout != 0 && (timeout < 100 || 60000 < timeout), 4)]
    run := fun s =>
      match (s.win? w).bind (·.bind? host) with
      | none => .refuse .badParam 2
      | some b =>
        if b.st == .binding || b.st == .unbinding then .refuse .busy 0
        else
          let s1 := s.mapBind w host fun y => { y with st := .unbinding }
          if force || b.r96 then .pending (.windowUnbind w host) [] (s1.unbind2 w host)
          else
            let d := s.now + (if timeout = 0 then 5000 else timeout) * 1000000
            .pending (.windowUnbind w host) []
              ((s1.mapBind w host fun y => { y with deadline := some d }).bridgeMsg b.port host b.bridge evtAttention) }

def execWindowUnbind (h : Hdr) (window host : B16) (timeout : Word) (s : State) : Eff :=
  s.dermel h (cmdWindowUnbind h.force window.toNat host.toNat timeout.toNat)

/-- SLOT_POWER_OFF (R54): the host has turned slot power off, and the unbind goes on. -/
def execSlotPowerOff (window : Win) (host : Fid) (s : State) : Eff :=
  let w := window.toNat
  let q := host.toNat
  match (s.win? w).bind (·.bind? q) with
  | none => .next s
  | some b => .next (if b.st == .unbinding then (s.unbind2 w q).unbind5 w q else s)

/-! ## Dynamic capacity (R56, R57) -/

/-- The binding of a dynamic capacity window that is BOUND. -/
def Window.boundOne (x : Window) : Option Binding := x.binds.find? fun b => b.st == .bound

/-- Offset of the first extent index at or beyond a window's size (R56, R57). -/
def badIndex (x : Window) (xs : List Word) : Option Nat :=
  ((List.range xs.length).find? fun i => x.extents ≤ (xs.getD i 0).toNat).map (4 + 4 * ·)

/-- DC_ADD (R56). -/
def cmdDcAdd (w : Nat) (xs : List Word) : Cmd :=
  { opcode := 0x0430, most := 4 + 4 * xs.length
    room := fun s fid => s.winRoom w fid
    bad := fun s => match s.win? w with
      | none => some 0
      | some x => if x.type != .dynamic then some 0 else badIndex x xs
    run := fun s =>
      match s.win? w with
      | none => .refuse .badParam 0
      | some x =>
        let is := (xs.map (·.toNat)).eraseDups
        match x.boundOne with
        | none => .refuse .busy 0
        | some b =>
          if is.any fun i => (s.ext (x.baseX + i)).valid then .refuse .conflict 0
          else if s.freeOf x.house x.devs < is.length then .refuse .noResource 0
          else
            let s1 := (s.fillWin w x .offered is).2
            let o : Offer := { id := x.nextOffer, xs := is, deadline := s.now + 5000000000 }
            .pending (.dcAdd w x.nextOffer) []
              ((s1.mapWin w fun y => { y with offers := y.offers ++ [o], nextOffer := y.nextOffer + 1 }).bindEvent w b.host 0 is) }

def execDcAdd (h : Hdr) (window : B16) (xs : List Word) (s : State) : Eff := s.dermel h (cmdDcAdd window.toNat xs)

/-- An extent of a window zeroed and given back, its entry cleared (R56, R57). -/
def State.freeOne (s : State) (x : Window) (i : Nat) : State :=
  let e := s.ext (x.baseX + i)
  if !e.valid then s
  else
    let lines : Window := { x with baseX := x.baseX + i, extents := 1 }
    ((((s.dropLines lines).zeroExt e.srcHouse e.srcDev e.srcExt).giveSrc e true).setExt (x.baseX + i)
      { Ext.zero with gen := e.gen })

/-- The answer to an offer (R56): the extents named become LIVE, the others are zeroed and returned; the DC_ADD has ended. -/
def State.answerOffer (s : State) (w : Nat) (o : Offer) (named : List Nat) : State :=
  match s.win? w with
  | none => s
  | some x =>
    let live := o.xs.filter named.contains
    let s1 := live.foldl (fun a i => a.setExt (x.baseX + i) { a.ext (x.baseX + i) with st := .live }) s
    let s2 := (o.xs.filter fun i => !named.contains i).foldl (fun a i => a.freeOne x i) s1
    (s2.mapWin w fun y => { y with offers := y.offers.filter fun z => z.id != o.id }).finishWork (.dcAdd w o.id) .ok
      (leBytes 4 live.length ++ live.flatMap (leBytes 4 ·))

/-- DC_RELEASE (R57). -/
def cmdDcRelease (force : Bool) (w : Nat) (xs : List Word) : Cmd :=
  { opcode := 0x0431, forceOk := true, most := 4 + 4 * xs.length
    room := fun s fid => s.winRoom w fid
    bad := fun s => match s.win? w with
      | none => some 0
      | some x => if x.type != .dynamic then some 0 else badIndex x xs
    run := fun s =>
      match s.win? w with
      | none => .refuse .badParam 0
      | some x =>
        let is := (xs.map (·.toNat)).eraseDups
        match x.boundOne with
        | none => .refuse .busy 0
        | some b =>
          if is.any fun i => (let e := s.ext (x.baseX + i); !e.valid || e.st != .live) then .refuse .conflict 0
          else
            let s1 := is.foldl (fun a i => a.setExt (x.baseX + i) { a.ext (x.baseX + i) with st := .releasing }) s
            .pending (.dcRelease w is force (s.now + 5000000000)) [] (s1.bindEvent w b.host 1 is) }

def execDcRelease (h : Hdr) (window : B16) (xs : List Word) (s : State) : Eff :=
  s.dermel h (cmdDcRelease h.force window.toNat xs)

/-- Has a tracker entry, or a memory request, of an extent still to retire (R57)? -/
def State.extBusy (s : State) (x : Nat) : Bool :=
  (s.home.trk.any fun t => t.line / 2 ^ 22 == x) || s.home.memq.any fun r => r.line / 2 ^ 22 == x

/-- Closed RELEASING extents whose requests have all retired become FREE, zeroed and returned (R57). -/
def State.pumpRelease (s : State) (w : Nat) : State :=
  match s.win? w with
  | none => s
  | some x =>
    ((List.range x.extents).filter fun i =>
      let e := s.ext (x.baseX + i)
      e.valid && e.st == .releasing && e.closed && !s.extBusy (x.baseX + i)).foldl (fun a i => a.freeOne x i) s

/-- The DC_RELEASE commands of a window whose extents are all FREE, or whose timeout has passed, have ended (R57). -/
def State.endReleases (s : State) (w : Nat) : State :=
  match s.win? w with
  | none => s
  | some x =>
    s.cmds.pend.foldl (fun a p =>
      match p.work with
      | .dcRelease v xs force d =>
        let done := xs.filter fun i => !(a.ext (x.baseX + i)).valid
        if v == w && (done.length == xs.length || (!force && d ≤ a.now)) then
          a.finish (fun q => q.id == p.id) ⟨.ok, 0,
            leBytes 2 done.length ++ leBytes 2 (xs.length - done.length) ++ done.flatMap (leBytes 4 ·)⟩
        else a
      | _ => a) s

/-- Extents of a window that a forced release names whose time is over. -/
def State.forcedDue (s : State) (w : Nat) : List Nat :=
  s.cmds.pend.flatMap fun p => match p.work with
    | .dcRelease v xs true d => if v == w && d ≤ s.now then xs else []
    | _ => []

/-- A RELEASING extent closed without its host. -/
def State.closeReleasing (s : State) (x : Nat) : State :=
  let e := s.ext x
  if e.valid && e.st == .releasing then s.setExt x { e with closed := true } else s

/-- CAPACITY_RESPONSE_TIMEOUT (R56, R57): offers of the window that have waited 5 s are declined; forced releases take
effect, and the others report what is not released. -/
def execCapacityResponseTimeout (window : Win) (t : Nat) (s0 : State) : Eff :=
  let s := s0.at t
  let w := window.toNat
  match s.win? w with
  | none => .next s
  | some x =>
    let s1 := (x.offers.filter fun o => o.deadline ≤ s.now).foldl (fun a o => a.answerOffer w o []) s
    let s2 := (s1.forcedDue w).foldl (fun a i => a.closeReleasing (x.baseX + i)) s1
    .next ((s2.pumpRelease w).endReleases w)

/-! ## Reads of the extent map and the directory -/

/-- EXTENT_READ (R40, R437): with a ROOM other than 00h, entries of other Rooms read as zeros. -/
def cmdExtentRead (h : Hdr) (x n : Nat) : Cmd :=
  { opcode := 0x0440
    room := fun s fid => (s.localRoom fid).isSome
    bad := fun _ => firstBad [(2 ^ 20 < x + n, 0), (n = 0 || 64 < n, 4)]
    run := fun s => .ok ((List.range n).flatMap fun i =>
      let e := s.ext (x + i)
      if h.room == 0 || (e.valid && some e.room == s.hdrRoom h) then leBytes 16 (if e = Ext.zero then 0 else e.image)
      else leBytes 16 0) s }

def execExtentRead (h : Hdr) (x : Word) (n : Byte) (s : State) : Eff := s.dermel h (cmdExtentRead h x.toNat n.toNat)

/-- DIR_READ: the HBM set, the cache entry and its flags (R437). -/
def cmdDirRead (pa : Nat) : Cmd :=
  { opcode := 0x0460
    room := fun s fid => match s.winOfLine (pa / 64) with | some w => s.winRoom w fid | none => false
    bad := fun _ => firstBad [(2 ^ 48 ≤ pa, 0)]
    run := fun s =>
      let line := pa / 64
      let hu := lineHu line
      let c := (s.cacheFind line).bind s.cacheEnt?
      .ok (((List.range 16).flatMap fun w => leBytes 16 (s.dirEnt (dirKey hu (dirSet line) w)).image)
        ++ (match c with | some e => leBytes 12 e.image | none => leBytes 12 0)
        ++ leBytes 4 (match c with | some e => 1 + 2 * b2n e.dirty | none => 0)) s }

def execDirRead (h : Hdr) (pa : B64) (s : State) : Eff := s.dermel h (cmdDirRead pa.toNat)

/-- Do the valid rules of a Room's active bank cover a range of pages (R58)? Each rule met moves the first uncovered page
on; as many passes as rules. -/
def coverPass (rs : List Rule) : Nat → Nat → Nat
  | 0, p => p
  | n + 1, p => coverPass rs n (rs.foldl (fun q r => if r.mat != 0 && r.base ≤ q && q ≤ r.limit then r.limit + 1 else q) p)

def Room.covers (r : Room) (first n : Nat) : Bool :=
  let rs := (r.bankRules r.bank).map (·.2)
  first + n ≤ coverPass rs rs.length first

/-- The window that REHOME_PREPARE makes: INCOMING, with its completion event owed (R60 H9). The serial number, the subsystem ID and the
handoff age limit are those of the old home (R50, R59), which no operand of this table gives: free values, the limit within its
range (log 221). -/
def State.incomingWin (s : State) (h : Hdr) (p : WinParams) (w b room : Nat) : Window × State :=
  let (v, s1) := s.free
  let (a, s2) := s1.free
  ({ s.newWin p w b room .incoming with
      serial := v.toNat, subsys := v.toNat % 4096, prep := some (h.tag.toNat, Source.code h.src)
      rehome := some { old := false, age := 1000 + a.toNat % 99001 } }, s2)

/-- REHOME_PREPARE at the new home B (R58): the window INCOMING, its extents clean. -/
def cmdRehomePrepare (h : Hdr) (p : WinParams) : Cmd :=
  { opcode := 0x0450, names := [p.froom.toNat]
    room := fun s fid => s.ownRoom p.froom.toNat fid
    bad := fun s => s.badWin p true
    run := fun s =>
      match s.localRoom p.froom.toNat with
      | none => .refuse .denied 0
      | some room =>
        match s.placeWin p true with
        | .error st => .refuse st 0
        | .ok (w, b) =>
          let (x, u) := s.incomingWin h p w b room
          let covered := match s.room? room with | some r => r.covers (b * 65536) (x.extents * 65536) | none => false
          if !covered then .refuse .denied 0
          else
            .ok (leBytes 4 w) ((u.mapPool fun q => { q with wins := NMap.set q.wins w x }).fillWin w x .live (List.range x.extents)).2 }

def execRehomePrepare (h : Hdr) (p : WinParams) (s : State) : Eff := s.dermel h (cmdRehomePrepare h p)

/-- Tracker entries of a window. -/
def State.winTrk (s : State) (w : Nat) : Nat := s.home.trk.foldl (fun n t => if t.win == w then n + 1 else n) 0

/-- REHOME_STATUS (R63): PHASE is the STATE code of the window (log 22). -/
def cmdRehomeStatus (w : Nat) : Cmd :=
  { opcode := 0x0452
    room := fun s fid => s.winRoom w fid
    bad := fun s => firstBad [(s.noWin w, 0)]
    run := fun s =>
      match s.win? w with
      | none => .refuse .badParam 0
      | some x => .ok (leBytes 4 x.st.code ++ leBytes 4 (match x.rehome with | some r => r.copied | none => 0)
          ++ leBytes 4 (s.winTrk w)) s }

def execRehomeStatus (h : Hdr) (window : B16) (s : State) : Eff := s.dermel h (cmdRehomeStatus window.toNat)

end Sys2Proof.Machine
end

