-- ==== Sys2Proof/Machine/Mover.lean ====
section
/-! DEFINITION. The Mover (spec/09): channels, jobs, descriptors, bus errors, and the migration of extents. A row runs the
channel's current descriptor as far as its home units and the answers `dev` of pool devices, in the order asked, let it. -/

namespace Sys2Proof.Machine

def State.mapMov (s : State) (f : Mover → Mover) : State := { s with mov := f s.mov }
def State.chan (s : State) (n : Nat) : MChan := (NMap.get? s.mov.chans n).getD {}
def State.setChan (s : State) (n : Nat) (c : MChan) : State := s.mapMov fun m => { m with chans := NMap.set m.chans n c }

/-- Channels enabled (MOV_STAT.ENABLED). -/
def State.enabledChans (s : State) : Nat := s.mov.chans.foldl (fun n c => if c.2.en then n + 1 else n) 0

/-- Internal requests of a channel that no home unit has admitted are dropped. -/
def State.dropAsked (s : State) (n : Nat) : State :=
  s.mapHome fun h => { h with intq := h.intq.filter fun r => r.chan != some n }

def ChSt.code : ChSt → Nat | .disabled => 0 | .idle => 1 | .running => 2 | .haltFault => 3 | .haltBystander => 4

/-- MOV_CH_STAT (R278). -/
def MChan.stat (c : MChan) : Nat := packBits [(c.st.code, 3), (b2n c.dir, 1), (c.cause, 4), (b2n c.fetch, 1)]

/-! ## Job records (R256, R271, R272) -/

def jobOk : Nat := 0
def jobMiscompare : Nat := 1
def jobBadDesc : Nat := 2
def jobBusError : Nat := 3
def jobAborted : Nat := 4

/-- Final command status of a job status (log 23, DEDUCED). -/
def jobStatus (st : Nat) : Status := if st = 0 || st = 1 then .ok else if st = 4 then .aborted else .faulted

/-- A job's record written: the completion of MOVER_JOB, or the slot of a slice's page, whose vector is raised for a status
other than OK. -/
def State.jobRecord (s : State) (j : Job) (status count last : Nat) : State :=
  match j.kind, j.slice with
  | .mig _, _ => s
  | .list _, none => s.finishWork (.moverJob j.id) (jobStatus status) (leBytes 4 status ++ leBytes 4 count ++ leBytes 8 last)
  | .list _, some (n, slot) =>
    match NMap.get? s.pool.slices n with
    | none => s.record { checker := 0x4d00, source := 14, unit := n + slot * 65536 + 2 ^ 24,
                         payload := packBits [(status, 16), (0, 16), (count, 32), (last, 64)] }
    | some x =>
      let y : JSlot := { status := status, count := count, last := last, done := true, flight := false }
      let s1 := s.mapPool fun p => { p with
        slices := NMap.adjust p.slices n fun z => { z with jobs := NMap.set z.jobs slot y } }
      if status = 0 then s1 else s1.winVector x.window x.host (1 + x.page)

/-- The channel's job ended with a status at an address; the channel is free for the next job. -/
def State.endJob (s : State) (n status last : Nat) : State :=
  let c := s.chan n
  match c.job with
  | none => s
  | some j =>
    let c1 : MChan := { c with
      st := if c.en then ChSt.idle else ChSt.disabled
      job := none
      cur := none
      pos := 0
      count := 0
      wait := none
      got := []
      writes := []
      todo := none
      tries := 0
      parts := [] }
    ((s.setChan n c1).dropAsked n).jobRecord j status c.count last

/-! ## Bus errors (R266 to R268) -/

def causeRule : Nat := 1
def causeHole : Nat := 2
def causePoison : Nat := 3
def causeWrite : Nat := 4
def causeNak : Nat := 5
def causeRoom : Nat := 6

/-- A running channel halted as a bystander: its buffered lines and outstanding reads are dropped. -/
def MChan.bystand (c : MChan) : MChan := { c with st := .haltBystander, wait := none, got := [], parts := [] }

/-- A bus error of a channel: it halts and posts its event; in shared mode every other running channel becomes a
bystander. -/
def State.busError (s : State) (n cause : Nat) (dir fetch : Bool) (addr : Nat) : State :=
  let c := s.chan n
  let c1 : MChan := { c with
    st := ChSt.haltFault
    cause := cause
    dir := dir
    fetch := fetch
    err := addr
    wait := none
    got := []
    parts := [] }
  let s1 := ((s.setChan n c1).dropAsked n).post 3 (leBytes 1 n ++ leBytes 7 (c1.stat % 256) ++ leBytes 8 addr)
  if s.flag MOV_CTL_fMODE then
    let others := s1.mov.chans.filter fun p => p.1 != n && p.2.st == .running
    let s2 := others.foldl (fun a p => (a.setChan p.1 p.2.bystand).dropAsked p.1) s1
    s2.mapMov fun m => { m with byst := if s.flag MOV_CTL_fBYST_AUTO then some (s.now + 1000) else none }
  else s1

/-- A migration whose channel no longer runs it: another Room 0 channel runs ABANDON before SWITCH, and the rest of the steps after
it (R275). -/
def State.migLeft (s : State) (j : Job) (x : Nat) : State :=
  s.mapMov fun m => { m with
    migs := m.migs.map fun y => if y.x == x && y.step < 2 && y.remote.isNone then { y with step := 4 } else y
    queue := if m.migs.any (·.x == x) then j :: m.queue else m.queue }

/-- The job of a halted channel ended by software, with its status (R269); a migration goes on by R275. -/
def State.quitJob (s : State) (n status : Nat) : State :=
  let c := s.chan n
  let s1 := s.endJob n status c.desc
  match c.job with
  | some j => match j.kind with
    | .mig x => s1.migLeft j x
    | .list _ => s1
  | none => s1

/-- A halted channel resumed with ACTION: 0 RETRY, 1 SKIP, 2 ABORT (R269); a channel that is not halted, or action 3, is
left as it is. -/
def State.resumeChan (s : State) (n action : Nat) : State :=
  let c := s.chan n
  if c.st == .haltFault || c.st == .haltBystander then
    if action = 0 then s.setChan n { c with st := .running, pos := 0, wait := none, got := [], todo := none }
    else if action = 1 then s.quitJob n jobBusError
    else if action = 2 then s.quitJob n jobAborted
    else s
  else s

/-! ## Accesses (R257, R258, R219) -/

/-- Window and line of an address of a job, or the cause of the bus error. -/
def State.jobLine (s : State) (j : Job) (addr : Nat) : Except Nat (Nat × Nat) :=
  match j.slice with
  | some (n, _) =>
    match (NMap.get? s.pool.slices n).bind fun x => (s.win? x.window).map fun w => (x.window, w) with
    | some (w, x) => if x.failed || x.bytes < addr + 64 then .error causeHole else .ok (w, x.lineAt addr)
    | none => .error causeHole
  | none =>
    match s.winOfLine (addr / 64) with
    | none => .error causeHole
    | some w =>
      match s.win? w with
      | some x =>
        if j.room != 0 && x.room != j.room then .error causeRoom
        else if x.failed then .error causeHole else .ok (w, addr / 64)
      | none => .error causeHole

/-- Identity of a job's accesses (R214). -/
def State.jobIdent (s : State) (j : Job) : Ident :=
  match j.slice with
  | some (n, _) => match NMap.get? s.pool.slices n with | some x => .host x.host x.pasid | none => .mover
  | none => .mover

/-- An access begun: translated, and offered to its home unit, which checks it as it grants it (R215); its number, or the cause of
the bus error. -/
def State.movAsk (s : State) (n : Nat) (j : Job) (addr part : Nat) (first : Bool) (wr : Option (Line × B64)) :
    Except Nat Nat × State :=
  match s.jobLine j addr with
  | .error c => (.error c, s)
  | .ok (w, line) =>
    let who := match s.jobIdent j with
      | .host h p => some (h, p)
      | _ => none
    let (k, s1) := s.fresh1
    (.ok k, s1.askInt { id := k, room := j.room, line := line, win := w, wr := wr, chan := some n,
                        chk := if first then some who else none, part := part })

/-- The memory requests of an internal request answered: the Pantry and the house pool by themselves, devices from
`dev`. -/
def State.pumpInt : Nat → State → Nat → List DevRsp → List DevRsp × State
  | 0, s, _, d => (d, s)
  | k + 1, s, id, d =>
    if s.home.intDone.any fun x => x.1 == id then (d, s)
    else match s.home.trk.find? fun t => (match t.req with | .int i _ => i == id | _ => false) with
      | none => (d, s)
      | some t =>
        match s.home.memq.find? fun r => r.sent && (match r.use with
            | .fill i | .store i | .fillWr i _ _ _ | .victim (some i) _ _ _ _ _ => i == t.id
            | _ => false) with
        | none => (d, s)
        | some r =>
          match r.tgt, d with
          | .pantry _, d | .house _, d => State.pumpInt k (s.memResp r (.ok 0)) id d
          | _, [] => ([], s)
          | _, a :: ds => State.pumpInt k (s.memResp r a) id ds

/-- The answer to an internal request taken: data, poison, and what refused it. -/
def State.takeInt (s : State) (id : Nat) : Option (Line × Bool × Nat) × State :=
  ((s.home.intDone.find? fun x => x.1 == id).map (·.2), s.mapHome fun h => { h with
    intDone := h.intDone.filter fun x => x.1 != id })

/-- What became of one access of a channel. -/
inductive MovAcc where
  /-- A read returned, or a write left the engine (data 0). -/
  | got (d : Line)
  | wait
  | err (cause : Nat)
deriving DecidableEq, Repr

/-- An access of a channel made or continued: `wr` is the data of a write. A write that has left the engine and is not yet
acknowledged joins the channel's writes. -/
def State.movAccess (s : State) (n : Nat) (j : Job) (addr part : Nat) (first : Bool) (wr : Option (Line × B64))
    (dev : List DevRsp) : MovAcc × List DevRsp × State :=
  let c := s.chan n
  let started := match c.wait with
    | some id => (Except.ok id, s)
    | none => s.movAsk n j addr part first wr
  match started with
  | (.error cause, s1) => (.err cause, dev, s1)
  | (.ok id, s1) =>
    match s1.home.intq.find? fun r => r.id == id with
    | some r =>
      if s1.fld MOV_CTL_fNAK_LIMIT * 1000000 ≤ s1.now - r.since && r.since != 0 then
        (.err causeNak, dev, s1.dropAsked n)
      else (.wait, dev, s1.setChan n { c with wait := some id })
    | none =>
      let (dev1, s2) := State.pumpInt 8 s1 id dev
      match s2.takeInt id with
      | (some (d, poison, refused), s3) =>
        let s4 := s3.setChan n { c with wait := none }
        if refused != 0 then
          (.err (if refused = 2 then causeRule else if refused = 1 && wr.isSome then causeWrite else causeHole), dev1, s4)
        else if poison && wr.isNone then (.err causePoison, dev1, s4)
        else if wr.isSome then (.got d, dev1, s4)
        else
          let r : Report := { checker := 0x1300, source := 9, unit := n, addr := addr }
          let (hurt, s5) := s4.checkOnce r
          if hurt then (.err causePoison, dev1, s5.record { r with injected := true }) else (.got d, dev1, s5)
      | (none, _) =>
        if wr.isSome then (.got 0, dev1, s2.setChan n { c with wait := none, writes := NMap.set c.writes id addr })
        else (.wait, dev1, s2.setChan n { c with wait := some id })

/-- Acknowledged writes of a channel taken, with answers for those still open: the address of the first that its backing
refused (R266). -/
def State.collect (s : State) (n : Nat) (dev : List DevRsp) : Option Nat × List DevRsp × State :=
  (s.chan n).writes.foldl (fun (acc : Option Nat × List DevRsp × State) w =>
    let (d1, a) := State.pumpInt 8 acc.2.2 w.1 acc.2.1
    match a.takeInt w.1 with
    | (some (_, _, refused), b) =>
      let c := b.chan n
      (if acc.1.isNone && refused != 0 then some w.2 else acc.1, d1, b.setChan n { c with writes := NMap.erase c.writes w.1 })
    | (none, _) => (acc.1, d1, a)) (none, dev, s)

/-! ## Descriptors (R259 to R264) -/

/-- The fields of a descriptor's line (R259). -/
def descOf (l : Line) : Desc :=
  let v := l.toNat
  { next := bitsOf v 0 64, type := bitsOf v 64 4, last := bitOf v 68, fence := bitOf v 69, irq := bitOf v 70,
    recl := bitOf v 71, step := bitsOf v 72 3, len := bitsOf v 96 32, src := bitsOf v 128 64, dst := bitsOf v 192 64,
    pattern := bitsOf v 256 64, user := bitsOf v 448 64, rsvd := bitsOf v 75 21 != 0 || bitsOf v 320 128 != 0 }

/-- Is an address used by a descriptor out of its address space? A slice's addresses are bounded by its window, as a bus
error (R266). -/
def outOfPool (j : Job) (a n : Nat) : Bool := j.slice.isNone && 2 ^ 48 < a + n

/-- Does a descriptor break a rule of R261? -/
def Desc.broken (d : Desc) (j : Job) : Bool :=
  let usesSrc := d.type == 0 || d.type == 3
  let usesDst := d.type ≤ 4
  5 < d.type || d.rsvd || (d.recl && d.type != 4) || (d.type == 5 && (4 < d.step || j.room != 0)) ||
  (!d.last && (d.next % 64 != 0 || outOfPool j d.next 64)) || d.len % 64 != 0 || (d.len == 0 && d.type < 4) ||
  (usesSrc && (d.src % 64 != 0 || outOfPool j d.src d.len)) || (usesDst && (d.dst % 64 != 0 || outOfPool j d.dst d.len)) ||
  (d.type == 0 && d.src < d.dst + d.len && d.dst < d.src + d.len)

/-- First byte of the part that holds an address, in a transfer that begins at `base` (R219). -/
def partStart (base addr : Nat) : Nat := Nat.max base (addr / 4096 * 4096)

/-- The channel's next descriptor fetched and checked (R261). -/
def State.fetchDesc (s : State) (n : Nat) (j : Job) (dev : List DevRsp) : List DevRsp × State :=
  let c := s.chan n
  if c.desc % 64 != 0 then (dev, s.endJob n jobBadDesc c.desc)
  else match s.movAccess n j c.desc 2 true none dev with
    | (.wait, d1, s1) => (d1, s1)
    | (.err cause, d1, s1) => (d1, s1.busError n cause false true c.desc)
    | (.got l, d1, s1) =>
      let d := descOf l
      if d.broken j then (d1, s1.endJob n jobBadDesc c.desc)
      else (d1, s1.setChan n { s1.chan n with cur := some d, pos := 0, got := [], todo := none, tries := 0, parts := [] })

/-- A descriptor completed: bytes counted, the notice raised, the next one named or the job ended (R263). -/
def State.descDone (s : State) (n : Nat) (j : Job) (d : Desc) (wrote : Nat) : State :=
  let c := s.chan n
  let s1 := s.setChan n { c with count := c.count + 1, bytes := (c.bytes + wrote) % 2 ^ 64, cur := none, pos := 0, got := [],
                                 todo := none, tries := 0, parts := [] }
  let s2 := if !d.irq then s1
    else match j.slice with
      | some (k, _) => match NMap.get? s1.pool.slices k with
        | some x => s1.winVector x.window x.host (1 + x.page)
        | none => s1
      | none => s1.post 2 (leBytes 8 n ++ leBytes 8 d.user)
  if d.last then s2.endJob n jobOk c.desc else s2.setChan n { s2.chan n with desc := d.next }

/-- A dirty Pantry line written to its device, the device's answer taken from `dev`: 0 clean, 1 no answer yet, 2 refused
(R264, R273). -/
def State.cleanSync (s : State) (line win : Nat) (dev : List DevRsp) : Nat × List DevRsp × State :=
  match s.panFind line with
  | none => (0, dev, s)
  | some k =>
    if !(match s.panTag k with | some t => t.d | none => false) then (0, dev, s)
    else match (s.ext (line / 2 ^ 22)).write? line, dev with
      | some (b :: _), a :: ds =>
        let id := s.home.next
        let s1 := (s.issue (lineHu line) line win .poison (some (s.readLine (panData k), allBe, s.poison.contains (panData k)))
          (b.tgt (lineHu line) line)).dropReq id
        if a == .error then (2, ds, s1.record { checker := 0x5400, source := srcWindow, unit := win, addr := line * 64 })
        else (0, ds, s1.mapPan fun p => { p with tags := NMap.adjust p.tags k fun t => { t with d := false } })
      | some _, [] => (1, [], s)
      | _, d => (2, d, s)

/-- Some dirty lines cleaned in turn: what is left, and whether a write was refused. -/
def State.cleanLines : List Nat → State → List DevRsp → List Nat × Bool × List DevRsp × State
  | [], s, d => ([], false, d, s)
  | l :: ls, s, d =>
    match s.cleanSync l ((s.winOfLine l).getD 0) d with
    | (0, d1, s1) => State.cleanLines ls s1 d1
    | (1, d1, s1) => (l :: ls, false, d1, s1)
    | (_, d1, s1) => (l :: ls, true, d1, s1)

/-- Dirty lines in a range of lines. -/
def State.dirtyIn (s : State) (lo hi : Nat) : List Nat :=
  (s.pan.tags.filter fun p => p.2.d && lo ≤ p.2.line && p.2.line < hi).map (·.2.line)

/-- First address of a range of a job that lies in a window of a Room other than the job's, if the job is not of Room 0 (R257). -/
def State.foreignIn (s : State) (j : Job) (base len : Nat) : Option Nat :=
  if j.room = 0 || j.slice.isSome || len = 0 then none
  else
    let at_ := (s.pool.wins.filter fun w => w.2.room != j.room && w.2.base < base + len && base < w.2.base + w.2.bytes).map fun w =>
      Nat.max base w.2.base
    match at_ with
    | [] => none
    | a :: as => some (as.foldl Nat.min a)

/-- Offset of the first byte in which two lines differ. -/
def diffByte (a b : Line) : Nat := ((List.range 64).find? fun i => lineGet a i 1 != lineGet b i 1).getD 64

/-- One action of the current descriptor: whether the channel goes on. -/
def State.descStep (s : State) (n : Nat) (j : Job) (d : Desc) (dev : List DevRsp) : Bool × List DevRsp × State :=
  let c := s.chan n
  let sa := d.src + c.pos
  let da := d.dst + c.pos
  let fail := fun (cause : Nat) (dir : Bool) (base addr : Nat) (d1 : List DevRsp) (a : State) =>
    (false, d1, a.busError n cause dir false (partStart base addr))
  let newPart := fun (a : Nat) => c.pos == 0 || a % 4096 == 0
  -- parts end with their page or with the descriptor's range (R219, R223)
  let ends := fun (a : Nat) => (a + 64) % 4096 == 0 || d.len ≤ c.pos + 64
  let left := fun (m : NMap (Nat × Bool)) => m.filter fun p => !(p.1 == 0 && ends sa) && !(p.1 == 1 && ends da)
  let put := fun (l : Line) =>
    match s.movAccess n j da 1 (newPart da) (some (l, allBe)) dev with
    | (.wait, d1, a) => (false, d1, a)
    | (.err cause, d1, a) => fail cause true d.dst da d1 a
    | (.got _, d1, a) => (true, d1, a.setChan n { a.chan n with pos := c.pos + 64, got := [], parts := left (a.chan n).parts })
  let get := fun (base addr : Nat) (keep : List (Line × Bool)) =>
    match s.movAccess n j addr 0 (newPart addr) none dev with
    | (.wait, d1, a) => (false, d1, a)
    | (.err cause, d1, a) => fail cause false base addr d1 a
    | (.got l, d1, a) => (true, d1, a.setChan n { a.chan n with got := keep ++ [(l, false)] })
  match d.type with
  | 0 =>
    if d.len ≤ c.pos then (false, dev, s.descDone n j d d.len)
    else match c.got with
      | [] => get d.src sa []
      | g :: _ => put g.1
  | 1 => if d.len ≤ c.pos then (false, dev, s.descDone n j d d.len)
    else put (BitVec.ofNat 512 (leNat ((List.replicate 8 (leBytes 8 d.pattern)).flatten)))
  | 2 => if d.len ≤ c.pos then (false, dev, s.descDone n j d d.len) else put 0
  | 3 =>
    if d.len ≤ c.pos then (false, dev, s.descDone n j d 0)
    else match c.got with
      | [] => get d.src sa []
      | g :: _ =>
        match s.movAccess n j da 1 (newPart da) none dev with
        | (.wait, d1, a) => (false, d1, a)
        | (.err cause, d1, a) => fail cause false d.dst da d1 a
        | (.got l, d1, a) =>
          if g.1 == l then (true, d1, a.setChan n { a.chan n with pos := c.pos + 64, got := [], parts := left (a.chan n).parts })
          else (false, d1, a.endJob n jobMiscompare (c.pos + diffByte g.1 l))
  | 4 =>
    match c.todo with
    | none =>
      if d.recl && c.pos < d.len then
        match s.jobLine j da with
        | .error cause => fail cause false d.dst da dev s
        | .ok (w, _) =>
          let shared : Bool := match s.win? w with | some x => x.type == .shared | none => false
          if shared then
            match s.movAccess n j da 1 (newPart da) none dev with
            | (.wait, d1, a) => (false, d1, a)
            | (.err cause, d1, a) => fail cause false d.dst da d1 a
            | (.got _, d1, a) => (true, d1, a.setChan n { a.chan n with pos := c.pos + 64, parts := left (a.chan n).parts })
          else (true, dev, s.setChan n { c with pos := c.pos + 64 })
      else if !c.writes.isEmpty then (false, dev, s)
      else if let some a := s.foreignIn j d.dst d.len then fail causeRoom true d.dst a dev s
      else if d.len = 0 then (false, dev, s.descDone n j d 0)
      else
        match s.jobLine j d.dst, s.jobLine j (d.dst + d.len - 64) with
        | .ok (_, lo), .ok (_, hi) =>
          (true, dev, s.setChan n { c with todo := some ((s.dirtyIn lo (hi + 1)).filter fun l =>
            j.room == 0 || (match (s.winOfLine l).bind s.win? with | some x => x.room == j.room | none => false)) })
        | .error cause, _ | _, .error cause => fail cause true d.dst d.dst dev s
    | some ls =>
      match State.cleanLines ls s dev with
      | (left, true, d1, a) => fail causeWrite true d.dst d.dst d1 (a.setChan n { a.chan n with todo := some left })
      | ([], false, d1, a) => (false, d1, a.descDone n j d 0)
      | (left, false, d1, a) => (false, d1, a.setChan n { a.chan n with todo := some left })
  | _ => (false, dev, s)

/-- The current descriptor run for at most `fuel` actions. -/
def State.runDesc : Nat → State → Nat → Job → Desc → List DevRsp → List DevRsp × State
  | 0, s, _, _, _, d => (d, s)
  | k + 1, s, n, j, d, dev =>
    match s.descStep n j d dev with
    | (true, dev1, s1) => State.runDesc k s1 n j d dev1
    | (false, dev1, s1) => (dev1, s1)

/-! ## Extent migration (R273 to R275) -/

def State.mig? (s : State) (x : Nat) : Option Mig := s.mov.migs.find? fun m => m.x == x
def State.mapMig (s : State) (x : Nat) (f : Mig → Mig) : State :=
  s.mapMov fun m => { m with migs := m.migs.map fun y => if y.x == x then f y else y }
def State.dropMig (s : State) (x : Nat) : State := s.mapMov fun m => { m with migs := m.migs.filter fun y => y.x != x }

/-- Code of a backing in the completion of EXTENT_MIGRATE (R438). -/
def backCode (house : Bool) (dev : Nat) : Nat := (if house then 0 else dev) + 256 * b2n house

/-- The end of a migration of EXTENT_MIGRATE. -/
def State.migEnd (s : State) (m : Mig) (st : Status) : State :=
  s.finishWork (.migrate m.win m.x) st
    (leBytes 4 (backCode m.oldHouse m.oldDev) ++ leBytes 4 (backCode m.dstHouse m.dstDev) ++ leBytes 4 m.copied)

/-- A Room 0 channel that runs the job of a migration is free again. -/
def State.freeMigChan (s : State) (x : Nat) : State :=
  ((s.mov.chans.filter fun c => (match c.2.job with | some j => j.kind == .mig x | none => false)).foldl (fun a c =>
    a.endJob c.1 jobOk 0) s).mapMov fun m => { m with queue := m.queue.filter fun j => j.kind != .mig x }

/-- ABANDON (R273): the entry returns to LIVE on its source and the destination to its free list, unclean. -/
def State.migAbandon (s : State) (x : Nat) (st : Status) : State :=
  match s.mig? x with
  | none => s
  | some m =>
    let e := s.ext x
    let s1 :=
      if e.valid && e.st == .dual then
        (s.giveDst e).setExt x { e with st := .live, dstHouse := false, dstDev := 0, dstExt := 0, dstRemote := false, remoteSw := if e.srcRemote then e.remoteSw else 0 }
      else if m.taken then s.giveBack m.dstHouse m.dstDev m.dstExt false
      else s
    ((s1.dropMig x).migEnd m st).freeMigChan x

/-- Is a dirty line of an extent still on its way into the Pantry? -/
def State.dirtyComing (s : State) (x : Nat) : Bool :=
  s.home.memq.any fun r => match r.use with
    | .fillWr .. => r.line / 2 ^ 22 == x
    | .victim _ l _ _ dirty _ => dirty && l / 2 ^ 22 == x
    | _ => false

/-- PREPARE (R273): 0 done, 1 not yet, 2 no destination extent. -/
def State.migPrepare (s : State) (x : Nat) (dev : List DevRsp) : Nat × List DevRsp × State :=
  match s.mig? x with
  | none => (2, dev, s)
  | some m =>
    let taken : Option State :=
      if m.taken || m.remote.isSome then some s
      else match s.takeOne m.dstHouse m.dstDev with
        | none => none
        | some ((e, clean), a) =>
          let b := if clean then a else a.zeroExt m.dstHouse m.dstDev e
          some (b.mapMig x fun y => { y with taken := true, dstExt := e })
    match taken with
    | none => (2, dev, s)
    | some s1 =>
      if s1.dirtyComing x then (1, dev, s1)
      else match State.cleanLines (s1.dirtyIn (x * 2 ^ 22) ((x + 1) * 2 ^ 22)) s1 dev with
        | ([], _, d1, s2) =>
          match s2.mig? x with
          | none => (2, d1, s2)
          | some y =>
            let e := s2.ext x
            let e1 : Ext := match y.remote with
              | some (sw, at_) => { e with st := .dual, dstHouse := false, dstDev := 0, dstExt := at_, dstRemote := true, remoteSw := sw }
              | none => { e with st := .dual, dstHouse := y.dstHouse, dstDev := if y.dstHouse then 0 else y.dstDev, dstExt := y.dstExt }
            (0, d1, (s2.setExt x e1).mapMig x fun z => { z with step := 1 })
        | (_, _, d1, s2) => (1, d1, s2)

/-- A read or write of the backing itself, not through the Pantry: a house line from HBM, a device's or another switch's
from `dev`; none while no answer has come. -/
def State.backRead (s : State) (line win : Nat) (b : Back) (dev : List DevRsp) : Option (DevRsp × List DevRsp × State) :=
  match b, dev with
  | .house e, dev =>
    let a := houseAddr (lineHu line) e line
    some (if s.poison.contains a then .poison (s.readLine a) else .ok (s.readLine a), dev, s)
  | b, a :: ds =>
    let id := s.home.next
    some (a, ds, (s.issue (lineHu line) line win .poison none (b.tgt (lineHu line) line)).dropReq id)
  | _, [] => none

def State.backWrite (s : State) (line win : Nat) (b : Back) (l : Line) (poison : Bool) (dev : List DevRsp) :
    Option (Bool × List DevRsp × State) :=
  match b, dev with
  | .house e, dev => some (true, dev, s.writeLine (houseAddr (lineHu line) e line) l allBe poison)
  | b, a :: ds =>
    let id := s.home.next
    some (a != .error, ds, (s.issue (lineHu line) line win .poison (some (l, allBe, poison)) (b.tgt (lineHu line) line)).dropReq id)
  | _, [] => none

/-- COPY (R274, R275): lines copied in order while no other operation has the line and the answers last; a line that fails
is run again up to three times: false then. -/
def State.migCopy : Nat → State → Nat → Nat → List DevRsp → Bool × List DevRsp × State
  | 0, s, _, _, d => (true, d, s)
  | k + 1, s, x, n, d =>
    match s.mig? x with
    | none => (true, d, s)
    | some m =>
      let e := s.ext x
      let line := x * 2 ^ 22 + m.copied
      if 2 ^ 22 ≤ m.copied || e.st != .dual || s.lineOpen line then (true, d, s)
      else
        let c := s.chan n
        match s.backRead line m.win (e.src line) d with
        | none => (true, d, s)
        | some (.error, d1, s1) =>
          if 3 ≤ c.tries then (false, d1, s1)
          else State.migCopy k (s1.setChan n { c with tries := c.tries + 1 }) x n d1
        | some (.ok l, d1, s1) =>
          match s1.backWrite line m.win (e.dst line) l false d1 with
          | none => (true, d1, s1)
          | some (true, d2, s2) =>
            State.migCopy k ((s2.setChan n { c with tries := 0 }).mapMig x fun y => { y with copied := y.copied + 1 }) x n d2
          | some (false, d2, s2) =>
            if 3 ≤ c.tries then (false, d2, s2)
            else State.migCopy k (s2.setChan n { c with tries := c.tries + 1 }) x n d2
        | some (.poison l, d1, s1) =>
          match s1.backWrite line m.win (e.dst line) l true d1 with
          | none => (true, d1, s1)
          | some (true, d2, s2) =>
            State.migCopy k ((s2.setChan n { c with tries := 0 }).mapMig x fun y => { y with copied := y.copied + 1 }) x n d2
          | some (false, d2, s2) =>
            if 3 ≤ c.tries then (false, d2, s2)
            else State.migCopy k (s2.setChan n { c with tries := c.tries + 1 }) x n d2

/-- The Pantry gives up every line of an extent that no pool device will back any longer (R141): all are clean since PREPARE. -/
def State.leavePan (s : State) (x : Nat) : State :=
  (s.mapPan fun p => { p with tags := p.tags.filter fun t => t.2.line / 2 ^ 22 != x }).mapHome fun h => { h with
    spec := h.spec.filter fun f => f.line / 2 ^ 22 != x
    memq := h.memq.map fun r => match r.use with
      | .victim none l _ _ _ _ => if l / 2 ^ 22 == x then { r with use := .clean false } else r
      | _ => r }

/-- SWITCH (R273): RETIRE, and the next GEN. -/
def State.migSwitch (s0 : State) (x : Nat) : State :=
  let e := s0.ext x
  let s := if e.dstHouse || e.dstRemote then s0.leavePan x else s0
  (s.setExt x { e with st := .retire, gen := (e.gen + 1) % 16 }).mapMig x fun m => { m with step := 3 }

/-- Requests that carry an old GEN of an extent (R42): the entries of the snoop reserve carry none. -/
def State.oldGen (s : State) (x : Nat) : Bool :=
  s.home.trk.any fun t => t.line / 2 ^ 22 == x && t.gen != (s.ext x).gen && t.pool != .snpRes

/-- RELEASE (R273), once no request with the old GEN is open. -/
def State.migRelease (s : State) (x : Nat) : State :=
  let e := s.ext x
  let s1 := (s.giveSrc e false).setExt x
    { e with st := .live, srcHouse := e.dstHouse, srcDev := e.dstDev, srcExt := e.dstExt, srcRemote := e.dstRemote,
             dstHouse := false, dstDev := 0, dstExt := 0, dstRemote := false }
  match s.mig? x with
  | none => s1
  | some m => ((s1.dropMig x).migEnd m .ok).freeMigChan x

/-- The steps of a migration that the Hearth runs on a channel. An extent of a window that is re-homed stays in DUAL when
its copy is done (R59). -/
def State.migRow (s : State) (n x step : Nat) (dev : List DevRsp) : State :=
  match s.mig? x with
  | none => s.endJob n jobAborted 0
  | some m =>
    if m.step != step then s
    else match step with
      | 0 =>
        match s.migPrepare x dev with
        | (2, _, s1) => s1.migAbandon x .aborted
        | (_, _, s1) => s1
      | 1 =>
        match State.migCopy (2 ^ 22 + dev.length) s x n dev with
        | (false, _, s1) => s1.mapMig x fun y => { y with step := 4 }
        | (true, _, s1) =>
          match s1.mig? x with
          | none => s1
          | some y =>
            if y.copied < 2 ^ 22 then s1
            else if y.remote.isSome then
              ((s1.mapMig x fun z => { z with step := 5 }).endJob n jobOk 0).mapWin y.win fun w =>
                { w with rehome := w.rehome.map fun r => { r with copied := r.copied + 1 } }
            else s1.mapMig x fun z => { z with step := 2 }
      | 2 => s.migSwitch x
      | 3 => if s.oldGen x then s else s.migRelease x
      | 4 => s.migAbandon x .aborted
      | _ => s

/-- A MIGSTEP descriptor of a Room 0 job (R259, R260): a step that the entry's state does not allow is a bus error of cause
HOLE. -/
def State.migDesc (s : State) (n : Nat) (j : Job) (d : Desc) (dev : List DevRsp) : List DevRsp × State :=
  let x := d.src % 2 ^ 20
  let e := s.ext x
  let bad := fun (a : State) (d1 : List DevRsp) => (d1, a.busError n causeHole false false x)
  match d.step with
  | 0 =>
    let s1 := if (s.mig? x).isSome then s
      else s.mapMov fun m => { m with migs := m.migs ++
        [{ x := x, win := e.window, dstHouse := bitOf d.dst 8, dstDev := d.dst % 256, oldHouse := e.srcHouse, oldDev := e.srcDev, cmd := false }] }
    if !e.valid || e.st != .live then bad s dev
    else match s1.migPrepare x dev with
      | (0, d1, s2) => (d1, s2.descDone n j d 0)
      | (1, d1, s2) => (d1, s2)
      | (_, d1, s2) => bad (s2.dropMig x) d1
  | 1 =>
    if e.st != .dual || (s.mig? x).isNone then bad s dev
    else match State.migCopy (2 ^ 22 + dev.length) s x n dev with
      | (false, d1, s1) => (d1, s1.busError n causeWrite true false (x * 2 ^ 28))
      | (true, d1, s1) =>
        match s1.mig? x with
        | some m => if m.copied < 2 ^ 22 then (d1, s1) else (d1, (s1.mapMig x fun y => { y with step := 2 }).descDone n j d (2 ^ 28))
        | none => bad s1 d1
  | 2 => if e.st != .dual then bad s dev else (dev, (s.migSwitch x).descDone n j d 0)
  | 3 => if e.st != .retire then bad s dev else if s.oldGen x then (dev, s) else (dev, (s.migRelease x).descDone n j d 0)
  | _ => if e.st != .dual then bad s dev else (dev, (s.migAbandon x .aborted).descDone n j d 0)

/-! ## The rows of a channel -/

/-- The row of one descriptor type: the channel goes on with what it has. -/
def State.descRow (s0 : State) (n type step : Nat) (dev0 : List DevRsp) : State :=
  match s0.collect n dev0 with
  | (some a, _, s) => if (s.chan n).st == .running then s.busError n causeWrite true false a else s
  | (none, dev, s) =>
    let c := s.chan n
    if c.st != .running then s
    else match c.job with
      | none => s
      | some j =>
        match j.kind with
        | .mig x => if type = 5 then s.migRow n x step dev else s
        | .list _ =>
          let (dev1, s1) := if c.cur.isNone then s.fetchDesc n j dev else (dev, s)
          match (s1.chan n).cur with
          | none => s1
          | some d =>
            if d.type != type || (type == 5 && d.step != step) then s1
            else
              let (dev2, s2) := if type = 5 then s1.migDesc n j d dev1
                else State.runDesc (2 * (d.len / 64) + 4) s1 n j d dev1
              let c2 := s2.chan n
              if c2.st == .running && c2.cur.isNone && c2.job.isSome then (s2.fetchDesc n j dev2).2 else s2

/-- COPY (R260). -/
def execCopy (ch : Chan) (dev : DevData) (s : State) : Eff := .next (s.descRow ch.toNat 0 0 dev)
/-- FILL (R260). -/
def execFill (ch : Chan) (dev : DevData) (s : State) : Eff := .next (s.descRow ch.toNat 1 0 dev)
/-- ZERO (R260). -/
def execZero (ch : Chan) (dev : DevData) (s : State) : Eff := .next (s.descRow ch.toNat 2 0 dev)
/-- COMPARE (R260). -/
def execCompare (ch : Chan) (dev : DevData) (s : State) : Eff := .next (s.descRow ch.toNat 3 0 dev)
/-- FLUSH (R264). -/
def execFlush (ch : Chan) (dev : DevData) (s : State) : Eff := .next (s.descRow ch.toNat 4 0 dev)
/-- PREPARE (R273). -/
def execPrepare (ch : Chan) (dev : DevData) (s : State) : Eff := .next (s.descRow ch.toNat 5 0 dev)
/-- MIGSTEP_COPY (R274). -/
def execMigstepCopy (ch : Chan) (dev : DevData) (s : State) : Eff := .next (s.descRow ch.toNat 5 1 dev)
/-- SWITCH (R273). -/
def execSwitch (ch : Chan) (s : State) : Eff := .next (s.descRow ch.toNat 5 2 [])
/-- RELEASE (R273). -/
def execRelease (ch : Chan) (s : State) : Eff := .next (s.descRow ch.toNat 5 3 [])
/-- ABANDON (R273). -/
def execAbandon (ch : Chan) (s : State) : Eff := .next (s.descRow ch.toNat 5 4 [])

/-- JOB_START (R255): the Room's oldest job starts on its lowest-numbered channel that is enabled and idle. -/
def State.jobStart (s : State) (room : Nat) (dev : List DevRsp) : State :=
  match s.mov.queue.find? fun j => j.room == room,
        s.mov.chans.find? fun c => c.2.en && c.2.st == .idle && c.2.room == some room with
  | some j, some (n, c) =>
    if s.draining then s
    else
      let s1 := s.mapMov fun m => { m with queue := m.queue.filter fun k => k.id != j.id }
      let c1 : MChan := { c with
        st := ChSt.running
        job := some j
        desc := match j.kind with | .list h => h | .mig _ => 0
        cur := none
        pos := 0
        count := 0
        wait := none
        got := []
        writes := []
        todo := none
        tries := 0
        parts := [] }
      let s2 := s1.setChan n c1
      match j.kind with
      | .list _ => (s2.fetchDesc n j dev).2
      | .mig _ => s2
  | _, _ => s

def execJobStart (room : LRoom) (dev : DevData) (s : State) : Eff := .next (s.jobStart room.toNat dev)

/-- BYSTANDER_RESUME (R268): 1 us after a shared-mode stop with BYST_AUTO set, every bystander resumes with RETRY. -/
def execBystanderResume (t : Nat) (s0 : State) : Eff :=
  let s := s0.at t
  match s.mov.byst with
  | some d =>
    if d ≤ s.now then
      .next ((s.mov.chans.filter fun c => c.2.st == .haltBystander).foldl (fun a c => a.resumeChan c.1 0)
        (s.mapMov fun m => { m with byst := none }))
    else .next s
  | none => .next s

/-! ## Enabling and disabling (R265, R270, R271, R275) -/

/-- The job of a channel that is disabled ends with ABORTED; a migration is taken over by another Room 0 channel: ABANDON
before SWITCH, the rest of its steps after it; with no Room 0 channel enabled, ABANDON is applied at once. -/
def State.disableChan (s : State) (n : Nat) : State :=
  let c := s.chan n
  let s1 := (s.stopChan n c).setChan n { (s.stopChan n c).chan n with en := false, st := .disabled }
  match c.job with
  | none => s1
  | some j =>
    match j.kind with
    | .list _ => s1.jobRecord j jobAborted c.count c.desc
    | .mig x =>
      let other := s1.mov.chans.any fun p => p.2.en && p.2.room == some 0
      match s1.mig? x with
      | none => s1
      | some m => if m.step < 2 && m.remote.isNone && !other then s1.migAbandon x .aborted else s1.migLeft j x

/-- MOV_CH_CTL.EN written (R265, R270): in isolated mode a 17th channel is not enabled. -/
def State.setChanEn (s : State) (n : Nat) (on : Bool) : State :=
  let c := s.chan n
  if on then
    if c.en || (!s.flag MOV_CTL_fMODE && 16 ≤ s.enabledChans) then s
    else s.setChan n { c with en := true, st := .idle, bytes := 0 }
  else if c.en then s.disableChan n else s

/-- Every queued job of a Room ended with ABORTED. -/
def State.abortQueue (s : State) (room : Nat) : State :=
  (s.mov.queue.filter fun j => j.room == room).foldl (fun a j => a.jobRecord j jobAborted 0
    (match j.kind with | .list h => h | .mig _ => 0)) (s.mapMov fun m => { m with queue := m.queue.filter fun j => j.room != room })

/-- Step D4 of R205: every channel of a Room disabled, its queue ended; the number of unfinished descriptors. -/
def State.moverTeardown (s : State) (room : Nat) : Nat × State :=
  let mine := s.mov.chans.filter fun c => c.2.room == some room
  let busy := (mine.filter fun c => c.2.job.isSome).length
  (busy, (mine.foldl (fun a c => a.disableChan c.1) s).abortQueue room)

/-- R44 for a device, with the jobs of the migrations that end. -/
def State.lostDev (s : State) (h : Nat) : State :=
  let s1 := (s.loseDev h).notice ntcLost (leBytes 1 h)
  (s.mov.migs.filter fun m => (s1.mig? m.x).isNone).foldl (fun a m => a.freeMigChan m.x) s1

/-! ## Commands (R277) -/

/-- MOVER_JOB (R255). -/
def cmdMoverJob (h : Hdr) (head : Nat) : Cmd :=
  { opcode := 0x0701, most := 16
    room := fun s fid => (s.localRoom fid).isSome
    bad := fun _ => firstBad [(head % 64 != 0 || 2 ^ 48 ≤ head, 0)]
    run := fun s =>
      match s.hdrRoom h with
      | none => .refuse .denied 0
      | some r =>
        if 1024 ≤ (s.mov.queue.filter fun j => j.room == r).length then .refuse .noResource 0
        else
          let id := s.mov.nextJob
          .pending (.moverJob id) [] (s.mapMov fun m => { m with
            nextJob := id + 1, queue := m.queue ++ [{ id := id, room := r, kind := .list head }] }) }

def execMoverJob (h : Hdr) (head : B64) (s : State) : Eff := s.dermel h (cmdMoverJob h head.toNat)

/-- Does a channel belong to the Room of a fabric Room ID? -/
def State.chanRoom (s : State) (n fid : Nat) : Bool :=
  match (s.chan n).room with | some r => s.roomFid r == some fid | none => false

/-- MOVER_CH_RESUME (R269). -/
def cmdMoverChResume (ch action : Nat) : Cmd :=
  { opcode := 0x0702
    room := fun s fid => s.chanRoom ch fid
    bad := fun _ => firstBad [(63 < ch, 0), (2 < action, 1)]
    run := fun s => .ok [] (s.resumeChan ch action) }

def execMoverChResume (h : Hdr) (ch action : Byte) (s : State) : Eff := s.dermel h (cmdMoverChResume ch.toNat action.toNat)

/-- MOVER_CH_ENABLE (R270). -/
def cmdMoverChEnable (ch en : Nat) : Cmd :=
  { opcode := 0x0703
    room := fun s fid => s.chanRoom ch fid
    bad := fun _ => firstBad [(63 < ch, 0), (1 < en, 1)]
    run := fun s => .ok [] (s.setChanEn ch (en == 1)) }

def execMoverChEnable (h : Hdr) (ch en : Byte) (s : State) : Eff := s.dermel h (cmdMoverChEnable ch.toNat en.toNat)

/-- Mover buffer in use, in KiB: a line of each read that is held (R278). -/
def State.bufKib (s : State) : Nat := (s.mov.chans.foldl (fun n c => n + 64 * c.2.got.length) 0 + 1023) / 1024

/-- MOV_STAT (R278). -/
def State.movStat (s : State) : Nat :=
  packBits [(s.enabledChans, 7),
    (b2n (s.flag MOV_CTL_fMODE && s.mov.chans.any fun c => c.2.st == .haltFault || c.2.st == .haltBystander), 1), (s.bufKib, 14)]

/-- MOVER_QUERY. -/
def cmdMoverQuery : Cmd :=
  { opcode := 0x0704
    run := fun s => .ok (leBytes 4 (s.reg MOV_CTL).toNat ++ leBytes 4 s.movStat
      ++ ((List.range 64).flatMap fun n => leBytes 1 (s.chan n).st.code)
      ++ ((List.range 64).flatMap fun r => leBytes 2 (s.mov.queue.filter fun j => j.room == r).length)) s }

def execMoverQuery (h : Hdr) (s : State) : Eff := s.dermel h cmdMoverQuery

/-- Is an extent index outside a window's range? -/
def State.notIn (s : State) (w x : Nat) : Bool :=
  match s.win? w with | some y => x < y.baseX || y.baseX + y.extents ≤ x | none => true

/-- EXTENT_MIGRATE (R273). -/
def cmdExtentMigrate (w x dst house : Nat) : Cmd :=
  { opcode := 0x0710, most := 12
    room := fun s fid => s.winRoom w fid
    bad := fun s => firstBad [(s.noWin w, 0), (s.notIn w x, 4), (house == 0 && (s.dev? dst).isNone, 8), (1 < house, 9)]
    run := fun s =>
      let e := s.ext x
      let handoff := match s.win? w with
        | some y => y.st == .handoffOut || y.st == .proxy || y.st == .incoming || y.st == .copying
        | none => true
      if !e.valid || e.st != .live || (s.mig? x).isSome || handoff then .refuse .busy 0
      else if !(s.mov.chans.any fun c => c.2.en && c.2.room == some 0) || (s.takeOne (house == 1) dst).isNone
          || 1024 ≤ (s.mov.queue.filter fun j => j.room == 0).length then .refuse .noResource 0
      else
        let id := s.mov.nextJob
        let m : Mig := { x := x, win := w, dstHouse := house == 1, dstDev := dst, oldHouse := e.srcHouse, oldDev := e.srcDev }
        .pending (.migrate w x) [] (s.mapMov fun q => { q with
          nextJob := id + 1, migs := q.migs ++ [m], queue := q.queue ++ [{ id := id, room := 0, kind := .mig x }] }) }

def execExtentMigrate (h : Hdr) (window : B16) (x : Word) (dstDev house : Byte) (s : State) : Eff :=
  s.dermel h (cmdExtentMigrate window.toNat x.toNat dstDev.toNat house.toNat)

/-- MIGRATE_STATUS; an extent with no migration is out of range (R563). -/
def cmdMigrateStatus (w x : Nat) : Cmd :=
  { opcode := 0x0711
    room := fun s fid => s.winRoom w fid
    bad := fun s => firstBad [(s.noWin w, 0), (s.notIn w x || (s.mig? x).isNone, 4)]
    run := fun s => match s.mig? x with
      | some m => .ok (leBytes 4 m.step ++ leBytes 4 m.copied) s
      | none => .refuse .badParam 4 }

def execMigrateStatus (h : Hdr) (window : B16) (x : Word) (s : State) : Eff :=
  s.dermel h (cmdMigrateStatus window.toNat x.toNat)

/-- MIGRATE_ABORT (R275). -/
def cmdMigrateAbort (w x : Nat) : Cmd :=
  { opcode := 0x0712
    room := fun s fid => s.winRoom w fid
    bad := fun s => firstBad [(s.noWin w, 0), (s.notIn w x || (s.mig? x).isNone, 4)]
    run := fun s => match s.mig? x with
      | none => .refuse .badParam 4
      | some m =>
        if 3 ≤ m.step && m.step != 4 then .refuse .busy 0
        else if s.mov.queue.any fun j => j.kind == .mig x then .ok [] (s.migAbandon x .aborted)
        else .ok [] (s.mapMig x fun y => { y with step := 4 }) }

def execMigrateAbort (h : Hdr) (window : B16) (x : Word) (s : State) : Eff :=
  s.dermel h (cmdMigrateAbort window.toNat x.toNat)

/-! ## The slice job queue (R272) -/

/-- MJ_SUBMIT: a slot whose job has not ended, or a value above 7, is violation 0Bh; so is a submit that finds the Room's queue of 1,024
jobs full, of which the spec says nothing (DESIGN CHOICE, log 241). -/
def State.submitJob (s : State) (id : Nat) (x : Slice) (value : Nat) : State :=
  let n := value % 8
  let y := (NMap.get? x.jobs n).getD {}
  let head := (NMap.get? s.mov.heads id).getD 0
  let line := match s.win? x.window with | some w => w.lineAt head | none => 0
  if 8 ≤ value || y.flight || 1024 ≤ (s.mov.queue.filter fun j => j.room == x.room).length then s.homeViol (lineHu line) 11 x.host x.window line n
  else
    let job := s.mov.nextJob
    (s.mapPool fun p => { p with slices := NMap.adjust p.slices id fun z => { z with
      jobs := NMap.set z.jobs n { y with done := false, flight := true } } }).mapMov fun m => { m with
        nextJob := job + 1, queue := m.queue ++ [{ id := job, room := x.room, kind := .list head, slice := some (id, n) }] }

/-- MJ_SUBMIT row: the host of the slice writes the register. -/
def execMjSubmit (slice : SliceId) (value : Word) (s : State) : Eff :=
  match NMap.get? s.pool.slices slice.toNat with
  | some x => .next (s.submitJob slice.toNat x value.toNat)
  | none => .next s

/-- A write of `n` bytes at an offset of a doorbell page (R125, R127, R272). -/
def State.writePage (s : State) (id : Nat) (x : Slice) (off n value : Nat) : State :=
  if off < 0x800 then
    let k := off / 64
    let y := (NMap.get? x.slots k).getD {}
    let v := putBits y.image (8 * (off % 64)) (8 * n) value
    s.mapPool fun p => { p with slices := NMap.adjust p.slices id fun z => { z with slots := NMap.set z.slots k (y.write v) } }
  else if off = 0x800 then s.submitXop id x (value % 2 ^ 32)
  else if 0x900 ≤ off && off + n ≤ 0x908 then
    let h := putBits ((NMap.get? s.mov.heads id).getD 0) (8 * (off - 0x900)) (8 * n) value / 64 * 64
    s.mapMov fun m => { m with heads := NMap.set m.heads id h }
  else if off = 0x908 then s.submitJob id x (value % 2 ^ 32)
  else s

/-- DOORBELL_PAGE_ACCESS (R207 to R209, R319): offset in BAR0 of the window's logical device. The message waits for its grant and is
discarded at the age limit (R182). -/
def execDoorbellPageAccess (window : Win) (host : Fid) (pasid : Option (BitVec 20)) (tag : B16) (off : Nat) (write : Bool)
    (size : Nat) (value : B64) (s0 : State) : Eff :=
  let w := window.toNat
  let q := host.toNat
  match s0.hostPort w q 0 with
  | none => .next s0
  | some port =>
    if s0.ioWaits w q tag.toNat write then .next s0
    else match s0.ioStale w q tag.toNat write with
    | some v => .next (s0.discard v 0x4300)
    | none =>
    let s := s0.takeIo w q tag.toNat write
    let n := if size ≤ 4 then 4 else 8
    let cpl := fun (a : State) (v : Nat) => if write then a else a.push port .cmp port (.ioCpl q tag.toNat .sc (leBytes n v) false)
    if s.draining then
      .next (if write then s.push port .cmp port (.errNonfatal q tag.toNat)
        else s.push port .cmp port (.ioCpl q tag.toNat .ca [] false))
    else if off < 0x100000 then
      match (s.win? w).bind fun x => (x.bind? q).map fun b => (x, b) with
      | some (x, b) => .next (if write then s.ldWrite w q off n value.toNat else cpl s (b.ldRead x off n))
      | none => .next (cpl s 0)
    else
      match s.pool.slices.find? fun p => p.2.window == w && p.2.page == (off - 0x100000) / 4096 && 0x100000 ≤ off && off < 0x200000 &&
          (s.win? w).isSome && p.2.host == q with
      | none => .next (cpl s 0)
      | some (id, x) =>
        if x.pasid != pasid.map (·.toNat) then
          .next (cpl ((s.bump (RMC_DENY_fPASID_CNT x.room)).record
            { checker := 0x4500, source := srcRoom, unit := x.room, room := x.room, tag := tag.toNat, addr := off }) 0)
        else if write then .next (s.writePage id x (off % 4096) n value.toNat)
        else .next (cpl s (s.readPage id x (off % 4096) n))

end Sys2Proof.Machine
end

