-- ==== Sys2Proof/Machine/RoomCmds.lean ====
section
/-! DEFINITION. Commands of groups 03xxh and 05xxh (spec/07): Rooms, hosts, ports, slices and access rules. The teardown of
a Room is in Teardown. -/

namespace Sys2Proof.Machine

/-- Lifecycle code of two fuse bits (R466). -/
def fuseState (f : Nat) : Nat := if f = 0 then 0 else if f = 1 then 1 else 2

/-- Lifecycle state in force: 0 MANUFACTURE, 1 FIELD, 2 FIELD_LOCKED (R466, R467). -/
def State.lifecycle (s : State) : Nat :=
  match s.dbg.lc with
  | some l => l
  | none => fuseState Config.fuses.toNat

/-! ## Present use (R203) -/

/-- The largest of a function's values on the home units. -/
def maxHu (f : Nat → Nat) : Nat := (List.range 32).foldl (fun m hu => Nat.max m (f hu)) 0

/-- Valid rules of a bank. -/
def validRules (rs : NMap Rule) : Nat := (rs.filter fun p => p.2.mat != 0).length

/-- Slices of a Room. -/
def State.roomSlices (s : State) (r : Nat) : Nat := (s.pool.slices.filter fun p => p.2.room == r).length

/-- Mover channels of a Room that hold a job. -/
def State.chansInUse (s : State) (r : Nat) : Nat := (s.mov.chans.filter fun c => c.2.room == some r && c.2.job.isSome).length

/-- A Room's present use of each allotment (R203). -/
def State.roomUse (s : State) (r : Nat) : Share :=
  { tracker := 32 * maxHu (s.roomTrk r), dir := maxHu (s.roomEntries r), pan := maxHu (s.roomWays r),
    vst := (List.range 4).foldl (fun m die => Nat.max m (s.roomCells r die)) 0, mover := s.chansInUse r,
    slices := s.roomSlices r,
    rules := match s.room? r with | some x => Nat.max (validRules x.rules0) (validRules x.rules1) | none => 0 }

/-- What a Room holds back from the pools: its allotment, or the larger one before a pending resize while its use is above
the new value (R203). -/
def State.heldShare (s : State) (r : Nat) (x : Room) : Share :=
  let u := s.roomUse r
  let f := fun (new old use : Nat) => if use ≤ new then new else Nat.max new old
  { tracker := f x.share.tracker x.held.tracker u.tracker, dir := f x.share.dir x.held.dir u.dir,
    pan := f x.share.pan x.held.pan u.pan, vst := f x.share.vst x.held.vst u.vst, mover := x.share.mover,
    slices := x.share.slices, rules := x.share.rules }

/-- Does a Room's new allotment keep every pool's sum within the pool (R197, R198)? -/
def State.poolsFit (s : State) (r : Nat) (n : Share) : Bool :=
  let sum := fun (f : Share → Nat) => (s.pool.rooms.filter fun p => p.1 != r).foldl (fun a p => a + f (s.heldShare p.1 p.2)) (f n)
  sum (·.tracker) ≤ 59392 && sum (·.dir) ≤ 8388608 && sum (·.pan) ≤ s.panUnits * 917504 && sum (·.vst) ≤ 262144 &&
  sum (·.mover) ≤ 64 && sum (·.slices) ≤ 1024 && sum (·.rules) ≤ 16384

/-- GT/s of a rate code, times 10 (R287). -/
def rateGt (code : Nat) : Nat := [25, 50, 80, 160, 320, 640, 1280].getD code 0

/-- Raw rate of a port in units of 100 MB/s (R198). -/
def State.rawRate (s : State) (p : Nat) : Nat := s.portWidth p * rateGt (s.fld (PRT_CFG_fMAX_RATE p)) / 8

/-- Committed rates of the other Rooms on a port. -/
def State.otherCir (s : State) (r p : Nat) : Nat :=
  (s.pool.rooms.filter fun x => x.1 != r).foldl (fun a x => a + ((NMap.get? x.2.rates p).getD (0, 0)).1) 0

/-- Offset of the first faulty rate entry of a list at offset 28 (R198). -/
def State.badRate (s : State) (rs : List RateEntry) : Option Nat :=
  (List.range rs.length).findSome? fun i =>
    match rs[i]? with
    | none => none
    | some e =>
      if !s.portExists e.port.toNat then some (28 + 8 * i)
      else if e.pir.toNat < e.cir.toNat || s.rawRate e.port.toNat < e.pir.toNat then some (28 + 8 * i + 4) else none

/-- Rates with entries laid over them. -/
def putRates (m : NMap (Nat × Nat)) (rs : List RateEntry) : NMap (Nat × Nat) :=
  rs.foldl (fun a e => NMap.set a e.port.toNat (e.cir.toNat, e.pir.toNat)) m

/-- Do the committed rates of a Room fit on each port (R198)? -/
def State.ratesFit (s : State) (r : Nat) (m : NMap (Nat × Nat)) (rs : List RateEntry) : Bool :=
  rs.all fun e => s.otherCir r e.port.toNat + ((NMap.get? m e.port.toNat).getD (0, 0)).1 ≤ s.rawRate e.port.toNat

/-- Offset of the first allotment outside its range (R197), at `base`. -/
def State.badAllot (s : State) (a : Allot) (base : Nat) : Option Nat :=
  firstBad [(a.tracker.toNat % 32 != 0 || 59392 < a.tracker.toNat, base), (8388608 < a.dir.toNat, base + 4),
    (s.panUnits * 917504 < a.pan.toNat, base + 8), (262144 < a.vst.toNat, base + 12), (64 < a.mover.toNat, base + 16),
    (1024 < a.slices.toNat, base + 18), (256 < a.rules.toNat, base + 20)]

def allotShare (a : Allot) : Share :=
  { tracker := a.tracker.toNat, dir := a.dir.toNat, pan := a.pan.toNat, vst := a.vst.toNat, mover := a.mover.toNat,
    slices := a.slices.toNat, rules := a.rules.toNat }

/-- Mover channels of a Room brought to its allotment (R254): the lowest-numbered free ones join; idle ones leave, the
highest first (log 25). -/
def State.fitChans (s : State) (r n : Nat) : State :=
  let mine := (List.range 64).filter fun k => (s.chan k).room == some r
  if mine.length ≤ n then
    (((List.range 64).filter fun k => (s.chan k).room.isNone).take (n - mine.length)).foldl (fun a k =>
      a.setChan k { a.chan k with room := some r }) s
  else
    ((mine.reverse.filter fun k => (s.chan k).job.isNone).take (mine.length - n)).foldl (fun a k =>
      a.setChan k { a.chan k with room := none }) s

/-- Credits of a Room's ports looked at again. -/
def State.refillRoom (s : State) (r : Nat) : State :=
  ((List.range 64).filter fun p => s.portExists p && s.portRoom p == some r).foldl (fun a p => a.refill p) s

/-! ## Rooms -/

/-- ROOM_CREATE (R202). -/
def cmdRoomCreate (froom hmax : Nat) (a : Allot) (rs : List RateEntry) : Cmd :=
  { opcode := 0x0301
    bad := fun s =>
      match firstBad [(hmax = 0 || 4096 < hmax, 2)] with
      | some o => some o
      | none => match s.badAllot a 4 with
        | some o => some o
        | none => s.badRate rs
    run := fun s =>
      if (s.localRoom froom).isSome then .refuse .conflict 0
      else
        let r := leastFree (s.pool.rooms.map (·.1)) 65 1
        let rates := putRates [] rs
        if 63 < r || !s.poolsFit r (allotShare a) || !s.ratesFit r rates rs then .refuse .noResource 0
        else
          let x : Room := { fid := froom, share := allotShare a, hmax := hmax, rates := rates }
          .ok (leBytes 4 r) (((s.mapPool fun p => { p with rooms := NMap.set p.rooms r x }).fitChans r x.share.mover).notice
            ntcRoomNew (leBytes 1 froom)) }

def execRoomCreate (h : Hdr) (froom : Byte) (hmax : B16) (a : Allot) (rates : List RateEntry) (s : State) : Eff :=
  s.dermel h (cmdRoomCreate froom.toNat hmax.toNat a rates)

/-- The allotments that VALID selects, over the old ones (R436). -/
def allotOver (a : Allot) (valid : Nat) (o : Share) : Share :=
  { tracker := if bitOf valid 0 then a.tracker.toNat else o.tracker, dir := if bitOf valid 1 then a.dir.toNat else o.dir,
    pan := if bitOf valid 2 then a.pan.toNat else o.pan, vst := if bitOf valid 3 then a.vst.toNat else o.vst,
    mover := if bitOf valid 4 then a.mover.toNat else o.mover, slices := if bitOf valid 5 then a.slices.toNat else o.slices,
    rules := if bitOf valid 6 then a.rules.toNat else o.rules }

/-- An Allot block with only the selected allotments, for the range check. -/
def allotPicked (a : Allot) (valid : Nat) : Allot :=
  { tracker := if bitOf valid 0 then a.tracker else 0, dir := if bitOf valid 1 then a.dir else 0,
    pan := if bitOf valid 2 then a.pan else 0, vst := if bitOf valid 3 then a.vst else 0,
    mover := if bitOf valid 4 then a.mover else 0, slices := if bitOf valid 5 then a.slices else 0,
    rules := if bitOf valid 6 then a.rules else 0 }

/-- ROOM_RESIZE (R203). -/
def cmdRoomResize (froom valid : Nat) (a : Allot) (rs : List RateEntry) : Cmd :=
  { opcode := 0x0302, names := [froom]
    bad := fun s =>
      match firstBad [(s.noRoom froom, 0), (bitOf valid 7 || 512 ≤ valid, 2)] with
      | some o => some o
      | none => match s.badAllot (allotPicked a valid) 4 with
        | some o => some o
        | none => if bitOf valid 8 then s.badRate rs else none
    run := fun s =>
      match s.localRoom froom with
      | none => .refuse .badParam 0
      | some r =>
        match s.room? r with
        | none => .refuse .badParam 0
        | some x =>
          let n := allotOver a valid x.share
          let rates := if bitOf valid 8 then putRates x.rates rs else x.rates
          let u := s.roomUse r
          if !s.poolsFit r n || (bitOf valid 8 && !s.ratesFit r rates rs) then .refuse .noResource 0
          else if s.busyWith (· == .roomResize r) || n.mover < u.mover || n.slices < u.slices || n.rules < u.rules then
            .refuse .busy 0
          else
            let named := fun (k use_ new_ : Nat) => !bitOf valid k || decide (use_ ≤ new_)
            let fits := named 0 u.tracker n.tracker && named 1 u.dir n.dir && named 2 u.pan n.pan && named 3 u.vst n.vst
            let s1 := ((s.mapRoom r fun y => { y with share := n, rates := rates, held := if fits then {} else y.share }).fitChans
              r n.mover).refillRoom r
            if fits then .ok [] s1 else .pending (.roomResize r) [] s1 }

def execRoomResize (h : Hdr) (froom : Byte) (valid : B16) (a : Allot) (rates : List RateEntry) (s : State) : Eff :=
  s.dermel h (cmdRoomResize froom.toNat valid.toNat a rates)

/-- Is every lowered value of a pending resize met? -/
def State.resizeMet (s : State) (r : Nat) : Bool :=
  match s.room? r with
  | none => true
  | some x =>
    let u := s.roomUse r
    let met := fun (old new_ use_ : Nat) => decide (old ≤ new_) || decide (use_ ≤ new_)
    met x.held.tracker x.share.tracker u.tracker && met x.held.dir x.share.dir u.dir && met x.held.pan x.share.pan u.pan &&
      met x.held.vst x.share.vst u.vst

/-! ## Hosts and ports (R200, R201) -/

/-- Does a directory entry in coarse format still cover a position of a Room's list (R200)? -/
def State.posCovered (s : State) (r : Nat) (x : Room) (pos : Nat) : Bool :=
  (s.home.dir.any fun p => p.2.fmt && p.2.st != stI && !p.2.isMarker && p.2.room == r && bitOf p.2.sharers (pos / x.groupSize)) ||
  s.home.cache.any fun p => p.2.fmt && p.2.st != stI && p.2.room == r && bitOf p.2.sharers (pos / x.groupSize)

/-- Lowest free position of a Room's host list. -/
def State.freePos (s : State) (r : Nat) (x : Room) : Option Nat :=
  let taken := x.hosts.map (·.1) ++ x.heldPos.filter (s.posCovered r x)
  let p := leastFree taken (taken.length + 1) 0
  if p < x.hmax then some p else none

/-- ROOM_HOST_ADD. -/
def cmdRoomHostAdd (froom host : Nat) : Cmd :=
  { opcode := 0x0303, names := [froom]
    room := fun s fid => s.ownRoom froom fid
    bad := fun s => firstBad [(s.noRoom froom, 0), (4095 < host, 2)]
    run := fun s =>
      match s.localRoom froom with
      | none => .refuse .badParam 0
      | some r =>
        if s.pool.rooms.any fun p => p.2.hosts.any fun q => q.2 == host then .refuse .conflict 0
        else match (s.room? r).bind fun x => s.freePos r x with
          | none => .refuse .noResource 0
          | some pos => .ok (leBytes 4 pos) (s.mapRoom r fun y => { y with
              hosts := NMap.set y.hosts pos host, heldPos := y.heldPos.filter (· != pos) }) }

def execRoomHostAdd (h : Hdr) (froom : Byte) (host : B16) (s : State) : Eff :=
  s.dermel h (cmdRoomHostAdd froom.toNat host.toNat)

/-- ROOM_HOST_REMOVE. -/
def cmdRoomHostRemove (froom host : Nat) : Cmd :=
  let inList := fun (s : State) => match (s.localRoom froom).bind s.room? with
    | some x => x.hosts.any fun q => q.2 == host
    | none => false
  { opcode := 0x0304, names := [froom]
    room := fun s fid => s.ownRoom froom fid && inList s
    bad := fun s => firstBad [(s.noRoom froom, 0), (!inList s, 2)]
    run := fun s =>
      match s.localRoom froom with
      | none => .refuse .badParam 0
      | some r =>
        let bound := s.pool.wins.any fun w => w.2.room == r && w.2.binds.any fun b => b.host == host
        let sliced := s.pool.slices.any fun p => p.2.room == r && p.2.host == host
        if bound || sliced then .refuse .busy 0
        else .ok [] (s.mapRoom r fun y => { y with
          heldPos := ((y.hosts.filter fun q => q.2 == host).map fun q => q.1) ++ y.heldPos
          hosts := y.hosts.filter fun q => q.2 != host }) }

def execRoomHostRemove (h : Hdr) (froom : Byte) (host : B16) (s : State) : Eff :=
  s.dermel h (cmdRoomHostRemove froom.toNat host.toNat)

/-- Does a port carry a window binding, to a window homed at another switch too, or a pass-through binding (R201)? -/
def State.carries (s : State) (p : Nat) : Bool :=
  (s.pool.wins.any fun w => w.2.binds.any fun b => b.port == p) || (s.pool.remote.any fun r => r.port == p) ||
    s.ports.vppb.any fun v => v.vcs == p || v.port == p

/-- ROOM_PORT_ASSIGN. -/
def cmdRoomPortAssign (froom port add : Nat) : Cmd :=
  { opcode := 0x0305, names := [froom]
    bad := fun s => firstBad [(s.noRoom froom, 0), (!s.portExists port || (add == 0 && (s.port port).room.isNone), 1), (1 < add, 2)]
    run := fun s =>
      match s.localRoom froom with
      | none => .refuse .badParam 0
      | some r =>
        if s.role port == rolePool || s.role port == roleFabric then .refuse .badParam 1
        else if (match (s.port port).room with | some q => q != r | none => false) then .refuse .conflict 0
        else if add == 1 then
          if (s.port port).room == some r then .ok [] s
          else .ok [] (((s.mapPort port fun x => { x with room := some r }).dropRet port).refill port)
        else if s.carries port then .refuse .busy 0
        else .ok [] ((s.mapPort port fun x => { x with room := none }).dropRet port) }

def execRoomPortAssign (h : Hdr) (froom port add : Byte) (s : State) : Eff :=
  s.dermel h (cmdRoomPortAssign froom.toNat port.toNat add.toNat)

/-- An Allot block as bytes (R436); it carries no rate entries. -/
def Share.bytes (x : Share) : List Byte :=
  leBytes 4 x.tracker ++ leBytes 4 x.dir ++ leBytes 4 x.pan ++ leBytes 4 x.vst ++ leBytes 2 x.mover ++ leBytes 2 x.slices
    ++ leBytes 2 x.rules ++ leBytes 2 0

/-- ROOM_QUERY. -/
def cmdRoomQuery (froom first n : Nat) : Cmd :=
  let hmaxOf := fun (s : State) => match (s.localRoom froom).bind s.room? with | some x => x.hmax | none => 0
  { opcode := 0x0307
    room := fun s fid => s.ownRoom froom fid
    bad := fun s => firstBad [(s.noRoom froom, 0), (hmaxOf s ≤ first, 2), (2000 < n, 4)]
    run := fun s =>
      match s.localRoom froom with
      | none => .refuse .badParam 0
      | some r =>
        match s.room? r with
        | none => .refuse .badParam 0
        | some x =>
          let m := Nat.min n (x.hmax - first)
          .ok (leBytes 1 r ++ leBytes 1 (if x.st == .active then 1 else 2) ++ leBytes 2 x.hmax ++ x.share.bytes
            ++ (s.roomUse r).bytes ++ leBytes 4 m
            ++ ((List.range m).flatMap fun i => leBytes 2 ((NMap.get? x.hosts (first + i)).getD 0xFFFF))
            ++ leBytes (2 * (m % 2)) 0) s }

def execRoomQuery (h : Hdr) (froom : Byte) (first n : B16) (s : State) : Eff :=
  s.dermel h (cmdRoomQuery froom.toNat first.toNat n.toNat)

/-! ## Slices (R206, R211) -/

/-- SLICE_CREATE: the lowest free slice number and page index. -/
def cmdSliceCreate (w host pasid : Nat) : Cmd :=
  { opcode := 0x0310
    room := fun s fid => s.winRoom w fid && !s.noBind w host
    bad := fun s => firstBad [(s.noWin w, 0), (s.noBind w host, 2), (bitsOf pasid 20 11 != 0, 4)]
    run := fun s =>
      match s.win? w with
      | none => .refuse .badParam 0
      | some x =>
        let p := if bitOf pasid 31 then none else some (pasid % 2 ^ 20)
        let mine := s.pool.slices.filter fun q => q.2.window == w && q.2.host == host
        if (match x.bind? host with | some b => b.st != .bound | none => true) || s.closing x.room then .refuse .busy 0
        else if mine.any fun q => q.2.pasid == p then .refuse .conflict 0
        else if (s.share x.room).slices ≤ s.roomSlices x.room || 256 ≤ mine.length then .refuse .noResource 0
        else
          let n := leastFree (s.pool.slices.map (·.1)) 1025 0
          let page := leastFree (mine.map fun q => q.2.page) 257 0
          .ok (leBytes 2 n ++ leBytes 2 page) (s.mapPool fun q => { q with
            slices := NMap.set q.slices n { room := x.room, window := w, host := host, pasid := p, page := page } }) }

def execSliceCreate (h : Hdr) (window host : B16) (pasid : Word) (s : State) : Eff :=
  s.dermel h (cmdSliceCreate window.toNat host.toNat pasid.toNat)

/-- Check 6 for a slice. -/
def State.sliceRoom (s : State) (n fid : Nat) : Bool :=
  match NMap.get? s.pool.slices n with | some x => s.roomFid x.room == some fid | none => false

/-- SLICE_DESTROY (R211, R271). -/
def cmdSliceDestroy (n : Nat) : Cmd :=
  { opcode := 0x0311
    room := fun s fid => s.sliceRoom n fid
    bad := fun s => firstBad [((NMap.get? s.pool.slices n).isNone, 0)]
    run := fun s => .ok [] (s.dropSlice n) }

def execSliceDestroy (h : Hdr) (slice : B16) (s : State) : Eff := s.dermel h (cmdSliceDestroy slice.toNat)

/-- SLICE_QUERY. -/
def cmdSliceQuery (n : Nat) : Cmd :=
  { opcode := 0x0312
    room := fun s fid => s.sliceRoom n fid
    bad := fun s => firstBad [((NMap.get? s.pool.slices n).isNone, 0)]
    run := fun s => match NMap.get? s.pool.slices n with
      | none => .refuse .badParam 0
      | some x => .ok (leBytes 2 x.window ++ leBytes 2 x.host
          ++ leBytes 4 (match x.pasid with | some p => p | none => 2 ^ 31) ++ leBytes 1 x.page
          ++ leBytes 1 ((s.roomFid x.room).getD 0) ++ leBytes 1 (x.slots.filter fun p => p.2.flight.isSome).length
          ++ leBytes 1 (x.jobs.filter fun p => p.2.flight).length) s }

def execSliceQuery (h : Hdr) (slice : B16) (s : State) : Eff := s.dermel h (cmdSliceQuery slice.toNat)

/-! ## Access rules (R212 to R226) -/

/-- A rule entry from its 128 bits (R212). -/
def ruleOf (v : Nat) : Rule :=
  { base := bitsOf v 0 36, limit := bitsOf v 36 36, host := bitsOf v 72 12, pasid := bitsOf v 84 20, mat := bitsOf v 104 3,
    engine := bitsOf v 107 2, r := bitOf v 109, w := bitOf v 110, a := bitOf v 111, sealed := bitOf v 112 }

/-- The 128 bits of a rule of a local Room, with its check bits. -/
def ruleImage (x : Option Rule) (room : Nat) : Nat :=
  let v := match x with
    | some r => packBits [(r.base, 36), (r.limit, 36), (r.host, 12), (r.pasid, 20), (r.mat, 3), (r.engine, 2), (b2n r.r, 1),
        (b2n r.w, 1), (b2n r.a, 1), (b2n r.sealed, 1), (room, 6), (0, 1)]
    | none => 0
  v + (Config.secDed v).toNat * 2 ^ 120

def Room.setBank (x : Room) (bank : Bool) (rs : NMap Rule) : Room := if bank then { x with rules1 := rs } else { x with rules0 := rs }

/-- Accesses and parts of a Room that carry the inactive bank (RMC_OLD_INFL, R223, R224): tracker entries, lines of CXL.io accesses that
wait for theirs, and parts of the Mover. -/
def State.oldInfl (s : State) (r : Nat) (x : Room) : Nat :=
  (s.home.trk.filter fun t => t.room == r && t.bank == some (!x.bank)).length +
    (s.home.io.filter fun a => a.room == r && a.bank == some (!x.bank)).foldl (fun n a => n + a.todo.length) 0 +
    s.mov.chans.foldl (fun n c => n + (c.2.parts.filter fun p => p.2 == (r, !x.bank)).length) 0

/-- RULE_WRITE (R213, R222, R225). -/
def cmdRuleWrite (bank : Bool) (froom index entry : Nat) : Cmd :=
  let e := ruleOf entry
  { opcode := 0x0501, bank := true, names := [froom]
    room := fun s fid => s.ownRoom froom fid
    bad := fun s => firstBad [(s.noRoom froom, 0), (5 < e.mat || 1 < e.engine || e.limit < e.base || bitOf entry 119, 4)]
    run := fun s =>
      match s.localRoom froom with
      | none => .refuse .badParam 0
      | some r =>
        match s.room? r with
        | none => .refuse .badParam 0
        | some x =>
          let rs := NMap.set (x.bankRules bank) index e
          if bank == x.bank then .refuse .conflict 0
          else if x.commitPend then .refuse .busy 0
          else if x.share.rules < validRules rs then .refuse .noResource 0
          else .ok [] (s.mapRoom r fun y => y.setBank bank rs) }

def execRuleWrite (h : Hdr) (froom index : Byte) (entry : BitVec 128) (s : State) : Eff :=
  s.dermel h (cmdRuleWrite h.bank froom.toNat index.toNat entry.toNat)

/-- RULE_READ. -/
def cmdRuleRead (bank : Bool) (froom first n : Nat) : Cmd :=
  { opcode := 0x0502, bank := true, names := [froom]
    room := fun s fid => s.ownRoom froom fid
    bad := fun s => firstBad [(s.noRoom froom, 0), (n = 0 || 32 < n || 256 < first + n, 2)]
    run := fun s =>
      match s.localRoom froom with
      | none => .refuse .badParam 0
      | some r =>
        match s.room? r with
        | none => .refuse .badParam 0
        | some x => .ok ((List.range n).flatMap fun i => leBytes 16 (ruleImage (NMap.get? (x.bankRules bank) (first + i)) r)) s }

def execRuleRead (h : Hdr) (froom first n : Byte) (s : State) : Eff :=
  s.dermel h (cmdRuleRead h.bank froom.toNat first.toNat n.toNat)

/-- RULE_COPY (R222, R225). -/
def cmdRuleCopy (froom : Nat) : Cmd :=
  { opcode := 0x0503, names := [froom]
    room := fun s fid => s.ownRoom froom fid
    bad := fun s => firstBad [(s.noRoom froom, 0)]
    run := fun s =>
      match s.localRoom froom with
      | none => .refuse .badParam 0
      | some r =>
        match s.room? r with
        | none => .refuse .badParam 0
        | some x =>
          if x.commitPend then .refuse .busy 0
          else .ok [] (s.mapRoom r fun y => y.setBank (!y.bank) (y.bankRules y.bank)) }

def execRuleCopy (h : Hdr) (froom : Byte) (s : State) : Eff := s.dermel h (cmdRuleCopy froom.toNat)

/-- Would a page sealed under the active bank not be sealed under the other (R221)? -/
def Room.unseals (x : Room) : Bool :=
  let sealedOf := fun (b : Bool) => ((x.bankRules b).map (·.2)).filter fun r => r.mat != 0 && r.sealed
  (sealedOf x.bank).any fun r => !(r.limit + 1 ≤ coverPass (sealedOf !x.bank) (sealedOf !x.bank).length r.base)

/-- RULE_COMMIT (R221, R224, R225): the banks swap as the command is accepted. -/
def cmdRuleCommit (froom : Nat) : Cmd :=
  { opcode := 0x0504, names := [froom]
    room := fun s fid => s.ownRoom froom fid
    bad := fun s => firstBad [(s.noRoom froom, 0)]
    run := fun s =>
      match s.localRoom froom with
      | none => .refuse .badParam 0
      | some r =>
        match s.room? r with
        | none => .refuse .badParam 0
        | some x =>
          if s.lifecycle == 2 && x.unseals then .refuse .denied 0
          else if x.commitPend then .refuse .busy 0
          else .pending (.ruleCommit r) [] (s.mapRoom r fun y => { y with bank := !y.bank, commitPend := true }) }

def execRuleCommit (h : Hdr) (froom : Byte) (s : State) : Eff := s.dermel h (cmdRuleCommit froom.toNat)

/-- RULE_STATUS. -/
def cmdRuleStatus (froom : Nat) : Cmd :=
  { opcode := 0x0505, names := [froom]
    room := fun s fid => s.ownRoom froom fid
    bad := fun s => firstBad [(s.noRoom froom, 0)]
    run := fun s =>
      match s.localRoom froom with
      | none => .refuse .badParam 0
      | some r =>
        match s.room? r with
        | none => .refuse .badParam 0
        | some x => .ok (leBytes 1 (b2n x.bank) ++ leBytes 3 (b2n x.commitPend) ++ leBytes 4 (s.oldInfl r x)) s }

def execRuleStatus (h : Hdr) (froom : Byte) (s : State) : Eff := s.dermel h (cmdRuleStatus froom.toNat)

end Sys2Proof.Machine
end

