-- ==== Sys2Proof/Machine/Qos.lean ====
section
/-! DEFINITION. Traffic scheduling (spec/08): rate buckets, time gates, the egress scheduler, and commands of group 06xxh. -/

namespace Sys2Proof.Machine

/-! ## Rate buckets (R236 to R240) -/

/-- Committed and peak rate of a port's Room on it, in units of 100 MB/s (R236). -/
def State.portRates (s : State) (p : Nat) : Nat × Nat :=
  match s.portRoom p with
  | none => (0, 0)
  | some r =>
    match s.room? r with
    | some x => (NMap.get? x.rates p).getD (0, 0)
    | none => (0, 0)

/-- Is a port metered: it belongs to a Room other than Room 0, and its peak rate is not 0 (R236)? -/
def State.metered (s : State) (p : Nat) : Bool := (match s.portRoom p with | some r => r != 0 | none => false) && (s.portRates p).2 != 0

def State.tc (s : State) (p : Nat) : Int := signed 32 (s.fld (QOS_TC_fTOKENS p))
def State.tp (s : State) (p : Nat) : Int := signed 32 (s.fld (QOS_TP_fTOKENS p))
def State.setTokens (s : State) (p : Nat) (tc tp : Int) : State :=
  (s.setReg (QOS_TC p) (BitVec.ofInt 32 tc)).setReg (QOS_TP p) (BitVec.ofInt 32 tp)

/-- HELD and HELD_SEEN as TP stands (R239, R253). -/
def State.noteTokens (s : State) (p : Nat) : State :=
  if s.tp p < 0 then (s.setFld (QOS_BKT_STAT_fHELD p) 1).setFld (QOS_BKT_STAT_fHELD_SEEN p) 1
  else s.setFld (QOS_BKT_STAT_fHELD p) 0

/-- Cost of a message in bytes (R237). -/
def msgCost (role : Nat) (m : MsgIn) : Nat :=
  match m.kind with
  | .memRd | .memRdData | .memInv | .memInvNT | .memWr | .memWrPtl | .ioAtomic _ => 64
  | .ioRead | .ioWrite => m.len
  | .d2hReq => if role = rolePt then 64 else 0
  | _ => 0

/-- A message charged at its notice, and whether it is yellow (R238). -/
def State.charge (s : State) (p : Nat) (m : MsgIn) : Bool × State :=
  if !s.metered p then (false, s)
  else
    let b := msgCost (s.role p) m
    let green := decide (0 ≤ s.tc p)
    let s1 := s.setTokens p (if green then s.tc p - b else s.tc p) (s.tp p - b)
    let s2 := s1.bumpPair (if green then QOS_GREEN_LO p else QOS_YELLOW_LO p) b
    (!green, s2.noteTokens p)

/-- The 100 ns ticks of a port up to now (R238); credits withheld are returned once TP is 0 or more (R239). -/
def State.tickPort (s : State) (p : Nat) : State :=
  let n := s.now / 100 - (s.port p).tick
  let s0 := s.mapPort p fun x => { x with tick := s.now / 100 }
  if !s.metered p then
    if s.flag (QOS_BKT_STAT_fHELD p) then (s0.setFld (QOS_BKT_STAT_fHELD p) 0).refill p else s0
  else if n = 0 then s0
  else
    let r := s.portRates p
    let tc := min (s.tc p + n * r.1 * 10) (s.fld (QOS_CBS_fDEPTH p) : Int)
    let tp := min (s.tp p + n * r.2 * 10) (s.fld (QOS_PBS_fDEPTH p) : Int)
    let was := s.flag (QOS_BKT_STAT_fHELD p)
    let s1 := (s0.setTokens p tc tp).noteTokens p
    if was && !s1.flag (QOS_BKT_STAT_fHELD p) then s1.refill p else s1

/-- Ports that exist. -/
def State.allPorts (s : State) : List Nat := (List.range 64).filter s.portExists

/-- A bucket depth written: both counts equal their depths (R238). -/
def State.fillBuckets (s : State) (p : Nat) : State :=
  (s.setTokens p (s.fld (QOS_CBS_fDEPTH p)) (s.fld (QOS_PBS_fDEPTH p))).noteTokens p

/-- The parity of a lane die's queue, bucket and gate state (type 10h): at a failure the buckets are reloaded to their depths,
and the gates from the Hearth's copy, which agrees with them. -/
def State.stateParity (s : State) (die : Nat) : State :=
  match s.check1 (0x1000 + die) 1 false with
  | (.clean, s1) => s1
  | (_, s1) => ((s1.diePorts die).foldl (fun a p => if a.metered p then a.fillBuckets p else a) s1).record
      { checker := 0x1000 + die, cls := 0, injected := true }

/-- The check of the queue, bucket and gate state of the four lane dies. -/
def State.parity (s : State) : State := (List.range 4).foldl State.stateParity s

/-- BUCKET_TICK (R238). -/
def execBucketTick (t : Nat) (s : State) : Eff :=
  let u := (s.at t).parity
  .next (u.allPorts.foldl (fun a p => a.tickPort p) u)

/-! ## Time gates (R241 to R251) -/

/-- A port's gate bank. -/
def PortSt.bank (x : PortSt) (b : Bool) : GateBank := if b then x.gate1 else x.gate0

/-- The bank in force: none while EN is 0, N is 0 or BASE is still to come (R244). -/
def State.gateOn (s : State) (p : Nat) : Option GateBank :=
  let b := (s.port p).bank (s.port p).gateAct
  if s.flag (QOS_GATE_CTL_fEN p) && !b.entries.isEmpty && b.base ≤ s.now then some b else none

/-- The entry that holds a phase of the cycle, and the phase within it (R244, R245). -/
def gateEntry : List (Nat × Nat) → Nat → Nat × Nat
  | [], ph => (0, ph)
  | e :: es, ph => if ph < e.1 then (0, ph) else ((gateEntry es (ph - e.1)).1 + 1, (gateEntry es (ph - e.1)).2)

/-- Sum of the durations of the entries of a list for which a queue is open, up to the first closed one. -/
def openRun (q : Nat) : List (Nat × Nat) → Nat
  | [] => 0
  | e :: es => if bitOf e.2 q then e.1 + openRun q es else 0

/-- A list turned so that entry `i` comes first. -/
def rot (es : List (Nat × Nat)) (i : Nat) : List (Nat × Nat) := es.drop i ++ es.take i

/-- What the gate schedule says of a queue now: open or shut, and the window [open, close); none: no close. -/
def State.gateOf (s : State) (p q : Nat) : Bool × Option (Nat × Nat) :=
  match s.gateOn p with
  | none => (true, none)
  | some b =>
    let (i, ph) := gateEntry b.entries ((s.now - b.base) % b.cycle)
    let es := rot b.entries i
    if b.entries.all fun e => bitOf e.2 q then (true, none)
    else if bitOf (es.headD (0, 0)).2 q then
      (true, some (s.now - ph - openRun q (es.drop 1).reverse, s.now - ph + openRun q es))
    else (false, none)

/-- Length of the longest window of a queue in the active bank (R248). -/
def State.longestWindow (s : State) (p q : Nat) : Nat :=
  match s.gateOn p with
  | none => 0
  | some b => (List.range b.entries.length).foldl (fun m i => Nat.max m (openRun q (rot b.entries i))) 0

/-- Flits of a message (R246). -/
def flitCount (cells : Nat) : Nat := (32 * cells + 239) / 240

/-- Lanes of a width code. -/
def widthLanes (code : Nat) : Nat := 2 ^ Nat.min code 4

/-- Does a message of `cells` cells fit in `ns` nanoseconds at a port: flits × 2,048 bits ÷ (lanes × rate) ≤ ns (R246, R247)? -/
def State.fitsIn (s : State) (p cells ns : Nat) : Bool :=
  flitCount cells * 20480 ≤ ns * (widthLanes (s.fld (PRT_LINK_STAT_fWIDTH p)) * rateGt (s.fld (PRT_LINK_STAT_fRATE p)))

/-- Entry in force now (QOS_GATE_CTL.ENTRY). -/
def State.gateNow (s : State) (p : Nat) : Nat :=
  match s.gateOn p with
  | none => 0
  | some b => (gateEntry b.entries ((s.now - b.base) % b.cycle)).1

/-- Fabric time at this switch is that of the Ridge: it is locked, it is the Ridge, or it runs alone (R251; log 34). -/
def State.timeLocked (s : State) : Bool := s.fab.fid.isNone || s.fab.ridge == s.fab.fid || s.fab.locked

/-- The commits whose instant T has come at a port (R250, R251): the new bank becomes active on each of their ports, or no
swap is made because the time base is not locked; the completion event is posted. -/
def State.gateDue (s : State) (p : Nat) : State :=
  match (s.port p).gateT with
  | none => s
  | some t =>
    if s.now < t then s
    else
      let ok := s.timeLocked
      let s1 := (s.ports.st.filter fun x => x.2.gateT == some t).foldl (fun a x =>
        a.mapPort x.1 fun y => { y with gateT := none, gateAct := if ok then !y.gateAct else y.gateAct }) s
      (s.cmds.pend.filter fun c => match c.work with | .gateCommit u _ => u == t | _ => false).foldl (fun a c =>
        a.complete c ⟨if ok then .ok else .aborted, 0, []⟩) s1

/-- GATE_SWAP (R250). -/
def execGateSwap (port : Port) (t : Nat) (s : State) : Eff := .next ((s.at t).gateDue port.toNat)

/-! ## The scheduler (R229 to R235) -/

/-- A member of a queue of an egress port. -/
structure Member1 where
  id : Nat
  q : Nat
  cells : Nat
  /-- Flow: ingress point, class or CXL.io, flow key (R176). -/
  flow : Nat × Nat × Nat
  req : Bool
  /-- Link-credit channel (R232). -/
  chan : Nat
  v : Option VMsg
  e : Option EMsg

/-- Is a kind a CXL.io message? -/
def isIo : MKind → Bool
  | .ioRead | .ioWrite | .ioCfg | .ioCpl | .ioAtomic _ => true
  | _ => false

/-- Flow of a Vestibule message at an egress port (R176, R331): CXL.io between two ports is one flow of every class. -/
def VMsg.flow (v : VMsg) : Nat × Nat × Nat :=
  if isIo v.m.kind then (v.port, 8, 0) else (v.port, v.cls.rank, if v.win.isSome then v.off / 64 + 1 else 0)

/-- A member put in its place by number. -/
def Member1.insert (m : Member1) : List Member1 → List Member1
  | [] => [m]
  | x :: xs => if m.id < x.id then m :: x :: xs else x :: Member1.insert m xs

/-- Link-credit channel of a message that the switch makes. -/
def Body.txChan (b : Body) : Nat :=
  match b with
  | .fwd m => Sys2Proof.txChan (chanCode m.kind) m.kind
  | .ioCpl .. => 15
  | .errNonfatal .. | .bridgeEvt .. => 13
  | b => b.chan

/-- The line that a message of a home unit concerns: that of its tracker entry or memory request. -/
def State.eLine (s : State) (e : EMsg) : Option Nat :=
  match e.body with
  | .biSnp _ _ l | .biConflictAck _ l => some l
  | .memData .. | .ndr .. => (s.home.trk.find? fun t => t.sends e).map (·.line)
  | .devReq req .. | .remReq req .. => (s.home.memq.find? fun r => r.id == req).map (·.line)
  | .fwd m => if byLine m.kind then some (m.addr.toNat % 2 ^ 48 / 64) else none
  | _ => none

/-- Flow of a message that the switch makes (R176). -/
def State.eFlow (s : State) (e : EMsg) : Nat × Nat × Nat :=
  match e.body with
  | .ioCpl .. | .errNonfatal .. | .bridgeEvt .. => (e.src, 8, 0)
  | .fwd m => if isIo m.kind then (e.src, 8, 0) else (e.src, e.cls.rank, match s.eLine e with | some l => l + 1 | none => 0)
  | _ => (e.src, e.cls.rank, match s.eLine e with | some l => l + 1 | none => 0)

/-- Members of an egress port in the order in which they became members (R229, R231). -/
def State.membersOf (s : State) (p : Nat) : List Member1 :=
  let q := fun (id : Nat) => (NMap.get? (s.port p).queue id).getD 0
  let a := (s.home.vst.filter fun v => v.dst == .egress p).map fun v =>
    ({ id := v.id, q := q v.id, cells := v.cells, flow := v.flow, req := v.cls == .req,
       chan := txChan (chanCode v.m.kind) v.m.kind, v := some v, e := none } : Member1)
  let b := (s.home.egress.filter fun e => e.port == p).map fun e =>
    ({ id := e.id, q := q e.id, cells := e.body.cells, flow := s.eFlow e, req := e.cls == .req,
       chan := e.body.txChan, v := none, e := some e } : Member1)
  b.foldl (fun ms m => m.insert ms) a

/-- Fabric request records of a group in use (R330). -/
def State.groupRecords (s : State) (p : Nat) : Nat :=
  (s.ports.sent.filter fun x => !x.half && (s.port x.port).neighbour == (s.port p).neighbour && s.role x.port == roleFabric).length

/-- Has a port a link credit of a channel at its partner (R232)? -/
def PortSt.hasTx (x : PortSt) (chan : Nat) : Bool :=
  match NMap.get? x.tx chan with
  | some n => n != 0
  | none => true

/-- The candidate of a queue: the oldest member whose channel has a link credit at the partner (R232). -/
def State.candidate (s : State) (p : Nat) (ms : List Member1) (q : Nat) : Option Member1 :=
  ms.find? fun m => m.q == q && (s.port p).hasTx m.chan

/-- Does an older member of its flow hold a candidate back (R231, R331)? A posted CXL.io request passes a non-posted request or a
completion that waits for partner credits. -/
def State.heldBack (s : State) (p : Nat) (ms : List Member1) (c : Member1) : Bool :=
  ms.any fun m => m.id < c.id && m.flow == c.flow &&
    !(c.chan == 13 && (m.chan == 14 || m.chan == 15) && !(s.port p).hasTx m.chan)

/-- Bytes that a message takes in the replay buffer: 256-byte flits of 240 bytes, or 68-byte flits of 64 (R246, R314; log 234). -/
def State.flitBytes (s : State) (p cells : Nat) : Nat :=
  if s.fld (PRT_PROTO_STAT_fFLIT p) == 1 then (32 * cells + 63) / 64 * 68 else flitCount cells * 256

/-- A port's share of its group's replay buffer in bytes (R282). -/
def State.replayShare (s : State) (p : Nat) : Nat :=
  match (s.portGroup p).map s.group with
  | some (mode, _) => if mode = 3 then 512 * 1024 else if mode = 2 then 64 * 1024 else if mode = 1 then 128 * 1024 else 256 * 1024
  | none => 256 * 1024

/-- Has a port's replay buffer room for a message (R314)? -/
def State.replayRoom (s : State) (p cells : Nat) : Bool := (s.port p).replay + s.flitBytes p cells ≤ s.replayShare p

/-- A message sent: it takes its link credit at the partner and its place in the replay buffer (R232, R314). -/
def State.spendTx (s : State) (p chan cells : Nat) : State :=
  let n := s.flitBytes p cells
  s.mapPort p fun x => { x with replay := x.replay + n, tx := NMap.adjust x.tx chan fun k => k - 1 }

/-- A posted CXL.io request in the replay buffer: lost if the link goes down before its flit is acknowledged (R335). -/
def State.notePosted (s : State) (p : Nat) (v : VMsg) : State :=
  if v.m.kind == .ioWrite then s.mapPort p fun x => { x with posted := x.posted ++ [(x.replay, v)] } else s

/-- Is a candidate eligible, and does it overrun (R232, R247, R248)? -/
def State.eligible (s : State) (p : Nat) (ms : List Member1) (c : Member1) : Bool × Bool :=
  if s.heldBack p ms c || !s.replayRoom p c.cells then (false, false)
  else if s.role p == roleFabric && c.req && (match c.v with | some v => s.role v.port != roleFabric | none => false) &&
      8192 ≤ s.groupRecords p then (false, false)
  else
    match s.gateOf p c.q with
    | (false, _) => (false, false)
    | (true, none) => (true, false)
    | (true, some (o, cl)) =>
      if s.fitsIn p c.cells (cl - s.now) then (true, false)
      else if s.fitsIn p c.cells (s.longestWindow p c.q) then (false, false)
      else
        let t0 := match c.v, c.e with
          | some v, _ => v.t0
          | none, some e => e.t0
          | none, none => s.now
        (t0 ≤ o, true)

/-- One pass of deficit round-robin from the pointer over the queues that are left (R233): the queue served, if any. -/
def drrPass (s : State) (p : Nat) (ms : List Member1) : List Nat → NMap Nat → Option Nat × NMap Nat
  | [], d => (none, d)
  | q :: qs, d =>
    match s.candidate p ms q with
    | none => drrPass s p ms qs (if ms.any fun m => m.q == q then d else NMap.set d q 0)
    | some c =>
      if !(s.eligible p ms c).1 then drrPass s p ms qs d
      else
        let have_ := (NMap.get? d q).getD 0
        let d1 := if have_ < c.cells then have_ + s.fld (QOS_DRR_n_fQUANTUM p (q - 2)) else have_
        if c.cells ≤ d1 then (some q, NMap.set d q (d1 - c.cells)) else drrPass s p ms qs (NMap.set d q d1)

/-- A fabric tag that is not in use and not resting in the port's group (R330): the next one from the port's counter. -/
def State.fabricTag (s : State) (p : Nat) : Nat :=
  let n := (NMap.get? s.ports.ftag p).getD 0
  let mate := fun (q : Nat) => q == p || (s.role q == roleFabric && (s.port q).neighbour == (s.port p).neighbour)
  let used := (s.ports.sent.filter fun x => !x.half && mate x.port).map (·.tag)
  let rest := (s.ports.ftagFree.filter fun x => mate x.1 && s.now < x.2.2).map fun x => x.2.1
  let t := leastFree (used ++ rest) 65536 n
  if t < 65536 then t else leastFree (used ++ rest) 65536 0

/-- Drain time of the fabric-port groups in ns (XBR_GRP_CFG). -/
def State.drainNs (s : State) : Nat := s.fld XBR_GRP_CFG_fDRAIN * 1000

/-- Does a message await an answer at the port it is sent on? -/
def awaits : MKind → Bool
  | .memRd | .memRdData | .memInv | .memInvNT | .memWr | .memWrPtl | .ioRead | .ioCfg | .ioAtomic _ | .d2hReq | .h2dReq => true
  | _ => false

/-- A message of the Vestibule transmitted whole (R235): from an edge port to a fabric port under a fabric tag of this switch (R330),
in transit as it came; one that awaits an answer is kept in the port's record. -/
def State.sendV (s : State) (p : Nat) (v : VMsg) : State :=
  let s1 := s.leave v
  let spent := fun (y : Sent) (t : Nat) => y.half && y.port == p && y.tag == t
  if awaits v.m.kind then
    if s.role p == roleFabric && s.role v.port == roleFabric then s1.emit (.send p (.fwd v.m))
    else if s.role p == roleFabric then
      let t := s1.fabricTag p
      (s1.mapPorts fun x => { x with
        sent := (x.sent.filter fun y => !spent y t) ++ [{ port := p, tag := t, v := v }]
        ftag := NMap.set x.ftag p ((t + 1) % 65536)
        ftagFree := x.ftagFree.filter fun y => s.now < y.2.2 }).emit (.send p (.fwd { v.m with tag := BitVec.ofNat 16 t }))
    else (s1.mapPorts fun x => { x with
        sent := (x.sent.filter fun y => !(spent y v.m.tag.toNat && y.v.m.host == v.m.host)) ++
          [{ port := p, tag := v.m.tag.toNat, v := v }] }).emit (.send p (.fwd v.m))
  else s1.emit (.send p (.fwd v.m))

/-- A home unit's message has left: a BISnp's timer starts (R95), a request to another switch is outstanding at its port (R335), and a
finished entry that waited for it is freed (R69, R175). -/
def State.left (s : State) (e : EMsg) : State :=
  (match e.body with
   | .biSnp host _ line => s.snoopLeft host line
   | .remReq id .. => s.mapHome fun h => { h with memq := h.memq.map fun (r : MemReq) => if r.id == id then { r with via := some e.port } else r }
   | _ => s).freeDone

/-- The chosen member leaves its queue: a request that has aged, or that meets DRAIN or FAULT, is discarded instead
(R182, R453). -/
def State.dequeue (s : State) (p : Nat) (c : Member1) (ovr : Bool) : State :=
  let s1 := if ovr then (s.bump (QOS_GATE_STAT_fOVR_CNT p)).setFld (QOS_GATE_STAT_fOVR_SEEN p) 1 else s
  let s2 := (s1.mapPort p fun x => { x with queue := NMap.erase x.queue c.id }).spendTx p c.chan c.cells
  match c.v, c.e with
  | some v, _ => ((s2.notePosted p v).xbarGrant p v.plane v.port v.cells []).sendV p v
  | none, some e => ((s2.xbarGrant p e.plane e.src e.body.cells []).mapHome fun h =>
      { h with egress := h.egress.filter fun x => x.id != e.id }).emit (.send p e.body) |>.left e
  | none, none => s2

/-- A port carries traffic: its link is in L0 in a mode that its role allows, a fabric port is a live member of its group
(R306, R313), and the routing table of a switch of a fabric gives an edge port a fabric ID (R328). -/
def State.traffic (s : State) (p : Nat) : Bool :=
  s.inL0 p && !s.flag (PRT_PROTO_STAT_fMODE_ERR p) && (s.role p != roleFabric || ((s.port p).member && s.fab.joined && s.fab.cause == 0)) &&
    (s.fab.fid.isNone || !(s.role p == roleUpstream || s.role p == rolePt) || s.ports.route.any fun e => e.2 == (p, false))

/-- Does the group of a fabric port drain (R180)? -/
def State.groupDrains (s : State) (p : Nat) : Bool :=
  match (s.port p).neighbour with
  | some n => s.role p == roleFabric && (NMap.get? s.home.drains n).isSome
  | none => false

/-- A request sent on to the new home of its window (R60 H2) as the message that it came as. -/
def State.sentOn (s : State) (e : EMsg) : Option VMsg :=
  match e.body with
  | .fwd m =>
    let v : VMsg :=
      { id := e.id, port := e.src, cls := .req, room := s.portRoom e.src, t0 := e.t0, dst := .egress e.port, plane := e.plane,
        win := none, off := 0, cells := 0, shared := 0, yellow := false, bytes := 0, m := m }
    if e.cls == .req then some v else none
  | _ => none

/-- A request sent on that has reached the age limit, or meets DRAIN or FAULT, before its transmission (R181, R182, R453). -/
def State.failSentOn (s : State) (e : EMsg) : State :=
  let s1 := ((s.mapPort e.port fun x => { x with queue := NMap.erase x.queue e.id }).mapHome fun h =>
    { h with egress := h.egress.filter fun x => x.id != e.id })
  match s.sentOn e with
  | some v => if s.aged v then s1.discard v 0x4300
      else (s1.synth v.port v.port v.m).mapFlt fun f => { f with refused := Nat.min 0xFFFFFFFF (f.refused + 1) }
  | none => s

/-- One decision of a port's scheduler at flit slot `s.now` (R232, R233). -/
def State.schedule (s : State) (p : Nat) : State :=
  let ms := s.membersOf p
  let pick := fun (q : Nat) => match s.candidate p ms q with
    | some c => if (s.eligible p ms c).1 then some c else none
    | none => none
  let lost := fun (m : Member1) => m.req && (match m.v, m.e with
    | some v, _ => s.aged v || s.draining
    | none, some e => (match s.sentOn e with | some v => s.aged v || s.draining | none => false)
    | none, none => false)
  match ms.find? lost with
  | some m =>
    match m.v with
    | some v =>
      let s1 := s.mapPort p fun x => { x with queue := NMap.erase x.queue m.id }
      if s.aged v then s1.discard v 0x4300
      else ((s1.leave v).synth v.port v.port v.m).mapFlt fun f => { f with refused := Nat.min 0xFFFFFFFF (f.refused + 1) }
    | none => match m.e with
      | some e => s.failSentOn e
      | none => s
  | none =>
    match pick 0, pick 1 with
    | some c, _ => s.dequeue p c (s.eligible p ms c).2
    | none, some c => s.dequeue p c (s.eligible p ms c).2
    | none, none =>
      let ptr := (s.port p).ptr
      let order := (List.range 6).map fun i => 2 + (ptr - 2 + i) % 6
      match drrPass s p ms order (s.port p).deficit with
      | (none, d) => s.mapPort p fun x => { x with deficit := d }
      | (some q, d) =>
        match s.candidate p ms q with
        | none => s
        | some c =>
          let left := (NMap.get? d q).getD 0
          let s1 := (s.mapPort p fun x => { x with deficit := d }).dequeue p c (s.eligible p ms c).2
          let stay := match s1.candidate p (ms.filter fun m => m.id != c.id) q with
            | some n => decide (n.cells ≤ left)
            | none => false
          s1.mapPort p fun x => { x with ptr := if stay then q else 2 + (q - 2 + 1) % 6 }

/-- The egress side of a port takes a flit slot (R233): nothing leaves a port that carries no traffic or whose group drains. -/
def State.egressSlot (s : State) (p : Nat) : State :=
  let s1 := s.gateDue p
  if s1.traffic p && !s1.groupDrains p then s1.schedule p else s1

/-- The port that a queued message of a fabric-port group now takes (R179, R180): its destination fabric ID and its flow's hash. -/
def State.vMember (s : State) (v : VMsg) : Option Nat :=
  s.routeTo v.m.dpid.toNat (if byLine v.m.kind then crc64 (v.off / 64) else flowHash v.port v.m.dpid.toNat (chanCode v.m.kind))

/-- The same for a message of the switch: a home unit's message goes by the line of its tracker entry or memory request. -/
def State.eMember (s : State) (e : EMsg) : Option Nat :=
  let line := (s.eLine e).getD 0
  let io := fun (host : Nat) => s.routeTo host (flowHash e.src host 0)
  match e.body with
  | .memData host .. | .ndr host .. => s.routeTo host (crc64 line)
  | .biSnp host _ l | .biConflictAck host l => s.routeTo host (crc64 l)
  | .ioCpl host .. | .errNonfatal host _ | .bridgeEvt host .. => io host
  | .goErr host .. => s.routeTo host (flowHash e.src host 11)
  | .remReq _ sw _ _ _ => s.routeTo sw (crc64 line)
  | .devReq .. => some e.port
  | .fwd m => s.routeTo m.dpid.toNat (if byLine m.kind then crc64 (m.addr.toNat % 2 ^ 48 / 64)
      else flowHash e.src m.dpid.toNat (chanCode m.kind))

/-- A queued message moved from one port's queues to another's; it keeps its place in the order. -/
def State.requeue (s : State) (id p q : Nat) (c : Cls) (yellow : Bool) : State :=
  (s.mapPort p fun x => { x with queue := NMap.erase x.queue id }).join q id c yellow

/-- Queued messages go to the ports that their flows now take, where `may` allows the change of port. -/
def State.moveQueued (s : State) (may : Nat → Nat → Bool) : State :=
  let go := fun (p : Nat) (q : Option Nat) => match q with | some n => if n != p && may p n then some n else none | none => none
  let s1 := s.home.vst.foldl (fun a v =>
    match v.dst with
    | .egress p => match go p (s.vMember v) with
      | some q => (a.requeue v.id p q v.cls v.yellow).mapHome fun h =>
          { h with vst := h.vst.map fun x => if x.id == v.id then { x with dst := .egress q } else x }
      | none => a
    | .home _ => a) s
  s.home.egress.foldl (fun a e =>
    match go e.port (s.eMember e) with
    | some q => (a.requeue e.id e.port q e.cls false).mapHome fun h =>
        { h with egress := h.egress.map fun x => if x.id == e.id then { x with port := q } else x }
    | none => a) s1

/-- Messages queued at the live members of a group go to the members that their flows now take (R180). -/
def State.resteer (s : State) (neighbour : Nat) : State :=
  s.moveQueued fun p q => (s.members neighbour).contains p && (s.members neighbour).contains q

/-- Messages queued at fabric ports go by the routing table that is now active (R385). -/
def State.reroute (s : State) : State := s.moveQueued fun p q => s.role p == roleFabric && s.role q == roleFabric

/-- GROUP_DRAIN_EXPIRY (R180): the drain is over; flows go on their new members. -/
def execGroupDrainExpiry (neighbour : Fid) (t : Nat) (s : State) : Eff :=
  let s1 := s.at t
  .next (match NMap.get? s1.home.drains neighbour.toNat with
    | some e => if e ≤ s1.now then (s1.mapHome fun h => { h with drains := NMap.erase h.drains neighbour.toNat }).resteer neighbour.toNat else s1
    | none => s1)

/-! ## Commands of group 06xxh -/

/-- Check 6 for a command that names a port: the Room that it belongs to (R432). -/
def State.portFid (s : State) (p fid : Nat) : Bool :=
  match s.portRoom p with
  | some r => s.roomFid r == some fid
  | none => false

/-- No port has this number (R563). -/
def State.noPort (s : State) (p : Nat) : Bool := 64 ≤ p || !s.portExists p

/-- QOS_PORT_SET (R252): the ranges of R253. -/
def cmdQosPortSet (port valid : Nat) (qmap : Word) (quanta : List B16) (cbs pbs en : Nat) : Cmd :=
  let depth := fun (v : Nat) => 4096 ≤ v && v ≤ 16777216
  { opcode := 0x0601
    room := fun s fid => s.portFid port fid
    bad := fun s => firstBad ([(s.noPort port, 0), (32 ≤ valid, 1), (bitOf valid 0 && 2 ^ 18 ≤ qmap.toNat, 4)]
      ++ ((List.range 6).map fun i =>
          let v := (quanta.getD i 0).toNat
          (bitOf valid 1 && (v = 0 || 4095 < v), 8 + 2 * i))
      ++ [(bitOf valid 2 && !depth cbs, 20), (bitOf valid 3 && !depth pbs, 24), (bitOf valid 4 && 1 < en, 28)])
    run := fun s =>
      let s1 := if bitOf valid 0 then s.setReg (QOS_QMAP port) qmap else s
      let s2 := if bitOf valid 1 then (List.range 6).foldl (fun a i =>
        a.setFld (QOS_DRR_n_fQUANTUM port i) (quanta.getD i 0).toNat) s1 else s1
      let s3 := if bitOf valid 2 then s2.setFld (QOS_CBS_fDEPTH port) cbs else s2
      let s4 := if bitOf valid 3 then s3.setFld (QOS_PBS_fDEPTH port) pbs else s3
      let s5 := if bitOf valid 2 || bitOf valid 3 then s4.fillBuckets port else s4
      .ok [] (if bitOf valid 4 then s5.setFld (QOS_GATE_CTL_fEN port) en else s5) }

def execQosPortSet (h : Hdr) (port valid : Byte) (qmap : Word) (quanta : List B16) (cbs pbs : Word) (en : Byte) (s : State) : Eff :=
  s.dermel h (cmdQosPortSet port.toNat valid.toNat qmap quanta cbs.toNat pbs.toNat en.toNat)

/-- QOS_GATE_CTL with its live fields (R253). -/
def State.gateCtl (s : State) (p : Nat) : Nat :=
  packBits [(s.fld (QOS_GATE_CTL_fEN p), 1), (b2n (s.port p).gateAct, 1), (b2n (s.port p).gateT.isSome, 1), (0, 5), (s.gateNow p, 6)]

/-- A QoS register of a port by offset, with its live fields. -/
def State.qosReg (s : State) (p off : Nat) : Nat :=
  if off = 0x40 then (s.portRates p).1
  else if off = 0x44 then (s.portRates p).2
  else if off = 0x80 then s.gateCtl p
  else (s.reg (QOS_QMAP p + off)).toNat

/-- QOS_PORT_QUERY: QoS registers 000h to 084h in offset order, 136 bytes (R437). -/
def cmdQosPortQuery (port : Nat) : Cmd :=
  { opcode := 0x0602
    room := fun s fid => s.portFid port fid
    bad := fun s => firstBad [(s.noPort port, 0)]
    run := fun s => .ok ((List.range 34).flatMap fun i => leBytes 4 (s.qosReg port (4 * i))) s }

def execQosPortQuery (h : Hdr) (port : Byte) (s : State) : Eff := s.dermel h (cmdQosPortQuery port.toNat)

/-- Duration and mask of an entry word (R242). -/
def gateOfWord (v : Nat) : Nat × Nat := (bitsOf v 0 30, bitsOf v 32 8)

/-- GATE_WRITE (R243, R249, R251). -/
def cmdGateWrite (bank : Bool) (port cycle base : Nat) (entries : List B64) : Cmd :=
  let es := entries.map fun e => gateOfWord e.toNat
  { opcode := 0x0610
    bank := true
    room := fun s fid => s.portFid port fid
    bad := fun s => firstBad ([(s.noPort port, 0), (64 < entries.length, 1), (cycle < 1000 || 1000000000 < cycle, 4)]
      ++ ((List.range entries.length).map fun i =>
          let e := (entries.getD i 0).toNat
          (bitsOf e 0 30 < 10 || bitsOf e 30 2 != 0 || bitsOf e 40 24 != 0, 16 + 8 * i)))
    run := fun s =>
      let x := s.port port
      if !es.isEmpty && es.foldl (fun n e => n + e.1) 0 != cycle then .refuse .badParam 4
      else if !es.isEmpty && (List.range 8).any fun q => es.all fun e => !bitOf e.2 q then .refuse .badParam 16
      else if x.gateAct == bank then .refuse .conflict 0
      else if x.gateT.isSome then .refuse .busy 0
      else
        let b : GateBank := { base := base, cycle := cycle, entries := es }
        .ok [] (s.mapPort port fun y => if bank then { y with gate1 := b } else { y with gate0 := b }) }

def execGateWrite (h : Hdr) (port : Byte) (cycle : Word) (base : B64) (entries : List B64) (s : State) : Eff :=
  s.dermel h (cmdGateWrite h.bank port.toNat cycle.toNat base.toNat entries)

/-- GATE_READ (R251, R437): the schedule of the bank that the header names. -/
def cmdGateRead (bank : Bool) (port : Nat) : Cmd :=
  { opcode := 0x0611
    bank := true
    room := fun s fid => s.portFid port fid
    bad := fun s => firstBad [(s.noPort port, 0)]
    run := fun s =>
      let b := (s.port port).bank bank
      .ok (leBytes 1 port ++ leBytes 1 b.entries.length ++ leBytes 2 0 ++ leBytes 4 b.cycle ++ leBytes 8 b.base
        ++ b.entries.flatMap fun e => leBytes 8 (packBits [(e.1, 30), (0, 2), (e.2, 8)])) s }

def execGateRead (h : Hdr) (port : Byte) (s : State) : Eff := s.dermel h (cmdGateRead h.bank port.toNat)

/-- GATE_COMMIT (R249, R251). -/
def cmdGateCommit (t mask : Nat) : Cmd :=
  let ports := (List.range 64).filter fun p => bitOf mask p
  { opcode := 0x0612
    room := fun s fid => ports.all fun p => s.portFid p fid
    bad := fun s => firstBad [(t < s.now + 100000 || s.now + 2 ^ 40 < t, 0), (ports.isEmpty || ports.any s.noPort, 8)]
    run := fun s =>
      if ports.any fun p => t < ((s.port p).bank (!(s.port p).gateAct)).base then .refuse .badParam 0
      else if ports.any fun p => (s.port p).gateT.isSome then .refuse .busy 0
      else .pending (.gateCommit t mask) [] (ports.foldl (fun a p => a.mapPort p fun x => { x with gateT := some t }) s) }

def execGateCommit (h : Hdr) (instant mask : B64) (s : State) : Eff := s.dermel h (cmdGateCommit instant.toNat mask.toNat)

/-- GATE_STATUS (R437). -/
def cmdGateStatus (port : Nat) : Cmd :=
  { opcode := 0x0613
    room := fun s fid => s.portFid port fid
    bad := fun s => firstBad [(s.noPort port, 0)]
    run := fun s =>
      let x := s.port port
      .ok (leBytes 1 (b2n x.gateAct) ++ leBytes 1 (b2n x.gateT.isSome) ++ leBytes 1 (s.gateNow port) ++ leBytes 5 0
        ++ leBytes 8 (x.gateT.getD 0)) s }

def execGateStatus (h : Hdr) (port : Byte) (s : State) : Eff := s.dermel h (cmdGateStatus port.toNat)

end Sys2Proof.Machine
end

