-- ==== Sys2Proof/Machine/Pantry.lean ====
section
/-! DEFINITION. The Pantry's modes, the dirty budget, grants, flushes and the power-fail flush (spec/05), and group 0Cxxh. -/

namespace Sys2Proof.Machine

/-! ## Hold-up parameters and the budget (R147 to R149) -/

/-- A hold-up parameter in force, by its place in the table of R147: 0 C0, 1 Vmin, 2 Vstop, 3 r, 4 Pflush, 5 BWflush,
6 tsetup, 7 k, 8 cfloor; r has the default 20 %. -/
def hpOf (m : NMap Nat) (j : Nat) : Option Nat :=
  match NMap.get? m j with
  | some v => some v
  | none => if j = 3 then some 200 else none

/-- Is a value in the range of R147, for a set of parameters that gives Vmin? -/
def hpRange (m : NMap Nat) (j v : Nat) : Bool :=
  match j with
  | 0 => 1000 ≤ v && v ≤ 10000000
  | 1 => 5000 ≤ v && v ≤ 57000
  | 2 => (match NMap.get? m 1 with | some x => x ≤ v && v ≤ x + 10000 | none => 5000 ≤ v && v ≤ 67000)
  | 3 => 50 ≤ v && v ≤ 500
  | 4 => 50 ≤ v && v ≤ 20000
  | 5 => 1000 ≤ v && v ≤ 400000
  | 6 => v ≤ 10000
  | 7 => v ≤ 1000
  | 8 => 500 ≤ v && v ≤ 1000
  | _ => false

/-- Hold-up parameters missing or invalid (PAN_STAT.NO_PARAM). -/
def noParam (m : NMap Nat) : Bool :=
  (List.range 9).any fun j => match hpOf m j with | some v => !hpRange m j v | none => true

/-- Is there a sense fault now (R148): no sample for 100 us, counted from a reset until the first one, or one out of range? -/
def State.senseFault (s : State) : Bool :=
  100000 ≤ s.now - s.pan.sampleT || (match s.pan.sample with | some v => 6000 < v | none => false)

/-- C of R149 in uF. -/
def capNow (m : NMap Nat) (hours : Nat) : Rat :=
  let c0 : Rat := ((hpOf m 0).getD 0 : Nat)
  let k : Rat := (((hpOf m 7).getD 0 : Nat) : Rat) / 10000
  let fl : Rat := (((hpOf m 8).getD 0 : Nat) : Rat) / 1000
  let a : Rat := 1 - k * ((hours : Rat) / 8766)
  c0 * (if a < fl then fl else a)

/-- E of R149 in mJ at a bank voltage in units of 10 mV. -/
def energyAt (m : NMap Nat) (hours v : Nat) : Rat :=
  let volt : Rat := (v : Rat) / 100
  let vmin : Rat := (((hpOf m 1).getD 0 : Nat) : Rat) / 1000
  capNow m hours / 1000 * (volt * volt - vmin * vmin) / 2

/-- The budget of R149 in lines at a voltage, with reserve fraction `r` in 0.1 %. -/
def budgetAt (m : NMap Nat) (hours v r : Nat) : Nat :=
  if noParam m || v * 10 ≤ (hpOf m 1).getD 0 then 0
  else
    let t : Rat := energyAt m hours v / 1000 * (1 - (r : Rat) / 1000) / (((hpOf m 4).getD 1 : Nat) : Rat)
      - (((hpOf m 6).getD 0 : Nat) : Rat) / 1000000
    if t ≤ 0 then 0 else (t * ((((hpOf m 5).getD 0 : Nat) : Rat) * 1000000) / 64).floor.toNat

/-- The budget from a fresh sample alone, r applied (R153). The level at HU_SENSE is the one that HU_SENSE_SAMPLE gave last (DEDUCED,
log 230). -/
def State.freshBudget (s : State) : Nat :=
  if s.senseFault then 0
  else match s.pan.sample with
    | some v => budgetAt s.pan.par s.pan.calHours v ((hpOf s.pan.par 3).getD 200)
    | none => 0

/-! ## Cleaning (R146, R151 to R156) -/

/-- Dirty lines of a window. -/
def State.dirtyOf (s : State) (x : Window) : List Nat := (s.pan.tags.filter fun p => p.2.d && x.holds p.2.line).map (·.2.line)

/-- A cleaning write that fails: the line stays dirty, recorded (R156). -/
def State.cleanFailed (s : State) (line : Nat) : State :=
  s.record { checker := 0x5400, source := srcWindow, unit := (s.winOfLine line).getD 0, addr := line * 64 }

/-- The cleaning write of a dirty line issued; false if it cannot be sent, because the device's link is down or the extent
refuses it. -/
def State.cleanLine (s : State) (pfw : Bool) (line : Nat) : Bool × State :=
  match s.panFind line, (s.ext (line / 2 ^ 22)).write? line with
  | some k, some (b :: _) =>
    let up := match b with | .dev h _ => s.inL0 (s.devPort h) | _ => true
    if up then (true, s.issue (lineHu line) line ((s.winOfLine line).getD 0) (.clean pfw)
      (some (s.readLine (panData k), allBe, s.poison.contains (panData k))) (b.tgt (lineHu line) line))
    else (false, s.cleanFailed line)
  | _, _ => (false, s.cleanFailed line)

/-- A cleaning of some lines begun: for a PENDING command, or in the background; `old` are lines held from before a change of mode
(R146). -/
def State.startClean (s : State) (cmd : Option Nat) (win : Nat) (inval : Bool) (lines : List Nat) (old : List Nat := []) : State :=
  let r := lines.foldl (fun (acc : List Nat × Nat × State) l =>
    match acc.2.2.cleanLine false l with
    | (true, a) => (acc.1 ++ [l], acc.2.1, a)
    | (false, a) => (acc.1, acc.2.1 + 1, a)) ([], 0, s)
  r.2.2.mapPan fun p => { p with cleans := p.cleans ++
    [{ cmd := cmd, win := win, todo := r.1, cleaned := 0, failed := r.2.1, inval := inval, old := old }] }

/-- Clean ways of a window invalidated. -/
def State.invalClean (s : State) (x : Window) : State :=
  s.mapPan fun p => { p with tags := p.tags.filter fun t => t.2.d || !x.holds t.2.line }

/-- Background cleanings that have nothing left are forgotten. -/
def State.sweepCleans (s : State) : State :=
  s.mapPan fun p => { p with cleans := p.cleans.filter fun c => c.cmd.isSome || !c.todo.isEmpty }

/-! ## Grants (R150, R151) -/

/-- A list of windows in the order of R150: rank descending, ID ascending within a rank. -/
def rankInsert (x : Nat × Window) : List (Nat × Window) → List (Nat × Window)
  | [] => [x]
  | y :: ys => if y.2.rank < x.2.rank then x :: y :: ys else y :: rankInsert x ys

def byRank (ws : List (Nat × Window)) : List (Nat × Window) := ws.foldl (fun a x => rankInsert x a) []

/-- A window's grant taken away; its dirty lines are cleaned in the background (R151). -/
def State.loseGrant (s : State) (w : Nat) : State :=
  match s.win? w with
  | none => s
  | some x =>
    if x.grant then ((s.mapWin w fun y => { y with grant := false, fit := 0 }).startClean none w false (s.dirtyOf x))
    else if x.fit < 100 then s.mapWin w fun y => { y with fit := 0 } else s

/-- Every grant removed at once. -/
def State.dropGrants (s : State) : State := (s.pool.wins.filter fun p => p.2.grant).foldl (fun a p => a.loseGrant p.1) s

/-- R151: every grant removed, SHORT set, and recorded. -/
def State.shortOfEnergy (s : State) : State :=
  (s.dropGrants.setFld PAN_STAT_fSHORT 1).record { checker := 0x5300, source := 13, payload := s.allDirty }

/-- Grants decided (R150): quotas added in order until the first that does not fit the budget. -/
def State.decideGrants (s : State) : State :=
  ((byRank (s.pool.wins.filter fun p => p.2.pmode == .wb)).foldl (fun (acc : Nat × Bool × State) p =>
    let sum := acc.1 + 64 * p.2.quota
    if acc.2.1 || s.pan.budget < sum then (sum, true, acc.2.2.loseGrant p.1)
    else
      let up := fun (y : Window) =>
        if y.grant then y
        else { y with grant := 99 ≤ y.fit, fit := if 99 ≤ y.fit then 100 else y.fit + 1 }
      (sum, false, acc.2.2.mapWin p.1 up)) (0, false, s)).2.2

/-- The voltage that a budget counts with: the lowest sample of the past 1 ms, else the last one. -/
def State.tickVolts (s : State) : Nat := match s.pan.tickMin with | some x => x | none => s.pan.sample.getD 0

/-- New parameters take effect and the budget is computed (R147, R149). -/
def State.newBudget (s : State) : State :=
  let m := s.pan.parNext.foldl (fun a p => NMap.set a p.1 p.2) s.pan.par
  let fault := s.senseFault
  let v := s.tickVolts
  let h := s.pan.calHours
  let s1 := s.mapPan fun p => { p with
    par := m
    parNext := []
    budget := if fault then 0 else budgetAt m h v ((hpOf m 3).getD 200)
    lastC := (capNow m h).floor.toNat
    lastV := 10 * v
    lastE := if fault || noParam m then 0 else (energyAt m h v).floor.toNat
    tickMin := none }
  s1.setFld PAN_HU_V_fV_MIN v

/-- Grants are held back by a power-fail flush, the drain of a warm reset, HBM_LAYOUT or the wait of R157. -/
def State.grantsHeld (s : State) : Bool :=
  s.pan.pfw || s.pwr.st == BootSt.warmDrain || s.pan.flush.isSome || s.pan.flushDone || s.now < s.pan.grantsFrom ||
    s.busyWith fun w => match w with | .hbmLayout _ => true | _ => false

/-- The budget without the reserve r, which R151 tests. -/
def State.rawBudget (s : State) (m : NMap Nat) : Nat := if s.senseFault then 0 else budgetAt m s.pan.calHours s.tickVolts 0

/-- BUDGET_TICK (R149 to R151): new parameters take effect, the budget is computed from the lowest sample of the past
1 ms, and grants are decided. -/
def execBudgetTick (t : Nat) (s0 : State) : Eff :=
  let s := s0.at t
  let s1 := s.newBudget
  .next (if s.rawBudget s1.pan.par < s1.allDirty then s1.shortOfEnergy.sweepCleans
    else if s1.grantsHeld then s1.sweepCleans
    else s1.decideGrants.sweepCleans)

/-- HU_SENSE_SAMPLE (R148, R155): a sample in units of 10 mV; below Vstop it stops a power-fail flush. -/
def execHuSenseSample (mv10 : B16) (t : Nat) (s0 : State) : Eff :=
  let s := s0.at t
  let v := mv10.toNat
  let s1 := (s.mapPan fun p => { p with
    sample := some v
    sampleT := s.now
    tickMin := match p.tickMin with | some x => some (Nat.min x v) | none => some v }).setFld PAN_HU_V_fV_LAST v
  match s1.pan.flush with
  | some f =>
    if f.vstop.isNone && v * 10 < (hpOf s1.pan.par 2).getD 0 then
      .next ((s1.mapPan fun p => { p with flush := some { f with vstop := some (s.now + 10000) } }).mapHome fun h =>
        { h with memq := h.memq.filter fun r => r.sent || r.use != .clean true })
    else .next s1
  | none => .next s1

/-- SENSE_FAULT (R148): no sample for 100 us, or one out of range: the budget is 0. -/
def execSenseFault (t : Nat) (s0 : State) : Eff :=
  let s := s0.at t
  .next (if s.senseFault then s.mapPan fun p => { p with budget := 0 } else s)

/-! ## Power-fail flush (R154 to R158) -/

/-- A demand flush or a cleaning that a power-fail flush ends: its command ends with ABORTED. -/
def State.endCleans (s : State) : State :=
  let s1 := s.pan.cleans.foldl (fun a c =>
    match c.cmd with
    | some id => a.finish (fun p => p.id == id) ⟨.aborted, 0, leBytes 4 c.cleaned ++ leBytes 4 c.failed⟩
    | none => a) s
  s1.mapPan fun p => { p with cleans := [] }

/-- The power-fail flush begun. DESIGN CHOICE (log 232): a window whose grant goes waits for 100 fitting ticks (R150), which are counted
from the tick after the further 100 ms of R157 on. Grants go, the check of R153 is made, and every dirty line's write is issued, window by
window in the order of R150. -/
def State.startFlush (s0 : State) : State :=
  let s1 := s0.endCleans
  let s := s1.mapPool fun p => { p with wins := p.wins.map fun w => if w.2.grant then (w.1, { w.2 with grant := false, fit := 0 }) else w }
  let n := s.allDirty
  let f : Flush := { t0 := s.now, dirtyStart := n, flushed := 0, failed := 0, vCheck := s.pan.sample.getD 0,
                     short := s.freshBudget < n, sense := s.senseFault, vstop := none, todo := [] }
  let s2 := s.mapPan fun p => { p with flush := some f, pfw := true }
  ((byRank s2.pool.wins).flatMap fun w => s2.dirtyOf w.2).foldl (fun a l =>
    match a.cleanLine true l with
    | (true, b) => b
    | (false, b) => b.mapPan fun p => { p with flush := p.flush.map fun g => { g with failed := g.failed + 1 } }) s2

/-- The flush record (R158), type 48h; while the Hearth restarts it waits for the Hearth (R528). -/
def State.flushRecord (s : State) (f : Flush) (ok : Bool) : State :=
  let done := f.flushed + f.failed
  let rec_ := packBits [(f.t0, 64), (s.now - f.t0, 32), (f.dirtyStart, 32), (f.flushed, 32), (f.failed, 32), (f.vCheck, 16),
    (s.pan.sample.getD 0, 16), (b2n (ok && done == f.dirtyStart && f.failed == 0), 1), (b2n f.short, 1), (b2n f.vstop.isSome, 1),
    (b2n f.sense, 1)]
  if s.pwr.st == BootSt.restart then s.mapPan fun p => { p with recOwed := some rec_ }
  else s.record { checker := 0x4800, source := 13, payload := rec_ }

/-- The end of the power-fail flush: FLUSH_DONE high, the flush record written (R158). -/
def State.endFlush (s : State) (f : Flush) (ok : Bool) : State :=
  ((s.mapPan fun p => { p with flush := none, flushDone := true }).emit (.pin .flushDone true)).flushRecord f ok

/-- The conditions of R456 hold (FLT_STATE.HBM_KEEP). -/
def State.hbmKeep (s : State) : Bool := s.flt.st != .normal && s.flt.allKeep && !s.flt.limit && s.flt.failed == 0

/-- PFW_N (R154, R157, R457, R500, R528): ignored with RESET_N low; after step 3 of a warm reset FLUSH_DONE is asserted at once,
with a record whose COMPLETE shows that no line is dirty; else it is recognised; no second flush while FLUSH_DONE is high or a flush runs. In DRAIN and FAULT
without HBM_KEEP, FLUSH_DONE is asserted at once, with a record that shows COMPLETE 0. -/
def execPfwN (t : Nat) (s0 : State) : Eff :=
  let s := s0.at t
  let none_ : Flush := { t0 := s.now, dirtyStart := s.allDirty, flushed := 0, failed := 0, vCheck := s.pan.sample.getD 0,
                         short := false, sense := s.senseFault, vstop := none, todo := [] }
  .next (if s.pwr.st == BootSt.reset then s
    else if s.pan.flushDone || s.pan.flush.isSome then s.endCleans.mapPan fun p => { p with pfw := true }
    else if s.pwr.st == BootSt.warmBoot then (s.endCleans.mapPan fun p => { p with pfw := true }).endFlush none_ true
    else if s.flt.st != .normal && !s.hbmKeep then (s.endCleans.mapPan fun p => { p with pfw := true }).endFlush none_ false
    else s.startFlush)

/-- FLUSH_DONE (R154, R155): every flush write has been acknowledged or has failed; after a stop below Vstop, every one already issued,
with the record marked incomplete. -/
def execFlushDone (t : Nat) (s0 : State) : Eff :=
  let s := s0.at t
  match s.pan.flush with
  | some f => .next (if s.home.memq.any fun r => r.use == .clean true then s else s.endFlush f f.vstop.isNone)
  | none => .next s

/-- VSTOP_WAIT_EXPIRY (R155): the wait for the writes already issued is over. -/
def execVstopWaitExpiry (t : Nat) (s0 : State) : Eff :=
  let s := s0.at t
  match s.pan.flush with
  | some f =>
    match f.vstop with
    | some d => .next (if d ≤ s.now then s.endFlush f false else s)
    | none => .next s
  | none => .next s

/-- PFW_RELEASE (R157): PFW_N has been high for 10 ms. DESIGN CHOICE (log 232): PAN_STAT.PFW is 1 until then; while the flush still
runs nothing else changes, and FLUSH_DONE, once raised, stays high until a further PFW_RELEASE. -/
def execPfwRelease (t : Nat) (s0 : State) : Eff :=
  let s := (s0.at t).mapPan fun p => { p with pfw := false }
  .next (if s.pan.flushDone then
      (s.mapPan fun p => { p with flushDone := false, grantsFrom := s.now + 100000000 }).emit (.pin .flushDone false)
    else s)

/-! ## Commands (R160) -/

/-- Sum of the Rooms' Pantry shares. -/
def State.panShares (s : State) : Nat := s.pool.rooms.foldl (fun n p => n + (s.heldShare p.1 p.2).pan) 0

/-- HBM_LAYOUT (R137): write-through and the flush of every dirty line begin; COMMAND_COMPLETION changes the assignment. DESIGN CHOICE
(log 231): a window whose grant goes waits for 100 fitting ticks (R150) after the command. -/
def cmdHbmLayout (units : Nat) : Cmd :=
  { opcode := 0x0c01
    bad := fun _ => firstBad [(45 < units, 0)]
    run := fun s =>
      if (45 - units) * 917504 < s.panShares then .refuse .noResource 0
      else if s.pool.hUsed.any (8 * units ≤ ·) || s.busyWith (fun w => match w with | .hbmLayout _ => true | _ => false) then
        .refuse .busy 0
      else
        let s1 := s.mapPool fun p => { p with wins := p.wins.map fun w =>
          if w.2.grant then (w.1, { w.2 with grant := false, fit := 0 }) else w }
        .pending (.hbmLayout units) [] (s1.startClean (some s.cmds.nextId) 4096 false
          (s1.pool.wins.flatMap fun w => s1.dirtyOf w.2)) }

def execHbmLayout (h : Hdr) (units : Byte) (s : State) : Eff := s.dermel h (cmdHbmLayout units.toNat)

/-- The cleaning that a PENDING command runs. -/
def State.cleanOf (s : State) (id : Nat) : Option Clean := s.pan.cleans.find? fun c => c.cmd == some id

/-- The cleaning of a command forgotten. -/
def State.dropClean (s : State) (id : Nat) : State :=
  s.mapPan fun p => { p with cleans := p.cleans.filter fun c => c.cmd != some id }

/-- R137 step 3: none while the flush or a Pantry access goes on; the layout stays as it is if a line could not be cleaned. -/
def State.endLayout (s : State) (id units : Nat) : Option (WorkRes × State) :=
  match s.cleanOf id with
  | none => some (⟨.aborted, 0, []⟩, s)
  | some c =>
    if !c.todo.isEmpty || s.home.memq.any fun r => match r.tgt with | .pantry _ => true | _ => false then none
    else if s.allDirty != 0 then some (⟨.faulted, 0, []⟩, s.dropClean id)
    else some (⟨.ok, 0, []⟩, ((s.dropClean id).mapPan fun p => { p with tags := [] }).mapPool fun p =>
      { p with house := units, hClean := p.hClean.filter fun e => e < 8 * units && e < 8 * p.house })

/-- HBM_LAYOUT_QUERY. -/
def cmdHbmLayoutQuery : Cmd :=
  { opcode := 0x0c02, run := fun s => .ok (leBytes 1 s.panUnits ++ leBytes 3 s.pool.house) s }

def execHbmLayoutQuery (h : Hdr) (s : State) : Eff := s.dermel h cmdHbmLayoutQuery

/-- PANTRY_MODE (R146). -/
def cmdPantryMode (w mode rank quota : Nat) : Cmd :=
  let share := fun (s : State) => match s.win? w with | some x => (s.share x.room).pan | none => 0
  { opcode := 0x0c10, most := 4
    bad := fun s => firstBad [(s.noWin w, 0), (2 < mode, 2), (mode == 2 && 32 * share s < 64 * quota, 4)]
    run := fun s =>
      match s.win? w with
      | none => .refuse .badParam 0
      | some x =>
        if x.rehome.isSome then .refuse .busy 0
        else
          let s1 := s.mapWin w fun y => { y with
            pmode := pmodeOf mode
            rank := if mode = 2 then rank else y.rank
            quota := if mode = 2 then quota else y.quota
            grant := y.grant && mode == 2
            fit := if y.grant && mode != 2 then 0 else y.fit }
          let dirty := s1.dirtyOf x
          let held := (s.pan.tags.filter fun p => x.holds p.2.line).map (·.2.line)
          if mode = 2 || dirty.isEmpty then .ok [] (if mode = 0 then s1.invalClean x else s1)
          else .pending (.pantryMode w) [] (s1.startClean (some s.cmds.nextId) w (mode == 0) dirty held) }

def execPantryMode (h : Hdr) (window : B16) (mode rank : Byte) (quota : Word) (s : State) : Eff :=
  s.dermel h (cmdPantryMode window.toNat mode.toNat rank.toNat quota.toNat)

/-- The end of the cleaning of PANTRY_MODE or PANTRY_FLUSH, once no line is left; with INVALIDATE, or for mode OFF, the
clean lines of the windows go. -/
def State.endClean (s : State) (id : Nat) (wins : List Nat) (both : Bool) : Option (WorkRes × State) :=
  match s.cleanOf id with
  | none => some (⟨.aborted, 0, []⟩, s)
  | some c =>
    if !c.todo.isEmpty then none
    else
      let s1 := s.dropClean id
      let s2 := if c.inval then wins.foldl (fun a w => match a.win? w with | some x => a.invalClean x | none => a) s1 else s1
      some (⟨.ok, 0, leBytes 4 c.cleaned ++ (if both then leBytes 4 c.failed else [])⟩, s2)

/-- PANTRY_QUERY. -/
def cmdPantryQuery (w : Nat) : Cmd :=
  { opcode := 0x0c11
    bad := fun s => firstBad [(s.noWin w, 0)]
    run := fun s => match s.win? w with
      | none => .refuse .badParam 0
      | some x => .ok (leBytes 1 x.pmode.code ++ leBytes 1 x.run.code ++ leBytes 1 (b2n x.grant) ++ leBytes 1 x.rank
          ++ leBytes 4 x.quota ++ leBytes 4 (s.winDirty x)) s }

def execPantryQuery (h : Hdr) (window : B16) (s : State) : Eff := s.dermel h (cmdPantryQuery window.toNat)

/-- PANTRY_FLUSH (R152, R153). -/
def cmdPantryFlush (inval : Bool) (w : Nat) : Cmd :=
  { opcode := 0x0c12, invalOk := true, most := 8
    bad := fun s => firstBad [(w != 0xFFFF && s.noWin w, 0)]
    run := fun s =>
      let s1 := if s.freshBudget < s.allDirty then s.shortOfEnergy else s
      let ws := s1.pool.wins.filter fun p => w == 0xFFFF || p.1 == w
      .pending (.pantryFlush (ws.map fun p => p.1) inval) []
        (s1.startClean (some s.cmds.nextId) w inval ((byRank ws).flatMap fun p => s1.dirtyOf p.2)) }

def execPantryFlush (h : Hdr) (window : B16) (s : State) : Eff := s.dermel h (cmdPantryFlush h.invalidate window.toNat)

/-- HOLDUP_SET (R147): the values take effect at the next budget tick. -/
def cmdHoldupSet (valid : Nat) (vals : List Word) : Cmd :=
  let mine := ((List.range 9).filter fun j => bitOf valid j).map fun j => (j, (vals.getD j 0).toNat)
  let inForce := fun (s : State) => mine.foldl (fun a p => NMap.set a p.1 p.2)
    (s.pan.parNext.foldl (fun a p => NMap.set a p.1 p.2) s.pan.par)
  { opcode := 0x0c20
    bad := fun s => match firstBad [(512 ≤ valid, 0)] with
      | some o => some o
      | none => (mine.find? fun p => !hpRange (inForce s) p.1 p.2).map fun p => 4 + 4 * p.1
    run := fun s => .ok [] (s.mapPan fun p => { p with parNext := mine.foldl (fun a q => NMap.set a q.1 q.2) p.parNext }) }

def execHoldupSet (h : Hdr) (valid : B16) (vals : List Word) (s : State) : Eff := s.dermel h (cmdHoldupSet valid.toNat vals)

/-- HOLDUP_QUERY. -/
def cmdHoldupQuery : Cmd :=
  { opcode := 0x0c21
    run := fun s => .ok (((List.range 9).flatMap fun j => leBytes 4 ((hpOf s.pan.par j).getD 0)) ++ leBytes 4 s.pan.lastC
      ++ leBytes 4 s.pan.lastV ++ leBytes 4 s.pan.lastE ++ leBytes 8 s.pan.budget) s }

def execHoldupQuery (h : Hdr) (s : State) : Eff := s.dermel h cmdHoldupQuery

/-- HOLDUP_CAL (R147, R149): the capacitance goes into the boot header and the hours since calibration start again. -/
def cmdHoldupCal (c0 : Nat) : Cmd :=
  { opcode := 0x0c22
    bad := fun _ => firstBad [(!hpRange [] 0 c0, 0)]
    run := fun s => .ok [] (s.mapPan fun p => { p with cal := some c0, calHours := 0, parNext := NMap.set p.parNext 0 c0 }) }

def execHoldupCal (h : Hdr) (c0 : Word) (s : State) : Eff := s.dermel h (cmdHoldupCal c0.toNat)

end Sys2Proof.Machine
end

