-- ==== Sys2Proof/Machine/Rehome.lean ====
section
/-! DEFINITION. Re-homing of a window between switches (R58 to R63), at the old home A and at the new home B. -/

namespace Sys2Proof.Machine

/-- Entries of a window that carry backing. -/
def State.validExts (s : State) (x : Window) : List Nat :=
  ((List.range x.extents).map (x.baseX + ·)).filter fun i => (s.ext i).valid

/-- REHOME_START at A (R59): write-through, the flush of the window's dirty lines, and one copy job for each extent; the
extent indexes at B are B's own (log 26, a free value). BUSY while the window is not ACTIVE, is failed or already re-homed, or an
extent is not LIVE or is migrating: DESIGN CHOICE, log 220. -/
def cmdRehomeStart (w bid bwin age : Nat) : Cmd :=
  { opcode := 0x0451, most := 4
    room := fun s fid => s.winRoom w fid
    bad := fun s => firstBad [(s.noWin w, 0), (4095 < bid, 2), (4095 < bwin, 4), (age != 0 && (age < 1000 || 100000 < age), 8)]
    run := fun s =>
      match s.win? w with
      | none => .refuse .badParam 0
      | some x =>
        let xs := s.validExts x
        if x.st != .active || x.rehome.isSome || x.failed || xs.any fun i => (s.ext i).st != .live || (s.mig? i).isSome then
          .refuse .busy 0
        else
          let (v, s1) := s.free
          let r : Rehome := { old := true, peer := bid, peerWin := bwin, age := if age = 0 then 20000 else age, mode := x.pmode }
          let s2 := (s1.mapWin w fun y => { y with st := .copying, pmode := .wt, grant := false, rehome := some r }).startClean
            none w false (s1.dirtyOf x)
          let jobs := xs.map fun i =>
            ({ x := i, win := w, dstHouse := false, dstDev := 0, oldHouse := (s.ext i).srcHouse, oldDev := (s.ext i).srcDev, cmd := false,
               remote := some (bid, (v.toNat + (i - x.baseX)) % 2 ^ 24) } : Mig)
          let n := s.mov.nextJob
          let queued := (List.range xs.length).zip xs |>.map fun p => ({ id := n + p.1, room := 0, kind := .mig p.2 } : Job)
          .pending (.rehome w) [] (s2.mapMov fun m => { m with
            migs := m.migs ++ jobs, queue := m.queue ++ queued, nextJob := n + xs.length }) }

def execRehomeStart (h : Hdr) (window bid bwin : B16) (age : Word) (s : State) : Eff :=
  s.dermel h (cmdRehomeStart window.toNat bid.toNat bwin.toNat age.toNat)

/-- The sweep of H4 goes on. -/
def State.pumpHandoff (s : State) (w : Nat) : State :=
  match (s.win? w).bind (·.rehome) with
  | none => s
  | some r =>
    let (left, s1) := s.recallSome w 4096 r.sweep
    s1.mapWin w fun y => { y with rehome := y.rehome.map fun q => { q with sweep := left, swept := true } }

/-- Is every extent of a window DUAL with its copy written (R60)? -/
def State.allCopied (s : State) (x : Window) : Bool :=
  (s.validExts x).all fun i => (s.ext i).st == .dual && (match s.mig? i with | some m => m.step == 5 | none => false)

/-- HANDOFF_START at A (H1 to H4): every extent is in DUAL; requests are forwarded from now on, and the directory is swept. -/
def execHandoffStart (window : Win) (s : State) : Eff :=
  let w := window.toNat
  match s.win? w with
  | none => .next s
  | some x =>
    match x.rehome with
    | none => .next s
    | some r =>
      if r.old && x.st == .copying && s.allCopied x then
        let s1 := s.mapWin w fun y => { y with st := .handoffOut }
        .next ((s1.mapWin w fun y => { y with rehome := some { r with sweep := s1.heldLines w 4096 } }).pumpHandoff w)
      else .next s

/-- HANDOFF_AGE_DISCARD at B (R62): requests held longer than the handoff age limit are discarded, each with a synthetic
error completion and a record. -/
def execHandoffAgeDiscard (window : Win) (t : Nat) (s0 : State) : Eff :=
  let s := s0.at t
  let w := window.toNat
  match (s.win? w).bind (·.rehome) with
  | none => .next s
  | some r =>
    let old := s.home.hold.filter fun h => h.win == w && r.age * 1000 ≤ s.now - h.t0
    let s1 := s.mapHome fun h => { h with hold := h.hold.filter fun q => !(q.win == w && r.age * 1000 ≤ s.now - q.t0) }
    .next (old.foldl (fun a h => (a.synth h.v.port h.v.port h.v.m).record
      { checker := 0x5100, source := srcWindow, unit := w, room := h.v.room.getD 0, tag := h.v.m.tag.toNat,
        payload := packBits [(s.now - h.t0, 64), (h.v.cls.rank, 8)] }) s1)

/-- REHOME_ABANDON (R63): before H6, A returns to its own copy and REHOME_START ends with ABORTED; at B the held requests
receive synthetic error completions, and its window stays INCOMING without a re-homing (DESIGN CHOICE, log 222). -/
def execRehomeAbandon (window : Win) (s : State) : Eff :=
  let w := window.toNat
  match s.win? w with
  | none => .next s
  | some x =>
    match x.rehome with
    | none => .next s
    | some r =>
      if r.old then
        if x.st == .copying || x.st == .handoffOut then
          let migs := s.mov.migs.filter fun m => m.win == w && m.remote.isSome
          let s1 := migs.foldl (fun a m => a.migAbandon m.x .aborted) s
          .next ((s1.mapWin w fun y => { y with st := .active, rehome := none }).finishWork (.rehome w) .aborted
            (leBytes 4 r.copied))
        else .next s
      else
        let mine := s.home.hold.filter fun h => h.win == w
        let s1 := (s.mapWin w fun y => { y with rehome := none }).mapHome fun h => { h with hold := h.hold.filter fun q => q.win != w }
        .next (mine.foldl (fun a h => a.synth h.v.port h.v.port h.v.m) s1)

/-- H9 at A: every switch has acknowledged the new home: forwarding stops, the extents are zeroed and freed, the window is
removed, and the decode entries of hosts at this switch lead to B. -/
def State.endRehome (s : State) (w : Nat) : State :=
  match s.win? w with
  | none => s
  | some x =>
    match x.rehome with
    | none => s
    | some r =>
      let (v, s) := s.free
      let away := (x.binds.filter (·.decode)).map fun b =>
        ({ port := b.port, host := b.host, window := r.peerWin, hpa := b.hpa, size := x.bytes, home := r.peer, rw := b.rw,
           base := v.toNat % 2 ^ 20 * 2 ^ 28 } : RemoteWin)
      let s1 := (s.mov.migs.filter fun m => m.win == w && m.remote.isSome).foldl (fun a m => a.dropMig m.x) s
      let s2 := ((s1.removeWin w true).mapPool fun p => { p with remote := p.remote ++ away })
      s2.finishWork (.rehome w) .ok (leBytes 4 r.copied)

end Sys2Proof.Machine
end

