-- ==== Sys2Proof/Machine/Link.lean ====
section
/-! DEFINITION. What becomes of the traffic of a port when its link goes down (R163, R335 to R338), of a pass-through binding
that is removed (R324), and of a pool device that does not answer (R334). -/

namespace Sys2Proof.Machine

/-! ## Answers to lost items (R335, R336) -/

/-- A lost item recorded in the Attic as a contained event of the port, with its tag (R336). -/
def State.lossRecord (s : State) (p tag room : Nat) (payload : Nat) : State :=
  s.record { checker := 0x4400, source := srcPort, unit := p, tag := tag, room := room, payload := payload }

/-- A request lost with a link: one synthetic answer, or for a posted request a discard (R335). -/
def State.failReq (s : State) (p : Nat) (v : VMsg) : State :=
  let s1 := match v.m.kind with
    | .ioWrite => (s.synth v.port v.port v.m).bump (PRT_DROP_CNT_fPOSTED_CNT p)
    | .h2dReq => (s.push v.port .srsp v.port (.fwd { v.m with kind := .d2hRsp })).bump (PRT_DROP_CNT_fSYN_CNT p)
    | .memSpecRd => s
    | _ => (s.synth v.port v.port v.m).bump (PRT_DROP_CNT_fSYN_CNT p)
  s1.lossRecord p v.m.tag.toNat (v.room.getD 0) v.cls.rank

/-- A message queued for a port that goes down: a request is answered, anything else is discarded (R335). -/
def State.failQueued (s : State) (p : Nat) (v : VMsg) : State :=
  let s1 := s.leave v
  if awaits v.m.kind || v.m.kind == .ioWrite then s1.failReq p v else s1

/-- Tag of the request that a memory request serves. -/
def State.memTag (s : State) (r : MemReq) : Nat :=
  let ofTrk := fun (i : Nat) => match s.trk? i with
    | some t => match t.req with
      | .rd _ _ _ _ g _ | .wr _ g .. | .wbk _ g .. | .atom _ _ g .. => g
      | _ => 0
    | none => 0
  match r.use with
  | .fill t | .store t | .fillWr t _ _ _ | .victim (some t) .. => ofTrk t
  | _ => 0

/-- A memory request that its device will not answer: the synthetic answer of R183, poisoned data for a read, an error for a
write (R334, R335). -/
def State.failMem (s : State) (r : MemReq) : State :=
  let lose := fun (t : Nat) => s.mapTrk t fun x => { x with syn := true }
  match r.use with
  | .fill t => (lose t).memResp r (.poison 0)
  | .spec => s.memResp r .error
  | .store t | .fillWr t .. => (lose t).memResp r .error
  | _ => s.memResp r .error

/-- A synthetic completion counted at a port, if the memory request serves a requester (R336). -/
def State.synCount (s : State) (p : Nat) (r : MemReq) : State :=
  match r.use with
  | .fill _ | .store _ | .fillWr .. | .victim (some _) .. => s.bump (PRT_DROP_CNT_fSYN_CNT p)
  | _ => s

/-- The response of a memory request is already in the Vestibule (R162). -/
def State.answered (s : State) (r : MemReq) : Bool :=
  s.home.vst.any fun v => v.cls == .mrsp && v.m.tag.toNat == r.id % 65536

/-! ## Losses of one port (R335) -/

/-- Snoops outstanding to hosts behind a port end as BIRspI; an owner's line is written poisoned; no binding fails (R335). -/
def State.loseSnoops (s : State) (p : Nat) : State :=
  let hit := s.home.trk.filter fun t => (t.snoops.map (·.host) ++ t.unsent).any fun h => s.hostPort t.win h t.line == some p
  let s1 := hit.foldl (fun a t =>
    let gone := (t.snoops.map (·.host) ++ t.unsent).filter fun h => s.hostPort t.win h t.line == some p
    let own := t.opened == stE && gone.contains t.owner
    let a1 := a.mapTrk t.id fun x => { x with
      snoops := x.snoops.filter fun y => !gone.contains y.host
      unsent := x.unsent.filter fun y => !gone.contains y
      ans := if x.ans = 0 then 1 else x.ans
      wb := if own then none else x.wb
      data := if own then some (0, true) else x.data }
    if own then a1.poisonLine t.line t.win else a1) s
  (hit.foldl (fun a t => a.advance t.id) s1).run

/-- Host purge of every coherent shared window bound through a port (R337). -/
def State.purgePort (s : State) (p : Nat) : State :=
  s.pool.wins.foldl (fun a w =>
    if w.2.type == .shared then (w.2.binds.filter fun b => b.port == p).foldl (fun b x => b.purgeHost w.1 x.host) a else a) s

/-- What R337 does when an upstream port goes down: the purge begins, and the windows bound through the port wait to be
presented again. -/
def State.startPurge (s : State) (p : Nat) : State :=
  let s1 := s.purgePort p
  let s2 := s1.mapPool fun x => { x with wins := x.wins.map fun w => (w.1, { w.2 with
    binds := w.2.binds.map fun b => if b.port == p && b.decode then { b with presPend := true } else b }) }
  let any_ := s.pool.wins.any fun w => w.2.type == .shared && w.2.binds.any fun b => b.port == p
  let s3 := s2
  if any_ then (s3.mapPort p fun x => { x with purge := true }).setFld (PRT_PROTO_STAT_fPURGE p) 1 else s3

/-- Requests outstanding at a pool device fail; its extents are lost, but for the link-down of a warm reset (R338, R564). -/
def State.losePool (s : State) (p : Nat) : State :=
  let lost := s.home.memq.filter fun r => (match r.tgt with | .dev h _ => s.devPort h == p | _ => false) && !s.answered r
  let s1 := match s.devAt p with
    | some (h, _) => if s.pwr.st == BootSt.warmBoot then s.mapDev h fun d => { d with awaitLink := true } else s.lostDev h
    | none => s
  let s2 := lost.foldl (fun a r =>
    ((a.failMem r).synCount p r).lossRecord p (s.memTag r) 0 r.line) s1
  (s2.mapPort p fun x => { x with quar := [] }).setFld (PRT_PROTO_STAT_fQUAR p) 0

/-- A fabric port leaves its group: the lowest-numbered waiting port joins, and the group drains (R180, R306, R338). -/
def State.leaveGroup (s : State) (p : Nat) : State :=
  match (s.port p).neighbour with
  | none => s
  | some n =>
    let was := (s.port p).member
    let s1 := s.mapPort p fun x => { x with member := false, neighbour := none }
    let wait := (s1.ports.st.filter fun x => x.2.neighbour == some n && !x.2.member && s1.inL0 x.1).head?
    let s2 := match wait with
      | some w => if was then s1.mapPort w.1 fun x => { x with member := true } else s1
      | none => s1
    let s3 := if was then s2.mapHome fun h => { h with drains := NMap.set h.drains n (s.now + s.drainNs) } else s2
    if (s3.members n).isEmpty then
      (s3.home.memq.filter fun r => match r.tgt with | .remote sw _ => sw == n | _ => false).foldl (fun a r => a.failMem r) s3
    else s3

/-- A port lane's registers once the link is down: not locked, not active, not margined. -/
def State.laneOff (s : State) (l : Nat) : State :=
  let g := l / 8
  let k := l % 8
  ((((s.setFld (LNG_LANE_STAT_fLOCK g k) 0).setFld (LNG_LANE_STAT_fACTIVE g k) 0).setFld (LNG_LANE_STAT_fMARGINING g k) 0)
    ).setFld (LNG_LANE_STAT_fADAPT_STOP g k) (s.fld (LNG_ADAPT_CTL_fFREEZE g))

/-- `n` bytes of free values (log 3). -/
def State.freeBytes (s : State) : Nat → List Byte × State
  | 0 => ([], s)
  | n + 1 =>
    let (v, s1) := s.free
    let (bs, s2) := State.freeBytes s1 n
    (BitVec.ofNat 8 v.toNat :: bs, s2)

/-- Adaptation and margining flags of a port's lanes after margining ends (R297, R300). -/
def State.unmargin (s : State) (p : Nat) : State :=
  (s.portLanes p).foldl (fun a l => (a.setFld (LNG_LANE_STAT_fMARGINING (l / 8) (l % 8)) 0).setFld
    (LNG_LANE_STAT_fADAPT_STOP (l / 8) (l % 8)) (s.fld (LNG_ADAPT_CTL_fFREEZE (l / 8)))) s

/-- Result data of a margining of the lanes of a mask with an error limit (R299): each lane's error count, bit 15 set from the limit on. -/
def marginData (mask limit : Nat) (errors : List (BitVec 6)) : List Byte :=
  (List.range 16).flatMap fun k =>
    let e := (errors.getD k 0).toNat
    if bitOf mask k then leBytes 2 (e + (if limit ≤ e then 32768 else 0)) else leBytes 2 0

/-- Margining of a port ends because its link leaves L0 or is changed (R300): the counts reached so far are open. -/
def State.endMargins (s : State) (p : Nat) : State :=
  ((s.port p).margin.foldl (fun a m =>
    let (bs, a1) := a.freeBytes 16
    a1.finishWork (.margin p m.1) .aborted (marginData m.1 m.2 (bs.map (·.setWidth 6)))) s |>.mapPort p fun x => { x with margin := [] }).unmargin p

/-- Margining and a PORT_LINK_SET of a port end because its link goes down (R294, R300). -/
def State.endPortWork (s : State) (p : Nat) : State :=
  ((s.endMargins p).mapPort p fun x => { x with target := none }).finishWork (.portLink p) .aborted
    [BitVec.ofNat 8 (s.fld (PRT_LINK_STAT_fRATE p)), BitVec.ofNat 8 (s.fld (PRT_LINK_STAT_fWIDTH p))]

/-- The losses of the messages that concern a port (R335): those queued for it, those sent on it, those that home units
hold for it. -/
def State.losses (s : State) (p : Nat) : State :=
  let s1 := (s.home.vst.filter fun v => v.dst == .egress p).foldl (fun a v => a.failQueued p v) s
  let s2 := (s1.ports.sent.filter fun x => x.port == p && !x.half).foldl (fun a x => a.failReq p x.v)
    (s1.mapPorts fun x => { x with sent := x.sent.filter fun y => y.port != p })
  let gone := s2.home.egress.filter fun e => e.port == p
  let s3 := (if s2.flt.st == FState.normal then s2 else s2.mapFlt fun f => { f with failed := f.failed + gone.length }).mapHome fun h =>
    { h with egress := h.egress.filter fun e => e.port != p }
  let s4 := (gone.filterMap s.sentOn).foldl (fun a v => a.failReq p v) s3
  let unacked := (s.port p).posted
  (unacked.foldl (fun a q => a.failReq p q.2) (s4.mapPort p fun x => { x with posted := [] })).freeDone

/-- Requests of home units to another switch that a fabric port has sent, or still queues (R335). -/
def State.remLost (s : State) (p : Nat) : List MemReq :=
  let queued := s.home.egress.filterMap fun e => match e.body with
    | .remReq id .. => if e.port == p then some id else none
    | _ => none
  s.home.memq.filter fun r => (r.via == some p || queued.contains r.id) && !s.answered r

/-- Those requests answered with the synthetic completions of R183. -/
def State.loseRemote (s : State) (p : Nat) (lost : List MemReq) : State :=
  lost.foldl (fun a r => ((a.failMem r).synCount p r).lossRecord p (s.memTag r) 0 r.line) s

/-- The credits of a port's partner are lost with the link. -/
def State.loseCredits (s : State) (p : Nat) : State :=
  (s.mapHome fun h => { h with
    credits := reqChans.foldl (fun m c => NMap.erase m (credKey p c)) h.credits
    extra := if s.role p == roleUpstream then h.extra.filter (· != s.portId p) else h.extra }).mapPort p fun x => { x with tx := [], txMax := [], replay := 0 }

/-- A link-down: the port leaves L0 for the state `st` (R335), with the LINK event (R441) and the notice (R387). A port that
is not in L0 only takes the state. -/
def State.linkDown (s : State) (p st : Nat) : State :=
  if !s.inL0 p then (s.setFld (PRT_LINK_STAT_fSTATE p) st).endPortWork p
  else
    let rate := s.fld (PRT_LINK_STAT_fRATE p)
    let width := s.fld (PRT_LINK_STAT_fWIDTH p)
    let s1 := if (s.port p).part then (s.bump (VST_PORT_STAT_fPARTIAL_CNT p)).mapPort p fun x => { x with part := false } else s
    let s2 := ((s1.setFld (PRT_LINK_STAT_fSTATE p) st).setFld (PRT_LINK_STAT_fLINK_UP p) 0).setReg (PRT_PROTO_STAT p) 0
    let s3 := (((s2.setFld (PRT_LINK_EVT_fDOWN_SEEN p) 1).bump (PRT_LINK_EVT_fDOWN_CNT p)).endPortWork p)
    let s4 := (s.portLanes p).foldl State.laneOff s3
    let s5 := (s4.loseCredits p).losses p
    let s6 := if s.role p == roleUpstream then (s5.loseSnoops p).startPurge p
      else if s.role p == rolePool then s5.losePool p
      else if s.role p == roleFabric then ((s5.loseRemote p (s4.remLost p)).loseSnoops p).leaveGroup p
      else s5
    (s6.post 0x20 (leBytes 1 p ++ leBytes 1 0 ++ leBytes 1 rate ++ leBytes 1 width)).notice ntcDown (leBytes 1 p)

/-- LINK_DOWN (R335): the link leaves L0 for Detect. -/
def execLinkDown (port : Port) (t : Nat) (s : State) : Eff := .next ((s.at t).linkDown port.toNat 1)

/-- Does an open operation still name a host of a port, so that its purge is not over? -/
def State.purgeHeld (s : State) (p : Nat) : Bool :=
  s.pool.wins.any fun w => w.2.binds.any fun b => b.port == p && s.namedOpen w.1 b.host

/-- PURGE_END (R337): what the purge has still to sweep is swept; requests are admitted again. It comes once no open operation
names a host of the port. -/
def execPurgeEnd (port : Port) (s : State) : Eff :=
  let p := port.toNat
  .next (if (s.port p).purge && !s.purgeHeld p then
      ((((s.purgePort p).mapPort p fun x => { x with purge := false }).setFld (PRT_PROTO_STAT_fPURGE p) 0)).run
    else s)

/-! ## Pass-through bindings (R323, R324) -/

/-- The pass-through binding of a port. -/
def State.vppbAt (s : State) (p : Nat) : Option Vppb := s.ports.vppb.find? fun v => v.port == p

/-- Messages of a pass-through binding between an upstream port and a downstream port. -/
def State.ptMsg (s : State) (b : Vppb) (v : VMsg) : Bool :=
  (v.port == b.port) || (v.port == b.vcs && v.dst == .egress b.port) ||
    (match s.ports.sent.find? fun x => x.v.id == v.id with | some x => x.port == b.port || v.port == b.port | none => false)

/-- A pass-through binding removed: every message that the switch still holds or tracks for it is answered as if the
downstream link had gone down (R324). -/
def State.unbindPt (s : State) (b : Vppb) : State :=
  let s1 := { s with ports := { s.ports with vppb := s.ports.vppb.filter fun x => x != b } }
  let s2 := (s1.home.vst.filter fun v => s.ptMsg b v).foldl (fun a v => a.failQueued b.port v) s1
  (s2.ports.sent.filter fun x => !x.half && (x.port == b.port || x.v.port == b.port)).foldl (fun a x => a.failReq b.port x.v)
    (s2.mapPorts fun x => { x with sent := x.sent.filter fun y => y.port != b.port && y.v.port != b.port })

/-! ## Pool-device timeout (R334) -/

/-- POOL_DEVICE_TIMEOUT (R334): a request without a response for PD_TMO is answered, its slot quarantined; 64 slots in
quarantine take the link down. -/
def execPoolDeviceTimeout (req t : Nat) (s0 : State) : Eff :=
  let s := s0.at t
  match s.home.memq.find? fun r => r.id == req with
  | none => .next s
  | some r =>
    match r.tgt with
    | .dev h _ =>
      let p := s.devPort h
      if !r.sent || s.now - r.t0 < s.fld (PRT_PROTO_CFG_fPD_TMO p) * 100000 || s.answered r then .next s
      else
        let s1 := s.record { checker := 0x5000, source := 11, unit := h + p * 256, tag := s.memTag r, addr := r.line * 64 }
        let s2 := s1.failMem r
        let s3 := s2.mapPort p fun x => { x with quar := x.quar ++ [r.id] }
        let s4 := s3.setFld (PRT_PROTO_STAT_fQUAR p) (s3.port p).quar.length
        .next (if 64 ≤ (s3.port p).quar.length then s4.linkDown p 1 else s4)
    | _ => .next s

end Sys2Proof.Machine
end

