-- ==== Sys2Proof/Machine/Collector.lean ====
section
/-! DEFINITION. The fatal state (R452 to R457): what a fatal fault starts, how DRAIN ends. -/

namespace Sys2Proof.Machine

/-- Keep Yes in the catalogue: types 11h, 14h, 19h and 1Ah (R449). -/
def keeps (checker : Nat) : Bool := [0x11, 0x14, 0x19, 0x1a].contains (checker / 256)

/-- A PENDING command ended now with the result of its work, if it has one, else with `st` (R428, R431). -/
def State.endPend (s : State) (p : Pend) (st : Status) : State :=
  s.complete p (match p.res with | some r => r | none => ⟨st, 0, []⟩)

/-- Every PENDING command with work that `f` selects ended now. -/
def State.endPends (s : State) (f : Work → Bool) (st : Status) : State :=
  (s.cmds.pend.filter fun p => f p.work).foldl (fun a p => a.endPend p st) s

/-- Pending gate, route and schema instants cancelled (R453). -/
def State.cancelInstants (s : State) : State :=
  let off := fun (p : Nat × PortSt) => (p.1, { p.2 with gateT := none })
  let s0 := s.mapPorts fun x => { x with st := x.st.map off, staged := none }
  let s1 := { s0 with fab := { s.fab with routeT := none, schemaPend := none, staging := none } }
  s1.endPends (fun w => match w with | .gateCommit _ _ | .routeSet | .schemaSet => true | _ => false) .aborted

/-- Every channel of the Mover stops as for a disable; running and queued jobs end with ABORTED (R270, R453). -/
def State.stopMover (s : State) : State := s.pool.rooms.foldl (fun a r => (a.moverTeardown r.1).2) s

/-- Extended operations not yet granted end with ABORTED (R129, R453). -/
def State.abortSlots (s : State) : State :=
  s.pool.slices.foldl (fun a x => x.2.slots.foldl (fun b y =>
    if y.2.flight.isSome && !y.2.granted then b.slotDone x.1 y.1 xAborted 0 else b) a) s

/-- Dirty lines cleaned window by window in the order of R150 (R453). -/
def State.drainClean (s : State) : State :=
  (byRank s.pool.wins).foldl (fun a w => if (a.dirtyOf w.2).isEmpty then a else a.startClean none w.1 false (a.dirtyOf w.2)) s

/-- Every REQ-class message not yet granted is discarded with the answer of R183, those sent on to another home among them (R453). -/
def State.dropWaiting (s : State) : State :=
  let one := fun (a : State) (v : VMsg) => ((a.leave v).synth v.port v.port v.m).mapFlt fun f =>
    { f with refused := Nat.min 0xFFFFFFFF (f.refused + 1) }
  let s1 := (s.home.vst.filter fun v => v.cls == .req).foldl one s
  (s1.home.egress.filter fun e => (s1.sentOn e).isSome).foldl (fun a e => a.failSentOn e) s1

/-- What stops at once when work is no longer admitted: the Mover, the slots, the instants, the requests that wait (R453, R514). -/
def State.stopWork (s : State) : State := s.stopMover.abortSlots.cancelInstants.dropWaiting

/-- A power-fail flush that runs stops (R457): FLUSH_DONE, and a record that shows COMPLETE 0. -/
def State.stopFlush (s : State) : State :=
  match s.pan.flush with
  | some f => s.endFlush f false
  | none => s

/-- The first-fatal record of a fatal event (R462). -/
def firstOf (e : Event) : FirstFatal :=
  { event := e, fatalCnt := 1, lastChecker := e.checker, drainDone := 0, drainFailed := 0, drainNs := 0, refused := 0,
    read := false, limit := false, keep := false }

/-- A fatal fault (R446, R452, R457): recorded and counted; in NORMAL the device enters DRAIN. -/
def State.fatal (s : State) (r : Report) : State :=
  let e := { s.eventOf { r with cls := 2 } with drain := true }
  let same := s.flt.st == .drain && s.flt.drainT == s.now
  let first := match s.flt.first with
    | none => firstOf e
    | some f => { f with
        event := if same && f.event.time == s.now && e.checker < f.event.checker then e else f.event
        fatalCnt := Nat.min 65535 (f.fatalCnt + 1)
        lastChecker := e.checker }
  let normal := s.flt.st == .normal
  let s1 := if normal then s.mapFlt fun f => { f with
      st := .drain, drainT := s.now, limit := false, allKeep := keeps r.checker, done := 0, failed := 0, refused := 0 }
    else s.mapFlt fun f => { f with allKeep := f.allKeep && keeps r.checker }
  let s2 := (s1.mapFlt fun f => { f with first := some first }).record { r with cls := 2 }
  let s3 := if s2.hbmKeep then s2 else s2.stopFlush
  if !normal then s3
  else
    let s4 := (s3.notice ntcFatal (eventBytes e)).stopWork
    if s4.flag FLT_CFG_fDRAIN_CLEAN && keeps r.checker then s4.drainClean else s4

/-- FAULT_N driven: low while asserted; every GPIO with the function FAULT_MIRROR follows it (R452, R497). -/
def State.driveFaultN (s : State) (level : Bool) : State :=
  ((List.range 8).filter fun n => bitsOf s.pwr.gpioFn (2 * n) 2 == 2).foldl (fun a n => a.emit (.pin (.gpio n) level))
    (s.emit (.pin .faultN level))

/-- DRAIN is over: FAULT, FAULT_N low, the record of R462 completed, and every PENDING command ended with FAULTED (R428,
R452, R454), by the Hearth when it returns if it is restarting (R457). -/
def State.enterFault (s : State) : State :=
  let s1 := s.mapFlt fun f => { f with
    st := .fault
    first := f.first.map fun x => if x.event.time == f.drainT then { x with
        drainDone := f.done
        drainFailed := f.failed
        drainNs := Nat.min 0xFFFFFFFF (s.now - f.drainT)
        limit := f.limit
        keep := s.hbmKeep } else x }
  let s2 := s1.driveFaultN false
  if s2.pwr.st == .restart then s2 else s2.endPends (fun _ => true) .faulted

/-- The answer that R183 gives for the kind of an open tracker entry that is failed (R454). -/
def State.failTrk (s : State) (t : Trk) : State :=
  match t.req with
  | .rd k _ _ host tag port =>
    if expectsData k then (s.pushHome port t.hu .cmp (.memData host tag 0 true 0)).pushHome port t.hu .cmp (.ndr host tag .cmpI 0)
    else s.pushHome port t.hu .cmp (.ndr host tag .err 0)
  | .xop slice slot .. => s.slotDone slice slot xAborted 0
  | _ => s.answerWrite t true

/-- DRAIN ends at the limit: every open entry is failed and freed, cleaning stops (R454). -/
def State.drainLimit (s : State) : State :=
  let n := s.home.trk.length
  let s1 := s.home.trk.foldl (fun a t => a.failTrk t) s
  let s2 := s1.mapHome fun h => { h with
    trk := []
    scq := []
    cfl := []
    intq := []
    memq := h.memq.filter fun r => match r.use with | .clean _ | .spec | .poison => true | _ => false }
  (s2.mapFlt fun f => { f with limit := true, failed := Nat.min 0xFFFFFFFF (f.failed + n) }).mapPan fun p => { p with cleans := [] }

/-- FATAL_FAULT (R452): a checker reports a fault that the catalogue classes as fatal. -/
def execFatalFault (checker : B16) (addr : B64) (t : Nat) (s : State) : Eff :=
  .next ((s.at t).fatal { checker := checker.toNat, addr := addr.toNat })

end Sys2Proof.Machine
end

