-- ==== Sys2Proof/Machine/Access.lean ====
section
/-! DEFINITION. What every register write shares (R469, R473, R478, R479, R547): the path it takes, and the refusal of a debug
access. -/

namespace Sys2Proof.Machine

/-- Code of a debug space (R479, R483). -/
def spCode : Space → Nat
  | .reg => 0 | .pool => 1 | .hbm => 2

/-- A refusal of a debug access or action counted and recorded once (R479): reason, space, direction, first refused byte,
refused length, local Room. -/
def State.debugRefuse (s : State) (jtag : Bool) (reason : Nat) (sp : Space) (write : Bool) (addr len room : Nat) : State :=
  let s1 := (((s.bump DBG_DENY_fCNT).setFld DBG_DENY_fSEEN 1).setFld DBG_DENY_fLAST_REASON reason)
  let s2 := (s1.setFld DBG_DENY_fLAST_SPACE (spCode sp)).setFld DBG_DENY_fLAST_JTAG (b2n jtag)
  s2.record { checker := 0x4a00 + b2n jtag, room := room, addr := addr,
              payload := packBits [(reason, 8), (spCode sp, 8), (b2n write, 8), (0, 8), (len, 32)] }

/-- A write to BAR0 that has the effect `f`, on a path: through the endpoint with Memory Space Enable and outside D3hot
(R547); through the debug paths outside FIELD_LOCKED (R469), and through the monitor outside DRAIN and FAULT (R473). -/
def State.regWrite (s : State) (path : Path) (off : Nat) (f : State → State) : State :=
  match path with
  | .endpoint => if s.ep.mse && !s.ep.d3 then f s else s.emit (.unsupported path)
  | .monitor =>
    if s.draining then s.emit (.mon [] (.err .faulted))
    else if s.lifecycle == 2 then (s.debugRefuse false 2 .reg true off 4 0).emit (.mon [] (.denied 2 off))
    else (f s).emit (.mon [] .ok)
  | .jtag => if s.lifecycle == 2 then s.debugRefuse true 2 .reg true off 4 0 else f s

/-! ## MOV_CH_CTL (R267, R270, R278) -/

/-- RETRY (R267): a write of MOV_CH_CTL with RESUME 1 and ACTION retry. -/
def execRetry (path : Path) (ch : Chan) (s : State) : Eff :=
  .next (s.regWrite path (MOV_CH_CTL ch.toNat) fun a => a.resumeChan ch.toNat 0)

/-- SKIP (R267). -/
def execSkip (path : Path) (ch : Chan) (s : State) : Eff :=
  .next (s.regWrite path (MOV_CH_CTL ch.toNat) fun a => a.resumeChan ch.toNat 1)

/-- ABORT (R267). -/
def execAbort (path : Path) (ch : Chan) (s : State) : Eff :=
  .next (s.regWrite path (MOV_CH_CTL ch.toNat) fun a => a.resumeChan ch.toNat 2)

/-- CHANNEL_DISABLE (R270): a write of MOV_CH_CTL with EN 0. -/
def execChannelDisable (path : Path) (ch : Chan) (s : State) : Eff :=
  .next (s.regWrite path (MOV_CH_CTL ch.toNat) fun a => a.setChanEn ch.toNat false)

end Sys2Proof.Machine
end

