-- ==== Sys2Proof/Machine/Doorway.lean ====
section
/-! DEFINITION. The Doorway (spec/14): presence, ramps, the thermal model, trips, removal and return. -/

namespace Sys2Proof.Machine

/-! ## Parameters (R399, R438) -/

/-- Range of parameter j in its step units; VIN_OV must also be above VIN_UV. -/
def dwRange (j : Nat) (v : Int) : Bool :=
  let lohi : Int × Int := [(12, 48), (10, 1000), (5, 800), (5, 800), (1, 200), (80, 460), (100, 500), (10, 200), (50, 100),
    (1, 100), (2, 50), (100, 1000), (1, 200), (1, 1000), (10, 1000), (100, 10000), (-400, 1250), (1000, 1750), (100, 800),
    (1, 100000), (1, 100000), (1, 100000), (1, 10000000), (1, 10000000), (1, 10000000), (0, 1), (0, 255)].getD j (1, 0)
  lohi.1 ≤ v && v ≤ lohi.2 && (j != 0 || v == 12 || v == 48) && (j != 26 || v ≤ 7 || v == 255)

/-- Parameters with no default. -/
def dwRequired : List Nat := [0, 1, 2, 3, 16, 19, 20, 21, 22, 23, 24]

/-- Parameter j where it is within its own range, else its default (0 for a required one that is missing). -/
def dwOwn (m : NMap Int) (j : Nat) : Int :=
  let rail48 : Bool := NMap.get? m 0 == some 48
  let dflt : Int := if j = 5 then (if rail48 then 400 else 108) else if j = 6 then (if rail48 then 500 else 138)
    else [0, 0, 0, 0, 10, 0, 0, 30, 80, 20, 10, 100, 50, 50, 100, 1000, 0, 1500, 400, 0, 0, 0, 0, 0, 0, 0, 255].getD j 0
  match NMap.get? m j with
  | some v => if dwRange j v then v else dflt
  | none => dflt

/-- The value in force of parameter j (R399): a VIN_OV that is not above VIN_UV is out of range and takes its default. -/
def dwVal (m : NMap Int) (j : Nat) : Int :=
  if j = 6 && dwOwn m 6 ≤ dwOwn m 5 then (if NMap.get? m 0 == some 48 then 500 else 138) else dwOwn m j

/-- A natural parameter. -/
def dwNat (m : NMap Int) (j : Nat) : Nat := (dwVal m j).toNat

/-- Every required parameter is valid. -/
def dwReady (m : NMap Int) : Bool := dwRequired.all fun j => match NMap.get? m j with | some v => dwRange j v | none => false

/-- The parameters of the channel's next ramp (R400). -/
def DwCh.coming (c : DwCh) : NMap Int := c.next.foldl (fun a p => NMap.set a p.1 p.2) c.par

/-! ## Readings -/

/-- Is module 48 up (DWY_STAT.LINK)? -/
def State.mod48Up (s : State) : Bool := s.flag DWY_STAT_fLINK

/-- Modelled junction temperature TA + T1 in 0.1 °C, rounded down (R408), 0 while TA is not valid. -/
def tjOf (m : NMap Int) (c : DwCh) : Int := if (NMap.get? m 16).isSome then dwVal m 16 + (c.t1 * 10).floor else 0

/-- DWY_CH_V, DWY_CH_I and DWY_CH_TJ (R421). -/
def DwCh.vImage (c : DwCh) : Nat := packBits [(c.vin, 16), (c.vsrc, 16)]
def DwCh.iImage (c : DwCh) : Nat := packBits [(c.i, 16), (Nat.min 65535 c.p, 16)]
def word16 (v : Int) : Nat := (v % 65536).toNat
def DwCh.tjImage (c : DwCh) : Nat := packBits [(word16 (tjOf c.par c), 16), (word16 c.peak, 16)]

/-- The gate is driven: RAMP to ON. -/
def DwCh.on (c : DwCh) : Bool := 3 ≤ c.st && c.st ≤ 6

/-- VIN lies within its window (R403). -/
def DwCh.vinOk (c : DwCh) : Bool := dwNat c.coming 5 * 10 ≤ c.vin && c.vin ≤ dwNat c.coming 6 * 10

/-- The modelled junction is cool enough for a ramp (R403). -/
def DwCh.cool (c : DwCh) : Bool := tjOf c.coming c ≤ dwVal c.coming 17 - dwVal c.coming 18

/-- Presence has been recognised, and the count of T_INS is over (R402, R413). -/
def DwCh.counted (c : DwCh) : Bool := c.present && c.cntT.isNone

/-- DWY_CH_STAT (R421). -/
def State.dwyStat (s : State) (n : Nat) : Nat :=
  let c := s.dch n
  let wait := c.st == 2 && c.counted && c.off.isNone
  packBits [(c.st, 4), (b2n c.present, 1), (b2n (c.st == 5 || c.st == 6), 1), (b2n c.perst, 1), (b2n c.ilim, 1),
    (b2n c.off.isSome, 1), (b2n (wait && !c.cool), 1), (b2n (wait && !c.vinOk), 1), (s.fld (DWY_CH_STAT_fPRS_EDGE n), 1),
    (c.cause, 4), (s.fld (DWY_CH_STAT_fTRIP_CNT n), 8)]

/-- Channels in RAMP or ENHANCE (DWY_STAT.RAMPING). -/
def State.ramping (s : State) : Nat := (s.dwy.filter fun p => p.2.st == 3 || p.2.st == 4).length

/-! ## Events (R411, R414, R441) -/

def dwTrip : Nat := 1
def dwInsert : Nat := 2
def dwRemove : Nat := 3
def dwRebind : Nat := 4

/-- A DOORWAY event of a channel, and for a trip its Attic record (R411); while module 48 is down it waits (R418). -/
def State.dwyEvent (s : State) (n kind code : Nat) : State :=
  let c := s.dch n
  if !s.mod48Up then s.mapDch n fun x => { x with missed := x.missed ++ [kind] }
  else
    let seen := packBits [(c.vin, 16), (c.vsrc, 16), (c.i, 16), (word16 (tjOf c.par c), 16)]
    let s1 := if kind = dwTrip then s.record { checker := 0x4700 + n, source := 10, unit := n, payload := seen } else s
    s1.post 0x10 (leBytes 1 n ++ leBytes 1 kind ++ leBytes 2 code ++ leBytes 4 c.vImage ++ leBytes 4 c.iImage ++ leBytes 4 c.tjImage)

/-! ## Turning a channel off (R410, R413, R414) -/

/-- PERST_DN_N driven low: the reset gate of the channel's port shuts (R302). -/
def State.perstLow (s : State) (n : Nat) : State :=
  if !(s.dch n).perst then s
  else
    let s1 := (s.mapDch n fun c => { c with perst := false }).emit (.pin (.perstDn n) false)
    match (s.dch n).port with
    | some p => if (s.role p == rolePt || s.role p == rolePool) && s.fld (PRT_LINK_STAT_fSTATE p) != 0 then s1.linkDown p 1 else s1
    | none => s1

/-- The gate driven low from RAMP to ON: PERST_DN_N first, then the gate; the discharge-and-off timer starts. -/
def State.gateLow (s : State) (n : Nat) : State :=
  let s1 := if s.mod48Up then s.perstLow n else s
  (s1.mapDch n fun c => { c with off := some (s.now + dwNat c.par 15 * 1000000), ilim := false, ftmr := 0, vgsT := none,
                                 ov := 0, uv := 0, pgl := 0 }).emit (.pin (.gate n) false)

/-- Two fabric times in the same 1 us step. -/
def sameStep (a b : Nat) : Bool := a / 1000 == b / 1000

/-- Effective enable (R412). -/
def State.dwyOn (s : State) (c : DwCh) : Bool := c.en && (dwVal c.par 26 == 255 || bitOf s.pwr.gpio (dwNat c.par 26))

/-- A trip (R410, R411): LATCHED, with the lowest code of the step; a removal of the same step gives way to it (R418). -/
def State.trip (s : State) (n code : Nat) : State :=
  let c := s.dch n
  let latch := fun (a : State) =>
    ((a.mapDch n fun x => { x with st := 7, cause := code, tripT := s.now, low := !s.dwyOn c }).bump
      (DWY_CH_STAT_fTRIP_CNT n)).dwyEvent n dwTrip code
  if c.on then latch (s.gateLow n)
  else if c.st == 7 && sameStep c.tripT s.now then (if code < c.cause then s.mapDch n fun x => { x with cause := code } else s)
  else if c.st == 1 && (match c.off with | some e => sameStep (e - dwNat c.par 15 * 1000000) s.now | none => false) then latch s
  else s

/-! ## Starting a channel (R401 to R403) -/

/-- The start conditions of R403 but for MAX_RAMP. -/
def DwCh.mayRamp (c : DwCh) : Bool := c.st == 2 && c.counted && c.off.isNone && c.vinOk && c.cool && dwReady c.coming

/-- A ramp begun (R400, R406). -/
def State.startRamp (s : State) (n : Nat) : State :=
  (s.mapDch n fun c => { c with par := c.coming, next := [], st := 3, rampT := s.now, rampV := c.vin, ilim := false, ftmr := 0,
                                ilimT := s.now, vgsT := none, ov := 0, uv := 0, pgl := 0 }).emit (.pin (.gate n) true)

/-- Waiting channels started in ascending number while fewer than MAX_RAMP are in RAMP or ENHANCE (R403). -/
def State.pumpRamps (s : State) : State :=
  if !s.mod48Up then s
  else (List.range 32).foldl (fun a n =>
    if (a.dch n).mayRamp && a.ramping < a.fld DWY_CTL_fMAX_RAMP then a.startRamp n else a) s

/-- A channel brought to what its effective enable and its presence ask for (R401, R412). -/
def State.dwySettle (s : State) (n : Nat) : State :=
  if !s.mod48Up then s
  else
    let c := s.dch n
    let on := s.dwyOn c
    let s1 := if c.st == 7 then
        s.mapDch n fun x => if !on then { x with low := true } else if x.low then { x with st := 0, low := false } else x
      else if !on && c.on then (s.gateLow n).mapDch n fun x => { x with st := 0 }
      else if !on then s.mapDch n fun x => { x with st := 0 }
      else s
    let s2 := s1.mapDch n fun x => if x.st == 0 && on then { x with st := 1 } else x
    (s2.mapDch n fun x => if x.st == 1 && !x.prsHigh then { x with st := 2 } else x).pumpRamps

/-! ## Removal and return (R415, R416) -/

/-- Every binding that reaches the slot torn down, with the return record of what was bound (R415). -/
def State.slotTeardown (s : State) (n : Nat) : State :=
  match (s.dch n).port with
  | none => s
  | some p =>
    let s1 := (if s.inL0 p then s.linkDown p 1 else s)
    let keep := fun (a : State) (r : RetRec) => a.mapDch n fun c => { c with ret := some r, back := true }
    if s.role p == rolePt then
      match s1.vppbAt p with
      | some b => keep (s1.unbindPt b) { serial := (s.port p).serial, port := p, vcs := some b.vcs, bridge := b.bridge }
      | none => s1.mapDch n fun c => { c with back := c.ret.isSome }
    else if s.role p == rolePool then
      match s1.devAt p with
      | some (h, d) =>
        keep ((if d.awaitLink then s1.lostDev h else s1).dropDev h) { serial := d.serial, port := p, vcs := none, bridge := 0 }
      | none => s1.mapDch n fun c => { c with back := c.ret.isSome }
    else s1

/-- A recognised removal acts on the channel (R401, R414): the gate goes low and the channel enters IDLE. -/
def State.removed (s : State) (n : Nat) : State :=
  let s1 := if (s.dch n).on then s.gateLow n else s
  s1.mapDch n fun c => if c.on || c.st == 2 then { c with st := 1 } else c

/-- CXL.cache enabled through a pass-through binding whose device uses it, with the lowest free CacheID; at most 16 of a
virtual switch (R316). -/
def State.cacheOn (s : State) (p : Nat) : State :=
  match s.vppbAt p with
  | none => s
  | some v =>
    let id := leastFree ((s.ports.vppb.filter fun x => x.vcs == v.vcs && x.cache).map (·.cacheId)) 17 0
    if v.cache || 16 ≤ id || !(s.inL0 p && s.flag (PRT_PROTO_STAT_fCACHE p)) then s
    else (s.mapPorts fun x => { x with
        vppb := x.vppb.map fun y => if y == v then { y with cache := true, cacheId := id } else y }).refill p

/-- A pass-through binding made between a virtual bridge and a port (R323): the host is told of the presence. -/
def State.bindPt (s : State) (vcs bridge p : Nat) : State :=
  let s1 := (s.mapPorts fun x => { x with vppb := x.vppb ++ [{ vcs := vcs, bridge := bridge, port := p }] }).cacheOn p
  if s.inL0 p && s.inL0 vcs then s1.bridgeMsg vcs (s.portId vcs) bridge evtPresence else s1

/-- Is a virtual downstream bridge of a virtual switch free (R322)? -/
def State.bridgeFree (s : State) (vcs bridge : Nat) : Bool :=
  !(s.pool.wins.any fun w => w.2.binds.any fun b => b.port == vcs && b.bridge == bridge) &&
  !(s.ports.vppb.any fun v => v.vcs == vcs && v.bridge == bridge)

/-- Outcomes of a rebind, in the order of R416. -/
def rbDone : Nat := 0
def rbNoSerial : Nat := 1
def rbMismatch : Nat := 2
def rbPolicy : Nat := 3
def rbBusy : Nat := 4

/-- The board of a channel has reached link-up after a power-up: it is bound again, or not, with a rebind event (R416). -/
def State.rebind (s : State) (p : Nat) (serial : Option B64) (capacity : B64) : State :=
  match (s.port p).dch with
  | none => s
  | some n =>
    match (s.dch n).ret, (s.dch n).back with
    | some r, true =>
      let s1 := s.mapDch n fun c => { c with back := false }
      let policy := match s.room? ((s.portRoom p).getD 0) with | some x => x.rebind | none => false
      match serial, r.serial with
      | some a, some b =>
        if a.toNat != b then s1.dwyEvent n dwRebind rbMismatch
        else if !policy then s1.dwyEvent n dwRebind rbPolicy
        else match r.vcs with
          | some v =>
            if s.bridgeFree v r.bridge && (s.vppbAt p).isNone then (s1.bindPt v r.bridge p).dwyEvent n dwRebind rbDone
            else s1.dwyEvent n dwRebind rbBusy
          | none =>
            if (s.devAt p).isSome then s1.dwyEvent n dwRebind rbBusy
            else ((s1.endAdopt p (.adopted capacity a)).2).dwyEvent n dwRebind rbDone
      | _, _ => s1.dwyEvent n dwRebind rbNoSerial
    | _, _ => s

/-! ## Rows -/

/-- PRSNT_N_LOW (R401, R402): the count of T_INS starts, or starts again after a high sample. -/
def execPrsntNLow (ch : Dch) (t : Nat) (s0 : State) : Eff :=
  let s := s0.at t
  .next ((s.mapDch ch.toNat fun c => { c with prsHigh := false, prsT := s.now, cntT := some s.now }).dwySettle ch.toNat)

/-- PRESENCE_RECOGNISED (R402): PRSNT_N has been low without a break for T_INS. -/
def execPresenceRecognised (ch : Dch) (t : Nat) (s0 : State) : Eff :=
  let s := s0.at t
  let n := ch.toNat
  let c := s.dch n
  match c.cntT with
  | some x =>
    if c.prsHigh || s.now < x + dwNat c.par 14 * 1000000 then .next s
    else
      let s1 := s.mapDch n fun y => { y with present := true, cntT := none }
      let s2 := if c.present then s1
        else ((s1.setFld (DWY_CH_STAT_fPRS_EDGE n) 1).dwyEvent n dwInsert 0).notice ntcInsert (leBytes 1 n)
      .next (s2.dwySettle n)
  | none => .next s

/-- REMOVAL (R402, R414, R415): PRSNT_N has been high for 10 us. -/
def execRemoval (ch : Dch) (t : Nat) (s0 : State) : Eff :=
  let s := s0.at t
  let n := ch.toNat
  let c := s.dch n
  if c.prsHigh then .next s
  else
    let s1 := (s.mapDch n fun y => { y with prsHigh := true, prsT := s.now, present := false, cntT := none }).setFld
      (DWY_CH_STAT_fPRS_EDGE n) 1
    let s2 := if s.mod48Up then s1.removed n else s1
    let s3 := if c.present then ((s2.slotTeardown n).dwyEvent n dwRemove 0).notice ntcRemove (leBytes 1 n) else s2
    .next s3.pumpRamps

/-- The trip that the counters and the model of a channel give in one step, the lowest code first (R408, R410). -/
def DwCh.stepTrip (c : DwCh) : Option Nat :=
  if !c.on then none
  else if dwVal c.par 17 ≤ dwVal c.par 16 + (c.t1 * 10).floor then some 2
  else if 10 ≤ c.ov then some 4
  else if 10 ≤ c.uv then some 5
  else if 10 ≤ c.pgl then some 6
  else none

/-- One step of the thermal ladder (R408), dt = 1 us, and the sample taken. -/
def DwCh.advance (c : DwCh) (x : DwSample) (now : Nat) : DwCh :=
  let vin := x.vin.toNat
  let vsrc := x.vsrc.toNat
  let i := x.i.toNat
  let m := c.par
  let run := dwReady m && (c.on || (1 : Rat) / 10 ≤ c.t1)
  let pw : Rat := ((vin : Rat) - (vsrc : Rat)) * (i : Rat) / 10000
  let r := fun (j : Nat) => (dwVal m j : Rat) / 1000
  let k := fun (j : Nat) => (dwVal m j : Rat) / 10000
  let q1 := (c.t1 - c.t2) / r 19
  let q2 := (c.t2 - c.t3) / r 20
  let q3 := c.t3 / r 21
  let dt : Rat := 1 / 1000000
  let t1 := if run then c.t1 + dt * (pw - q1) / k 22 else c.t1
  let t2 := if run then c.t2 + dt * (q1 - q2) / k 23 else c.t2
  let t3 := if run then c.t3 + dt * (q2 - q3) / k 24 else c.t3
  let c1 := { c with vin := vin, vsrc := vsrc, i := i, p := (vin - vsrc) * i / 1000, t1 := t1, t2 := t2, t3 := t3 }
  let tj := tjOf m c1
  let held := c.ilimT + 1000000 ≤ now
  { c1 with
    peak := if c.peak < tj then tj else c.peak
    ftmr := if x.ilim == c.ilim then (if !x.ilim && held then 0 else c.ftmr)
      else if x.ilim then (if held then 0 else c.ftmr) else c.ftmr + (now - c.ilimT)
    ilimT := if x.ilim == c.ilim then c.ilimT else now
    ilim := c.on && x.ilim
    ov := if c.on && dwNat m 6 * 10 < vin then c.ov + 1 else 0
    uv := if c.on && vin < dwNat m 5 * 10 then c.uv + 1 else 0
    pgl := if (c.st == 5 || c.st == 6) && !x.ilim && dwNat m 10 * 10 < vin - vsrc then c.pgl + 1 else 0
    st := if c.st == 3 && vin - vsrc ≤ dwNat m 7 then 4 else c.st
    vgsT := if c.st == 4 && dwNat m 8 * 10 ≤ x.vgs.toNat then (if c.vgsT.isSome then c.vgsT else some now) else none }

/-- One channel sampled, its model advanced, its trips tested; while module 48 is down it stays in its state but for trips (R22). -/
def State.modelOne (s : State) (x : DwSample) : State :=
  let b := s.mapDch x.ch.toNat fun c => { c.advance x s.now with st := if s.mod48Up then (c.advance x s.now).st else c.st }
  match (b.dch x.ch.toNat).stepTrip with
  | some code => b.trip x.ch.toNat code
  | none => b

/-- MODEL_STEP (R404, R408, R410): every channel given takes a step. -/
def execModelStep (samples : List DwSample) (t : Nat) (s0 : State) : Eff :=
  let s := s0.at t
  .next (samples.foldl (fun a x => a.modelOne x) s).pumpRamps

/-- FAST (R410): the current is above twice the limit of the state. -/
def execFast (ch : Dch) (t : Nat) (s : State) : Eff := .next ((s.at t).trip ch.toNat 1).pumpRamps

/-- The fault timer of a channel in ns (R405). -/
def DwCh.faultNs (c : DwCh) (now : Nat) : Nat := c.ftmr + (if c.ilim then now - c.ilimT else 0)

/-- FAULT_TMR (R405): TFAULT_START in RAMP and ENHANCE, TFAULT_RUN in PGOOD and ON. -/
def execFaultTmr (ch : Dch) (t : Nat) (s0 : State) : Eff :=
  let s := s0.at t
  let c := s.dch ch.toNat
  let limit := if c.st ≤ 4 then dwNat c.par 12 * 1000000 else dwNat c.par 13 * 100000
  .next (if c.on && limit ≤ c.faultNs s.now then (s.trip ch.toNat 3).pumpRamps else s)

/-- ENH_TMO (R406): PGOOD not reached within VIN ÷ DVDT + T_ENH. -/
def execEnhTmo (ch : Dch) (t : Nat) (s0 : State) : Eff :=
  let s := s0.at t
  let c := s.dch ch.toNat
  let limit := c.rampV * 100000 / dwNat c.par 4 + dwNat c.par 9 * 1000000
  .next (if (c.st == 3 || c.st == 4) && c.rampT + limit ≤ s.now then (s.trip ch.toNat 7).pumpRamps else s)

/-- PGOOD (R406): VGS has been at VGS_ON for 1 ms with the ramp complete, and the limit is not active. -/
def execPgood (ch : Dch) (t : Nat) (s0 : State) : Eff :=
  let s := s0.at t
  let c := s.dch ch.toNat
  let due := match c.vgsT with | some x => x + 1000000 ≤ s.now | none => false
  .next (if c.st == 4 && due && !c.ilim && s.mod48Up then (s.mapDch ch.toNat fun y => { y with st := 5, pgT := s.now }).pumpRamps else s)

/-- PERST_RELEASE (R407): T_PERST has expired. -/
def execPerstRelease (ch : Dch) (t : Nat) (s0 : State) : Eff :=
  let s := s0.at t
  let c := s.dch ch.toNat
  .next (if c.st == 5 && s.mod48Up && c.pgT + dwNat c.par 11 * 1000000 ≤ s.now then
      (s.mapDch ch.toNat fun y => { y with st := 6, perst := true }).emit (.pin (.perstDn ch.toNat) true)
    else s)

/-- OFF_TIMER_EXPIRY (R413): with presence recognised, a full debounce starts. -/
def execOffTimerExpiry (ch : Dch) (t : Nat) (s0 : State) : Eff :=
  let s := s0.at t
  let c := s.dch ch.toNat
  match c.off with
  | some e =>
    .next (if s.now < e then s
      else (s.mapDch ch.toNat fun y => { y with off := none, cntT := if y.present then some s.now else y.cntT }).pumpRamps)
  | none => .next s

/-- GPIO_ENABLE (R412): a level of a GPIO that has been stable for 1 ms. -/
def execGpioEnable (n : BitVec 3) (high : Bool) (t : Nat) (s0 : State) : Eff :=
  let s := s0.at t
  let bit := 2 ^ n.toNat
  let base := s.pwr.gpio - (if bitOf s.pwr.gpio n.toNat then bit else 0)
  let s1 := { s with pwr := { s.pwr with gpio := if high then base + bit else base } }
  .next ((List.range 32).foldl (fun a k => if dwVal (a.dch k).par 26 == (n.toNat : Int) then a.dwySettle k else a) s1)

/-- EN of a channel written: 1 is ignored while a required parameter is invalid (R399, R421). -/
def State.setDwyEn (s : State) (n : Nat) (on : Bool) : State :=
  if on && !dwReady (s.dch n).coming then s else (s.mapDch n fun c => { c with en := on }).dwySettle n

/-- DWY_CH_EN (R412, R421): DWY_CH_CTL.EN written. -/
def execDwyChEn (path : Path) (ch : Dch) (on : Bool) (t : Nat) (s : State) : Eff :=
  .next ((s.at t).regWrite path (DWY_CH_CTL ch.toNat) fun a => a.setDwyEn ch.toNat on)

/-- MODULE48_DOWN (R361, R418): every channel keeps its state. -/
def State.mod48Down (s : State) : State := (s.setFld DWY_STAT_fLINK 0).setFld (OPF_MOD_STAT_fSTATE 48) 0

def execModule48Down (t : Nat) (s : State) : Eff := .next (s.at t).mod48Down

/-- A channel taken over when module 48 returns (R418): a removal recognised meanwhile acts, PERST_DN_N is low but in ON, and
the events missed are posted. -/
def State.takeChannel (s : State) (n : Nat) : State :=
  let c := s.dch n
  let s1 := if c.st == 6 then s else s.perstLow n
  let s2 := if c.on && !c.present then s1.removed n else s1
  let s3 := c.missed.foldl (fun a k => a.dwyEvent n k (if k = dwTrip then c.cause else 0)) (s2.mapDch n fun x => { x with missed := [] })
  s3.dwySettle n

/-- MODULE48_UP (R418). -/
def State.mod48Return (s : State) : State :=
  if s.mod48Up then s else (s.dwy.map (·.1)).foldl (fun a n => a.takeChannel n) ((s.setFld DWY_STAT_fLINK 1).setFld (OPF_MOD_STAT_fSTATE 48) 1)

def execModule48Up (t : Nat) (s : State) : Eff := .next (s.at t).mod48Return

/-! ## Commands (R420, R438) -/

/-- Channels of a mask. -/
def maskChans (mask : Nat) : List Nat := (List.range 32).filter fun n => bitOf mask n

/-- DOORWAY_ENABLE (R399, R412). -/
def cmdDoorwayEnable (mask en : Nat) : Cmd :=
  { opcode := 0x0801
    bad := fun s => firstBad [(en == 1 && (maskChans mask).any fun n => !dwReady (s.dch n).coming, 0), (1 < en, 4)]
    run := fun s => if !s.mod48Up then .refuse .busy 0
      else .ok [] ((maskChans mask).foldl (fun a n => a.setDwyEn n (en == 1)) s) }

def execDoorwayEnable (h : Hdr) (mask : Word) (en : Byte) (s : State) : Eff := s.dermel h (cmdDoorwayEnable mask.toNat en.toNat)

/-- DOORWAY_SET (R400): the values take effect at the channel's next ramp. -/
def cmdDoorwaySet (ch valid : Nat) (vals : List Word) : Cmd :=
  let mine := ((List.range 27).filter fun j => bitOf valid j).map fun j => (j, (vals.getD j 0).toInt)
  let laid := fun (m : NMap Int) => mine.foldl (fun a p => NMap.set a p.1 p.2) m
  { opcode := 0x0802
    bad := fun s => match firstBad [(32 ≤ ch, 0), (2 ^ 27 ≤ valid, 4)] with
      | some o => some o
      | none => match mine.find? fun p => !dwRange p.1 p.2 with
        | some p => some (8 + 4 * p.1)
        | none => let m := laid (s.dch ch).coming
          if (bitOf valid 5 || bitOf valid 6) && dwOwn m 6 ≤ dwOwn m 5 then some (8 + 4 * (if bitOf valid 5 then 5 else 6)) else none
    run := fun s => if !s.mod48Up || 2 ≤ (s.dch ch).st then .refuse .busy 0
      else .ok [] (s.mapDch ch fun c => { c with next := laid c.next }) }

def execDoorwaySet (h : Hdr) (ch : Byte) (valid : Word) (vals : List Word) (s : State) : Eff :=
  s.dermel h (cmdDoorwaySet ch.toNat valid.toNat vals)

/-- An integer as four bytes in two's complement. -/
def intBytes (v : Int) : List Byte := leBytes 4 ((v % 4294967296).toNat)

/-- DOORWAY_QUERY. -/
def cmdDoorwayQuery (ch : Nat) : Cmd :=
  { opcode := 0x0803
    bad := fun _ => firstBad [(32 ≤ ch, 0)]
    run := fun s =>
      let c := s.dch ch
      if !s.mod48Up then .refuse .busy 0
      else .ok (((List.range 27).flatMap fun j => intBytes (dwVal c.par j)) ++ leBytes 4 (s.dwyStat ch) ++ leBytes 4 c.vImage ++
        leBytes 4 c.iImage ++ leBytes 4 c.tjImage ++ intBytes (c.t2 * 100).floor ++ intBytes (c.t3 * 100).floor ++
        (match c.ret with
          | some r => leBytes 8 (r.serial.getD 0) ++ leBytes 1 (r.vcs.getD 0) ++ leBytes 1 r.bridge
          | none => leBytes 10 0)) s }

def execDoorwayQuery (h : Hdr) (ch : Byte) (s : State) : Eff := s.dermel h (cmdDoorwayQuery ch.toNat)

/-- DOORWAY_POLICY (R417). -/
def cmdDoorwayPolicy (froom rebind : Nat) : Cmd :=
  { opcode := 0x0804, names := [froom]
    room := fun s fid => s.ownRoom froom fid
    bad := fun s => firstBad [((s.localRoom froom).isNone, 0), (1 < rebind, 1)]
    run := fun s => match s.localRoom froom with
      | some r => .ok [] (s.mapRoom r fun x => { x with rebind := rebind == 1 })
      | none => .refuse .badParam 0 }

def execDoorwayPolicy (h : Hdr) (froom rebind : Byte) (s : State) : Eff := s.dermel h (cmdDoorwayPolicy froom.toNat rebind.toNat)

end Sys2Proof.Machine
end

