-- ==== Sys2Proof/Machine/Flit.lean ====
section
/-! DEFINITION. Messages that arrive on a port: notices (R162), decoding (R25, R46, R47), routing (R328 to R330), undecoded
requests (R332), protocol violations of a port (R333), and configuration of virtual bridges (R322). -/

namespace Sys2Proof.Machine

/-! ## Violations (R333) -/

/-- A port protocol violation counted and recorded; more than PV_LIMIT in one interval of 1 ms take the link down. -/
def State.viol (s : State) (p kind : Nat) (m : MsgIn) : State :=
  let src := if s.role p == rolePool || s.role p == rolePt then s.portId p else m.host.toNat
  let s1 := ((s.bump (PRT_PV_STAT_fPV_CNT p)).setFld (PRT_PV_STAT_fPV_SEEN p) 1).setReg (PRT_PV_LAST p)
    (BitVec.ofNat 32 (packBits [(src, 12), (kind, 8)]))
  let s2 := (s1.setReg (PRT_PV_TAG p) (m.tag.setWidth 32)).record
    { checker := 0x4100, source := srcPort, unit := p, tag := m.tag.toNat, addr := m.addr.toNat, payload := kind }
  let i := s.now / 1000000
  let n := if (s.port p).pvT = i then (s.port p).pv + 1 else 1
  let s3 := s2.mapPort p fun x => { x with pv := n, pvT := i }
  let lim := s.fld (PRT_PROTO_CFG_fPV_LIMIT p)
  if lim != 0 && lim < n then s3.linkDown p 1 else s3

/-- An AER error logged at the receiving virtual bridge and reported to its host: the virtual upstream bridge of an upstream port, the
virtual downstream bridge of a pass-through port; no virtual bridge receives on the other ports. -/
def State.aer (s : State) (p host : Nat) : State :=
  if s.role p == roleUpstream then s.bridgeMsg p host 0 evtAer
  else match s.vppbAt p with
    | some b => s.bridgeMsg b.vcs (s.portId b.vcs) b.bridge evtAer
    | none => s

/-! ## Notices (R24, R162, R164) -/

/-- REQ credit channel that a message spends (R76, R170): BIConflict takes an M2S Req credit. -/
def credChan : MKind → Option Nat
  | .memRd | .memRdData | .memInv | .memInvNT | .memSpecRd | .biConflict => some 0
  | .ioWrite => some 1
  | .ioRead | .ioCfg | .ioAtomic _ | .uio => some 2
  | .d2hReq => some 5
  | _ => none

/-- Data credits, of 16 bytes, that a CXL.io request spends, and their channel (R170). -/
def dataCredits (m : MsgIn) : Nat := (msgData m + 15) / 16
def dataChan (m : MsgIn) : Nat := if m.kind == .ioWrite then 3 else 4

/-- Cells of a class that a port's messages hold. -/
def State.clsCells (s : State) (p : Nat) (c : Cls) : Nat :=
  s.home.vst.foldl (fun n v => if v.port == p && v.cls == c then n + v.cells else n) 0

/-- Messages of a port in its Vestibule whose kinds a channel carries, and the data credits that they hold. -/
def State.chanUse (s : State) (p : Nat) (f : MKind → Bool) : Nat × Nat :=
  s.home.vst.foldl (fun n v => if v.port == p && f v.m.kind then (n.1 + 1, n.2 + dataCredits v.m) else n) (0, 0)

/-- Has an upstream port's partner a credit of a channel whose credits the class reserves back (R561)? -/
def State.fixedCredit (s : State) (p : Nat) (m : MsgIn) : Bool :=
  let w := s.portWidth p
  let use := fun (f : MKind → Bool) => (s.chanUse p f).1
  match m.kind with
  | .memWr | .memWrPtl => use (fun k => k == .memWr || k == .memWrPtl) < 128
  | .biRspI | .biRspS | .biRspE => use (fun k => k == .biRspI || k == .biRspS || k == .biRspE) < 512
  | .ioCpl => use (· == .ioCpl) < 16 * w && (s.chanUse p (· == .ioCpl)).2 + dataCredits m ≤ 256 * w
  | .h2dReq => use (· == .h2dReq) < 128
  | .h2dRsp => use (· == .h2dRsp) < 16 * w
  | .h2dData => use (· == .h2dData) < 32 * w
  | _ => true

/-- Does a message come by the extra credit of R76: the port has no M2S Req credit left, and the host holds it? -/
def State.byExtra (s : State) (p : Nat) (m : MsgIn) : Bool :=
  credChan m.kind == some 0 && s.creds p 0 == 0 && s.home.extra.contains m.host.toNat

/-- Has the partner a credit for a message (R76, R170, R561)? -/
def State.hasCredit (s : State) (p : Nat) (m : MsgIn) : Bool :=
  let role := s.role p
  let c := msgCls role m.kind
  if role == roleUpstream || role == rolePt then
    match credChan m.kind with
    | some ch => s.byExtra p m || s.credMax p ch == 0 ||
        (s.creds p ch != 0 && (ch == 0 || ch == 5 || dataCredits m ≤ s.creds p (dataChan m)))
    | none =>
      if role == roleUpstream then s.fixedCredit p m
      else c == .req || s.clsCells p c + msgCells m ≤ reserveCells role (s.portWidth p) c
  else s.clsCells p c + msgCells m ≤ reserveCells role (s.portWidth p) c

/-- The credits of an arriving message spent: their commitment becomes its cells (R170). -/
def State.spendCredit (s : State) (p : Nat) (m : MsgIn) : State :=
  match credChan m.kind with
  | some ch =>
    if s.byExtra p m then s.mapHome fun h => { h with extra := h.extra.erase m.host.toNat }
    else
      let take := fun (a : State) (c n : Nat) => if n = 0 then a
        else a.mapHome fun h => { h with credits := NMap.set h.credits (credKey p c) (a.creds p c - n) }
      if ch == 0 || ch == 5 then take s ch 1 else take (take s ch 1) (dataChan m) (dataCredits m)
  | none => s

/-- A request of a CLOSING Room discarded: one synthetic completion, logged with cause teardown (R205 D2). -/
def State.discardD2 (s : State) (v : VMsg) : State :=
  let s1 := ((s.leave v).synth v.port v.port v.m).record
    { checker := 0x4300, source := srcPort, unit := v.port, room := v.room.getD 0, tag := v.m.tag.toNat, addr := v.m.addr.toNat,
      payload := packBits [(s.now - v.t0, 64), (v.cls.rank, 8), (1, 8)] }
  match v.room with
  | some r => s1.mapRoom r fun x => { x with d2 := x.d2 + 1 }
  | none => s1

/-- The parity of the beats of a message that crosses to a home unit: true means a failure. -/
def State.xbarCheck (s : State) (hu : Nat) (plane : Bool) : Bool × State :=
  let (seen, s1) := s.check1 (xbarChecker hu plane) 1 false
  (seen != .clean, s1)

/-- A message's notice (R162): it is whole in the Vestibule, charged, coloured, and a member of its queues. A checker
error of its cells discards it with the answer of R183; one of its descriptor is fatal (R449). -/
def State.notice_ (s : State) (p : Nat) (m : MsgIn) (dst : Dest) (win : Option Nat) (off : Nat) (line : Option Nat) : State :=
  let (id, s1) := s.fresh1
  let cls := msgCls (s.role p) m.kind
  let (yellow, s2) := s1.charge p m
  let plane := match line with
    | some l => linePlane l
    | none => flowHash p (match dst with
        | .egress q => if s.role q == roleFabric then m.dpid.toNat else s.portId q
        | .home _ => s.fab.fid.getD 0) (chanCode m.kind) % 2 == 1
  let v : VMsg := { id := id, port := p, cls := cls, room := s.portRoom p, t0 := s.now, dst := dst, plane := plane, win := win,
                    off := off, cells := msgCells m, shared := 0, yellow := yellow && cls == .req, bytes := msgData m, m := m }
  let s3 := s2.mapHome fun h => { h with vst := h.vst ++ [v] }
  let s4 := match dst with
    | .egress q => s3.join q id cls v.yellow
    | .home _ => s3
  let die := s.portDie p
  let (bad3, s5) := s4.checkRetry { checker := 0x0300 + die, source := srcPort, unit := p, tag := m.tag.toNat }
  let (bad4, s6) := s5.checkRetry { checker := 0x0400 + die, source := srcPort, unit := p, tag := m.tag.toNat }
  let (beat, s6) := match dst with
    | .home hu => s6.xbarCheck hu plane
    | .egress _ => (false, s6)
  if bad4 then s6.fatal { checker := 0x0400 + die, source := srcPort, unit := p, tag := m.tag.toNat, injected := true }
  else if bad3 then ((s6.leave v).synth p p m).record
    { checker := 0x0300 + die, source := srcPort, unit := p, tag := m.tag.toNat, injected := true }
  else if cls == .req && (match v.room with | some r => s6.closing r | none => false) then s6.discardD2 v
  else if !beat then s6
  else match dst with
    | .home hu =>
      if v.bytes = 0 then s6.fatal { checker := xbarChecker hu plane, source := srcHome, unit := hu, tag := m.tag.toNat, injected := true }
      else (s6.mapHome fun h => { h with vst := h.vst.map fun x =>
          if x.id == id then { x with m := { x.m with poison := true } } else x }).record
        { checker := xbarChecker hu plane, source := srcHome, unit := hu, tag := m.tag.toNat, injected := true }
    | .egress _ => s6

/-- A message for another port; one to a port whose link is down is handled as a queued one (R335). -/
def State.forward (s : State) (p q : Nat) (m : MsgIn) (win : Option Nat) (off : Nat) (line : Option Nat) : State :=
  if s.inL0 q then s.notice_ p m (.egress q) win off line
  else if awaits m.kind || m.kind == .ioWrite then
    let v : VMsg := { id := 0, port := p, cls := msgCls (s.role p) m.kind, room := s.portRoom p, t0 := s.now, dst := .egress q,
                      plane := false, win := win, off := off, cells := 0, shared := 0, yellow := false, bytes := 0, m := m }
    s.failReq q v
  else s

/-! ## Decoding on an upstream port (R25, R46, R47) -/

/-- Address by which another switch is told the window and the offset (log 32). -/
def winAddr (w off : Nat) : B64 := BitVec.ofNat 64 (w * 2 ^ 52 + off)

/-- What the access mode of a decode entry makes of a request (R47, R106): OWN reads of a read-only entry go on as SHR; none: it is
refused, as the home would refuse it. -/
def RemoteWin.mode (r : RemoteWin) (m : MsgIn) : Option MsgIn :=
  if r.rw then some m
  else match m.kind with
    | .memRd => some (if m.mval == .a then { m with mval := .s } else m)
    | .memRdData => some { m with kind := .memRd, mval := .s }
    | .memInv | .memInvNT | .memWr | .memWrPtl | .ioWrite | .ioAtomic _ => none
    | _ => some m

/-- A message to a window that is homed at another switch: over a fabric port, with the window offset in place of the HPA
(R47, R329). -/
def State.toHome (s : State) (p : Nat) (m0 : MsgIn) (r : RemoteWin) (off : Nat) : State :=
  match r.mode m0 with
  | none => s.synth p p m0
  | some m =>
    let m1 := { m with addr := winAddr r.window off, dpid := BitVec.ofNat 12 r.home }
    match s.routeTo r.home (if byLine m.kind then crc64 (off / 64) else flowHash p r.home (chanCode m.kind)) with
    | some q => s.forward p q m1 (some r.window) off (if byLine m.kind then some (off / 64) else none)
    | none => s.synth p p m

/-- The pass-through bridge of a virtual switch whose ranges hold an address (R25). -/
def State.bridgeOf (s : State) (p addr : Nat) : Option Vppb :=
  s.ports.vppb.find? fun v => v.vcs == p && ((v.base ≤ addr && addr ≤ v.limit) || (v.pbase ≤ addr && addr ≤ v.plimit))

/-- The window whose logical device has this address in its BAR0, and the binding (R49, R207). -/
def State.barOf (s : State) (p host addr : Nat) : Option (Nat × Binding) :=
  s.pool.wins.findSome? fun w =>
    match w.2.bind? host with
    | some b => if b.port == p && b.bar != 0 && b.bar ≤ addr && addr < b.bar + 0x1000000 then some (w.1, b) else none
    | none => none

/-- A request that decodes to no target (R332). -/
def State.undecoded (s : State) (p : Nat) (m : MsgIn) : State :=
  match m.kind with
  | .ioRead | .ioCfg | .ioAtomic _ | .uio => s.push p .cmp p (.ioCpl m.host.toNat m.tag.toNat .ur [] false)
  | .ioWrite => s.aer p m.host.toNat
  | .biRspI | .biRspS | .biRspE | .biConflict => s.viol p 2 m
  | _ => (s.synth p p m).viol p 4 m

/-- The window and offset that a binding whose decode entry is removed still gives a host's address (R54). -/
def State.recordAddr (s : State) (port host addr : Nat) : Option (Nat × Nat × Window × Binding) :=
  s.pool.wins.findSome? fun p =>
    match p.2.bind? host with
    | some b =>
      if b.port == port && b.hpa ≤ addr && addr < b.hpa + p.2.bytes then some (p.1, addr - b.hpa, p.2, b) else none
    | none => none

/-- A message without a decode entry that the binding record still serves: the snoop answers and writebacks that R54 step 3
collects, and what R96 refuses. -/
def State.servedBy (s : State) (m : MsgIn) (off : Nat) (x : Window) (b : Binding) : Bool :=
  x.type == .shared && (match m.kind with
    | .biRspI | .biRspS | .biRspE | .biConflict => true
    | .memWr | .memWrPtl => b.r96 || s.isWbk m x (x.lineAt off)
    | _ => false)

/-- Where a CXL.mem message on an upstream port decodes to: by the lane die's table (R47), else by the binding record. -/
def State.memTarget (s : State) (p : Nat) (m : MsgIn) : Option (Nat × Nat) :=
  match s.decodeAddr p m.host.toNat m.addr.toNat with
  | some d => some d
  | none =>
    match s.recordAddr p m.host.toNat m.addr.toNat with
    | some (w, off, x, b) => if s.servedBy m off x b then some (w, off) else none
    | none => none

/-- A CXL.mem message on an upstream port. -/
def State.memIn (s : State) (p : Nat) (m : MsgIn) : State :=
  let a := m.addr.toNat
  match s.memTarget p m with
  | some (w, off) =>
    let line := match s.win? w with | some x => x.lineAt off | none => 0
    s.notice_ p m (.home (lineHu line)) (some w) off (some line)
  | none =>
    match s.decodeRemote p m.host.toNat a with
    | some (r, off) => s.toHome p m r off
    | none =>
      match s.bridgeOf p a with
      | some b => s.forward p b.port m none 0 none
      | none => s.undecoded p m

/-- The window with an atomic alias that holds an address of a host in BAR2 of its logical device, and the offset (R49, R51). -/
def State.aliasOf (s : State) (p host addr : Nat) : Option (Nat × Window × Nat) :=
  s.pool.wins.findSome? fun w =>
    match w.2.bind? host with
    | some b => if w.2.atomic && b.port == p && b.bar2 != 0 && b.bar2 ≤ addr && addr < b.bar2 + w.2.aliasSize
        then some (w.1, w.2, addr - b.bar2) else none
    | none => none

/-- A request to the atomic alias (R51, R122): an AtomicOp goes to the home of its line; any other request is an Unsupported
Request (check 1). -/
def State.aliasIn (s : State) (p : Nat) (m : MsgIn) (w : Nat) (x : Window) (off : Nat) : State :=
  match m.kind with
  | .ioAtomic _ => s.notice_ p m (.home (lineHu (x.lineAt off))) (some w) off (some (x.lineAt off))
  | .ioWrite => s.aer p m.host.toNat
  | _ => s.push p .cmp p (.ioCpl m.host.toNat m.tag.toNat .ur [] false)

/-- A CXL.io memory request on an upstream port: BAR0 or BAR2 of a logical device, else the memory that its address decodes to. An
AtomicOp by HPA is carried out as one to the alias (DESIGN CHOICE, log 217). -/
def State.ioIn (s : State) (p : Nat) (m : MsgIn) : State :=
  let a := m.addr.toNat
  match s.barOf p m.host.toNat a with
  | some (w, b) => s.notice_ p m (.home (lineHu 0)) (some w) (a - b.bar) none
  | none =>
    match s.aliasOf p m.host.toNat a with
    | some (w, x, off) => s.aliasIn p m w x off
    | none => s.memIn p m

/-! ## Configuration requests (R322; standard bridges, log 33) -/

/-- Bits of a configuration address: bus, virtual bridge index or device, register. -/
def cfgBus (a : Nat) : Nat := bitsOf a 20 8
def cfgBridge (a : Nat) : Nat := bitsOf a 15 5 + 32 * bitsOf a 12 3
def cfgReg (a : Nat) : Nat := bitsOf a 2 10 * 4

/-- A write to the standard header of a pass-through virtual bridge: bus numbers and ranges. -/
def Vppb.cfgWrite (b : Vppb) (reg v : Nat) : Vppb :=
  if reg = 0x18 then { b with sec := bitsOf v 8 8, sub := bitsOf v 16 8 }
  else if reg = 0x20 then { b with base := bitsOf v 4 12 * 2 ^ 20, limit := bitsOf v 20 12 * 2 ^ 20 + 0xFFFFF }
  else if reg = 0x24 then { b with
    pbase := b.pbase / 2 ^ 32 * 2 ^ 32 + bitsOf v 4 12 * 2 ^ 20
    plimit := b.plimit / 2 ^ 32 * 2 ^ 32 + bitsOf v 20 12 * 2 ^ 20 + 0xFFFFF }
  else if reg = 0x28 then { b with pbase := v * 2 ^ 32 + b.pbase % 2 ^ 32 }
  else if reg = 0x2C then { b with plimit := v * 2 ^ 32 + b.plimit % 2 ^ 32 }
  else b

/-- A configuration request answered by the switch: a read returns the register's value, or a value that the spec leaves to the
standard (log 3). -/
def State.cfgDone (s : State) (p : Nat) (m : MsgIn) (value : Option Nat := none) : State :=
  if m.be != 0 then s.push p .cmp p (.ioCpl m.host.toNat m.tag.toNat .sc [] false)
  else match value with
  | some v => s.push p .cmp p (.ioCpl m.host.toNat m.tag.toNat .sc (leBytes 4 v) false)
  | none =>
    let (bs, s1) := s.freeBytes 4
    s1.push p .cmp p (.ioCpl m.host.toNat m.tag.toNat .sc bs false)

/-- A configuration request on an upstream port: the virtual upstream bridge, a virtual downstream bridge, a window's
logical device, or a device below a pass-through bridge. -/
def State.cfgIn (s : State) (p : Nat) (m : MsgIn) : State :=
  let a := m.addr.toNat
  let bus := cfgBus a
  let k := cfgBridge a
  let v := m.data.toNat % 2 ^ 32
  let wr := m.be != 0
  let mine := s.pool.wins.findSome? fun w =>
    (w.2.binds.find? fun b => b.port == p && b.bridge == k).map fun b => (w.1, b.host)
  if bus = 0 then (if k = 0 then s.cfgDone p m else s.undecoded p m)
  else if bus = 1 then
    match s.ports.vppb.find? fun x => x.vcs == p && x.bridge == k, mine with
    | some b, _ =>
      (s.mapPorts fun x => { x with
        vppb := if wr then x.vppb.map fun y => if y == b then y.cfgWrite (cfgReg a) v else y else x.vppb }).cfgDone p m
    | none, some (w, h) =>
      (if wr && cfgReg a = 0x18 then s.mapBind w h fun b => { b with sec := bitsOf v 8 8 } else s).cfgDone p m
    | none, none => s.undecoded p m
  else
    match s.ports.vppb.find? fun x => x.vcs == p && x.sec ≤ bus && bus ≤ x.sub with
    | some b => s.forward p b.port m none 0 none
    | none =>
      match s.pool.wins.findSome? fun w => (w.2.binds.find? fun b => b.port == p && b.sec == bus).map fun b => (w.1, w.2, b) with
      | some (w, x, b) =>
        (if wr then s.ldCfgPut w b.host (cfgReg a) v m.be.toNat else s).cfgDone p m (s.ldCfg x b (cfgReg a))
      | none => s.undecoded p m

/-! ## Answers from a partner (R330, R333 kinds 02h, 07h, 0Bh) -/

/-- Is a request answered by two messages: a read's MemData and Cmp, a D2H Req's H2D Rsp and Data, a snoop's D2H Rsp and Data? -/
def twoAnswers (q : MsgIn) : Bool := expectsData q.kind || (q.kind == .d2hReq && q.len != 0) || q.kind == .h2dReq

/-- Does an answer end the request that it answers, as its kinds stand? -/
def endsReq (q : MsgIn) (m : MsgIn) (got : Nat) : Bool :=
  match m.kind with
  | .ioCpl => q.kind != .ioRead || m.len = 0 || q.len ≤ got + m.len
  | _ => true

/-- May an answer of this kind answer a request of that kind? -/
def answers (q m : MKind) : Bool :=
  match m with
  | .ndr | .drs => (match q with | .memRd | .memRdData | .memInv | .memInvNT | .memWr | .memWrPtl => true | _ => false)
  | .ioCpl => (match q with | .ioRead | .ioCfg | .ioAtomic _ => true | _ => false)
  | .d2hRsp | .d2hData => q == .h2dReq
  | .h2dRsp | .h2dData => q == .d2hReq
  | _ => false

/-- The record that an answer on a port matches: by tag and requester; on a fabric port by the tag of the group that the request
left by, whose members all may carry it, else by the requester that it names, whichever switch produces it (R61, R330). -/
def State.matchSent (s : State) (p : Nat) (m : MsgIn) : Option Sent :=
  let may := fun (x : Sent) => answers x.v.m.kind m.kind && x.tag == m.tag.toNat
  if s.role p == roleFabric then
    match s.ports.sent.find? fun x => may x && s.role x.port == roleFabric && (s.port x.port).neighbour == (s.port p).neighbour with
    | some x => some x
    | none => s.ports.sent.find? fun x => may x && s.role x.port == roleFabric && x.v.m.host == m.dpid
  else s.ports.sent.find? fun x => may x && x.port == p && x.v.m.host == m.host

/-- A sent request whose record is freed; a fabric tag rests for the drain time (R330). The first of two answers frees the record and
leaves the way of the second known. -/
def State.freeSent (s : State) (x : Sent) (half : Bool := false) : State :=
  let same := fun (y : Sent) => y.port == x.port && y.tag == x.tag && y.v.id == x.v.id
  s.mapPorts fun q => { q with
    sent := if half then q.sent.map fun y => if same y then { y with half := true } else y else q.sent.filter fun y => !same y
    ftagFree := if s.role x.port == roleFabric && !x.half then q.ftagFree ++ [(x.port, x.tag, s.now + s.drainNs)] else q.ftagFree }

/-- A check of a fabric request record (type 05h). -/
def recReport (die p : Nat) (m : MsgIn) : Report :=
  { checker := 0x0500 + die, source := srcPort, unit := p, tag := m.tag.toNat }

/-- An answer: forwarded to the requester under its own tag; without a match it is violation 02h, with a wrong length 07h. -/
def State.answerIn (s : State) (p : Nat) (m : MsgIn) : State :=
  let (hurt, s) := if s.role p == roleFabric then s.checkRetry (recReport (s.portDie p) p m) else (false, s)
  if hurt then s.fatal { recReport (s.portDie p) p m with injected := true } else
  match s.matchSent p m with
  | none => s.viol p 2 m
  | some x =>
    let bad := m.kind == .ioCpl && (match x.v.m.kind with
      | .ioRead => x.v.m.len < x.got + m.len
      | .ioAtomic _ => m.len != 0 && m.len != x.v.m.len
      | .ioCfg => m.len != 0 && (x.v.m.be != 0 || m.len != 4)
      | _ => false)
    if bad then ((s.freeSent x).push x.v.port .cmp x.v.port (.ioCpl x.v.m.host.toNat x.v.m.tag.toNat .ca [] false)).viol p 7 m
    else
      let s1 := if endsReq x.v.m m x.got then s.freeSent x (twoAnswers x.v.m && !x.half)
        else s.mapPorts fun q => { q with sent := q.sent.map fun y =>
          if y.port == x.port && y.tag == x.tag && y.v.id == x.v.id then { y with got := y.got + m.len } else y }
      s1.forward p x.v.port { m with tag := x.v.m.tag, host := x.v.m.host, dpid := x.v.m.host } none 0 none

/-! ## One message by the role of its port -/

/-- The synthetic completion of R183 for a request that a violation discards; nothing for another message. -/
def State.synthReq (s : State) (p : Nat) (m : MsgIn) : State :=
  match m.kind with
  | .uio => s.push p .cmp p (.ioCpl m.host.toNat m.tag.toNat .ca [] false)
  | _ => s.synth p p m

/-- CXL.cache from a device or to one (R316): a pass-through binding that enables it carries it; else violation 06h. -/
def State.cacheIn (s : State) (p : Nat) (m : MsgIn) : State :=
  let b := s.ports.vppb.find? fun v => v.cache &&
    (if s.role p == rolePt then v.port == p else v.vcs == p && (m.kind != .h2dReq || v.cacheId == m.host.toNat % 16))
  match b, m.kind with
  | none, .d2hReq => (s.push p .cmp p (.goErr m.host.toNat m.tag.toNat (0 < m.len))).viol p 6 m
  | none, _ => s.viol p 6 m
  | some v, .d2hReq => if s.role p == rolePt then s.forward p v.vcs m none 0 none else s.viol p 1 m
  | some v, .h2dReq => if s.role p == rolePt then s.viol p 1 m else s.forward p v.port m none 0 none
  | some v, .d2hData =>
    -- data that a device writes back answers no request here (R30)
    if (s.matchSent p m).isNone && s.role p == rolePt then s.forward p v.vcs m none 0 none else s.answerIn p m
  | some _, _ => s.answerIn p m

/-- A message on a POOL port: responses to the switch's requests; anything else is a violation (R167, R333). -/
def State.poolIn (s : State) (p : Nat) (m : MsgIn) : State :=
  match m.kind with
  | .biConflictAck => s.viol p 2 m
  | .ndr | .drs =>
    match (s.port p).quar.find? fun i => i % 65536 == m.tag.toNat with
    | some i =>
      let s1 := s.mapPort p fun x => { x with quar := x.quar.erase i }
      ((s1.setFld (PRT_PROTO_STAT_fQUAR p) (s1.port p).quar.length).pumpDev).viol p 11 m
    | none =>
      match s.home.memq.find? fun r => r.sent && r.id % 65536 == m.tag.toNat && !s.answered r &&
          (match r.tgt with | .dev h _ => s.devPort h == p | _ => false) with
      | some r => (s.mapPort p fun x => { x with devLoad := m.devLoad.toNat }).notice_ p m (.home r.hu) none 0 (some r.line)
      | none => s.viol p 2 m
  | .ioCpl => s.answerIn p m
  | .biSnp => (s.push p .srsp p (.fwd { m with kind := .biRspI })).viol p 5 m
  | .malformed => (s.aer p m.host.toNat).viol p 1 m
  | .ioRead | .ioCfg | .ioAtomic _ | .uio => (s.push p .cmp p (.ioCpl m.host.toNat m.tag.toNat .ur [] false)).viol p 4 m
  | .memRd | .memRdData | .memInv | .memInvNT | .memSpecRd | .memWr | .memWrPtl => (s.synth p p m).viol p 4 m
  | .d2hReq => (s.push p .cmp p (.goErr m.host.toNat m.tag.toNat (0 < m.len))).viol p 6 m
  | .d2hRsp | .d2hData | .h2dReq | .h2dRsp | .h2dData => s.viol p 6 m
  | .ioWrite | .biRspI | .biRspS | .biRspE | .biConflict => s.viol p 4 m

/-- A message on an UPSTREAM port. -/
def State.upIn (s : State) (p : Nat) (m : MsgIn) : State :=
  match m.kind with
  | .memRd | .memRdData | .memInv | .memInvNT | .memSpecRd | .memWr | .memWrPtl => s.memIn p m
  | .biRspI | .biRspS | .biRspE | .biConflict => s.memIn p m
  | .ioRead | .ioWrite | .ioAtomic _ => s.ioIn p m
  | .ioCfg => s.cfgIn p m
  | .uio => s.undecoded p m
  | .ioCpl | .ndr | .drs => s.answerIn p m
  | .d2hReq | .d2hRsp | .d2hData | .h2dReq | .h2dRsp | .h2dData => s.cacheIn p m
  | .biSnp | .biConflictAck | .malformed => (s.aer p m.host.toNat).viol p 1 m

/-- A message on a DOWNSTREAM_PT port: requests of the device go upstream (R318), answers to their requesters. -/
def State.ptIn (s : State) (p : Nat) (m : MsgIn) : State :=
  match m.kind with
  | .ioRead | .ioWrite | .ioAtomic _ =>
    match s.vppbAt p with
    | some b => s.forward p b.vcs m none 0 none
    | none => s.undecoded p m
  | .ioCfg | .uio => s.undecoded p m
  | .ioCpl | .ndr | .drs => s.answerIn p m
  | .d2hReq | .d2hRsp | .d2hData | .h2dReq | .h2dRsp | .h2dData => s.cacheIn p m
  | _ => (s.aer p m.host.toNat).viol p 1 m

/-- Is a fabric ID reached through the group of a fabric port (R333 kind 09h)? -/
def State.reaches (s : State) (p fid : Nat) : Bool :=
  match NMap.get? s.ports.route fid, (s.port p).neighbour with
  | some (sw, true), some n => sw == n
  | _, _ => false

/-- A violation of routing: a request receives the synthetic completion of R183, routed by its SPID; without a route the
answer goes to the overflow log with its tag (kinds 08h and 09h). -/
def State.misrouted (s : State) (p kind : Nat) (m : MsgIn) : State :=
  let s1 := match s.routeTo m.host.toNat 0 with
    | some q => s.synthReq q { m with dpid := m.host }
    | none =>
      if msgCls (s.role p) m.kind == Cls.req || m.kind == MKind.memWr || m.kind == MKind.memWrPtl then
        (s.logRecord (s.eventOf { checker := 0x4100, source := srcPort, unit := p, tag := m.tag.toNat, payload := kind })).mapFlt fun f =>
          { f with seq := (f.seq + 1) % 4294967296 }
      else s
  s1.viol p kind m

/-- A message for this switch on a fabric port: a request or snoop answer for a window that is homed here, or an answer. -/
def State.fabricHere (s : State) (p : Nat) (m : MsgIn) : State :=
  let a := m.addr.toNat
  match m.kind with
  | .memRd | .memRdData | .memInv | .memInvNT | .memSpecRd | .memWr | .memWrPtl | .biRspI | .biRspS | .biRspE | .biConflict
  | .ioRead | .ioWrite | .ioAtomic _ =>
    let target := if bitOf a 51 then
        let pa := a % 2 ^ 48
        (s.winOfLine (pa / 64)).bind fun w => (s.win? w).map fun x => (w, pa - x.base, x)
      else (s.win? (bitsOf a 52 12)).map fun x => (bitsOf a 52 12, a % 2 ^ 48, x)
    match target with
    | some (w, off, x) =>
      if off < x.bytes then s.notice_ p m (.home (lineHu (x.lineAt off))) (some w) off (some (x.lineAt off))
      else (s.synthReq p m).viol p 4 m
    | none => (s.synthReq p m).viol p 4 m
  | .ndr | .drs | .ioCpl | .h2dRsp | .h2dData | .d2hRsp | .d2hData =>
    match s.matchSent p m with
    | some _ => s.answerIn p m
    | none =>
      match s.home.memq.find? fun r => r.id % 65536 == m.tag.toNat && (match r.tgt with | .remote .. => true | _ => false) with
      | some r => s.notice_ p m (.home r.hu) none 0 (some r.line)
      | none => s.viol p 2 m
  | .d2hReq | .h2dReq => s.cacheIn p m
  | _ => s.viol p 1 m

/-- Is a message an answer that finds its requester by ID and tag (R61, R330)? -/
def isAnswer : MKind → Bool
  | .ndr | .drs | .ioCpl | .h2dRsp | .h2dData | .d2hRsp | .d2hData => true
  | _ => false

/-- Does another switch send on to this one what arrives for a window that it hands over (R60 H2)? Its requesters may be anywhere. -/
def State.sentOnHere (s : State) (m : MsgIn) : Bool :=
  match s.win? (bitsOf m.addr.toNat 52 12) with
  | some x => (match x.rehome with | some r => !r.old | none => false) || x.prep.isSome
  | none => false

/-- Is a fabric ID a switch that a window is handed over to from here (R60)? -/
def State.newHome (s : State) (fid : Nat) : Bool :=
  s.pool.wins.any fun w => match w.2.rehome with | some r => r.old && r.peer == fid | none => false

/-- An answer for a requester on an edge port here: matched to its record, or, if the new home of a window answers a request that this
switch sent on without a record (R61), delivered by ID and tag. -/
def State.answerEdge (s : State) (p q : Nat) (m : MsgIn) : State :=
  if (s.matchSent p m).isNone && s.newHome m.host.toNat then s.forward p q m none 0 none else s.answerIn p m

/-- A message in transit (R179): by the hash of its line or of its flow. -/
def State.transit (s : State) (p : Nat) (m : MsgIn) : State :=
  let off := m.addr.toNat % 2 ^ 48
  let hash := if byLine m.kind then crc64 (off / 64) else flowHash p m.dpid.toNat (chanCode m.kind)
  match s.routeTo m.dpid.toNat hash with
  | none => s.misrouted p 8 m
  | some q => s.forward p q m none off (if byLine m.kind then some (off / 64) else none)

/-- A message on a FABRIC port (R328, R329, R333 kinds 08h and 09h). -/
def State.fabricIn (s : State) (p : Nat) (m : MsgIn) : State :=
  let here := s.fab.fid == some m.dpid.toNat
  if m.kind == .malformed then s.viol p 1 m
  else if !s.reaches p m.host.toNat && !(here && s.sentOnHere m) then s.misrouted p 9 m
  else if here then s.fabricHere p m
  else match NMap.get? s.ports.route m.dpid.toNat with
    | some (q, false) => if isAnswer m.kind then s.answerEdge p q m else s.transit p m
    | _ => s.transit p m

/-- One message that has arrived whole on a port that carries traffic. -/
def State.receive (s : State) (p : Nat) (m : MsgIn) : State :=
  if !s.traffic p then s
  else if !s.hasCredit p m && s.role p != rolePool then (s.synthReq p m).viol p 3 m
  else
    let edge := s.role p == roleUpstream || s.role p == rolePt
    let s1 := if edge then s.spendCredit p m else s
    let s2 := if s.role p == roleUpstream then s1.upIn p m
      else if s.role p == rolePt then s1.ptIn p m
      else if s.role p == rolePool then s1.poolIn p m
      else s1.fabricIn p m
    if edge && s.byExtra p m then s2.mapHome fun h =>
      { h with vst := h.vst.map fun v => if s1.home.next ≤ v.id then { v with extra := true } else v }
    else s2

/-- A CXL.cache request as a message. -/
def cacheMsg (k : MKind) (tag : B16) (cacheId : BitVec 4) (data : Bool) : MsgIn :=
  { kind := k, host := cacheId.setWidth 12, dpid := 0, tag := tag, addr := 0, mval := .i, snp := .noOp, block := false, data := 0,
    be := 0, len := if data then 64 else 0, pasid := none, poison := false }

/-- The acknowledgements and credit returns of a good flit (R232, R314); credits beyond those that the partner gave at link-up are
ignored, violation 0Ah (R333). -/
def State.returnsIn (s : State) (p : Nat) (ret : FlitRet) : State :=
  let from_ : MsgIn := cacheMsg .malformed 0 0 false
  let n := ret.acks * (if s.fld (PRT_PROTO_STAT_fFLIT p) == 1 then 68 else 256)
  let s1 := s.mapPort p fun x => { x with
    replay := x.replay - n
    posted := (x.posted.filter fun q => n < q.1).map fun q => (q.1 - n, q.2) }
  ret.credits.foldl (fun a c =>
    match NMap.get? (a.port p).tx c.1, NMap.get? (a.port p).txMax c.1 with
    | some n, some m =>
      let a1 := a.mapPort p fun x => { x with tx := NMap.set x.tx c.1 (Nat.min m (n + c.2)) }
      if m < n + c.2 then a1.viol p 10 { from_ with host := BitVec.ofNat 12 (s.portId p) } else a1
    | _, _ => a) s1

/-- The replay buffer's check as a port replays (type 02h of R449): a flit that cannot be replayed takes the link down (R335). -/
def State.replayCheck (s : State) (p : Nat) : State :=
  let r : Report := { checker := 0x0200 + (s.portGroup p).getD 0, cls := 1, source := srcPort, unit := p, injected := true }
  let (hurt, s1) := s.checkOnce r
  if hurt then (s1.record r).linkDown p 1 else s1

/-- A replay that the port starts, because its partner asks for it or a retry has been escalated (R315). -/
def State.replays (s : State) (p : Nat) : State := (s.bump (PRT_RETRY_CNT_fTX_REPLAY p)).replayCheck p

/-- FLIT_RECEIVED (R24, R162): a flit that fails its checks forwards nothing and is asked for again (R314); the messages
that a good flit ends raise their notices in order. -/
def execFlitReceived (port : Port) (t : Nat) (fecOk crcOk : Bool) (msgs : List MsgIn) (ret : FlitRet)
    (s0 : State) : Eff :=
  let s := s0.at t
  let p := port.toNat
  let g := (s.portGroup p).getD 0
  if !s.inL0 p then .next s
  else
    let (inj, s1) := s.check1 (0x0100 + g) 32 false
    if !fecOk || !crcOk || inj != .clean then
      let s2 := s1.bump (if fecOk then PRT_FLIT_ERR_fCRC_CNT p else PRT_FLIT_ERR_fUNC_CNT p)
      .next (((s2.bump (PRT_RETRY_CNT_fRX_NAK p)).record
        { checker := 0x0100 + g, cls := 0, source := srcPort, unit := p, transient := true, injected := inj != .clean }).emit (.retry p))
    else
      let s2 := (s1.mapPort p fun x => { x with part := ret.part }).returnsIn p ret
      let s3 := msgs.foldl (fun a m => a.receive p m) s2
      .next (if ret.nak then s3.replays p else s3)

/-- CXL_CACHE_D2H_REQ (R316): forwarded in pass-through to the host. -/
def execCxlCacheD2hReq (port : Port) (tag : B16) (cacheId : BitVec 4) (expectsData : Bool) (s : State) : Eff :=
  .next (if s.traffic port.toNat then s.cacheIn port.toNat (cacheMsg .d2hReq tag cacheId expectsData) else s)

/-- CXL_CACHE_H2D_REQ (R316): forwarded in pass-through to the device that the CacheID names. -/
def execCxlCacheH2dReq (port : Port) (tag : B16) (cacheId : BitVec 4) (s : State) : Eff :=
  .next (if s.traffic port.toNat then s.cacheIn port.toNat (cacheMsg .h2dReq tag cacheId false) else s)

/-- Hot Reset sent on a DOWNSTREAM_PT port: its link leaves L0 for Hot Reset (R305). -/
def State.sendHotReset (s : State) (p : Nat) : State :=
  if s.role p == rolePt && s.inL0 p then (s.emit (.pin (.hotReset p) true)).linkDown p 6 else s

/-- SECONDARY_BUS_RESET (R321): a window's logical device loses its configuration space, mailbox and event state; a
pass-through bridge sends Hot Reset. -/
def execSecondaryBusReset (vcs : Port) (bridge : BitVec 7) (s : State) : Eff :=
  let p := vcs.toNat
  let k := bridge.toNat
  match s.ports.vppb.find? fun v => v.vcs == p && v.bridge == k with
  | some v => .next (s.sendHotReset v.port)
  | none =>
    let up := fun (b : Binding) => if b.port == p && b.bridge == k then
        { b with events := [], nextEvt := 1, evtPolicy := 0, bar := 0, bar2 := 0, regs := [], pba := [] } else b
    .next (s.mapPool fun x => { x with wins := x.wins.map fun w => (w.1, { w.2 with binds := w.2.binds.map up }) })

end Sys2Proof.Machine
end

