-- ==== Sys2Proof/Machine/PortCmds.lean ====
section
/-! DEFINITION. Ports and lanes (spec/10): link-up, training, margining, adaptation, the commands of group 02xxh and the
controls of a port. What a link-down does is in Link. -/

namespace Sys2Proof.Machine

/-! ## Training conditions (R290, R302) -/

/-- Is the reset gate of a port open (R302)? -/
def State.gateOpen (s : State) (p : Nat) : Bool :=
  let r := s.role p
  if r == roleUpstream then (s.port p).perst.all fun n => bitOf s.pwr.perstUp n
  else if r == rolePt || r == rolePool then
    !(s.port p).gateShut && (match (s.port p).dch with | some n => (s.dch n).perst | none => true)
  else r == roleFabric

/-- Port type that a port takes in training: true Upstream Port (R302). -/
def State.portUp (s : State) (p : Nat) : Bool := s.role p == roleUpstream || (s.role p == roleFabric && (s.port p).upType)

/-- Do the port types of the two ends go together? Two ends of one type are resolved by the crosslink procedure, on a fabric port
alone (R303). -/
def State.typesMeet (s : State) (p : Nat) (i : LinkInfo) : Bool :=
  s.role p == roleFabric || (match i.peerUp with | some t => t != s.portUp p | none => true)

/-- May a port train (R290, R292), within its rate and width (R287, R291)? -/
def State.mayTrain (s : State) (p : Nat) (i : LinkInfo) : Bool :=
  s.portExists p && s.role p != roleUnused && !s.flag (PRT_LINK_CTL_fDISABLE p) && s.gateOpen p &&
    (s.port p).retryAt.isNone && (s.pwr.st == .run || s.pwr.st == .restart) && !s.inL0 p &&
    i.rate.toNat ≤ s.fld (PRT_CFG_fMAX_RATE p) && widthLanes i.width.toNat ≤ s.portWidth p && s.typesMeet p i

/-- State code of a port that does not train and is not up: Disabled, or Detect where it may train. -/
def State.idleState (s : State) (p : Nat) : Nat :=
  if s.role p == roleUnused || s.flag (PRT_LINK_CTL_fDISABLE p) then 0 else 1

/-! ## Lanes at link-up (R291, R297, R309) -/

/-- Is port lane k in a width of `w` lanes, when `failed` lanes are left out? -/
def laneIn (failed w k : Nat) : Bool := !bitOf failed k && ((List.range k).filter fun j => !bitOf failed j).length < w

/-- DFE taps at a rate (R297). -/
def tapCount (rate : Nat) : Nat := if rate < 2 then 0 else if rate < 5 then 5 else 12

/-- The taps of a lane adapted: their values are open (log 3). -/
def State.adaptTaps (s : State) (lane rate : Nat) : State :=
  let (bs, s1) := s.freeBytes (tapCount rate)
  s1.mapPorts fun x => { x with taps := NMap.set x.taps lane bs }

/-- Equalization items of a lane at a rate: the board's, or the defaults (R296). -/
def State.laneEq (s : State) (lane rate : Nat) : Nat × Nat × Nat × Bool :=
  match NMap.get? s.ports.eq (8 * lane + rate) with
  | some e => e
  | none => ((Config.defaultPreset rate).toNat, (Config.defaultPreset rate).toNat, 8, false)

/-- Presets and CTLE code of a lane after the equalization of a link-up: the board's where the training gives none; a lane with the
bypass flag keeps the board's two presets (R295, R296). -/
def State.laneSet (s : State) (lane rate : Nat) (e : Option (BitVec 4 × BitVec 4 × BitVec 4 × Byte × Byte)) : Nat × Nat × Nat :=
  let b := s.laneEq lane rate
  match e with
  | none => if rate < 2 then (0, 0, 8) else (b.1, b.2.1, b.2.2.1)
  | some x => if 2 ≤ rate && b.2.2.2 then (b.1, b.2.1, x.2.2.1.toNat) else (x.1.toNat, x.2.1.toNat, x.2.2.1.toNat)

/-- One lane of a port at link-up: port lane k, lane number. -/
def State.laneUp (s : State) (i : LinkInfo) (total : Nat) (k lane : Nat) : State :=
  let g := lane / 8
  let j := lane % 8
  let on := laneIn i.failedLanes.toNat (widthLanes i.width.toNat) k
  let e := i.lanes[k]?
  let q := s.laneSet lane i.rate.toNat e
  let eye := match e with
    | some x => (x.2.2.2.1.toNat, x.2.2.2.2.toNat)
    | none => (0, 0)
  let n := if i.reversed then total - 1 - k else k
  let stat := packBits [(b2n on, 1), (b2n (i.polInv.getLsbD k), 1), (b2n on, 1), (b2n !on, 1), (s.fld (LNG_ADAPT_CTL_fFREEZE g), 1),
    (0, 1), (0, 2), (n, 4)]
  ((((s.setReg (LNG_LANE_STAT g j) (BitVec.ofNat 32 stat)).setReg (LNG_LANE_EQ g j)
    (BitVec.ofNat 32 (packBits [(q.1, 4), (q.2.1, 4), (q.2.2, 4)]))).setReg (LNG_LANE_EYE g j)
    (BitVec.ofNat 32 (packBits [(eye.1, 8), (eye.2, 8)]))).adaptTaps lane (if on then i.rate.toNat else 0))

/-- The lanes of a port at link-up. -/
def State.lanesUp (s : State) (p : Nat) (i : LinkInfo) : State :=
  let ls := s.portLanes p
  (List.range ls.length).foldl (fun a k => match ls[k]? with | some l => a.laneUp i ls.length k l | none => a) s

/-- The lanes of a port that changes its rate or width through Recovery (R293, R309): those of the new width are active; at a new rate the
result of their equalization is open, but for the presets that a bypass flag keeps (R296, log 3). -/
def State.lanesChange (s : State) (p rate width : Nat) : State :=
  let ls := s.portLanes p
  let was := s.fld (PRT_LINK_STAT_fRATE p)
  (List.range ls.length).foldl (fun a k => match ls[k]? with
    | none => a
    | some l =>
      let on := laneIn (s.port p).leftOut (widthLanes width) k
      let a1 := (a.setFld (LNG_LANE_STAT_fACTIVE (l / 8) (l % 8)) (b2n on)).setFld (LNG_LANE_STAT_fLOCK (l / 8) (l % 8)) (b2n on)
      if rate == was || !on then a1
      else
        let b := s.laneEq l rate
        let (v, a2) := a1.free
        let set := fun (x y : Nat) => (a2.setReg (LNG_LANE_EQ (l / 8) (l % 8))
          (BitVec.ofNat 32 (packBits [(x, 4), (y, 4), (v.toNat / 256 % 16, 4)]))).adaptTaps l rate
        if 2 ≤ rate && b.2.2.2 then set b.1 b.2.1 else set (v.toNat % 16) (v.toNat / 16 % 16)) s

/-! ## Protocol mode (R311 to R313) -/

/-- Flit format that a training gives: the latency-optimized one only with LOPT_EN (R312). -/
def State.flitOf (s : State) (p : Nat) (i : LinkInfo) : LinkInfo :=
  if i.flit == 3 && !s.flag (PRT_PROTO_CFG_fLOPT_EN p) then { i with flit := 2 } else i

/-- Does the table of R311 allow the mode and flit format of a port? -/
def modeAllowed (role : Nat) (i : LinkInfo) : Bool :=
  let r := i.rate.toNat
  let f := i.flit.toNat
  if role == roleUpstream then i.cxl && !i.pbr && 2 ≤ r && 2 ≤ f
  else if role == roleFabric then i.cxl && i.pbr && 2 ≤ r && f == 2
  else if role == rolePool then i.cxl && !i.pbr && 2 ≤ r && (if r ≤ 4 then 1 ≤ f else 2 ≤ f)
  else true

/-- PRT_PROTO_STAT at link-up; PURGE and QUAR stay. -/
def State.protoUp (s : State) (p : Nat) (i : LinkInfo) : State :=
  let s1 := ((s.setFld (PRT_PROTO_STAT_fMODE p) (if i.cxl then 2 else 1)).setFld (PRT_PROTO_STAT_fFLIT p) i.flit.toNat).setFld
    (PRT_PROTO_STAT_fPBR p) (b2n i.pbr)
  let s2 := ((s1.setFld (PRT_PROTO_STAT_fIO p) 1).setFld (PRT_PROTO_STAT_fCACHE p) (b2n (i.cache && i.cxl && s.role p != rolePool))).setFld
    (PRT_PROTO_STAT_fMEM p) (b2n i.cxl)
  if modeAllowed (s.role p) i then s2.setFld (PRT_PROTO_STAT_fMODE_ERR p) 0
  else (s2.setFld (PRT_PROTO_STAT_fMODE_ERR p) 1).record { checker := 0x4f00, source := srcPort, unit := p }

/-! ## Credits at link-up (R561) -/

/-- Credits of the class reserves of a port: output code and count. Codes 0 to 5 are the REQ channels of `credKey`; 8 M2S RwD,
9 M2S BIRsp, 10 CXL.io completion header, 11 completion data, 12 H2D Req, 13 H2D Rsp, 14 H2D Data; 16 on, on the other roles, the
classes of R166 in table order. -/
def State.fixedCredits (s : State) (p : Nat) : List (Nat × Nat) :=
  let w := s.portWidth p
  let r := s.role p
  if r == roleUpstream then
    [(8, 128), (9, 512), (10, 16 * w), (11, 256 * w)] ++
      (if s.ports.vppb.any fun v => v.vcs == p && v.cache then [(12, 128), (13, 16 * w), (14, 32 * w)] else [])
  else
    let cls : List Cls := [.req, .rwd, .snp, .srsp, .mrsp, .cmp]
    (cls.filter fun c => reserveCells r w c != 0).map fun c =>
      (16 + c.rank, reserveCells r w c / (if c == .rwd then 3 else 1))

/-- The initial credits of a port: every REQ channel of an upstream or pass-through port that it uses gets at least one. -/
def State.initCredits (s : State) (p : Nat) : State :=
  let s0 := (s.fixedCredits p).foldl (fun a c => a.emit (.credit p c.1 c.2)) s
  let r := s.role p
  if r == roleUpstream || r == rolePt then
    let one := fun (a : State) (c : Nat) => if a.credMax p c = 0 then a
      else (a.mapHome fun h => { h with credits := NMap.set h.credits (credKey p c) 1 }).emit (.credit p c 1)
    (reqChans.foldl (fun a c => a.returnCredits p c) (reqChans.foldl one s0)).noteHeld p
  else s0

/-! ## What a link-up starts -/

/-- A fabric port joins the group of its neighbour, up to eight live members; a ninth waits and is recorded (R180, R306). -/
def State.joinGroup (s : State) (p n : Nat) : State :=
  let full := 8 ≤ (s.members n).length
  let ok := !s.flag (PRT_PROTO_STAT_fMODE_ERR p)
  let s1 := s.mapPort p fun x => { x with neighbour := some n, member := ok && !full }
  if !ok then s1
  else if full then s1.record { checker := 0x4f00, source := srcPort, unit := p }
  else s1.mapHome fun h => { h with drains := NMap.set h.drains n (s.now + s.drainNs) }

/-- Windows that wait for the link-up of an upstream port are presented (R53, R337). -/
def State.presentAll (s : State) (p : Nat) : State :=
  s.pool.wins.foldl (fun a w => (w.2.binds.filter fun b => b.port == p && b.presPend).foldl (fun c b => c.present w.1 b.host) a) s

/-- A device kept across a warm reset: it still serves if its serial and its locked decoder agree, else its extents are lost
and it is released (R564). -/
def State.warmCheck (s : State) (p : Nat) (i : LinkInfo) : State :=
  match s.devAt p with
  | some (h, d) =>
    if !d.awaitLink then s
    else
      let same := (i.serial.map (·.toNat)) == d.serial && d.serial.isSome &&
        (match i.decoder with | some (b, z) => b == 0 && z.toNat == d.capacity | none => false)
      if same then s.mapDev h fun x => { x with awaitLink := false } else (s.lostDev h).dropDev h
  | none => s

/-- A pending PORT_LINK_SET completes when its link is in L0 (R294). -/
def State.endLinkSet (s : State) (p : Nat) : State :=
  match (s.port p).target with
  | none => s
  | some (r, w) =>
    let rate := s.fld (PRT_LINK_STAT_fRATE p)
    let width := s.fld (PRT_LINK_STAT_fWIDTH p)
    (s.mapPort p fun x => { x with target := none }).finishWork (.portLink p) (if rate == r && width == w then .ok else .conflict)
      [BitVec.ofNat 8 rate, BitVec.ofNat 8 width]

/-- A port below PRT_CFG.MIN_WIDTH is held in Disabled for 1 s (R292). -/
def State.tooNarrow (s : State) (p width : Nat) : Bool := width < s.fld (PRT_CFG_fMIN_WIDTH p)

def State.holdNarrow (s : State) (p : Nat) : State :=
  (s.setFld (PRT_LINK_EVT_fWIDTH_DEGRADED p) 1).mapPort p fun x => { x with retryAt := some (s.now + 1000000000) }

/-- The registers and events of a link that has trained (R290 to R292, R310). -/
def State.linkTrained (s : State) (p : Nat) (info : LinkInfo) : State :=
  let stat := packBits [(4, 4), (info.rate.toNat, 3), (0, 1), (info.width.toNat, 3), (b2n info.flitMode, 1), (1, 1),
    (b2n info.reversed, 1), (info.retimers.toNat, 2)]
  let s1 := (s.setReg (PRT_LINK_STAT p) (BitVec.ofNat 32 stat)).lanesUp p info
  let s2 := if widthLanes info.width.toNat < s.portWidth p then
      (s1.setFld (PRT_LINK_EVT_fWIDTH_DEGRADED p) 1).record { checker := 0x4b00, source := srcPort, unit := p }
    else s1
  let s3 := if info.eqFail then s2.setFld (PRT_LINK_EVT_fEQ_FAIL p) 1 else s2
  if info.rateLow then s3.setFld (PRT_LINK_EVT_fRATE_DEGRADED p) 1 else s3

/-- What a trained link opens: its protocols, its credits, the LINK event and notice, its fabric-port group, what its
partner was bound to, and the PORT_LINK_SET that waits for it. -/
def State.linkOpens (s4 : State) (p : Nat) (info : LinkInfo) : State :=
  let s5 := (s4.protoUp p (s4.flitOf p info)).mapPort p fun x => { x with
    tx := info.credits.foldl (fun m c => NMap.set m c.1 c.2) []
    txMax := info.credits.foldl (fun m c => NMap.set m c.1 c.2) []
    replay := 0
    serial := info.serial.map (·.toNat)
    leftOut := info.failedLanes.toNat
    unfit := info.unfit }
  let s6 := if s5.flag (PRT_PROTO_STAT_fMODE_ERR p) then s5 else s5.initCredits p
  let s7 := (s6.post 0x20 (leBytes 1 p ++ leBytes 1 1 ++ leBytes 1 info.rate.toNat ++ leBytes 1 info.width.toNat)).notice
    ntcUp (leBytes 1 p)
  let s8 := match s4.role p, info.neighbour with
    | 4, some n => s7.joinGroup p n.toNat
    | _, _ => s7
  ((((s8.cacheOn p).warmCheck p info).rebind p info.serial info.capacity).presentAll p).endLinkSet p

/-- LINK_UP (R290 to R292, R311 to R313, R416, R561, R564). -/
def execLinkUp (port : Port) (t : Nat) (info : LinkInfo) (s0 : State) : Eff :=
  let s := s0.at t
  let p := port.toNat
  if !s.mayTrain p info then .next s
  else if s.tooNarrow p info.width.toNat then
    .next ((((s.setFld (PRT_LINK_STAT_fSTATE p) 0).bump (PRT_LINK_EVT_fDOWN_CNT p)).setFld (PRT_LINK_EVT_fDOWN_SEEN p) 1).holdNarrow p)
  else .next ((s.linkTrained p info).linkOpens p info)

/-- POOL_LINK_WAIT_EXPIRY (R564): the port has not reached link-up within 2 s of HEARTH_UP. -/
def execPoolLinkWaitExpiry (port : Port) (t : Nat) (s0 : State) : Eff :=
  let s := s0.at t
  let due := match s.pwr.poolWait with | some e => e ≤ s.now | none => false
  match s.devAt port.toNat with
  | some (h, d) => .next (if d.awaitLink && due then (s.lostDev h).dropDev h else s)
  | none => .next s

/-- WIDTH_RETRY (R292): the port may train again. -/
def execWidthRetry (port : Port) (t : Nat) (s0 : State) : Eff :=
  let s := s0.at t
  let p := port.toNat
  match (s.port p).retryAt with
  | some e =>
    .next (if e ≤ s.now then
        let s1 := s.mapPort p fun x => { x with retryAt := none }
        if s.inL0 p then s1 else s1.setFld (PRT_LINK_STAT_fSTATE p) (s1.idleState p)
      else s)
  | none => .next s

/-- An entry of a link to Recovery from which it returns to L0 (R300, R315): margining ends. -/
def State.recover (s : State) (p : Nat) : State := (s.bump (PRT_REC_CNT_fRECOVERY p)).endMargins p

/-- PARTNER_CHANGE (R293, R294): the switch accepts the partner's rate and width. -/
def execPartnerChange (port : Port) (rw : RateWidth) (belowCommon : Bool) (s : State) : Eff :=
  let p := port.toNat
  if !s.inL0 p then .next s
  else
    let s1 := (((s.recover p).lanesChange p rw.rate.toNat rw.width.toNat).setFld (PRT_LINK_STAT_fRATE p) rw.rate.toNat).setFld (PRT_LINK_STAT_fWIDTH p) rw.width.toNat
    let s2 := s1.setFld (PRT_LINK_EVT_fPARTNER_CHANGE p) 1
    let s3 := if belowCommon then s2.setFld (PRT_LINK_EVT_fRATE_DEGRADED p) 1 else s2
    .next (if s3.tooNarrow p rw.width.toNat then (s3.linkDown p 0).holdNarrow p else s3.endLinkSet p)

/-- LINK_RECOVERY (R315): an escalated retry or a loss of receiver lock; nothing is lost. -/
def execLinkRecovery (port : Port) (lockLost retry : Bool) (s : State) : Eff :=
  let p := port.toNat
  if !s.inL0 p then .next s
  else
    let s1 := s.recover p
    let s2 := if lockLost then (s.portLanes p).foldl (fun a l =>
        if a.flag (LNG_LANE_STAT_fACTIVE (l / 8) (l % 8)) then a.bump (LNG_LANE_ERR_fLOCK_LOSS (l / 8) (l % 8)) else a) s1 else s1
    .next (if retry then s2.replays p else s2)

/-- RETRAIN (R310): a write of PRT_LINK_CTL with RETRAIN 1. -/
def execRetrain (path : Path) (port : Port) (s : State) : Eff :=
  .next (s.regWrite path (PRT_LINK_CTL port.toNat) fun a => if a.inL0 port.toNat then a.recover port.toNat else a)

/-- HOT_RESET (R305): a write of PRT_LINK_CTL with HOT_RESET 1. -/
def execHotReset (path : Path) (port : Port) (s : State) : Eff :=
  .next (s.regWrite path (PRT_LINK_CTL port.toNat) fun a => a.sendHotReset port.toNat)

/-- PRT_LINK_CTL.DISABLE written (R290, R335). -/
def State.setDisable (s : State) (p : Nat) (on : Bool) : State :=
  if !s.portExists p then s
  else
    let s1 := s.setFld (PRT_LINK_CTL_fDISABLE p) (b2n on)
    if on then s1.linkDown p 0
    else if s1.inL0 p || (s.port p).retryAt.isSome then s1 else s1.setFld (PRT_LINK_STAT_fSTATE p) (s1.idleState p)

/-- DISABLE (R310): a write of PRT_LINK_CTL.DISABLE. -/
def execDisable (path : Path) (port : Port) (on : Bool) (t : Nat) (s : State) : Eff :=
  .next ((s.at t).regWrite path (PRT_LINK_CTL port.toNat) fun a => a.setDisable port.toNat on)

/-- LNG_ADAPT_CTL.FREEZE written (R297, R300): no further adaptation step starts while it is 1. -/
def State.setFreeze (s : State) (g : Nat) (on : Bool) : State :=
  (List.range 8).foldl (fun a k => a.setFld (LNG_LANE_STAT_fADAPT_STOP g k) (b2n (on || a.flag (LNG_LANE_STAT_fMARGINING g k))))
    (s.setFld (LNG_ADAPT_CTL_fFREEZE g) (b2n on))

/-- FREEZE (R297). -/
def execFreeze (path : Path) (group : Group) (on : Bool) (s : State) : Eff :=
  .next (s.regWrite path (LNG_ADAPT_CTL group.toNat) fun a => a.setFreeze group.toNat on)

/-- HOT_RESET_RECEIVED (R305): a link-down; the port goes back to Detect. -/
def execHotResetReceived (port : Port) (t : Nat) (s0 : State) : Eff :=
  let s := s0.at t
  let p := port.toNat
  .next (if (s.role p == roleUpstream || s.role p == roleFabric) && s.fld (PRT_LINK_STAT_fSTATE p) != 0 then s.linkDown p 1 else s)

/-- PERST_UP_N (R302, R305): a low level takes down every upstream port to which the input is assigned; their gates open when
every input of the port is high. -/
def execPerstUpN (n : BitVec 5) (high : Bool) (t : Nat) (s0 : State) : Eff :=
  let s := s0.at t
  let k := n.toNat
  let base := s.pwr.perstUp - (if bitOf s.pwr.perstUp k then 2 ^ k else 0)
  let s1 := { s with pwr := { s.pwr with perstUp := if high then base + 2 ^ k else base } }
  .next (if high then s1
    else (s1.allPorts.filter fun p => s1.role p == roleUpstream && (s1.port p).perst.contains k
        && s1.fld (PRT_LINK_STAT_fSTATE p) != 0).foldl (fun a p => a.linkDown p 1) s1)

/-! ## Margining and adaptation (R297 to R300) -/

/-- Lanes of a port under a lane mask, by port lane. -/
def State.maskLanes (s : State) (p mask : Nat) : List Nat :=
  let ls := s.portLanes p
  ((List.range ls.length).filter fun k => bitOf mask k).filterMap fun k => ls[k]?

/-- MARGINING and ADAPT_STOP of lanes (R297). -/
def State.setMargin (s : State) (ls : List Nat) (on : Bool) : State :=
  ls.foldl (fun a l => (a.setFld (LNG_LANE_STAT_fMARGINING (l / 8) (l % 8)) (b2n on)).setFld (LNG_LANE_STAT_fADAPT_STOP (l / 8) (l % 8))
    (if on then 1 else a.fld (LNG_ADAPT_CTL_fFREEZE (l / 8)))) s

/-- PARTNER_MARGIN_REQUEST (R300): NAKed while a LANE_MARGIN runs on the lane. -/
def execPartnerMarginRequest (lane : Lane) (s : State) : Eff :=
  let l := lane.toNat
  let own := s.allPorts.any fun p => (s.port p).margin.any fun m => (s.maskLanes p m.1).contains l
  let up := s.flag (LNG_LANE_STAT_fACTIVE (l / 8) (l % 8))
  .next (if !up then s
    else if own then s.emit (.marginStatus l true)
    else (s.setMargin [l] true).emit (.marginStatus l false))

/-- The margining of some lanes of a port ends (R299): the result data give each lane's error count, bit 15 set from the limit on. -/
def State.endMargin (s : State) (p : Nat) (m : Nat × Nat) (errors : List (BitVec 6)) : WorkRes × State :=
  (⟨.ok, 0, marginData m.1 m.2 errors⟩,
    (s.mapPort p fun x => { x with margin := x.margin.erase m }).setMargin (s.maskLanes p m.1) false)

/-- MARGIN_DWELL_END (R299): the oldest margining of the port ends with each lane's error count. -/
def execMarginDwellEnd (port : Port) (errors : List (BitVec 6)) (s : State) : Eff :=
  let p := port.toNat
  match (s.port p).margin with
  | [] => .next s
  | m :: _ =>
    let r := s.endMargin p m errors
    .next (r.2.finishWork (.margin p m.1) r.1.status r.1.data)

/-- A CTLE code moved by at most one, within 0 to 15 (R297). -/
def ctleMove (up : Option Bool) (c : Nat) : Nat :=
  match up with
  | some true => Nat.min 15 (c + 1)
  | some false => c - 1
  | none => c

/-- Rate of the port that has a lane; 0 for a lane without a port. -/
def State.laneRate (s : State) (l : Nat) : Nat :=
  match s.allPorts.find? fun p => (s.portLanes p).contains l with
  | some p => s.fld (PRT_LINK_STAT_fRATE p)
  | none => 0

/-- ADAPTATION_STEP (R297): the CTLE moves by at most one code; the DFE adapts. -/
def execAdaptationStep (lane : Lane) (up : Option Bool) (s : State) : Eff :=
  let l := lane.toNat
  let g := l / 8
  let k := l % 8
  let on := s.flag (LNG_LANE_STAT_fACTIVE g k) && !s.flag (LNG_LANE_STAT_fADAPT_STOP g k)
  let c := s.fld (LNG_LANE_EQ_fCTLE g k)
  .next (if on then (s.setFld (LNG_LANE_EQ_fCTLE g k) (ctleMove up c)).adaptTaps l (s.laneRate l) else s)

/-! ## Commands (R308, R436) -/

/-- Ports that a lane-group mode creates. -/
def modePorts (mode : Nat) (ps : List Nat) : List Nat := ps.take (if mode = 1 then 2 else if mode = 2 then 4 else 1)

/-- A port that LANE_CONFIG creates: role UNUSED, its registers at their reset values; the board's assignments stay (R284). -/
def State.newPort (s : State) (p : Nat) : State :=
  let lo := 0x200000 + p * 0x1000
  let keep := s.port p
  ({ s with regs := s.regs.filter fun r => !(lo ≤ r.1 && r.1 < lo + 0x1000) }).mapPort p fun _ =>
    { perst := keep.perst, dch := keep.dch, noInband := keep.noInband, upType := keep.upType }

/-- A lane group with a mode and its ports. -/
def State.setGroup (s : State) (g mode : Nat) (ps : List Nat) : State :=
  s.mapPorts fun y => { y with grp := NMap.set y.grp g (mode, ps) }

/-- Groups that a LANE_CONFIG affects: the named one, or both of a pair that is made or taken apart. -/
def State.affected (s : State) (g mode : Nat) : List Nat :=
  if mode = 3 || (s.group g).1 = 3 then [g / 2 * 2, g / 2 * 2 + 1] else [g]

/-- Does a PORT_LINK_SET or a LANE_MARGIN wait on a port? -/
def State.portWork (s : State) (p : Nat) : Bool :=
  s.busyWith fun w => match w with | .portLink q | .margin q _ => q == p | _ => false

/-- LANE_CONFIG (R283, R284, R300). -/
def cmdLaneConfig (g mode pa pb pc pd : Nat) : Cmd :=
  let mine := modePorts mode [pa, pb, pc, pd]
  { opcode := 0x0201
    bad := fun _ => match firstBad [(32 ≤ g, 0), (3 < mode, 1), (mode == 3 && g % 2 == 1, 0)] with
      | some o => some o
      | none => firstBad ((List.range mine.length).map fun i =>
          (decide (64 ≤ mine.getD i 0) || (mine.take i).contains (mine.getD i 0), 2 + i))
    run := fun s =>
      let gs := s.affected g mode
      let old := gs.flatMap fun x => (s.group x).2
      let others := (List.range 32).filter fun x => !gs.contains x
      let held := others.flatMap fun x => (s.group x).2
      if old.any fun p => s.role p != roleUnused || s.portWork p then .refuse .busy 0
      else if mine.any held.contains then .refuse .conflict 0
      else if 64 < held.length + mine.length then .refuse .noResource 0
      else
        let s1 := gs.foldl (fun a x => a.setGroup x (if mode = 3 then 3 else 0) []) s
        let s2 := s1.setGroup g mode mine
        .ok [] (mine.foldl (fun a p => a.newPort p) s2) }

def execLaneConfig (h : Hdr) (group mode pa pb pc pd : Byte) (s : State) : Eff :=
  s.dermel h (cmdLaneConfig group.toNat mode.toNat pa.toNat pb.toNat pc.toNat pd.toNat)

/-- Has a port a binding of any kind (R304), the adoption of its device included? -/
def State.portBound (s : State) (p : Nat) : Bool :=
  s.carries p || (s.devAt p).isSome || s.busyWith (· == .poolAdopt p)

/-- PORT_ROLE (R29, R304). -/
def cmdPortRole (p role : Nat) : Cmd :=
  { opcode := 0x0202
    bad := fun s => firstBad [(s.noPort p, 0), (4 < role || (role == roleUpstream && (s.port p).perst.isEmpty && (s.port p).noInband), 1)]
    run := fun s =>
      if (s.port p).room.isSome || s.portBound p || s.portWork p then .refuse .busy 0
      else if s.role p == role then .ok [] s
      else
        let s1 := ((if s.inL0 p then s.linkDown p 1 else s).setFld (PRT_CFG_fROLE p) role).dropRet p
        .ok [] (s1.setFld (PRT_LINK_STAT_fSTATE p) (if (s1.port p).retryAt.isSome then 0 else s1.idleState p)) }

def execPortRole (h : Hdr) (port role : Byte) (s : State) : Eff := s.dermel h (cmdPortRole port.toNat role.toNat)

/-- PORT_LINK_SET (R294). -/
def cmdPortLinkSet (p rate width : Nat) : Cmd :=
  { opcode := 0x0203, most := 2
    bad := fun s => firstBad [(s.noPort p, 0), (6 < rate || s.fld (PRT_CFG_fMAX_RATE p) < rate, 1),
      (4 < width || s.portWidth p < widthLanes width, 2)]
    run := fun s =>
      if s.busyWith (· == .portLink p) then .refuse .busy 0
      else .pending (.portLink p) [] ((s.endMargins p).mapPort p fun x => { x with target := some (rate, width) }) }

def execPortLinkSet (h : Hdr) (port rate width : Byte) (s : State) : Eff :=
  s.dermel h (cmdPortLinkSet port.toNat rate.toNat width.toNat)

/-- The change of PORT_LINK_SET is made through Recovery: done, or the link is at another rate or width (R294). -/
def State.linkSetDone (s : State) (p : Nat) (ok : Bool) : WorkRes × State :=
  let at_ := fun (a : State) => [BitVec.ofNat 8 (a.fld (PRT_LINK_STAT_fRATE p)), BitVec.ofNat 8 (a.fld (PRT_LINK_STAT_fWIDTH p))]
  match (s.port p).target with
  | some (r, w) =>
    let s0 := s.mapPort p fun x => { x with target := none }
    if !s.inL0 p then (⟨.aborted, 0, at_ s0⟩, s0)
    else
      let s1 := s0.recover p
      if ok then
        let s2 := ((s1.lanesChange p r w).setFld (PRT_LINK_STAT_fRATE p) r).setFld (PRT_LINK_STAT_fWIDTH p) w
        let s3 := if s2.tooNarrow p w then (s2.linkDown p 0).holdNarrow p else s2
        (⟨.ok, 0, at_ s2⟩, s3)
      else (⟨.conflict, 0, at_ s1⟩, s1)
  | none => (⟨.aborted, 0, at_ s⟩, s)

/-- PORT_ENABLE (R308): EN 0 sets PRT_LINK_CTL.DISABLE. -/
def cmdPortEnable (p en : Nat) : Cmd :=
  { opcode := 0x0204
    bad := fun s => firstBad [(s.noPort p, 0), (1 < en, 1)]
    run := fun s => .ok [] (s.setDisable p (en == 0)) }

def execPortEnable (h : Hdr) (port en : Byte) (s : State) : Eff := s.dermel h (cmdPortEnable port.toNat en.toNat)

/-- PORT_QUERY; LANE_MASK is the port's lanes counted from lane 0 of its group. -/
def cmdPortQuery (p : Nat) : Cmd :=
  { opcode := 0x0205
    bad := fun s => firstBad [(s.noPort p, 0)]
    run := fun s =>
      let g := (s.portGroup p).getD 0
      .ok (([PRT_CFG p, PRT_LINK_STAT p, PRT_LINK_EVT p, PRT_PROTO_STAT p].flatMap fun o => leBytes 4 (s.reg o).toNat) ++ leBytes 1 g ++
        leBytes 2 ((s.portLanes p).foldl (fun m l => m + 2 ^ (l - 8 * g)) 0)) s }

def execPortQuery (h : Hdr) (port : Byte) (s : State) : Eff := s.dermel h (cmdPortQuery port.toNat)

/-- Steps of margining on one side at a rate (R298): timing, or voltage. -/
def marginSteps (rate dir : Nat) : Nat := if rate ≤ 4 then (if dir ≤ 1 then 32 else 64) else (if dir ≤ 1 then 16 else 32)

/-- LANE_MARGIN (R299, R300). -/
def cmdLaneMargin (p target mask dir steps limit dwell : Nat) : Cmd :=
  { opcode := 0x0206, most := 32
    bad := fun s => firstBad [(s.noPort p, 0), (1 < target, 1), (mask == 0 || 2 ^ s.portWidth p ≤ mask, 2), (3 < dir, 4),
      (marginSteps (if s.inL0 p then s.fld (PRT_LINK_STAT_fRATE p) else 0) dir < steps, 5), (limit == 0 || 63 < limit, 6),
      (dwell == 0 || 10000 < dwell, 8)]
    run := fun s =>
      let ls := s.maskLanes p mask
      if !s.inL0 p || s.fld (PRT_LINK_STAT_fRATE p) < 3 || ls.any fun l => s.flag (LNG_LANE_STAT_fMARGINING (l / 8) (l % 8)) then
        .refuse .busy 0
      else .pending (.margin p mask) [] ((s.setMargin ls true).mapPort p fun x => { x with margin := x.margin ++ [(mask, limit)] }) }

def execLaneMargin (h : Hdr) (port target : Byte) (mask : B16) (dir steps errLimit : Byte) (dwell : Word) (s : State) : Eff :=
  s.dermel h (cmdLaneMargin port.toNat target.toNat mask.toNat dir.toNat steps.toNat errLimit.toNat dwell.toNat)

/-- LANE_STATS (R301). -/
def cmdLaneStats (p : Nat) : Cmd :=
  { opcode := 0x0207
    bad := fun s => firstBad [(s.noPort p, 0)]
    run := fun s =>
      let one := fun (l : Nat) =>
        let g := l / 8
        let k := l % 8
        let taps := (NMap.get? s.ports.taps l).getD []
        ([LNG_LANE_STAT g k, LNG_LANE_ERR g k, LNG_LANE_EQ g k, LNG_LANE_EYE g k].flatMap fun o => leBytes 4 (s.reg o).toNat) ++
          (taps ++ List.replicate (16 - taps.length) 0)
      .ok ((s.portLanes p).flatMap one) s }

def execLaneStats (h : Hdr) (port : Byte) (s : State) : Eff := s.dermel h (cmdLaneStats port.toNat)

/-! ## Adoption that the device holds up (R34, R318) -/

/-- MEMORY_ACTIVE_TIMEOUT (R34): the adoption fails at step 1. -/
def execMemoryActiveTimeout (port : Port) (s : State) : Eff :=
  .next (s.finish (fun c => c.work == .poolAdopt port.toNat) ⟨.faulted, 1, []⟩)

/-- CXL_IO_COMPLETION_TIMEOUT (R318): the adoption fails at the step whose request had no completion, which is open. -/
def execCxlIoCompletionTimeout (port : Port) (s : State) : Eff :=
  if s.busyWith (· == .poolAdopt port.toNat) then
    let (v, s1) := s.free
    .next (s1.finish (fun c => c.work == .poolAdopt port.toNat) ⟨.faulted, v.toNat % 65536, []⟩)
  else .next s

end Sys2Proof.Machine
end

