-- ==== Sys2Proof/Machine/Mailbox.lean ====
section
/-! DEFINITION. The memory device mailbox of a window (R320) and the Fabric Manager API (R322 to R327). A reply's output data
holds the values that the spec states, in its order; the other fields of the CXL standard's layouts are not held (log 35). -/

namespace Sys2Proof.Machine

/-! ## Window mailbox (R320) -/

/-- A command of a window's mailbox: it needs the logical device, presented to the host, and the Hearth. -/
def State.mbCmd (s : State) (a : MbAt) (f : Window → Binding → MbRet × List Byte × State) : State :=
  let w := a.window.toNat
  let h := a.host.toNat
  match (s.win? w).bind fun x => (x.bind? h).map fun b => (x, b) with
  | none => s
  | some (x, b) =>
    if b.st != .bound then s
    else if !s.cmds.hearthUp then s.mbPost w h .busy []
    else
      let r := f x b
      r.2.2.mbPost w h r.1 r.2.1

/-- A mailbox command that only answers data. -/
def State.mbSay (s : State) (a : MbAt) (data : List Byte) : Eff := .next (s.mbCmd a fun _ _ => (.success, data, s))

/-- MB_IDENTIFY: the identity of the window's logical device (R49, R50): vendor, device, subsystem vendor and subsystem IDs, serial
number. -/
def execMbIdentify (a : MbAt) (s : State) : Eff :=
  .next (s.mbCmd a fun x _ => (.success, leBytes 2 Config.vendorId.toNat ++ leBytes 2 x.devId ++ leBytes 2 Config.vendorId.toNat ++
    leBytes 2 x.subsys ++ leBytes 8 x.serial, s))

/-- MB_BACKGROUND_OPERATION_STATUS: no command runs in the background. -/
def execMbBackgroundOperationStatus (a : MbAt) (s : State) : Eff := s.mbSay a (leBytes 8 0)

/-- Event log of an event kind: dynamic capacity events in log 4, General Media events in log 2 (log 36). -/
def evLog (kind : Nat) : Nat := if kind = 2 then 2 else 4

/-- Bytes of an event record: handle, kind, and the values it covers. -/
def evRecord (e : Nat × Nat × List Nat) : List Byte :=
  leBytes 2 e.1 ++ leBytes 2 e.2.1 ++ leBytes 4 e.2.2.length ++ e.2.2.flatMap (leBytes 8 ·)

/-- MB_GET_EVENT_RECORDS. -/
def execMbGetEventRecords (a : MbAt) (log : Byte) (s : State) : Eff :=
  .next (s.mbCmd a fun _ b =>
    let es := b.events.filter fun e => evLog e.2.1 == log.toNat
    if 4 < log.toNat then (.invalidInput, [], s) else (.success, leBytes 2 es.length ++ es.flatMap evRecord, s))

/-- MB_CLEAR_EVENT_RECORDS: every record of the log, or those whose handles are given. -/
def execMbClearEventRecords (a : MbAt) (log : Byte) (all : Bool) (handles : List B16) (s : State) : Eff :=
  .next (s.mbCmd a fun _ b =>
    let mine := fun (e : Nat × Nat × List Nat) => evLog e.2.1 == log.toNat
    let known := handles.all fun h => b.events.any fun e => mine e && e.1 == h.toNat
    let gone := fun (e : Nat × Nat × List Nat) => mine e && (all || handles.any fun h => h.toNat == e.1)
    if 4 < log.toNat || (!all && !known) then (.invalidInput, [], s)
    else (.success, [], s.mapBind a.window.toNat a.host.toNat fun y => { y with events := y.events.filter fun e => !gone e }))

/-- GET_EVENT_INTERRUPT_POLICY. -/
def execGetEventInterruptPolicy (a : MbAt) (s : State) : Eff :=
  .next (s.mbCmd a fun _ b => (.success, leBytes 4 b.evtPolicy.toNat, s))

/-- SET_EVENT_INTERRUPT_POLICY: MSI-X entry 0 only (R210). -/
def execSetEventInterruptPolicy (a : MbAt) (policy : Word) (s : State) : Eff :=
  .next (s.mbCmd a fun _ _ => (.success, [], s.mapBind a.window.toNat a.host.toNat fun y => { y with evtPolicy := policy }))

/-- MB_GET_TIMESTAMP: fabric time. -/
def execMbGetTimestamp (a : MbAt) (s : State) : Eff := s.mbSay a (leBytes 8 s.now)

/-- SET_TIMESTAMP: accepted and ignored. -/
def execSetTimestamp (a : MbAt) (_time : B64) (s : State) : Eff := s.mbSay a []

/-- GET_SUPPORTED_LOGS: the command effects log only. -/
def execGetSupportedLogs (a : MbAt) (s : State) : Eff := s.mbSay a (leBytes 2 1)

/-- GET_LOG: the command effects log names the commands accepted. -/
def execGetLog (a : MbAt) (s : State) : Eff :=
  .next (s.mbCmd a fun x _ =>
    (.success, x.mbOps.flatMap (leBytes 2 ·), s))

/-- IDENTIFY_MEMORY_DEVICE: volatile capacity is the window size; persistent capacity and label storage are 0. -/
def execIdentifyMemoryDevice (a : MbAt) (s : State) : Eff :=
  .next (s.mbCmd a fun x _ => (.success, leBytes 8 x.bytes ++ leBytes 8 x.bytes ++ leBytes 8 0 ++ leBytes 4 0, s))

/-- GET_HEALTH_INFO: a failed window is a media error. -/
def execGetHealthInfo (a : MbAt) (s : State) : Eff := .next (s.mbCmd a fun x _ => (.success, leBytes 1 (b2n x.failed), s))

/-- GET_POISON_LIST: up to 256 lines that the home has poisoned, oldest first, as addresses in the window. -/
def execGetPoisonList (a : MbAt) (s : State) : Eff :=
  .next (s.mbCmd a fun x _ => (.success, leBytes 2 x.poisoned.length ++ x.poisoned.flatMap fun l => leBytes 8 (l * 64 - x.base), s))

/-- A command of a dynamic capacity window; every other window answers Unsupported (R320). -/
def State.mbDyn (s : State) (a : MbAt) (f : Window → MbRet × List Byte × State) : Eff :=
  .next (s.mbCmd a fun x _ => if x.type == .dynamic then f x else (.unsupported, [], s))

/-- GET_DYNAMIC_CAPACITY_CONFIGURATION: one region that spans the window (R316). -/
def execGetDynamicCapacityConfiguration (a : MbAt) (s : State) : Eff :=
  s.mbDyn a fun x => (.success, leBytes 1 1 ++ leBytes 8 0 ++ leBytes 8 x.bytes, s)

/-- Extents of a dynamic capacity window that the host holds. -/
def State.dcHeld (s : State) (x : Window) : List Nat :=
  (List.range x.extents).filter fun i => let e := s.ext (x.baseX + i); e.valid && (e.st == .live || e.st == .releasing)

/-- GET_DYNAMIC_CAPACITY_EXTENT_LIST. -/
def execGetDynamicCapacityExtentList (a : MbAt) (s : State) : Eff :=
  s.mbDyn a fun x => (.success, leBytes 4 (s.dcHeld x).length ++ (s.dcHeld x).flatMap (leBytes 4 ·), s)

/-- ADD_DYNAMIC_CAPACITY_RESPONSE (R56): it answers the oldest outstanding offer that holds a named extent, or the oldest if it
names none. DESIGN CHOICE (log 223): without such an offer the answer is Invalid Input; the spec does not say. -/
def execAddDynamicCapacityResponse (a : MbAt) (extents : List Nat) (s : State) : Eff :=
  s.mbDyn a fun x =>
    let o := if extents.isEmpty then x.offers.head? else x.offers.find? fun o => o.xs.any extents.contains
    match o with
    | some y => (.success, [], s.answerOffer a.window.toNat y extents)
    | none => (.invalidInput, [], s)

/-- RELEASE_DYNAMIC_CAPACITY (R57): RELEASING extents accept no further request. -/
def execReleaseDynamicCapacity (a : MbAt) (extents : List Nat) (s : State) : Eff :=
  s.mbDyn a fun x =>
    let s1 := extents.foldl (fun b i =>
      let e := b.ext (x.baseX + i)
      if i < x.extents && e.valid && e.st == .releasing then b.setExt (x.baseX + i) { e with closed := true } else b) s
    (.success, [], (s1.pumpRelease a.window.toNat).endReleases a.window.toNat)

/-! ## Unbind timeouts (R54, R323) -/

/-- Pass-through bindings whose wait for the host's consent is over. -/
def State.removalsDue (s : State) : List Vppb :=
  s.ports.vppb.filter fun v => match v.removing with | some d => d ≤ s.now | none => false

/-- UNBIND_TIMEOUT (R54): the wait for the host ends, and the unbind goes on; a binding failed under R96 is removed. A
pass-through binding whose wait for a managed hot-remove has expired is removed (R323). -/
def execUnbindTimeout (window : Win) (host : Fid) (t : Nat) (s0 : State) : Eff :=
  let s1 := s0.at t
  let s := s1.removalsDue.foldl (fun a v => a.unbindPt v) s1
  let w := window.toNat
  let q := host.toNat
  match (s.win? w).bind (·.bind? q) with
  | none => .next s
  | some b =>
    match b.deadline with
    | some d => .next (if d ≤ s.now then (s.unbind2 w q).unbind5 w q else s)
    | none => .next (if b.r96 then (s.unbind2 w q).unbind5 w q else s)

/-! ## Fabric Manager API (R325) -/

/-- A Fabric Manager API command, with the authority of Room 0, while the Hearth runs. -/
def State.fmCmd (s : State) (f : MbRet × List Byte × State) : Eff :=
  if !s.cmds.hearthUp then .next (s.emit (.mbox none .busy [])) else .next (f.2.2.emit (.mbox none f.1 f.2.1))

/-- FM_IDENTIFY. -/
def execFmIdentify (_src : FmSrc) (s : State) : Eff := s.fmCmd (.success, leBytes 2 Config.vendorId.toNat ++ leBytes 2 0x9256, s)

/-- FM_BACKGROUND_OPERATION_STATUS. -/
def execFmBackgroundOperationStatus (_src : FmSrc) (s : State) : Eff := s.fmCmd (.success, leBytes 8 0, s)

/-- FM_GET_EVENT_RECORDS: the switch's event log, with the completion events of R327. -/
def execFmGetEventRecords (_src : FmSrc) (s : State) : Eff :=
  s.fmCmd (.success, leBytes 2 s.mail.recs.length ++ s.mail.recs.flatMap fun r => leBytes 2 r.1 ++ leBytes 2 r.2.length ++ r.2, s)

/-- FM_CLEAR_EVENT_RECORDS. -/
def execFmClearEventRecords (_src : FmSrc) (all : Bool) (handles : List B16) (s : State) : Eff :=
  let known := handles.all fun h => s.mail.recs.any fun r => r.1 == h.toNat
  let keep := fun (r : Nat × List Byte) => !(all || handles.any fun h => h.toNat == r.1)
  s.fmCmd (if !all && !known then (.invalidInput, [], s)
    else (.success, [], { s with mail := { s.mail with recs := s.mail.recs.filter keep } }))

/-- FM_GET_TIMESTAMP. -/
def execFmGetTimestamp (_src : FmSrc) (s : State) : Eff := s.fmCmd (.success, leBytes 8 s.now, s)

/-- IDENTIFY_SWITCH_DEVICE: 64 physical ports, 64 virtual switches, up to 96 virtual bridges each. -/
def execIdentifySwitchDevice (_src : FmSrc) (s : State) : Eff :=
  s.fmCmd (.success, leBytes 1 64 ++ leBytes 1 64 ++ leBytes 2 96, s)

/-- GET_PHYSICAL_PORT_STATE: port, role, and PRT_LINK_STAT of each port named. -/
def execGetPhysicalPortState (_src : FmSrc) (ports : List Byte) (s : State) : Eff :=
  if ports.any fun p => s.noPort p.toNat then s.fmCmd (.invalidInput, [], s)
  else s.fmCmd (.success, ports.flatMap fun p =>
    leBytes 1 p.toNat ++ leBytes 1 (s.role p.toNat) ++ leBytes 4 (s.reg (PRT_LINK_STAT p.toNat)).toNat, s)

/-- PERST of a port driven by Physical Port Control: through its Doorway channel in ON, or its reset gate alone (R302). -/
def State.portPerst (s : State) (p : Nat) (low : Bool) : State :=
  let s1 := s.mapPort p fun x => { x with gateShut := low }
  let s2 := match (s.port p).dch with
    | some n => if (s.dch n).st == 6 then (s1.mapDch n fun c => { c with perst := !low }).emit (.pin (.perstDn n) !low) else s1
    | none => s1
  if low && s.fld (PRT_LINK_STAT_fSTATE p) != 0 then s2.linkDown p 1 else s2

/-- PHYSICAL_PORT_CONTROL: on DOWNSTREAM_PT ports only (R305, R325). -/
def execPhysicalPortControl (_src : FmSrc) (port : Byte) (op : PortCtl) (s : State) : Eff :=
  let p := port.toNat
  if s.noPort p || s.role p != rolePt then s.fmCmd (.invalidInput, [], s)
  else s.fmCmd (.success, [], match op with
    | .assertPerst => s.portPerst p true
    | .deassertPerst => s.portPerst p false
    | .resetPpb => s.sendHotReset p)

/-- SEND_PPB_CXL_IO_CONFIGURATION_REQUEST: on DOWNSTREAM_PT and POOL ports with their link up; no writes to a POOL device. What
the device's register holds is open (log 3). -/
def execSendPpbCxlIoConfigurationRequest (_src : FmSrc) (port : Byte) (write : Bool) (reg : BitVec 12) (value : Word) (s : State) : Eff :=
  let p := port.toNat
  if s.noPort p || !(s.role p == rolePt || s.role p == rolePool) || (write && s.role p == rolePool) || !s.inL0 p then
    s.fmCmd (.invalidInput, [], s)
  else
    let m : MsgIn := { kind := .ioCfg, host := BitVec.ofNat 12 (s.fab.fid.getD 0), dpid := 0, tag := 0, addr := reg.setWidth 64
                       mval := .i, snp := .noOp, block := false, data := value.setWidth 512, be := if write then 15 else 0
                       len := 4, pasid := none, poison := false }
    let s1 := s.emit (.send p (.fwd m))
    if write then s1.fmCmd (.success, [], s1)
    else
      let (v, s2) := s1.free
      s2.fmCmd (.success, leBytes 4 v.toNat, s2)

/-- GET_VIRTUAL_CXL_SWITCH_INFO: the virtual switch that an upstream port heads (R322): bridge, kind (1 physical port, 2
logical device of the switch), port or window. -/
def execGetVirtualCxlSwitchInfo (_src : FmSrc) (vcs : Byte) (s : State) : Eff :=
  let p := vcs.toNat
  if s.noPort p || s.role p != roleUpstream then s.fmCmd (.invalidInput, [], s)
  else
    let wins := s.pool.wins.flatMap fun w => (w.2.binds.filter fun b => b.port == p).map fun b => (b.bridge, 2, w.1)
    let pts := (s.ports.vppb.filter fun v => v.vcs == p).map fun v => (v.bridge, 1, v.port)
    s.fmCmd (.success, leBytes 2 96 ++ (wins ++ pts).flatMap fun e => leBytes 1 e.1 ++ leBytes 1 e.2.1 ++ leBytes 2 e.2.2, s)

/-- BIND_VPPB (R323): a free pass-through bridge, and an unbound DOWNSTREAM_PT port in the same Room. -/
def execBindVppb (_src : FmSrc) (vcs vppb port : Byte) (s : State) : Eff :=
  let v := vcs.toNat
  let k := vppb.toNat
  let p := port.toNat
  let room := s.portRoom v
  if s.noPort v || s.noPort p || s.role v != roleUpstream || s.role p != rolePt || k < 64 || 96 ≤ k || room.isNone ||
      s.portRoom p != room || !s.bridgeFree v k || (s.vppbAt p).isSome then s.fmCmd (.invalidInput, [], s)
  else if (match room with | some r => s.closing r | none => false) then s.fmCmd (.busy, [], s)
  else s.fmCmd (.success, [], (s.bindPt v k p).dropRet p)

/-- UNBIND_VPPB (R323, R324): at once, or after a managed hot-remove of at most 5 s. -/
def execUnbindVppb (_src : FmSrc) (vcs vppb : Byte) (wait : Bool) (s : State) : Eff :=
  match s.ports.vppb.find? fun v => v.vcs == vcs.toNat && v.bridge == vppb.toNat with
  | none => s.fmCmd (.invalidInput, [], s)
  | some v =>
    if wait then
      let s1 := s.mapPorts fun x => { x with vppb := x.vppb.map fun y =>
        if y == v then { y with removing := some (s.now + 5000000000) } else y }
      s.fmCmd (.success, [], s1.bridgeMsg v.vcs (s.portId v.vcs) v.bridge evtAttention)
    else s.fmCmd (.success, [], s.unbindPt v)

/-- GENERATE_AER_EVENT: the virtual bridge reports the error to its host. -/
def execGenerateAerEvent (_src : FmSrc) (vcs vppb : Byte) (err : Word) (s : State) : Eff :=
  let v := vcs.toNat
  if s.noPort v || s.role v != roleUpstream || s.bridgeFree v vppb.toNat then s.fmCmd (.invalidInput, [], s)
  else s.fmCmd (.success, [], s.bridgeMsg v (s.portId v) vppb.toNat (evtAer + 16 * err.toNat))

end Sys2Proof.Machine
end

