-- ==== Sys2Proof/Machine/Opf.lean ====
section
/-! DEFINITION. OPF modules (R341 to R343, R347 to R359, R362): flits, replay, the audit, retrain with lane repair; and the parts
of retrain that the Stairwell shares. -/

namespace Sys2Proof.Machine

/-! ## Retrain -/

/-- OPF die number of an end (R340). -/
def endDie (k : Nat) : Nat :=
  let m := k / 2
  if m < 32 then (if k % 2 = 0 then m / 8 else 4 + m % 8 / 4) else if k % 2 = 0 then 4 else if m < 48 then 5 else 6

/-- Ends of the same link that the model holds. -/
def bothEnds (k : Nat) : List Nat := if k < 96 then [k, peerEnd k] else [k]

def State.mapEnds (s : State) (k : Nat) (f : LinkEnd → LinkEnd) : State := (bothEnds k).foldl (fun a j => a.mapLend j f) s

/-- A retrain begins (R355, R360): new traffic and replay timers stop. -/
def State.beginRetrain (s : State) (k reason : Nat) : State :=
  let m := lineNo k
  let s1 := if k < 98 then
      let a := (s.setFld (OPF_MOD_STAT_fSTATE m) 2).setFld (OPF_MOD_STAT_fLAST_REASON m) reason
      let b := if reason = 4 then a else a.bump (OPF_MOD_LEAK_fRETRAIN_CNT m)
      if reason = 2 then b.setFld (OPF_MOD_LEAK_fLEAK_RETRAIN m) 1 else b
    else s.setFld (STW_LNK_STAT_fSTATE (k - 100)) 3
  (s1.mapLinks fun x => { x with since := NMap.set x.since m s.now, listed := x.listed.filter fun i => i != m }).mapEnds k
    fun e => { e with timer := none, expiries := 0, low := none, trn := 0, asked := false, sync := false }

/-- RTRQ sent by an end (R343, R346). -/
def State.sendRtrq (s : State) (k reason : Nat) : State :=
  if k < 96 then
    let (r, s1) := s.takeReturns k
    (s1.mapLend k fun e => { e with asked := true }).emit (.null k 2 (s1.lend k).ack r.1 r.2 [reason, endDie k])
  else (s.mapLend k fun e => { e with asked := true }).emit (.ctl k 3 [s.fab.rank, s.fab.fid.getD 0, reason])

/-- An end asks for a retrain; one that runs serves this reason too, and a link that is not up has none (R362). -/
def State.wantRetrain (s : State) (k reason : Nat) : State :=
  if s.lineUp k then (s.beginRetrain k reason).sendRtrq k reason else s

/-- A sender resynchronised from the other receiver's SYNC (R358). -/
def State.resync (s : State) (k next : Nat) (free : List Nat) : State :=
  s.mapLend k fun e =>
    let left := e.unacked.filter fun u => (u.seq + 4096 - next) % 4096 < 2048
    { e with
      unacked := left
      spent := (List.range (endVcs k)).map fun v =>
        (v, endSlots k v - (free.getD v 0 - (left.filter fun u => u.vc == v).length))
      returned := []
      leak := []
      sync := true }

/-- A link comes up after SYNC (R355 step 8, R358, R360): unacknowledged entries are replayed, then new traffic goes on. -/
def State.goUp (s : State) (k : Nat) : State :=
  let m := lineNo k
  let s1 := if k < 98 then s.setFld (OPF_MOD_STAT_fSTATE m) 1 else s.setFld (STW_LNK_STAT_fSTATE (k - 100)) 2
  let s2 := (s1.mapLinks fun x => { x with since := NMap.erase x.since m, listed := x.listed.filter fun i => i != m }).mapEnds k
    fun e => { e with
      asked := false, sync := false, trn := 0, freed := [], owe := [], expiries := 0
      timer := if e.unacked.isEmpty then none else some s.now }
  (bothEnds k).foldl (fun a j => (a.burst j).pump j) s2

/-! ## Checks of what arrives (R349, R449) -/

/-- Checker of a link: type 11h for OPF modules and module 48, 12h for Stairwell links. -/
def linkChecker (k : Nat) : Nat := if k < 98 then 0x1100 + k / 2 else 0x1200 + (k - 100)

/-- Does what arrives pass its CRC of `w` bits? A bad one is counted, and recorded as corrected by the replay (log 64). -/
def State.linkCheck (s : State) (k w : Nat) (good : Bool) : Bool × State :=
  let (seen, s1) := s.check1 (linkChecker k) w false
  let hit := seen != .clean
  if good && !hit then (true, s1)
  else
    let r : Report := { checker := linkChecker k, cls := 0, source := if k < 98 then 3 else 4,
                        unit := if k < 98 then k / 2 else k - 100, transient := true, injected := hit }
    (false, (s1.bumpCrc k).record r)

/-! ## Audit (R353, R354) -/

/-- LEAK_PCT of a link; module 48 has the default (log 65). -/
def State.leakPct (s : State) (k : Nat) : Nat :=
  if k < 96 then s.fld OPF_GCFG_fLEAK_PCT else if k < 98 then 25 else s.fld (STW_LNK_CFG_fLEAK_PCT (k - 100))

/-- Largest LEAK of any channel at the ends of a link. -/
def State.leakMax (s : State) (k : Nat) : Nat :=
  (bothEnds k).foldl (fun n j => (s.lend j).leak.foldl (fun a p => Nat.max a p.2) n) 0

/-- An audit acted on: LEAK of each channel, its report, and the retrain after 1 ms below the threshold. -/
def State.auditIn (s : State) (k : Nat) (freed : List Nat) : State :=
  if !s.lineUp k then s
  else
    let e := s.lend k
    let leaks := (List.range (endVcs k)).map fun v => (v, (freed.getD v 0 + 65536 - vcCount e.returned v) % 65536)
    let low := leaks.any fun p => (endSlots k p.1 - p.2) * 100 < s.leakPct k * endSlots k p.1
    let since := match e.low with | some t => t | none => s.now
    let s1 := s.mapLend k fun x => { x with leak := leaks, low := if low then some since else none }
    let s2 := if k < 98 then s1.setFld (OPF_MOD_LEAK_fLEAK_MAX (k / 2)) (s1.leakMax k)
      else s1.setFld (STW_LNK_ERR_fLEAK_MAX (k - 100)) (Nat.min 255 (s1.leakMax k))
    if low && since + 1000000 ≤ s.now then s2.wantRetrain k 2 else s2

/-! ## Flits -/

/-- End number of an OPF end. -/
def opfKey (e : OpfEnd) : Nat := 2 * e.m.val + (if e.high then 1 else 0)

/-- What the sender of a flit has done by sending it: its first transmission, and the credit return it carried (log 66). -/
def State.sentFlit (s : State) (k : Nat) (f : OpfFlit) : State :=
  let s1 := if f.seq.toNat = (s.lend k).tx then s.noteFirst k f.seq.toNat f.vc.toNat f.payload else s
  s1.mapLend k fun e => { e with
    owe := NMap.set e.owe f.crVc.toNat (vcCount e.owe f.crVc.toNat - f.crCnt.toNat), ackDue := false, sentT := s.now }

/-- The whole messages at the front of a virtual channel's stream, delivered in order; what is left of it (R342). -/
def State.deliver : Nat → State → Nat → Nat → List Byte → List Byte × State
  | 0, s, _, _, bs => (bs, s)
  | n + 1, s, k, vc, bs =>
    let len := Config.opfMsgLen vc bs
    if len = 0 || bs.length < len then (bs, s)
    else State.deliver n (s.emit (.opfMsg k vc (bs.take len))) k vc (bs.drop len)

/-- The payload of an accepted flit joins its virtual channel's stream (R342). -/
def State.streamIn (s : State) (k vc : Nat) (data : List Byte) : State :=
  let bs := (NMap.get? (s.lend k).stream vc).getD [] ++ data
  let r := State.deliver bs.length s k vc bs
  r.2.mapLend k fun e => { e with stream := NMap.set e.stream vc r.1 }

/-- OPF_FLIT (R341, R342, R349, R352): a sequenced flit reaches an end; its FILL is the length of its payload. -/
def execOpfFlit (e : OpfEnd) (f : OpfFlit) (t : Nat) (s0 : State) : Eff :=
  let s := s0.at t
  let k := opfKey e
  if 96 ≤ k || !s.lineUp k then .next s
  else
    let (ok, s1) := (s.sentFlit (peerEnd k) f).linkCheck k 32 f.good
    if !ok then .next s1
    else
      let s2 := s1.fieldsIn k f.ack.toNat f.crVc.toNat f.crCnt.toNat
      .next (if f.seq.toNat = (s2.lend k).rx then (s2.accept k f.vc.toNat).streamIn k f.vc.toNat f.payload else s2)

/-- ACK_FLIT (R348). -/
def execAckFlit (e : OpfEnd) (f : OpfNull) (t : Nat) (s0 : State) : Eff :=
  let s := s0.at t
  let k := opfKey e
  if 96 ≤ k || !s.lineUp k then .next s
  else
    let (ok, s1) := s.linkCheck k 32 f.good
    .next (if ok then s1.fieldsIn k f.ack.toNat f.crVc.toNat f.crCnt.toNat else s1)

/-- AUDIT_FLIT (R353, R354). -/
def execAuditFlit (e : OpfEnd) (f : OpfNull) (freed : List B16) (t : Nat) (s0 : State) : Eff :=
  let s := s0.at t
  let k := opfKey e
  if 96 ≤ k || !s.lineUp k then .next s
  else
    let (ok, s1) := s.linkCheck k 32 f.good
    .next (if ok then (s1.fieldsIn k f.ack.toNat f.crVc.toNat f.crCnt.toNat).auditIn k (freed.map BitVec.toNat) else s1)

/-! ## Lane repair (R355 to R359) -/

/-- The failing-wire word that a receiver sends (R356). -/
def failWord (ws : List Nat) : Nat :=
  let v := packBits [(ws.getD 0 0, 7), (b2n (0 < ws.length), 1), (ws.getD 1 0, 7), (b2n (1 < ws.length), 1), (Nat.min 7 ws.length, 3)]
  v + (2 ^ 32 - 1 - v) * 2 ^ 32

/-- A word as the receiver decodes it: each bit by majority over the physical wires that carried it (R356). -/
def voteWord (ws : List B64) : Nat :=
  (List.range 64).foldl (fun n i => if ws.length < 2 * (ws.filter fun w => w.getLsbD i).length then n + 2 ^ i else n) 0

/-- The failed wires that a word names, and COUNT; none: it cannot be decoded (R356). -/
def failList (v : Nat) : Option (List Nat × Nat) :=
  if bitsOf v 0 32 + bitsOf v 32 32 = 2 ^ 32 - 1 then
    some ((if bitOf v 7 then [bitsOf v 0 7] else []) ++ (if bitOf v 15 then [bitsOf v 8 7] else []), bitsOf v 16 3)
  else none

/-- A module is lost: a fatal fault (R359). -/
def State.loseModule (s : State) (m : Nat) : State :=
  ((s.setFld (OPF_MOD_STAT_fSTATE m) 3).mapLinks fun x => { x with since := NMap.erase x.since m }).fatal
    { checker := 0x1100 + m, source := 3, unit := m }

/-- Wires in ascending order, each once. -/
def insertWire (w : Nat) : List Nat → List Nat
  | [] => [w]
  | x :: xs => if w < x then w :: x :: xs else if w = x then x :: xs else x :: insertWire w xs

/-- Failed wires of a direction, earlier repairs included, with new ones: the registers, and a record of each repair. -/
def State.repair (s : State) (m dir : Nat) (new : List Nat) : State :=
  let key := 2 * m + dir
  let old := (NMap.get? s.links.wires key).getD []
  let all_ := new.foldl (fun a w => insertWire w a) old
  let s1 := s.mapLinks fun x => { x with wires := NMap.set x.wires key all_ }
  let w0 := all_.getD 0 0
  let w1 := all_.getD 1 0
  let v0 := b2n (0 < all_.length)
  let v1 := b2n (1 < all_.length)
  let s2 := if dir = 0 then
      ((((s1.setFld (OPF_MOD_REPAIR_fFAIL_A0 m) w0).setFld (OPF_MOD_REPAIR_fV_A0 m) v0).setFld (OPF_MOD_REPAIR_fFAIL_A1 m) w1
        ).setFld (OPF_MOD_REPAIR_fV_A1 m) v1).setFld (OPF_MOD_STAT_fSPARE_A m) all_.length
    else
      ((((s1.setFld (OPF_MOD_REPAIR_fFAIL_B0 m) w0).setFld (OPF_MOD_REPAIR_fV_B0 m) v0).setFld (OPF_MOD_REPAIR_fFAIL_B1 m) w1
        ).setFld (OPF_MOD_REPAIR_fV_B1 m) v1).setFld (OPF_MOD_STAT_fSPARE_B m) all_.length
  (all_.filter fun w => !old.contains w).foldl (fun a w =>
    a.corrected (0x4c00 + m) 3 (m + dir * 256 + w * 512)) s2

/-- Has a direction more than two failed wires, with the new ones? -/
def State.tooMany (s : State) (m dir : Nat) (new : List Nat) : Bool :=
  2 < (new.foldl (fun a w => insertWire w a) ((NMap.get? s.links.wires (2 * m + dir)).getD [])).length

/-- SYNC sent by an end (R343): next expected SEQ and free receive slots. -/
def State.sendSync (s : State) (k : Nat) : State :=
  let slots := (List.range (endVcs k)).map (endSlots k)
  if k < 96 then
    let (r, s1) := s.takeReturns k
    s1.emit (.null k 3 (s1.lend k).ack r.1 r.2 ((s1.lend k).rx :: slots))
  else s.emit (.ctl k 5 ((s.lend k).rx :: slots))

/-- Steps 3 to 7 of a retrain (R355): the failing-wire words of the two directions, as the wires brought them, the wire maps, the
verify, and SYNC from both ends. -/
def State.testWires (s : State) (m : Nat) (wordsA wordsB : List B64) (verifyA verifyB : Bool) : State :=
  match failList (voteWord wordsA), failList (voteWord wordsB) with
  | some (failA, na), some (failB, nb) =>
    if !verifyA || !verifyB || 2 < na || 2 < nb || s.tooMany m 0 failA || s.tooMany m 1 failB then s.loseModule m
    else
      let s1 := ((s.repair m 0 failA).repair m 1 failB).mapLinks fun x => { x with listed := m :: x.listed }
      (s1.sendSync (2 * m)).sendSync (2 * m + 1)
  | _, _ => s.loseModule m

/-- RTRQ_FLIT (R355, R362): starts a retrain and is answered, or answers one; then the lists are exchanged. With both ends
asking, the lower die leads and gives the reason. -/
def execRtrqFlit (e : OpfEnd) (f : OpfNull) (reason : Byte) (die : Byte) (wordsA wordsB : List B64) (verifyA verifyB : Bool) (t : Nat)
    (s0 : State) : Eff :=
  let s := s0.at t
  let k := opfKey e
  let m := e.m.val
  let st := s.lineState k
  if 96 ≤ k || st == 3 then .next s
  else
    let (ok, s1) := s.linkCheck k 32 f.good
    if !ok then .next s1
    else
      let s2 := s1.fieldsIn k f.ack.toNat f.crVc.toNat f.crCnt.toNat
      if st != 2 then
        .next ((((s2.beginRetrain k reason.toNat).mapLend (peerEnd k) fun x => { x with asked := true }).sendRtrq k
          reason.toNat).testWires m wordsA wordsB verifyA verifyB)
      else if s2.links.listed.contains m then .next s2
      else
        let s3 := if die.toNat < endDie k then s2.setFld (OPF_MOD_STAT_fLAST_REASON m) reason.toNat else s2
        let s4 := if (s3.lend k).asked then s3 else s3.sendRtrq k reason.toNat
        .next (s4.testWires m wordsA wordsB verifyA verifyB)

/-- SYNC_FLIT (R358): once both senders are resynchronised, the module is up. -/
def execSyncFlit (e : OpfEnd) (f : OpfNull) (next : BitVec 12) (free : List B16) (t : Nat) (s0 : State) : Eff :=
  let s := s0.at t
  let k := opfKey e
  if 96 ≤ k || s.lineState k != 2 || !s.links.listed.contains e.m.val then .next s
  else
    let (ok, s1) := s.linkCheck k 32 f.good
    if !ok then .next s1
    else
      let s2 := s1.resync k next.toNat (free.map BitVec.toNat)
      .next (if (s2.lend (peerEnd k)).sync then s2.goUp k else s2)

/-! ## Commands (R365) -/

/-- OPF_QUERY. -/
def cmdOpfQuery (m : Nat) : Cmd :=
  { opcode := 0x0210
    bad := fun _ => firstBad [(48 < m, 0)]
    run := fun s => .ok ([OPF_MOD_STAT m, OPF_MOD_REPAIR m, OPF_MOD_ERR m, OPF_MOD_LEAK m].flatMap fun r =>
      leBytes 4 (s.reg r).toNat) s }

def execOpfQuery (h : Hdr) (module : Byte) (s : State) : Eff := s.dermel h (cmdOpfQuery module.toNat)

/-- OPF_RETRAIN: reason 03h, from the end with the lower die number. -/
def cmdOpfRetrain (m : Nat) : Cmd :=
  { opcode := 0x0211
    bad := fun _ => firstBad [(48 < m, 0)]
    run := fun s => if s.lineUp (2 * m) then .ok [] (s.wantRetrain (2 * m) 3) else .refuse .busy 0 }

def execOpfRetrain (h : Hdr) (module : Byte) (s : State) : Eff := s.dermel h (cmdOpfRetrain module.toNat)

end Sys2Proof.Machine
end

