-- ==== Sys2Proof/Machine/Fabric.lean ====
section
/-! DEFINITION. The Stairwell fabric's own state (R368 to R395): membership, the Ridge, replication, routing tables, instants
and relays, as the rows of chapter 13 use them. -/

namespace Sys2Proof.Machine

/-! ## Keys and the live list (R369, R371, R375, R376) -/

/-- This switch's fabric ID. -/
def State.me (s : State) : Nat := s.fab.fid.getD 0

/-- Is this switch the Ridge? -/
def State.isRidge (s : State) : Bool := s.fab.fid.isSome && s.fab.ridge == s.fab.fid

/-- The key order: the lower rank first, then the lower fabric ID. -/
def keyLt (a b : Nat × Nat) : Bool := a.1 < b.1 || (a.1 == b.1 && a.2 < b.2)

/-- The lowest key of a list. -/
def minKey : List (Nat × Nat) → Option (Nat × Nat)
  | [] => none
  | k :: ks => match minKey ks with
    | some b => if keyLt b k then some b else some k
    | none => some k

def Member.eligible (m : Member) : Bool := m.rank != 0xFFFF && !m.held && !m.restarting

/-- Keys of the eligible live switches (R375). -/
def State.eligibleKeys (s : State) : List (Nat × Nat) :=
  (if s.fab.fid.isSome && s.fab.rank != 0xFFFF && s.fab.cause = 0 && s.fab.restarting.isNone then [(s.fab.rank, s.me)] else []) ++
    (s.fab.members.filter fun m => m.2.eligible).map fun m => (m.2.rank, m.1)

/-- The switch that R375 chooses, and the one after a given switch. -/
def State.firstKey (s : State) : Option Nat := (minKey s.eligibleKeys).map (·.2)
def State.nextKey (s : State) (r : Nat) : Option Nat := (minKey (s.eligibleKeys.filter fun k => k.2 != r)).map (·.2)

/-- More than half of the configured switches are live here (R376). -/
def State.quorum (s : State) : Bool := s.fab.fid.isSome && s.fab.nCfg < 2 * (s.fab.members.length + 1)

/-- Hops to the Ridge, 255 for none, and the parent link: the neighbour with the fewest hops, the lower link first (R381). -/
def State.myHops (s : State) : Nat :=
  if s.isRidge then 0 else Nat.min 255 (s.fab.neigh.foldl (fun n x => Nat.min n (x.2.2.1 + 1)) 255)
def State.parentLink (s : State) : Option Nat :=
  if s.isRidge || s.myHops = 255 then none
  else (s.fab.neigh.find? fun x => x.2.2.1 + 1 == s.myHops).map (·.1)

/-! ## Member records (R370, R371) -/

/-- Fields of this switch's record: rank, ID, schema range, held, restarting, locked, schema in use, hops, epoch. -/
def State.recFields (s : State) : List Nat :=
  [s.fab.rank, s.me, s.fab.ownMin, s.fab.ownMax, b2n (s.fab.cause != 0), b2n s.fab.restarting.isSome, b2n s.timeLocked, s.fab.schema,
   s.myHops, s.fab.epoch]

/-- Body of a HELLO or MEMBER record (log 62). -/
def recBody (fs : List Nat) (serial : Nat) : List Byte :=
  leBytes 16 (packBits ((fs.zip [16, 12, 8, 8, 1, 1, 1, 8, 8, 32]).map id ++ [(serial, 16)]))

/-- A MEMBER record flooded, unless the device is in FAULT (R455). -/
def State.sendMember (s : State) : State :=
  if s.fab.fid.isNone || s.flt.st == .fault then s
  else
    let fs := s.recFields
    (s.flood 2 s.fab.memSerial (recBody fs s.fab.memSerial)).mapFab fun f =>
      { f with memSerial := (f.memSerial + 1) % 65536, lastRec := some fs }

/-! ## The schema (R390) -/

/-- The highest version in the range of every live switch that is not held, at or below a ceiling. -/
def State.bestSchema (s : State) (ceiling : Nat) : Option Nat :=
  let rs := (if s.fab.cause = 0 then [(s.fab.ownMin, s.fab.ownMax)] else []) ++
    (s.fab.members.filter fun m => !m.2.held).map fun m => (m.2.ownMin, m.2.ownMax)
  (List.range 255).reverse.find? fun v => 1 ≤ v && v ≤ ceiling && rs.all fun r => r.1 ≤ v && v ≤ r.2

/-! ## Routing tables (R385) -/

/-- Neighbours of this switch over live fabric-port groups. -/
def State.groupNeighbours (s : State) : List Nat :=
  ((s.ports.st.filter fun x => x.2.member && s.role x.1 == roleFabric).filterMap fun x => x.2.neighbour).dedup

/-- The next switch on the shortest path over the groups that the Ridge knows, its own (log 67). -/
def State.hop (s : State) (src dst : Nat) : Option Nat :=
  let g := s.groupNeighbours
  if src = s.me then (if g.contains dst then some dst else none)
  else if g.contains src && (dst = s.me || g.contains dst) then some s.me else none

/-- Is a switch held? -/
def State.isHeld (s : State) (sw : Nat) : Bool :=
  if sw = s.me then s.fab.cause != 0 else match NMap.get? s.fab.members sw with | some m => m.held | none => false

/-- The table of a switch, from the master table: a held switch receives no entries, and no entry names it. -/
def State.tableFor (s : State) (sw : Nat) : NMap (Nat × Bool) :=
  if s.isHeld sw then []
  else s.fab.master.filterMap fun e =>
    if s.isHeld e.2.1 then none
    else if e.2.1 = sw then some (e.1, (e.2.2, false))
    else (s.hop sw e.2.1).map fun n => (e.1, (n, true))

/-- The lowest-numbered member port of the group to a neighbour: the group's number in tables (log 68). -/
def State.groupPort (s : State) (n : Nat) : Nat :=
  match s.ports.st.find? fun x => x.2.member && x.2.neighbour == some n && s.role x.1 == roleFabric with
  | some x => x.1
  | none => 0

/-- A routing table as ROUTE_STAGE and ROUTE_QUERY carry it: fabric IDs from `first`, 4 bytes each; `none_` stands for an ID
without an entry and `group` gives a group's number. -/
def tableBytes (m : NMap (Nat × Bool)) (first n none_ : Nat) (group : Nat → Nat) : List Byte :=
  (List.range n).flatMap fun i => match NMap.get? m (first + i) with
    | some (p, g) => leBytes 1 (if g then group p else p) ++ leBytes 1 (b2n g) ++ leBytes 2 0
    | none => leBytes 4 none_

/-- A packet remembered as met (R373, R374); the newest 4,096 are kept (log 71). -/
def State.see (s : State) (cls src n : Nat) : State := s.mapFab fun f => { f with seen := ((cls, src, n) :: f.seen).take 4096 }
def State.met (s : State) (cls src n : Nat) : Bool := s.fab.seen.contains (cls, src, n)

/-! ## Relayed commands at a target (R388) -/

/-- A relayed packet given to the Hearth. -/
def State.enqueueRelay (s : State) (all : Bool) (origin seq : Nat) (pkt : List Byte) : State :=
  s.mapCmds fun c => { c with relay := c.relay ++ [⟨pkt, some (origin, seq + if all then 2147483648 else 0)⟩] }

/-- Packets that came early and whose turn it now is. -/
def State.drainRelay (s : State) (key : Nat) : Nat → State
  | 0 => s
  | n + 1 =>
    let e := vcCount s.fab.expect key
    match s.fab.heldRelay.find? fun h => h.1 == key && h.2.1 == e with
    | none => s
    | some h =>
      ((s.enqueueRelay (key == 4096) h.2.2.1 e h.2.2.2.2).mapFab fun f => { f with
        expect := NMap.set f.expect key ((e + 1) % 2147483648)
        heldRelay := f.heldRelay.filter fun x => x != h }).drainRelay key n

/-- A relayed command arrives: executed in its sequence, held while it is early. -/
def State.relayIn (s : State) (all : Bool) (origin seq : Nat) (pkt : List Byte) : State :=
  let key := if all then 4096 else origin
  let e := vcCount s.fab.expect key
  if seq = e then
    ((s.enqueueRelay all origin seq pkt).mapFab fun f => { f with expect := NMap.set f.expect key ((e + 1) % 2147483648) }).drainRelay
      key s.fab.heldRelay.length
  else if (seq + 2147483648 - e) % 2147483648 < 1073741824 then
    s.mapFab fun f => { f with heldRelay := f.heldRelay ++ [(key, seq, origin, s.now, pkt)] }
  else s

/-! ## What the Ridge does (R378) -/

/-- A pending instant as STATE carries it: whether there is one, its value and its time. -/
def instBytes (i : Option Instant) : List Byte :=
  match i with
  | some x => leBytes 1 1 ++ leBytes 2 x.value ++ leBytes 8 x.t
  | none => leBytes 11 0

/-- STATE as the Ridge sends it (R378): the ceiling, the fabric command sequence, the staged version, the pending instants, the master
table. -/
def State.stateBody (s : State) : List Byte :=
  leBytes 4 s.fab.epoch ++ leBytes 1 s.fab.ceiling ++ leBytes 4 s.fab.cmdSeq ++
    leBytes 2 (match s.ports.staged with | some x => x.1 | none => 0) ++ instBytes s.fab.routeT ++ instBytes s.fab.schemaPend ++
    s.fab.master.flatMap fun e => leBytes 2 e.1 ++ leBytes 2 e.2.1 ++ leBytes 1 e.2.2

/-- SCHEMA_SWITCH flooded 50 ms ahead, if R390 gives another version (R391, log 69). -/
def State.floodSchema (s : State) : State :=
  match s.bestSchema s.fab.ceiling with
  | some v =>
    if v = s.fab.schema then s
    else (s.mapFab fun f => { f with schemaPend := some ⟨s.now + 50000000, v, s.me⟩ }).floodNew 0x0c
      (leBytes 1 v ++ leBytes 8 (s.now + 50000000))
  | none => s

/-- ROUTE_ACT flooded 1 ms ahead (R385). -/
def State.floodRoute (s : State) (ver : Nat) : State :=
  (s.mapFab fun f => { f with staging := none, routeT := some ⟨s.now + 1000000, ver, s.me⟩ }).floodNew 0x0a
    (leBytes 2 ver ++ leBytes 8 (s.now + 1000000))

/-- ROUTE_STAGE sent to every other live switch, and this switch's own table staged; alone, the Ridge goes on at once. -/
def State.stageRoutes (s : State) : State :=
  let ver := (s.ports.routeVer + 1) % 65536
  let mine := s.tableFor s.me
  let s1 := s.mapPorts fun p => { p with staged := some (ver, mine) }
  let (v, s2) := s1.free
  let tos := s.fab.members.map (·.1)
  let s3 := tos.foldl (fun a t =>
    (a.unicastAck 9 t (leBytes 4 s.fab.epoch ++ leBytes 2 ver ++ tableBytes (s.tableFor t) 0 4096 0 fun _ => v.toNat % 256)).2) s2
  if tos.isEmpty then s3.floodRoute ver else s3.mapFab fun f => { f with staging := some (ver, tos) }

/-- A sequence number given to a fabric-wide relay of this origin. -/
def State.seqRelay (s : State) (seq : Nat) (pkt : List Byte) : State :=
  let put := updFirst (fun (r : Relay) => r.all && r.seq.isNone && r.pkt == pkt) (fun r => { r with seq := some seq })
  s.mapFab fun f => { f with relays := put f.relays }

/-- A fabric-wide command flooded in the origin's name, and executed here in its sequence (R388). -/
def State.floodRelay (s : State) (origin serial seq : Nat) (pkt : List Byte) : State :=
  let ps := ctlPackets 0x10 s.fab.schema origin none serial (leBytes 4 seq ++ pkt)
  let s1 := s.upLinks.foldl (fun a l => ps.foldl (fun b p => b.linkSend (100 + l) 1 p) a) s
  let s2 := s1.see 2 origin serial
  (if origin = s.me then s2.seqRelay seq pkt else s2).relayIn true origin seq pkt

/-- HANDOVER flooded 1 ms ahead (R379). -/
def State.floodHandover (s : State) (n : Nat) : State :=
  let t := s.now + 1000000
  let i : Instant := ⟨t, n, s.me⟩
  (s.mapFab fun f => { f with handover := some i }).floodNew 6 (leBytes 2 n ++ leBytes 8 t)

def State.doAct (s : State) : RidgeAct → State
  | .schema => s.floodSchema
  | .stage => s.stageRoutes
  | .routeAct => match s.ports.staged with
    | some v => s.floodRoute v.1
    | none => s
  | .relay origin serial seq pkt => s.floodRelay origin serial seq pkt
  | .handover n => s.floodHandover n

/-- The state copied to a switch before the Ridge acts. -/
def State.replicateTo (s : State) (dst : Nat) (a : RidgeAct) : State :=
  let (n, s1) := s.unicastAck 5 dst s.stateBody
  s1.mapFab fun f => { f with todo := f.todo ++ [(n, a)] }

/-- The Ridge acts once the standby Ridge has the change; at once with none (R378). -/
def State.replicate (s : State) (a : RidgeAct) : State :=
  match s.fab.standby with
  | some b => s.replicateTo b a
  | none => s.doAct a

/-- The whole state sent to a new standby Ridge. -/
def State.sendState (s : State) : State :=
  match s.fab.standby with
  | some b => ((s.unicastAck 5 b s.stateBody).2).mapFab fun f => { f with stdReady := false }
  | none => s

/-- RIDGE flooded: Ridge, standby Ridge (FFFFh for none) and epoch. -/
def State.floodRidge (s : State) : State := s.floodNew 4 (leBytes 2 s.me ++ leBytes 2 (s.fab.standby.getD 0xFFFF))

/-- This switch becomes Ridge (R375, R377): the next epoch; its time base is fabric time; the new standby receives the state. -/
def State.becomeRidge (s : State) : State :=
  let s1 := s.mapFab fun f => { f with
    ridge := f.fid, epoch := (f.epoch + 1) % 4294967296, standby := s.nextKey s.me, apart := false, handover := none,
    everLocked := true, slew := false, holdover := none, todo := [], staging := none
    schema := if f.schema = 0 then (s.bestSchema f.ceiling).getD 0 else f.schema }
  (s1.floodRidge).sendState

/-! ## Instants that are cancelled (R384, R395) -/

/-- Pending instants that did not come from the given Ridge cancelled, with ABORTED. -/
def State.cancelForeign (s : State) (r : Option Nat) : State :=
  let foreign := fun (i : Option Instant) => match i with | some x => some x.ridge != r | none => false
  let s1 := (s.mapPorts fun x => { x with st := x.st.map fun (p : Nat × PortSt) => (p.1, { p.2 with gateT := none }) }).endPends
    (fun w => match w with | .gateCommit _ _ => true | _ => false) .aborted
  let s2 := if foreign s.fab.routeT then ((s1.mapFab fun f => { f with routeT := none }).mapPorts fun p => { p with staged := none }
    ).endPends (· == .routeSet) .aborted else s1
  if foreign s.fab.schemaPend then (s2.mapFab fun f => { f with schemaPend := none }).endPends (· == .schemaSet) .aborted else s2

/-- Another switch is the Ridge now (R375, R376): its epoch is taken. A switch that rejoins cancels foreign instants, and slews
if it carries data. -/
def State.adoptRidge (s : State) (r : Nat) (std : Option Nat) (epoch : Nat) : State :=
  let s1 := if s.fab.apart then (s.cancelForeign (some r)).mapFab fun f => { f with slew := f.joined, locked := false, marks := 0 } else s
  s1.mapFab fun f => { f with ridge := some r, standby := std, epoch := epoch, apart := false, todo := [],
                              handover := if f.ridge == some r then f.handover else none }

/-! ## Leaving the live list -/

/-- Re-homing goes on once every switch has acknowledged HOME_MOVE (R386). -/
def State.checkMoves (s : State) : State :=
  (s.fab.moves.filter fun m => m.2.2.isEmpty).foldl (fun a m =>
    (a.mapFab fun f => { f with moves := NMap.erase f.moves m.1 }).endRehome m.2.1) s

/-- The activation of a staged table follows the last ACK (R385). -/
def State.checkStaging (s : State) : State :=
  match s.fab.staging with
  | some (_, []) => (s.mapFab fun f => { f with staging := none }).replicate .routeAct
  | _ => s

/-- A pending handover cancelled (R379, R395): RIDGE_YIELD ends with ABORTED. -/
def State.cancelHandover (s : State) : State :=
  (s.mapFab fun f => { f with handover := none, todo := f.todo.filter fun t => match t.2 with | .handover _ => false | _ => true }).endPends
    (· == .ridgeYield) .aborted

/-- A switch leaves the live list: relays to it end with TIMEOUT (R389), and it counts as having acknowledged (R386). -/
def State.dropMember (s : State) (fid : Nat) : State :=
  let s1 := s.mapFab fun f => { f with
    members := NMap.erase f.members fid, quiet := s.now
    acks := f.acks.filter fun a => a.dst != fid
    staging := f.staging.map fun x => (x.1, x.2.filter fun i => i != fid)
    moves := f.moves.map fun m => (m.1, (m.2.1, m.2.2.filter fun i => i != fid)) }
  let s2 := (s1.fab.relays.filter fun r => r.open_.any fun o => o.1 == fid).foldl (fun a r => a.relayTmo r fid) s1
  let gone := if s2.fab.standby == some fid then s2.fab.todo else []
  let s3 := gone.foldl (fun a t => a.doAct t.2) (if gone.isEmpty then s2 else s2.mapFab fun f => { f with standby := none, todo := [] })
  let s4 := match s3.fab.handover with
    | some i => if i.value = fid then s3.cancelHandover else s3
    | none => s3
  s4.checkStaging.checkMoves

/-- A member leaves once every neighbour that reports it has named it lost (R371): this switch for its own links, and one other
switch for each further link by which its records come (log 70). -/
def State.evalLost (s : State) (fid : Nat) : State :=
  match NMap.get? s.fab.members fid with
  | none => s
  | some m =>
    let direct := s.fab.neigh.any fun n => n.2.1 == fid
    let others := (m.lost.filter fun i => i != s.me).length
    if !m.lost.isEmpty && !direct && m.links.length ≤ others then s.dropMember fid else s

/-! ## The end of every fabric event -/

/-- The Ridge lost, or the quorum (R376, R377). -/
def State.settleRidge (s : State) : State :=
  if s.fab.fid.isNone then s
  else if !s.quorum then
    if s.fab.ridge.isNone && s.fab.apart then s
    else (s.mapFab fun f => { f with ridge := none, standby := none, apart := true }).cancelHandover
  else match s.fab.ridge with
    | none => s
    | some r =>
      if r = s.me || (NMap.get? s.fab.members r).isSome then s
      else
        let s1 := s.cancelHandover
        if s1.fab.standby == s1.fab.fid then s1.becomeRidge
        else s1.mapFab fun f => { f with
          ridge := none
          standby := match f.standby with | some b => if (NMap.get? f.members b).isSome then some b else none | none => none }

/-- What a Ridge looks after (R378, R385, R391): its standby, the schema, the routing tables. -/
def State.settleDuty (s : State) : State :=
  if !s.isRidge then s
  else
    let s1 := if s.nextKey s.me == s.fab.standby then s
      else (s.mapFab fun f => { f with standby := s.nextKey s.me }).floodRidge.sendState
    let wants := fun (a : RidgeAct) => s1.fab.todo.any fun t => t.2 == a
    let s2 := match s1.bestSchema s1.fab.ceiling with
      | some v => if s1.fab.schemaPend.isNone && v != s1.fab.schema && !wants .schema then s1.replicate .schema else s1
      | none => s1
    let active := match s2.ports.staged with | some x => x.2 | none => s2.ports.route
    if s2.fab.staging.isNone && s2.fab.routeT.isNone && !wants .stage && !wants .routeAct && s2.tableFor s2.me != active then s2.replicate .stage
    else s2

/-- It joins the data path (R384, R391), and floods a MEMBER record if a field of it has changed (R371). -/
def State.settleSelf (s : State) : State :=
  let s1 := if !s.fab.joined && s.fab.cause = 0 && s.fab.schemaPend.isNone && s.fab.ridge.isSome && s.timeLocked then
    s.mapFab fun f => { f with joined := true } else s
  if s1.fab.fid.isSome && s1.fab.lastRec != some s1.recFields then s1.sendMember else s1

def State.fabSettle (s : State) : State := s.settleRidge.settleDuty.settleSelf

/-- The Hearth restarts (R394, R520), from the preferred slot after FW_ACTIVATE: RESTARTING is set, and it takes no command until
it returns. -/
def State.restartHearth (s : State) : State :=
  let p := { s.pwr with st := BootSt.restart, t0 := s.now, slot := if s.pwr.previous.isSome then s.pwr.preferred else s.pwr.slot }
  (({ s with pwr := p, cmds := { s.cmds with hearthUp := false } }).mapFab fun f => { f with restarting := some s.now }).fabSettle

/-- A neighbour is lost from a link (R370): it is named lost unless another link still has it; a switch without a parent runs
in holdover (R384). -/
def State.neighLost (s : State) (l : Nat) : State :=
  match NMap.get? s.fab.neigh l with
  | none => s
  | some (id, _, _) =>
    let s1 := s.mapFab fun f => { f with
      neigh := NMap.erase f.neigh l
      members := f.members.map fun m => (m.1, { m.2 with links := m.2.links.filter fun i => i != l }) }
    let s2 := if s1.fab.neigh.any fun n => n.2.1 == id then s1
      else
        let serial := match NMap.get? s1.fab.members id with | some m => m.serial | none => 0
        let (n, a) := s1.nextSerial
        ((a.flood 3 n (leBytes 2 id ++ leBytes 2 serial)).mapFab fun f => { f with
          members := NMap.adjust f.members id fun m => { m with lost := if m.lost.contains s.me then m.lost else s.me :: m.lost } }).evalLost id
    let s3 := if s2.isRidge || s2.parentLink.isSome || s2.fab.holdover.isSome then s2
      else s2.mapFab fun f => { f with holdover := some s2.now }
    s3.fabSettle

end Sys2Proof.Machine
end

