-- ==== Sys2Proof/Machine/Stairwell.lean ====
section
/-! DEFINITION. Stairwell links and module 48 (R344 to R362, R367): packets, CTL ordered sets, training, and the timers that OPF
ends share; and the forwarding of control packets (R372 to R374). -/

namespace Sys2Proof.Machine

/-- End number of a link of the Stairwell kind. -/
def swKey : SwLink → Nat
  | .sw n => 100 + n.toNat
  | .mod48 => 96

/-- End number of either kind. -/
def anyKey : SwLink ⊕ OpfEnd → Nat
  | .inl l => swKey l
  | .inr e => opfKey e

/-- Does the model hold this end? -/
def isEnd (k : Nat) : Bool := k ≤ 96 || 100 ≤ k

/-! ## Forwarding and delivery (R372 to R374, R392) -/

/-- Packet types of R372. -/
def ctlTypes : List Nat := [1, 2, 3, 4, 5, 6, 7, 8, 9, 10, 11, 12, 13, 0x10, 0x11, 0x20]

/-- Is the schema of a packet accepted (R392)? -/
def State.pktSchema (s : State) (type schema : Nat) : Bool := type ≤ 3 || (schema != 0 && s.schemaOk 0 schema)

/-- A packet with its hop limit one lower. -/
def hopDown (bs : List Byte) (hops : Nat) : List Byte := bs.take 6 ++ [BitVec.ofNat 8 (hops - 1)] ++ bs.drop 7

/-- Class of a type for forwarding: MEMBER, NOTICE and the rest have serials of their own. -/
def fwdCls (type : Nat) : Nat := if type = 2 then 4 else if type = 0x20 then 5 else 6

/-- A packet forwarded (R374): a broadcast on every up link but its own, once; a unicast on the path to its destination. -/
def State.fwdCtl (s : State) (l : Nat) (bs : List Byte) : State :=
  let v := leNat (bs.take 12)
  let type := bitsOf v 0 8
  let src := bitsOf v 16 12
  let dst := bitsOf v 32 12
  let bcast := bitOf v 44
  let hops := bitsOf v 48 8
  let n := bitsOf v 64 16 * 256 + bitsOf v 80 8
  let vc := ctlVc type
  if [1, 7, 8].contains type || src = s.me || (!bcast && dst = s.me) then s
  else if hops ≤ 1 then s.bump STW_RELAY_STAT_fDISC_CNT
  else if bcast then
    if s.met (fwdCls type) src n then s
    else (s.upLinks.filter fun i => i != l).foldl (fun a i => a.linkSend (100 + i) vc (hopDown bs hops)) (s.see (fwdCls type) src n)
  else match s.pathTo dst with
    | some i => s.linkSend (100 + i) vc (hopDown bs hops)
    | none => s.ctlLost

/-- A segment of a packet for this switch: its reassembly begins, goes on or is complete (R373). -/
def State.segment (s : State) (bs : List Byte) : State :=
  let v := leNat (bs.take 12)
  let type := bitsOf v 0 8
  let src := bitsOf v 16 12
  let serial := bitsOf v 64 16
  let seg := bitsOf v 80 8
  let nseg := bitsOf v 88 8
  if nseg = 0 || !(bitOf v 44 || bitsOf v 32 12 = s.me) then s
  else
    let mine := fun (r : Nat × Nat × Nat × Nat × List Nat) => r.1 == src && r.2.1 == serial && r.2.2.1 == type
    match s.fab.reasm.find? mine with
    | none => s.mapFab fun f => { f with reasm := f.reasm ++ [(src, serial, type, s.now, [seg])] }
    | some r =>
      let segs := if r.2.2.2.2.contains seg then r.2.2.2.2 else seg :: r.2.2.2.2
      let left := if segs.length = nseg + 1 then s.fab.reasm.filter fun x => !mine x
        else updFirst mine (fun x => (x.1, x.2.1, x.2.2.1, x.2.2.2.1, segs)) s.fab.reasm
      s.mapFab fun f => { f with reasm := left }

/-- A control packet that the link layer has accepted. -/
def State.ctlIn (s : State) (l : Nat) (bs : List Byte) : State :=
  let v := leNat (bs.take 12)
  if s.fab.fid.isNone then s
  else if bs.length < 12 || !ctlTypes.contains (bitsOf v 0 8) || !s.pktSchema (bitsOf v 0 8) (bitsOf v 8 8) then
    s.bump STW_RELAY_STAT_fDISC_CNT
  else (s.segment bs).fwdCtl l bs

/-- Code errors of a Stairwell link counted (R344). -/
def State.codeErrors (s : State) (k n : Nat) : State :=
  if k < 98 then s else (List.range n).foldl (fun a _ => a.bump (STW_LNK_ERR_fCODE_CNT (k - 100))) s

/-- STAIRWELL_PACKET (R345, R349, R352, R374). -/
def execStairwellPacket (l : SwLink) (p : StwPkt) (t : Nat) (s0 : State) : Eff :=
  let s := s0.at t
  let k := swKey l
  if !s.lineUp k then .next s
  else
    let (ok, s1) := (s.codeErrors k p.codeErrs).linkCheck k 32 p.good
    if !ok then .next s1
    else
      let s2 := s1.fieldsIn k p.ack.toNat p.crVc.toNat p.crCnt.toNat
      if p.seq.toNat != (s2.lend k).rx then .next s2
      else
        let s3 := s2.accept k p.vc.toNat
        .next (match l with
          | .sw n => s3.ctlIn n.toNat (p.words.flatMap fun w => leBytes 4 w.toNat)
          | .mod48 => s3)

/-! ## A link goes down (R360, R361) -/

/-- A packet that the link layer hands back undelivered: sent again on another up link, or lost (R374). -/
def State.handBack (s : State) (vc : Nat) (bs : List Byte) : State :=
  let v := leNat (bs.take 12)
  if [1, 7, 8].contains (bitsOf v 0 8) then s
  else if bitOf v 44 then (match s.upLinks.head? with | some i => s.linkSend (100 + i) vc bs | none => s.ctlLost)
  else match s.pathTo (bitsOf v 32 12) with
    | some i => s.linkSend (100 + i) vc bs
    | none => s.ctlLost

/-- A Stairwell link or module 48 is down: its unacknowledged packets are handed back in SEQ order, each marked undelivered; a
link that was up is a contained fault. -/
def State.stairDown (s : State) (k : Nat) : State :=
  let m := lineNo k
  let e := s.lend k
  let was := if k < 98 then s.mod48Up else s.lineUp k || s.lineState k == 3
  let s1 := if k < 98 then s.setFld (OPF_MOD_STAT_fSTATE m) 0
    else ((s.setFld (STW_LNK_STAT_fSTATE (k - 100)) 0).setFld (STW_LNK_STAT_fLOCK (k - 100)) 0).setFld (STW_LNK_STAT_fALIGNED (k - 100)) 0
  let s2 := (s1.mapLinks fun x => { x with since := NMap.set x.since m s.now }).mapLend k fun x => { x with
    unacked := [], wait := [], timer := none, expiries := 0, low := none, trn := 0, asked := false, sync := false, ackDue := false }
  let r : Report := { checker := linkChecker k, cls := 1, source := if k < 98 then 3 else 4, unit := if k < 98 then 48 else k - 100 }
  let s3 := if was then s2.record r else s2
  if k < 98 then s3.mod48Down
  else
    let s4 := e.unacked.foldl (fun a u => a.handBack u.vc u.data) s3
    (e.wait.foldl (fun a w => a.handBack w.1 w.2) s4).neighLost (k - 100)

/-- Training begins (R360 steps 2 to 4): TRN is sent. -/
def State.train (s : State) (k : Nat) : State :=
  let s1 := if k < 98 then s.setFld (OPF_MOD_STAT_fSTATE 48) 2 else s.setFld (STW_LNK_STAT_fSTATE (k - 100)) 1
  let s2 := (s1.mapLinks fun x => { x with since := NMap.set x.since (lineNo k) s.now }).mapLend k fun e => { e with
    trn := 0, asked := false, sync := false }
  s2.emit (.ctl k 4 [s.fab.rank, s.me, 4])

/-- Is the link training or retraining? -/
def State.training (s : State) (k : Nat) : Bool :=
  if k < 98 then s.lineState k == 2 else s.lineState k == 1 || s.lineState k == 3

/-! ## CTL ordered sets (R346) -/

/-- Does a CTL ordered set pass its CRC-8 over CTYPE and d0 to d5 (R344, R346)? -/
def ctlGood (ctype : Nat) (d : List Byte) (crc : Byte) : Bool := crc.toNat == crc8 (leBytes 1 ctype ++ (d ++ leBytes 6 0).take 6)

/-- CTL_ACK. -/
def execCtlAck (c : CtlSet) (ack : BitVec 12) (crVc : BitVec 2) (crCnt : BitVec 4) (t : Nat) (s0 : State) : Eff :=
  let s := s0.at t
  let k := swKey c.link
  if !s.lineUp k then .next s
  else
    let (ok, s1) := s.linkCheck k 8 (ctlGood 1 (leBytes 2 ack.toNat ++ leBytes 1 (crVc.toNat + 4 * crCnt.toNat)) c.crc)
    .next (if ok then s1.fieldsIn k ack.toNat crVc.toNat crCnt.toNat else s1)

/-- CTL_AUDIT (R353, R354). -/
def execCtlAudit (c : CtlSet) (freed : List B16) (t : Nat) (s0 : State) : Eff :=
  let s := s0.at t
  let k := swKey c.link
  if !s.lineUp k then .next s
  else
    let (ok, s1) := s.linkCheck k 8 (ctlGood 2 (freed.flatMap fun v => leBytes 2 v.toNat) c.crc)
    .next (if ok then s1.auditIn k (freed.map BitVec.toNat) else s1)

/-- d0 to d4 of an RTRQ or TRN set (R346). -/
def rtrqData (rank : B16) (id : Fid) (reason : Byte) : List Byte := leBytes 2 rank.toNat ++ leBytes 2 id.toNat ++ [reason]

/-- CTL_RTRQ (R360, R362): starts a retrain and is answered, or answers one; of two requests the lower key leads and gives the
reason. Then both ends send TRN. -/
def execCtlRtrq (c : CtlSet) (rank : B16) (id : Fid) (reason : Byte) (t : Nat) (s0 : State) : Eff :=
  let s := s0.at t
  let k := swKey c.link
  if !(s.lineUp k || s.training k) then .next s
  else
    let (ok, s1) := s.linkCheck k 8 (ctlGood 3 (rtrqData rank id reason) c.crc)
    if !ok then .next s1
    else if s1.lineUp k then
      .next (((s1.beginRetrain k reason.toNat).sendRtrq k reason.toNat).emit (.ctl k 4 [s.fab.rank, s.me, reason.toNat]))
    else if (s1.lend k).asked then
      let a := if k < 98 && keyLt (rank.toNat, id.toNat) (s.fab.rank, s.me) then s1.setFld (OPF_MOD_STAT_fLAST_REASON 48) reason.toNat else s1
      .next (a.emit (.ctl k 4 [s.fab.rank, s.me, reason.toNat]))
    else .next (s1.sendRtrq k reason.toNat)

/-- TRN (R360 step 4): after 16 good sets in a row, SYNC is sent. -/
def execTrn (c : CtlSet) (rank : B16) (id : Fid) (reason : Byte) (t : Nat) (s0 : State) : Eff :=
  let s := s0.at t
  let k := swKey c.link
  if !s.training k then .next s
  else
    let (ok, s1) := s.linkCheck k 8 (ctlGood 4 (rtrqData rank id reason) c.crc)
    if !ok then .next (s1.mapLend k fun e => { e with trn := 0 })
    else
      let n := (s1.lend k).trn + 1
      let s2 := s1.mapLend k fun e => { e with trn := n }
      let s3 := if k < 98 then s2
        else (((s2.setFld (STW_LNK_STAT_fPEER_RANK (k - 100)) rank.toNat).setFld (STW_LNK_PEER_fPEER_ID (k - 100)) id.toNat).setFld
          (STW_LNK_STAT_fLOCK (k - 100)) 1).setFld (STW_LNK_STAT_fALIGNED (k - 100)) 1
      .next (if n = 16 then s3.sendSync k else s3)

/-- CTL_SYNC (R358, R360): the link comes up; a link of two even or two odd ends is a wiring fault, and is used (R369). -/
def execCtlSync (c : CtlSet) (next : BitVec 12) (free : List Byte) (peerEven : Bool) (t : Nat) (s0 : State) : Eff :=
  let s := s0.at t
  let k := swKey c.link
  if !s.training k || (s.lend k).trn < 16 then .next s
  else
    let (ok, s1) := s.linkCheck k 8 (ctlGood 5 (leBytes 2 next.toNat ++ free) c.crc)
    if !ok then .next s1
    else
      let s2 := (s1.resync k next.toNat (free.map BitVec.toNat)).goUp k
      .next (match c.link with
        | .sw n =>
          if s.lineState k == 1 && peerEven == (n.toNat % 2 == 0) then s2.record { checker := 0x4f00, source := 4, unit := n.toNat } else s2
        | .mod48 => s2.mod48Return)

/-! ## Timers (R348, R350, R353, R359, R360, R364) -/

/-- Replay timeout of an end in ns; module 48 has the default (log 65). -/
def State.replayTmo (s : State) (k : Nat) : Nat :=
  if k < 96 then s.fld OPF_GCFG_fREPLAY_TMO * 8 else if k < 98 then 2000 else s.fld (STW_LNK_CFG_fREPLAY_TMO (k - 100)) * 100

/-- REPLAY_TIMEOUT (R350, R351). -/
def execReplayTimeout (l : SwLink ⊕ OpfEnd) (t : Nat) (s0 : State) : Eff :=
  let s := s0.at t
  let k := anyKey l
  match (s.lend k).timer with
  | none => .next s
  | some t0 =>
    if !isEnd k || !s.lineUp k || s.now < t0 + s.replayTmo k then .next s
    else
      let n := (s.lend k).expiries + 1
      let s1 := (s.mapLend k fun e => { e with expiries := n, timer := some s.now }).burst k
      let s2 := if k < 98 then s1.bump (OPF_MOD_ERR_fREPLAY_CNT (k / 2)) else s1.bump (STW_LNK_ERR_fREPLAY_CNT (k - 100))
      .next (if 4 ≤ n then s2.wantRetrain k 1 else s2)

/-- STANDALONE_ACK (R348): after 64 ns of reverse silence with an ACK or a credit return unsent. -/
def execStandaloneAck (l : SwLink ⊕ OpfEnd) (t : Nat) (s0 : State) : Eff :=
  let s := s0.at t
  let k := anyKey l
  let e := s.lend k
  if !isEnd k || !s.lineUp k || s.now < e.sentT + 64 || !(e.ackDue || e.owe.any fun p => p.2 != 0) then .next s
  else
    let (r, s1) := s.takeReturns k
    .next (s1.emit (if k < 96 then .null k 0 (s1.lend k).ack r.1 r.2 [] else .ctl k 1 [(s1.lend k).ack, r.1, r.2]))

/-- AUDIT_INTERVAL (R353). -/
def execAuditInterval (l : SwLink ⊕ OpfEnd) (t : Nat) (s0 : State) : Eff :=
  let s := s0.at t
  let k := anyKey l
  let on := if k < 96 then s.flag OPF_GCFG_fAUDIT_EN else if k < 98 then true else s.flag (STW_LNK_CFG_fAUDIT_EN (k - 100))
  if !isEnd k || !s.lineUp k || !on then .next s
  else
    let freed := (List.range (endVcs k)).map fun v => vcCount (s.lend k).freed v
    if k < 96 then
      let (r, s1) := s.takeReturns k
      .next (s1.emit (.null k 1 (s1.lend k).ack r.1 r.2 freed))
    else .next (s.emit (.ctl k 2 freed))

/-- RETRAIN_LIMIT (R359, R360): an OPF module is lost after 100 us, a Stairwell link or module 48 goes down after 1 ms. -/
def execRetrainLimit (l : SwLink ⊕ Module) (t : Nat) (s0 : State) : Eff :=
  let s := s0.at t
  let k := match l with | .inl x => swKey x | .inr m => 2 * m.val
  match NMap.get? s.links.since (lineNo k) with
  | none => .next s
  | some t0 =>
    if k < 96 then .next (if s.lineState k != 1 && s.lineState k != 3 && t0 + 100000 ≤ s.now then s.loseModule (k / 2) else s)
    else .next (if s.training k && t0 + 1000000 ≤ s.now then s.stairDown k else s)

/-- May a Stairwell link train (R360, R368)? -/
def State.mayTrainSw (s : State) (k : Nat) : Bool :=
  k < 98 || (!s.flag (STW_LNK_CTL_fDISABLE (k - 100)) && s.fab.fid.isSome && (s.fab.dual || k < 102))

/-- STAIRWELL_TRAINING_RETRY (R360): a down link tries again every 10 ms. -/
def execStairwellTrainingRetry (l : SwLink) (t : Nat) (s0 : State) : Eff :=
  let s := s0.at t
  let k := swKey l
  let due := match NMap.get? s.links.since (lineNo k) with | some t0 => t0 + 10000000 ≤ s.now | none => true
  .next (if s.lineState k == 0 && s.mayTrainSw k && due then s.train k else s)

/-! ## STW_LNK_CTL (R367) -/

/-- STW_RETRAIN: a write of RETRAIN 1. -/
def execStwRetrain (path : Path) (l : SLink) (s : State) : Eff :=
  .next (s.regWrite path (STW_LNK_CTL l.toNat) fun a => a.wantRetrain (100 + l.toNat) 3)

/-- DISABLE written: the link is held down and not retried. -/
def State.setStwDisable (s : State) (n : Nat) (on : Bool) : State :=
  let s1 := s.setFld (STW_LNK_CTL_fDISABLE n) (b2n on)
  if on && s.lineState (100 + n) != 0 then s1.stairDown (100 + n) else s1

/-- STW_DISABLE. -/
def execStwDisable (path : Path) (l : SLink) (on : Bool) (s : State) : Eff :=
  .next (s.regWrite path (STW_LNK_CTL l.toNat) fun a => a.setStwDisable l.toNat on)

end Sys2Proof.Machine
end

