-- ==== Sys2Proof/Machine/FabricRows.lean ====
section
/-! DEFINITION. The rows of the Stairwell fabric (R370 to R395): control packets delivered at this switch, its timers, and
the commands 0A01h to 0A10h (R396, R438, R439). -/

namespace Sys2Proof.Machine

/-! ## Which packets are acted on -/

/-- Is a packet for this switch, from another one, in an accepted schema, and, but for MEMBER, LOST, RIDGE and what is not FAB,
of no lower epoch than its own (R374, R375, R392)? -/
def State.forMe (s : State) (type : Nat) (x : CtlPfx) : Bool :=
  s.fab.fid.isSome && x.src.toNat != s.me && (x.bcast || x.dst.toNat == s.me) && s.pktSchema type x.schema.toNat &&
    (type ≤ 4 || 0x10 ≤ type || s.fab.epoch ≤ x.epoch.toNat)

/-- An ACK sent (R373): type and serial of what it acknowledges. -/
def State.sendAck (s : State) (dst type serial : Nat) : State :=
  if dst = s.me then s else s.unicastNew 0x0d dst (leBytes 1 type ++ leBytes 2 serial)

/-- Does the Ridge send this packet? -/
def State.fromRidge (s : State) (x : CtlPfx) : Bool := s.fab.ridge == some x.src.toNat

/-! ## Membership -/

/-- The schema of a joining switch, from its neighbours (R393): held with cause schema if it does not support it. -/
def State.adoptSchema (s : State) (v : Nat) : State :=
  if v = 0 || s.isRidge || (s.fab.joined && !s.fab.apart) || v = s.fab.schema then s
  else s.mapFab fun f => { f with
    schema := v
    cause := if f.ownMin ≤ v && v ≤ f.ownMax then (if f.cause = 1 then 0 else f.cause) else if f.cause = 0 then 1 else f.cause }

/-- HELLO (R370, R393). -/
def execHello (l : SLink) (m : MemberRec) (t : Nat) (s0 : State) : Eff :=
  let s := s0.at t
  .next (if s.fab.fid.isNone || !s.lineUp (100 + l.toNat) then s
    else ((s.mapFab fun f => { f with neigh := NMap.set f.neigh l.toNat (m.id.toNat, m.hops.toNat, s.now) }).adoptSchema
      m.schemaCur.toNat).fabSettle)

/-- A newer record of a member: the fields, and since when it has been eligible and locked (R379). -/
def State.putMember (s : State) (l : Nat) (m : MemberRec) : State :=
  let old := NMap.get? s.fab.members m.id.toNat
  let ok := m.rank.toNat != 0xFFFF && !m.held && !m.restarting && m.locked
  let since := match old.bind (·.since) with | some t => t | none => s.now
  let y : Member := {
    rank := m.rank.toNat, ownMin := m.ownMin.toNat, ownMax := m.ownMax.toNat, held := m.held, restarting := m.restarting,
    locked := m.locked, hops := m.hops.toNat, serial := m.serial.toNat
    first := match old with | some o => o.first | none => s.now
    last := s.now, link := l
    links := match old with | some o => (if o.links.contains l then o.links else o.links ++ [l]) | none => [l]
    since := if ok then some since else none }
  let q := if old.isNone then s.now else s.fab.quiet
  s.mapFab fun f => { f with members := NMap.set f.members m.id.toNat y, quiet := q }

/-- MEMBER (R371, R376): a first or newer record enters the live list; one with this switch's ID is a duplicate, and a 257th
switch is not entered; a record with no hops to the Ridge tells a switch that knows none of its epoch who the Ridge is. -/
def execMember (l : SLink) (x : CtlPfx) (m : MemberRec) (t : Nat) (s0 : State) : Eff :=
  let s := s0.at t
  if s.fab.fid.isNone then .next s
  else if m.id.toNat = s.me then
    let mine := m.rank.toNat = s.fab.rank && (s.fab.memSerial + 65535 - m.serial.toNat) % 65536 < 32768
    .next (if mine || s.isRidge || s.fab.joined then s else (s.mapFab fun f => { f with cause := 2 }).fabSettle)
  else if x.src != m.id then .next s
  else
    let newer := match NMap.get? s.fab.members m.id.toNat with
      | some o => 0 < (m.serial.toNat + 65536 - o.serial) % 65536 && (m.serial.toNat + 65536 - o.serial) % 65536 < 32768
      | none => true
    let full := (NMap.get? s.fab.members m.id.toNat).isNone && 255 ≤ s.fab.members.length
    if full then .next (if s.fab.joined || s.isRidge then s else (s.mapFab fun f => { f with cause := 3 }).fabSettle)
    else
      let s1 := if newer then s.putMember l.toNat m
        else s.mapFab fun f => { f with members := NMap.adjust f.members m.id.toNat fun o =>
          if o.serial = m.serial.toNat && !o.links.contains l.toNat then { o with links := o.links ++ [l.toNat] } else o }
      let tells := newer && m.hops = 0 && (s.fab.epoch < m.epoch.toNat || (s.fab.epoch = m.epoch.toNat && s.fab.ridge.isNone))
      .next (if tells then (s1.adoptRidge m.id.toNat none m.epoch.toNat).fabSettle else s1.fabSettle)

/-- LOST (R371). -/
def execLost (l : SLink) (x : CtlPfx) (id : Fid) (serial : B16) (t : Nat) (s0 : State) : Eff :=
  let s := s0.at t
  if !s.forMe 3 x || l.toNat ≥ 4 then .next s
  else match NMap.get? s.fab.members id.toNat with
    | none => .next s
    | some o =>
      if 32768 ≤ (serial.toNat + 65536 - o.serial) % 65536 then .next s
      else
        let name := fun (y : Member) => if y.lost.contains x.src.toNat then y else { y with lost := x.src.toNat :: y.lost }
        .next (((s.mapFab fun f => { f with members := NMap.adjust f.members id.toNat name }).evalLost id.toNat).fabSettle)

/-- HELLO_INTERVAL (R370): a HELLO on each up link, but not in FAULT (R455). -/
def execHelloInterval (t : Nat) (s0 : State) : Eff :=
  let s := s0.at t
  .next (if s.fab.fid.isNone || s.flt.st == .fault then s
    else s.upLinks.foldl (fun a l => a.ctlOn l 1 (some 0) s.fab.memSerial (recBody s.recFields s.fab.memSerial)) s)

/-- HELLO_TIMEOUT (R370): no HELLO for 50 us. -/
def execHelloTimeout (l : SLink) (t : Nat) (s0 : State) : Eff :=
  let s := s0.at t
  match NMap.get? s.fab.neigh l.toNat with
  | some (_, _, last) => .next (if last + 50000 ≤ s.now then s.neighLost l.toNat else s)
  | none => .next s

/-- MEMBER_INTERVAL (R371). -/
def execMemberInterval (t : Nat) (s : State) : Eff := .next (s.at t).sendMember

/-- MEMBER_TIMEOUT (R371, R377): no record for 400 us. -/
def execMemberTimeout (id : Fid) (t : Nat) (s0 : State) : Eff :=
  let s := s0.at t
  match NMap.get? s.fab.members id.toNat with
  | some m => .next (if m.last + 400000 ≤ s.now then (s.dropMember id.toNat).fabSettle else s)
  | none => .next s

/-! ## The Ridge (R375 to R379) -/

/-- RIDGE: a higher epoch is adopted; the same epoch names the Ridge or its new standby. -/
def execRidge (l : SLink) (x : CtlPfx) (ridge : Fid) (standby : Option Fid) (epoch : Word) (t : Nat) (s0 : State) : Eff :=
  let s := s0.at t
  let std := standby.map fun b => b.toNat
  if !s.forMe 4 x || l.toNat ≥ 4 then .next s
  else if s.fab.epoch < epoch.toNat || (s.fab.epoch = epoch.toNat && s.fab.ridge.isNone) then
    .next (s.adoptRidge ridge.toNat std epoch.toNat).fabSettle
  else if s.fab.epoch = epoch.toNat && s.fab.ridge == some ridge.toNat then
    .next ((s.mapFab fun f => { f with standby := std }).fabSettle)
  else .next s

/-- STATE (R378): the replicated state, acknowledged. -/
def execState (l : SLink) (x : CtlPfx) (ceiling : Byte) (routes : List (Fid × Fid × Byte)) (seq : RidgeSeq)
    (t : Nat) (s0 : State) : Eff :=
  let s := s0.at t
  if !s.forMe 5 x || !s.fromRidge x || l.toNat ≥ 4 then .next s
  else if s.met 3 x.src.toNat x.serial.toNat then .next (s.sendAck x.src.toNat 5 x.serial.toNat)
  else
    let table := routes.foldl (fun m r => NMap.set m r.1.toNat (r.2.1.toNat, r.2.2.toNat)) []
    let inst := fun (old : Option Instant) (new : Option Instant) => match new with | some i => some i | none => old
    .next (((s.mapFab fun f => { f with
      ceiling := ceiling.toNat
      master := table
      cmdSeq := seq.cmdSeq.toNat
      routeT := inst f.routeT (seq.routePend.map fun p => ⟨p.2.toNat, p.1.toNat, x.src.toNat⟩)
      schemaPend := inst f.schemaPend (seq.schemaPend.map fun p => ⟨p.2.toNat, p.1.toNat, x.src.toNat⟩) }).see 3 x.src.toNat
      x.serial.toNat).sendAck x.src.toNat 5 x.serial.toNat)

/-- HANDOVER (R379). -/
def execHandover (l : SLink) (x : CtlPfx) (successor : Fid) (instant : B64) (t : Nat) (s0 : State) : Eff :=
  let s := s0.at t
  .next (if s.forMe 6 x && s.fromRidge x && l.toNat < 4 then
    s.mapFab fun f => { f with handover := some ⟨instant.toNat, successor.toNat, x.src.toNat⟩ } else s)

/-- ELECTION_TIMER (R377): with the live list unchanged for 200 us, no Ridge and no standby Ridge, a quorum takes the Ridge of
R375. -/
def execElectionTimer (t : Nat) (s0 : State) : Eff :=
  let s := s0.at t
  if s.fab.ridge.isSome || s.fab.standby.isSome || !s.quorum || s.now < s.fab.quiet + 200000 then .next s
  else match s.firstKey with
    | none => .next s
    | some r =>
      if r = s.me then .next s.becomeRidge.fabSettle
      else .next (s.adoptRidge r (s.nextKey r) ((s.fab.epoch + 1) % 4294967296)).fabSettle

/-- HANDOVER_INSTANT (R379): the successor becomes Ridge, and the epoch increments; RIDGE_YIELD completes, and a
Ridge that FW_ACTIVATE restarts has handed over (R520). -/
def execHandoverInstant (t : Nat) (s0 : State) : Eff :=
  let s := s0.at t
  match s.fab.handover with
  | none => .next s
  | some i =>
    if s.now < i.t then .next s
    else
      let s1 := match s.pendOf (· == Work.ridgeYield) with
        | some p => s.complete p ⟨.ok, 0, leBytes 2 i.value⟩
        | none => s
      if i.value = s.me then .next ((s1.becomeRidge.notice ntcHandover (leBytes 2 i.value)).fabSettle)
      else
        let s2 := (s1.mapFab fun f => { f with
          ridge := some i.value, standby := s.nextKey i.value, epoch := (f.epoch + 1) % 4294967296, handover := none, todo := [], staging := none
          }).fabSettle
        .next (if s2.busyWith (· == Work.fwActivate) && s2.pwr.st == BootSt.run then s2.restartHearth else s2)

/-- Has a member been eligible for 100 ms? -/
def Member.longEligible (m : Member) (now : Nat) : Bool :=
  match m.since with
  | some t0 => t0 + 100000000 ≤ now
  | none => false

/-- Is a handover announced, or waiting to be? -/
def State.handoverGoes (s : State) : Bool :=
  s.fab.handover.isSome || s.fab.todo.any fun x => match x.2 with | .handover _ => true | _ => false

/-- LOWER_KEY_ELIGIBLE (R379): a switch with a lower key has been eligible and locked for 100 ms; the Ridge hands over to it. -/
def execLowerKeyEligible (id : Fid) (t : Nat) (s0 : State) : Eff :=
  let s := s0.at t
  match NMap.get? s.fab.members id.toNat with
  | none => .next s
  | some m =>
    .next (if s.isRidge && m.longEligible s.now && keyLt (m.rank, id.toNat) (s.fab.rank, s.me) && s.firstKey == some id.toNat && !s.handoverGoes then
      s.replicateTo id.toNat (.handover id.toNat) else s)

/-! ## Fabric time (R380 to R384) -/

/-- DELAY_REQ: answered on the same link with its receive and send times (R381). -/
def execDelayReq (l : SLink) (t1 : B64) (t : Nat) (s0 : State) : Eff :=
  let s := s0.at t
  .next (if s.fab.fid.isSome && s.lineUp (100 + l.toNat) then
    s.ctlOn l.toNat 8 (some 0) s.fab.serial (leBytes 8 t1.toNat ++ leBytes 8 s.now ++ leBytes 8 s.now) else s)

/-- DELAY_RSP: the link delay ((t4 - t1) - (t3 - t2)) / 2 (R381), held in half ns. -/
def execDelayRsp (l : SLink) (t1 t2 t3 : B64) (t4 : B64) (s0 : State) : Eff :=
  let s := s0.at t4.toNat
  .next (s.mapFab fun f => { f with
    delay := NMap.set f.delay l.toNat (((t4.toNat : Int) - t1.toNat) - ((t3.toNat : Int) - t2.toNat)) })

/-- TIME_MARK (R344, R381, R382, R384): a mark that fails its CRC-8 is ignored; the offset of a mark from the parent; 16 in a row within 4 ns lock the switch, one beyond
100 ns unlocks it; before it carries data it steps to fabric time. -/
def execTimeMark (c : MarkSet) (mark : B64) (localTime : B64) (s0 : State) : Eff :=
  let s := s0.at localTime.toNat
  if c.crc.toNat != crc8 (leBytes 8 mark.toNat) || s.fab.fid.isNone || s.isRidge || s.parentLink != some c.link.toNat then .next s
  else
    let d := (match NMap.get? s.fab.delay c.link.toNat with | some v => v | none => 0) / 2
    let off : Int := (localTime.toNat : Int) - (mark.toNat + d)
    let near := -4 ≤ off && off ≤ 4
    let far := off < -100 || 100 < off
    let s1 := s.mapFab fun f => { f with lastMark := s.now, holdover := none, offset := off }
    if !s.fab.joined && !near then
      let a := (s1.cancelForeign s.fab.ridge).mapFab fun f => { f with marks := 0, locked := false }
      .next ({ a with now := (mark.toNat + d).toNat }).fabSettle
    else
      let n := if near then Nat.min 16 (s.fab.marks + 1) else 0
      let lock := if n = 16 then true else if far then false else s.fab.locked
      let sl := if n = 16 then false else if s.fab.locked && far then true else s.fab.slew
      .next ((s1.mapFab fun f => { f with marks := n, locked := lock, everLocked := f.everLocked || lock, slew := sl }).fabSettle)

/-- TIME_MARK_INTERVAL (R380): a mark on each up link; a switch that has never locked sends none. -/
def execTimeMarkInterval (t : Nat) (s0 : State) : Eff :=
  let s := s0.at t
  .next (if s.fab.fid.isSome && s.fab.everLocked then s.upLinks.foldl (fun a l => a.emit (.mark l s.now)) s else s)

/-- DELAY_INTERVAL (R381). -/
def execDelayInterval (t : Nat) (s0 : State) : Eff :=
  let s := s0.at t
  .next (if s.fab.fid.isSome then s.upLinks.foldl (fun a l => a.ctlOn l 7 (some 0) s.fab.serial (leBytes 8 s.now)) s else s)

/-- HOLDOVER_EXPIRY (R384): 1 ms of holdover clears LOCKED. -/
def execHoldoverExpiry (t : Nat) (s0 : State) : Eff :=
  let s := s0.at t
  match s.fab.holdover with
  | some t0 => .next (if t0 + 1000000 ≤ s.now then (s.mapFab fun f => { f with locked := false, marks := 0 }).fabSettle else s)
  | none => .next s

/-! ## Routing tables (R385) -/

/-- An entry of a staged table as the switch holds it: a group's number stands for its neighbour (log 68). -/
def State.routeVal (s : State) (p : Nat) (group : Bool) : Nat × Bool :=
  if group then (((s.port p).neighbour).getD 0, true) else (p, false)

/-- ROUTE_STAGE: staged and acknowledged. -/
def execRouteStage (l : SLink) (x : CtlPfx) (version : B16) (entries : List (Fid × Byte × Bool)) (t : Nat) (s0 : State) : Eff :=
  let s := s0.at t
  if !s.forMe 9 x || !s.fromRidge x || l.toNat ≥ 4 then .next s
  else if s.met 3 x.src.toNat x.serial.toNat then .next (s.sendAck x.src.toNat 9 x.serial.toNat)
  else
    let table := entries.foldl (fun m e => NMap.set m e.1.toNat (s.routeVal e.2.1.toNat e.2.2)) []
    .next (((s.mapPorts fun p => { p with staged := some (version.toNat, table) }).see 3 x.src.toNat x.serial.toNat).sendAck
      x.src.toNat 9 x.serial.toNat)

/-- ROUTE_ACT: the instant of the staged version. -/
def execRouteAct (l : SLink) (x : CtlPfx) (version : B16) (instant : B64) (t : Nat) (s0 : State) : Eff :=
  let s := s0.at t
  let has := match s.ports.staged with | some v => v.1 == version.toNat | none => false
  .next (if s.forMe 0x0a x && s.fromRidge x && has && l.toNat < 4 then
    s.mapFab fun f => { f with routeT := some ⟨instant.toNat, version.toNat, x.src.toNat⟩ } else s)

/-- An instant acted on by a switch that is not locked is recorded (R384, R395). -/
def State.unlockedRecord (s : State) : State :=
  if s.timeLocked then s else s.record { checker := 0x4f00 }

/-- ROUTE_ACTIVATION (R385): the staged table is active, for every message that leaves from now on. -/
def execRouteActivation (t : Nat) (s0 : State) : Eff :=
  let s := s0.at t
  match s.fab.routeT, s.ports.staged with
  | some i, some (v, m) =>
    if s.now < i.t || v != i.value then .next s
    else
      let s1 := (((s.mapPorts fun p => { p with route := m, routeVer := v, staged := none }).mapFab fun f =>
        { f with routeT := none }).unlockedRecord).reroute
      .next ((match s1.pendOf (· == Work.routeSet) with
        | some p => s1.complete p ⟨.ok, 0, leBytes 2 v⟩
        | none => s1).fabSettle)
  | _, _ => .next s

/-! ## Re-homing across the fabric (R60, R386) -/

/-- The decode entries that name a window rewritten to its new home: at the new home, hosts of its own ports are bound to the
local window. -/
def State.rewriteHome (s : State) (w oldHome newHome newWin : Nat) : State :=
  let hit := fun (r : RemoteWin) => r.home == oldHome && r.window == w
  if newHome = s.me then
    let mine := s.pool.remote.filter hit
    mine.foldl (fun a r => a.mapWin newWin fun y => { y with binds := y.binds ++
        [{ host := r.host, port := r.port, st := BState.bound, rw := r.rw, hpa := r.hpa, bridge := a.freeBridge r.port }] })
      (s.mapPool fun p => { p with remote := p.remote.filter fun r => !hit r })
  else
    -- the pool base at the new home is not told: a free value (log 221)
    let (v, s1) := s.free
    let moved := fun (r : RemoteWin) =>
      if hit r then { r with home := newHome, window := newWin, base := v.toNat % 2 ^ 20 * 2 ^ 28 } else r
    s1.mapPool fun p => { p with remote := p.remote.map moved }

/-- The completion event of REHOME_PREPARE at the new home (R60 H9), once the move is taken there (log 221). -/
def State.prepDone (s : State) (w : Nat) : State :=
  match (s.win? w).bind (·.prep) with
  | some (tag, src) =>
    (s.mapWin w fun y => { y with prep := none }).postWords (eventWords 1 tag Status.ok.code src s.now (compPayload 0x0450 0 (leBytes 4 w))) true
  | none => s

/-- HOME_MOVE taken at this switch: at the old home the acknowledgements are awaited; elsewhere the entries are rewritten and
the old home is told. -/
def State.takeMove (s : State) (serial w oldHome newHome newWin : Nat) : State :=
  if oldHome = s.me then
    let came := (s.fab.early.filter fun e => e.1 == serial).map (·.2)
    let left := (s.fab.members.map (·.1)).filter fun i => !came.contains i
    (s.mapFab fun f => { f with moves := NMap.set f.moves serial (w, left), early := f.early.filter fun e => e.1 != serial }).checkMoves
  else
    let s1 := s.rewriteHome w oldHome newHome newWin
    (if newHome = s.me then s1.prepDone newWin else s1).sendAck oldHome 0x0b serial

/-- HOME_MOVE flooded by the Ridge. -/
def State.floodMove (s : State) (w oldHome newHome newWin : Nat) : State :=
  let (n, s1) := s.nextSerial
  (s1.flood 0x0b n (leBytes 4 s.fab.epoch ++ leBytes 2 w ++ leBytes 2 oldHome ++ leBytes 2 newHome ++ leBytes 2 newWin)).takeMove n w oldHome
    newHome newWin

/-- HOME_MOVE: to the Ridge it is flooded, and acknowledged to the new home; flooded, it is acted on. -/
def execHomeMove (l : SLink) (x : CtlPfx) (window : Win) (oldHome newHome : Fid) (newWin : Win) (t : Nat) (s0 : State) : Eff :=
  let s := s0.at t
  if !s.forMe 0x0b x || l.toNat ≥ 4 then .next s
  else if s.met 3 x.src.toNat x.serial.toNat then
    .next (s.sendAck (if x.bcast then oldHome.toNat else x.src.toNat) 0x0b x.serial.toNat)
  else
    let s1 := s.see 3 x.src.toNat x.serial.toNat
    if x.bcast then .next (s1.takeMove x.serial.toNat window.toNat oldHome.toNat newHome.toNat newWin.toNat)
    else if s.isRidge then
      .next ((s1.sendAck x.src.toNat 0x0b x.serial.toNat).floodMove window.toNat oldHome.toNat newHome.toNat newWin.toNat)
    else .next s

/-- The new home tells the Ridge (H8). Its raw accesses have told who the old home is; the window's number there, and the old home
where none came, are what A has told B outside this table (log 72). -/
def State.announceMove (s : State) (w : Nat) (r : Rehome) : State :=
  let (v, s1) := s.free
  let a := if r.known then r.peer else v.toNat % 4096
  let aw := v.toNat / 4096 % 4096
  match s.fab.fid, s.fab.ridge with
  | some b, some r =>
    if r = b then s1.floodMove aw a b w
    else (s1.unicastAck 0x0b r (leBytes 4 s.fab.epoch ++ leBytes 2 aw ++ leBytes 2 a ++ leBytes 2 b ++ leBytes 2 w)).2
  | _, _ => s

/-- HANDOFF_READY (H5 to H8). At A: once the sweep is done and no tracker entry of the window is left, A becomes PROXY. At B:
the window becomes ACTIVE with every line in I, the held requests are served in arrival order, and HOME_MOVE is sent; the extents of a dynamic capacity window that A never wrote
become FREE (log 221). -/
def execHandoffReady (window : Win) (t : Nat) (s0 : State) : Eff :=
  let s := s0.at t
  let w := window.toNat
  match s.win? w with
  | none => .next s
  | some x =>
    match x.rehome with
    | none => .next s
    | some r =>
      if r.old then
        if x.st == .handoffOut then
          let s1 := s.pumpHandoff w
          match (s1.win? w).bind (·.rehome) with
          | some q =>
            .next (if q.sweep.isEmpty && s1.winTrk w = 0 then
              (s1.mapWin w fun y => { y with st := .proxy, rehome := some { q with ready := true } }).emit (.handoff q.peer q.peerWin)
              else s1)
          | none => .next s1
        else .next s
      else
        let mine := s.home.hold.filter fun h => h.win == w
        let spare := if x.type == .dynamic then (List.range x.extents).filter fun i => !r.wrote.contains i else []
        let s1 := (spare.foldl (fun a i => a.freeOne x i) (s.mapWin w fun y => { y with st := .active, rehome := none })).mapHome fun h =>
          { h with hold := h.hold.filter fun q => q.win != w }
        .next ((mine.foldl (fun a h => match a.win? w with
          | some y => a.letIn h.v (lineHu (y.lineAt h.v.off)) w y
          | none => a) s1).announceMove w r)

/-! ## The schema (R391, R395) -/

/-- SCHEMA_SWITCH. -/
def execSchemaSwitch (l : SLink) (x : CtlPfx) (next : Byte) (instant : B64) (t : Nat) (s0 : State) : Eff :=
  let s := s0.at t
  .next (if s.forMe 0x0c x && s.fromRidge x && l.toNat < 4 then
    s.mapFab fun f => { f with schemaPend := some ⟨instant.toNat, next.toNat, x.src.toNat⟩ } else s)

/-- SCHEMA_SWITCH_OVER (R391, R393): the new version is in use; a switch held for its schema is admitted if it supports it, and
one that does not is held. -/
def execSchemaSwitchOver (t : Nat) (s0 : State) : Eff :=
  let s := s0.at t
  match s.fab.schemaPend with
  | none => .next s
  | some i =>
    if s.now < i.t then .next s
    else
      let has := s.fab.ownMin ≤ i.value && i.value ≤ s.fab.ownMax
      let s1 := (s.mapFab fun f => { f with
        schemaOld := some (f.schema, s.now), schema := i.value, schemaPend := none
        cause := if has then (if f.cause = 1 then 0 else f.cause) else if f.cause = 0 then 1 else f.cause }).unlockedRecord
      let s2 := match s1.pendOf (· == Work.schemaSet) with
        | some p => s1.complete p ⟨.ok, 0, leBytes 1 i.value⟩
        | none => s1
      .next ((if s2.isRidge then s2.notice ntcSchema (leBytes 1 i.value) else s2).fabSettle)

/-! ## Acknowledgements (R373) -/

/-- ACK: the packet is no longer kept; the Ridge acts on a replicated change, and goes on once every switch has staged a table;
the old home counts the switches that know the new one. -/
def execAck (l : SLink) (x : CtlPfx) (type : Byte) (serial : B16) (t : Nat) (s0 : State) : Eff :=
  let s := s0.at t
  let src := x.src.toNat
  let n := serial.toNat
  if !s.forMe 0x0d x || l.toNat ≥ 4 then .next s
  else
    let s1 := s.mapFab fun f => { f with
      acks := f.acks.filter fun a => !(a.serial == n && a.type == type.toNat && a.dst == src) }
    if type = 5 then
      let due := s1.fab.todo.filter fun d => d.1 == n
      let s2 := s1.mapFab fun f => { f with
        todo := f.todo.filter fun d => d.1 != n
        stdReady := f.stdReady || (f.standby == some src && !(f.acks.any fun a => a.type == 5 && a.dst == src)) }
      .next ((if s.isRidge then due.foldl (fun a d => a.doAct d.2) s2 else s2).fabSettle)
    else if type = 9 then
      .next ((s1.mapFab fun f => { f with staging := f.staging.map fun y => (y.1, y.2.filter fun i => i != src) }).checkStaging.fabSettle)
    else if type = 0x0b then
      if s.fab.acks.any fun a => a.serial == n && a.type == 0x0b && a.dst == src then .next s1
      else match NMap.get? s1.fab.moves n with
        | some (w, left) =>
          .next (s1.mapFab fun f => { f with moves := NMap.set f.moves n (w, left.filter fun i => i != src) }).checkMoves
        | none => .next (s1.mapFab fun f => { f with early := (n, src) :: f.early })
    else .next s1

/-- REASSEMBLY_TIMEOUT (R373): the segments of a packet have not all come within 1 ms. -/
def execReassemblyTimeout (src : Fid) (serial : B16) (t : Nat) (s0 : State) : Eff :=
  let s := s0.at t
  let old := s.fab.reasm.filter fun r => r.1 == src.toNat && r.2.1 == serial.toNat && r.2.2.2.1 + 1000000 ≤ s.now
  .next (if old.isEmpty then s
    else (s.mapFab fun f => { f with reasm := f.reasm.filter fun r => !old.contains r }).bumpBy STW_RELAY_STAT_fDISC_CNT old.length)

/-- ACK_RESEND_TIMEOUT (R373): the packet is sent again, with the same serial. -/
def execAckResendTimeout (serial : B16) (t : Nat) (s0 : State) : Eff :=
  let s := s0.at t
  let due := s.fab.acks.filter fun a => a.serial == serial.toNat && a.t + 2000000 ≤ s.now
  let s1 := s.mapFab fun f => { f with acks := f.acks.map fun a => if due.contains a then { a with t := s.now } else a }
  .next (due.foldl (fun a d => a.unicast d.type d.dst d.serial d.body) s1)

/-! ## Relays (R388, R389) -/

/-- RELAY: a fabric-wide one reaches the Ridge, which sequences and floods it; else it is executed in its sequence. -/
def execRelay (l : SLink) (x : CtlPfx) (all : Bool) (seq : Word) (pkt : List Byte) (t : Nat) (s0 : State) : Eff :=
  let s := s0.at t
  let src := x.src.toNat
  let n := seq.toNat % 2147483648
  let own := x.bcast && all && src = s.me && s.pktSchema 0x10 x.schema.toNat
  if s.fab.fid.isNone || l.toNat ≥ 4 || !(own || s.forMe 0x10 x) then .next s
  else if x.bcast then
    if s.met 2 src x.serial.toNat then .next s
    else
      let s1 := s.see 2 src x.serial.toNat
      .next ((if own then s1.seqRelay n pkt else s1).relayIn all src n pkt)
  else if s.met 3 src x.serial.toNat then .next s
  else
    let s1 := s.see 3 src x.serial.toNat
    if !all then .next (s1.relayIn false src n pkt)
    else if s.isRidge then
      let q := s1.fab.cmdSeq
      .next ((s1.mapFab fun f => { f with cmdSeq := (f.cmdSeq + 1) % 2147483648 }).replicate (.relay src x.serial.toNat q pkt))
    else .next s1

/-- RELAY_REPLY: an answer of a target, at the origin. -/
def execRelayReply (l : SLink) (x : CtlPfx) (seq : Word) (completion : Bool) (status : B16) (bytes : List Byte) (t : Nat) (s0 : State) : Eff :=
  let s := s0.at t
  .next (if s.forMe 0x11 x && l.toNat < 4 then s.relayAnswer x.src.toNat seq.toNat completion status.toNat bytes else s)

/-- Switches that have not answered a relay within 100 ms of its delivery. -/
def Relay.late (r : Relay) (now : Nat) : List (Nat × Option Nat) :=
  r.open_.filter fun o => match o.2 with | some t0 => t0 + 100000000 ≤ now | none => false

/-- RELAY_TIMEOUT (R389): targets from which nothing has come within 100 ms. -/
def execRelayTimeout (seq : Word) (t : Nat) (s0 : State) : Eff :=
  let s := s0.at t
  match s.fab.relays.find? fun r => r.n == seq.toNat with
  | none => .next s
  | some r =>
    .next ((r.late s.now).foldl (fun a o => match a.fab.relays.find? fun y => y.n == r.n with
      | some y => a.relayTmo y o.1
      | none => a) s)

/-- RELAY_HOLD_EXPIRY (R388): a command that came early has been held for 100 ms; the ones before it are given up (log 73). -/
def execRelayHoldExpiry (t : Nat) (s0 : State) : Eff :=
  let s := s0.at t
  let late := s.fab.heldRelay.filter fun h => h.2.2.2.1 + 100000000 ≤ s.now
  .next (late.foldl (fun a h =>
    if a.fab.heldRelay.contains h then
      (a.mapFab fun f => { f with expect := NMap.set f.expect h.1 h.2.1 }).drainRelay h.1 a.fab.heldRelay.length
    else a) s)

/-! ## Notices (R387) -/

/-- A notice of another switch posted here, if NOTICE_MASK selects its kind. -/
def State.postNotice (s : State) (origin serial kind : Nat) (body : List Byte) : State :=
  if s.cmds.noticeMask.getLsbD kind then s.post 0x40 (noticeBytes origin serial kind body) else s

/-- Held notices of an originator whose turn it now is. -/
def State.drainNotices (s : State) (origin : Nat) : Nat → State
  | 0 => s
  | n + 1 =>
    let e := vcCount s.fab.ntcNext origin
    match s.fab.ntcHeld.find? fun h => h.1 == origin && h.2.1 == e with
    | none => s
    | some h =>
      ((s.postNotice origin e h.2.2.2.1 h.2.2.2.2).mapFab fun f => { f with
        ntcNext := NMap.set f.ntcNext origin ((e + 1) % 65536)
        ntcHeld := f.ntcHeld.filter fun x => x != h }).drainNotices origin n

/-- NOTICE: posted in SERIAL order; one out of order waits. -/
def execNotice (l : SLink) (x : CtlPfx) (kind : Byte) (body : List Byte) (t : Nat) (s0 : State) : Eff :=
  let s := s0.at t
  let src := x.src.toNat
  let n := x.serial.toNat
  if !s.forMe 0x20 x || l.toNat ≥ 4 || s.met 1 src n then .next s
  else
    let s1 := s.see 1 src n
    let e := match NMap.get? s1.fab.ntcNext src with | some e => e | none => n
    if n = e then
      .next (((s1.postNotice src n kind.toNat body).mapFab fun f => { f with ntcNext := NMap.set f.ntcNext src ((n + 1) % 65536) }).drainNotices
        src s1.fab.ntcHeld.length)
    else if (n + 65536 - e) % 65536 < 32768 then
      .next (s1.mapFab fun f => { f with ntcHeld := f.ntcHeld ++ [(src, n, s.now, kind.toNat, body)] })
    else .next s1

/-- NOTICE_GAP (R387): the serials missing before the oldest notice held for 10 ms are posted as a gap event. -/
def execNoticeGap (origin : Fid) (t : Nat) (s0 : State) : Eff :=
  let s := s0.at t
  let o := origin.toNat
  match s.fab.ntcHeld.find? fun h => h.1 == o && h.2.2.1 + 10000000 ≤ s.now with
  | none => .next s
  | some _ =>
    let e := vcCount s.fab.ntcNext o
    let gap := (s.fab.ntcHeld.filter fun h => h.1 == o).foldl (fun g h => Nat.min g ((h.2.1 + 65536 - e) % 65536)) 65535
    .next (((s.post 0x41 (leBytes 2 o ++ leBytes 2 e ++ leBytes 2 gap)).mapFab fun f => { f with
      ntcNext := NMap.set f.ntcNext o ((e + gap) % 65536) }).drainNotices o s.fab.ntcHeld.length)

/-- RESTARTING_LIMIT (R394): the flag is cleared within 2 s. -/
def execRestartingLimit (t : Nat) (s0 : State) : Eff :=
  let s := s0.at t
  match s.fab.restarting with
  | some t0 => .next (if t0 + 2000000000 ≤ s.now then (s.mapFab fun f => { f with restarting := none }).fabSettle else s)
  | none => .next s

/-! ## Images of registers (R397) -/

/-- STW_TIME_STAT. -/
def State.timeStat (s : State) : Nat :=
  let off := if s.fab.offset < -32768 then -32768 else if 32767 < s.fab.offset then 32767 else s.fab.offset
  packBits [(b2n s.fab.locked, 1), (b2n s.fab.holdover.isSome, 1), (b2n s.isRidge, 1), (s.parentLink.getD 0, 2), (0, 3),
    (if s.myHops = 255 then 0 else s.myHops, 8), (word16 off, 16)]

/-- STW_SCHEMA and STW_SCHEMA_PEND. -/
def State.schemaImage (s : State) : Nat := packBits [(s.fab.schema, 8), (s.fab.ownMin, 8), (s.fab.ownMax, 8), (s.fab.ceiling, 8)]
def State.schemaPendImage (s : State) : Nat := match s.fab.schemaPend with
  | some i => packBits [(i.value, 8), (1, 1)]
  | none => 0

/-! ## Commands (R396, R438, R439) -/

/-- A fabric ID, or a free value where the spec gives no code for none. -/
def State.fidOr (s : State) (x : Option Nat) : Nat × State := match x with
  | some v => (v, s)
  | none => let (v, s1) := s.free; (v.toNat % 65536, s1)

/-- FABRIC_QUERY: flags are held, restarting and locked from bit 0 (log 62). -/
def cmdFabricQuery : Cmd :=
  { opcode := 0x0a01
    run := fun s =>
      let (r, s1) := s.fidOr s.fab.ridge
      let (b, s2) := s1.fidOr s.fab.standby
      let mine := if s.fab.fid.isNone then [] else
        [leBytes 8 (packBits [(s.me, 16), (s.fab.rank, 16), (b2n (s.fab.cause != 0), 1), (b2n s.fab.restarting.isSome, 1), (b2n s.timeLocked, 1),
          (0, 5), (s.myHops, 8), (s.fab.ownMin, 8), (s.fab.ownMax, 8)])]
      let rest := s.fab.members.map fun m => leBytes 8 (packBits [(m.1, 16), (m.2.rank, 16), (b2n m.2.held, 1), (b2n m.2.restarting, 1),
        (b2n m.2.locked, 1), (0, 5), (m.2.hops, 8), (m.2.ownMin, 8), (m.2.ownMax, 8)])
      .ok (leBytes 4 s.fab.epoch ++ leBytes 2 r ++ leBytes 2 b ++ leBytes 2 (mine ++ rest).length ++ leBytes 2 0 ++ (mine ++ rest).flatten) s2 }

def execFabricQuery (h : Hdr) (s : State) : Eff := s.dermel h cmdFabricQuery

/-- TIME_QUERY. -/
def cmdTimeQuery : Cmd := { opcode := 0x0a02, run := fun s => .ok (leBytes 8 s.now ++ leBytes 4 s.timeStat) s }

def execTimeQuery (h : Hdr) (s : State) : Eff := s.dermel h cmdTimeQuery

/-- SCHEMA_QUERY. -/
def cmdSchemaQuery : Cmd :=
  { opcode := 0x0a03
    run := fun s =>
      let mine := if s.fab.fid.isNone then [] else [leBytes 2 s.me ++ leBytes 1 s.fab.ownMin ++ leBytes 1 s.fab.ownMax]
      let all_ := mine ++ s.fab.members.map fun m => leBytes 2 m.1 ++ leBytes 1 m.2.ownMin ++ leBytes 1 m.2.ownMax
      let t := match s.fab.schemaPend with | some i => i.t | none => 0
      .ok (leBytes 4 s.schemaImage ++ leBytes 4 s.schemaPendImage ++ leBytes 8 t ++ leBytes 2 all_.length ++ leBytes 2 0 ++ all_.flatten) s }

def execSchemaQuery (h : Hdr) (s : State) : Eff := s.dermel h cmdSchemaQuery

/-- Is a change of the fabric under way (R395)? -/
def State.fabBusy (s : State) : Bool :=
  s.fab.schemaPend.isSome || s.fab.staging.isSome || s.fab.routeT.isSome ||
    s.fab.todo.any fun t => match t.2 with | .schema | .stage | .routeAct => true | _ => false

/-- SCHEMA_SET: executed by the Ridge (log 74); where the version does not change, it completes at once. -/
def cmdSchemaSet (ceiling : Nat) : Cmd :=
  { opcode := 0x0a04, most := 1
    run := fun s =>
      if !s.isRidge || s.fabBusy || s.busyWith (· == Work.schemaSet) then .refuse .busy 0
      else match s.bestSchema ceiling with
        | none => .refuse .schemaMismatch 0
        | some v =>
          let s1 := s.mapFab fun f => { f with ceiling := ceiling }
          .pending .schemaSet [] (s1.replicate .schema |>.mapFab fun f => if v = s.fab.schema then { f with schemaPend := some ⟨s.now, v, s.me⟩ } else f) }

def execSchemaSet (h : Hdr) (ceiling : Byte) (s : State) : Eff := s.dermel h (cmdSchemaSet ceiling.toNat)

/-- RIDGE_YIELD (R379): the successor is the standby Ridge. -/
def cmdRidgeYield : Cmd :=
  { opcode := 0x0a05, most := 2
    run := fun s => match s.fab.standby with
      | some b =>
        if !s.isRidge || s.fab.handover.isSome || s.busyWith (· == Work.ridgeYield) then .refuse .busy 0
        else .pending .ridgeYield [] (s.replicateTo b (.handover b))
      | none => .refuse .busy 0 }

def execRidgeYield (h : Hdr) (s : State) : Eff := s.dermel h cmdRidgeYield

/-- ROUTE_SET (R385): the master table is changed and distributed. -/
def cmdRouteSet (fid sw port on : Nat) : Cmd :=
  { opcode := 0x0a06, most := 2
    bad := fun _ => firstBad [(4095 < fid, 0), (4095 < sw, 2), (63 < port, 4), (1 < on, 5)]
    run := fun s =>
      if !s.isRidge || s.fabBusy || s.busyWith (· == Work.routeSet) then .refuse .busy 0
      else
        let has := NMap.get? s.fab.master fid
        if has.isSome && has != some (sw, port) then .refuse .conflict 0
        else .pending .routeSet [] ((s.mapFab fun f => { f with
          master := if on = 1 then NMap.set f.master fid (sw, port) else NMap.erase f.master fid }).replicate .stage) }

def execRouteSet (h : Hdr) (fid sw : B16) (port set : Byte) (s : State) : Eff :=
  s.dermel h (cmdRouteSet fid.toNat sw.toNat port.toNat set.toNat)

/-- ROUTE_QUERY: an ID without an entry gives a free value (log 68). -/
def cmdRouteQuery (first n : Nat) : Cmd :=
  { opcode := 0x0a07
    bad := fun _ => firstBad [(4095 < first, 0), (n = 0 || 1000 < n, 2)]
    run := fun s =>
      let (v, s1) := s.free
      let staged := match s.ports.staged with | some x => x.1 | none => 0
      .ok (leBytes 2 s.ports.routeVer ++ leBytes 2 staged ++
        tableBytes s.ports.route first (Nat.min n (4096 - first)) (v.toNat % 4294967296) s.groupPort) s1 }

def execRouteQuery (h : Hdr) (first n : B16) (s : State) : Eff := s.dermel h (cmdRouteQuery first.toNat n.toNat)

/-- NOTICE_MASK (R387): one bit for each of the twelve kinds. -/
def cmdNoticeMask (mask : Word) : Cmd :=
  { opcode := 0x0a08
    bad := fun _ => firstBad [(4096 ≤ mask.toNat, 0)]
    run := fun s => .ok [] (s.mapCmds fun c => { c with noticeMask := mask }) }

def execNoticeMask (h : Hdr) (mask : Word) (s : State) : Eff := s.dermel h (cmdNoticeMask mask)

/-- Largest result data of an inner command as its parameters stand, for those that can exceed 4,048 bytes (R439). -/
def innerMost (pkt : List Byte) : Nat :=
  let f := fun off n => fieldAt pkt (32 + off) n
  match fieldAt pkt 0 2 with
  | 0x0307 => 56 + 2 * f 4 2
  | 0x0412 => 32 + 16 * f 4 2
  | 0x0430 | 0x0431 => 4 + 4 * f 2 2
  | 0x0904 | 0x0b06 => f 4 4
  | 0x0a07 => 4 + 4 * f 2 2
  | 0x0a10 => 4080
  | _ => 0

/-- FABRIC_RELAY (R388, R439). -/
def cmdFabricRelay (target : Nat) (pkt : List Byte) : Cmd :=
  let all := bitOf target 15
  let plen := fieldAt pkt 6 2
  { opcode := 0x0a10, most := 4080
    bad := fun _ => firstBad [(bitsOf target 12 3 != 0, 0), (pkt.length < 32 || pkt.length != 32 + plen || 4028 < plen, 4),
      (!all && 4048 < innerMost pkt, 4)]
    run := fun s =>
      let n := s.fab.relayN
      let tgt := target % 4096
      if all then
        if s.fab.fid.isNone || s.fab.ridge.isNone then .refuse .busy 0
        else
          let open_ := (s.me :: s.fab.members.map (·.1)).foldl (fun m i => NMap.set m i (some s.now)) ([] : NMap (Option Nat))
          let s1 := s.mapFab fun f => { f with
            relays := f.relays ++ [{ n := n, all := true, seq := none, open_ := open_, pkt := pkt }], relayN := n + 1 }
          if s.isRidge then
            let (serial, s2) := s1.nextSerial
            let q := s2.fab.cmdSeq
            .pending (.relay n) [] ((s2.mapFab fun f => { f with cmdSeq := (f.cmdSeq + 1) % 2147483648 }).replicate (.relay s.me serial q pkt))
          else .pending (.relay n) [] (s1.unicastNew 0x10 (s.fab.ridge.getD 0) (leBytes 4 0 ++ pkt))
      else
        let q := vcCount s.fab.relayNext tgt
        let s1 := s.mapFab fun f => { f with
          relays := f.relays ++ [{ n := n, all := false, seq := some q, open_ := [(tgt, some s.now)], pkt := pkt }]
          relayN := n + 1, relayNext := NMap.set f.relayNext tgt ((q + 1) % 2147483648) }
        .pending (.relay n) [] (
          if s.fab.fid == some tgt then s1.relayIn false tgt q pkt
          else if (NMap.get? s.fab.members tgt).isSome then s1.unicastNew 0x10 tgt (leBytes 4 q ++ pkt)
          else s1) }

def execFabricRelay (h : Hdr) (target : B16) (pkt : List Byte) (s : State) : Eff := s.dermel h (cmdFabricRelay target.toNat pkt)

end Sys2Proof.Machine
end

