-- ==== Sys2Proof/Machine/Attic.lean ====
section
/-! DEFINITION. Attic commands and fault injection (R461 to R463, R438), and the faults of stacks, sensors and the Hearth
(R449, R544). -/

namespace Sys2Proof.Machine

/-! ## Reading the Attic -/

/-- Events of the history ring from an index counted from the oldest, at most `n` (ATTIC_READ). -/
def State.ringPart (s : State) (first n : Nat) : List Event := (s.flt.ring.drop first).take n

def State.ringBytes (s : State) (first n : Nat) : List Byte :=
  let es := s.ringPart first n
  leBytes 4 es.length ++ es.flatMap eventBytes

/-- The ring read and its entries checked (type 15h of R449): the entry that an injection strikes, the first that is read, is marked invalid. -/
def State.ringRead (s : State) (first n : Nat) : List Byte × State :=
  if (s.ringPart first n).isEmpty then (s.ringBytes first n, s)
  else
    let r : Report := { checker := 0x1500 }
    let (hurt, s1) := s.checkOnce r
    if hurt then
      let s2 := s1.mapFlt fun f => { f with ring := f.ring.eraseIdx first }
      (s2.ringBytes first n, s2.record { r with injected := true })
    else (s.ringBytes first n, s1)

/-- The first-fatal record as its 128 bytes (R462); all 0 while VALID is 0. REFUSED runs on until the reset. -/
def State.firstBytes (s : State) : List Byte :=
  match s.flt.first with
  | none => List.replicate 128 0
  | some f =>
    let live := s.flt.st != .normal && f.event.time == s.flt.drainT
    eventBytes f.event ++ leBytes 64 (packBits [(f.fatalCnt, 16), (f.lastChecker, 16), (f.drainDone, 32), (f.drainFailed, 32), (f.drainNs, 32),
      (if live then s.flt.refused else f.refused, 32), (1, 1), (b2n f.read, 1), (b2n f.limit, 1), (b2n (if live then s.hbmKeep else f.keep), 1)])

/-- The 64 bytes at record index `i` of the log buffer (R458): the newest record whose SEQ has that index. -/
def State.logRecordBytes (s : State) (i : Nat) : List Byte :=
  match s.flt.log.reverse.find? fun r => r.1.seq % 65536 == i with
  | some r => eventBytes r.1
  | none => List.replicate 64 Memory.unlisted

/-- Bytes of the log buffer (ATTIC_LOG_READ). -/
def State.logBytes (s : State) (off len : Nat) : List Byte :=
  let i := off / 64
  (((List.range ((off + len + 63) / 64 - i)).flatMap fun k => s.logRecordBytes (i + k)).drop (off % 64)).take len

/-- Records returned whole count as read (R461). -/
def State.markRead (s : State) (off len : Nat) : State :=
  s.mapFlt fun f => { f with log := f.log.map fun r =>
    (r.1, r.2 || (off ≤ r.1.seq % 65536 * 64 && r.1.seq % 65536 * 64 + 64 ≤ off + len)) }

/-- READ of the first-fatal record set. -/
def State.markFirst (s : State) : State := s.mapFlt fun f => { f with first := f.first.map fun x => { x with read := true } }

/-- ATTIC_READ. -/
def cmdAtticRead (first n : Nat) : Cmd :=
  { opcode := 0x0901
    bad := fun _ => firstBad [(n = 0 || 32 < n, 1)]
    run := fun s => .ok (s.ringRead first n).1 (s.ringRead first n).2 }

def execAtticRead (h : Hdr) (first n : Byte) (s : State) : Eff := s.dermel h (cmdAtticRead first.toNat n.toNat)

/-- ATTIC_FATAL_READ. -/
def cmdAtticFatalRead : Cmd := { opcode := 0x0902, run := fun s => .ok s.firstBytes s.markFirst }

def execAtticFatalRead (h : Hdr) (s : State) : Eff := s.dermel h cmdAtticFatalRead

/-- ATTIC_CLEAR: [0] history ring, [1] first-fatal record, which is DENIED in FIELD_LOCKED. -/
def cmdAtticClear (what : Nat) : Cmd :=
  { opcode := 0x0903
    bad := fun _ => firstBad [(3 < what, 0)]
    life := fun s => !(bitOf what 1 && s.lifecycle == 2)
    run := fun s =>
      let s1 := if bitOf what 0 then s.mapFlt fun f => { f with ring := [] } else s
      .ok [] (if bitOf what 1 then s1.mapFlt fun f => { f with first := none } else s1) }

def execAtticClear (h : Hdr) (what : Byte) (s : State) : Eff := s.dermel h (cmdAtticClear what.toNat)

/-- ATTIC_LOG_READ. -/
def cmdAtticLogRead (off len : Nat) : Cmd :=
  { opcode := 0x0904
    bad := fun _ => firstBad [(0x400000 < off + len, 0), (4064 < len, 4)]
    run := fun s => .ok (s.logBytes off len) (s.markRead off len) }

def execAtticLogRead (h : Hdr) (off len : Word) (s : State) : Eff := s.dermel h (cmdAtticLogRead off.toNat len.toNat)

/-- Fault state code: 0 NORMAL, 1 DRAIN, 2 FAULT, 3 WARM (R465). -/
def State.fltCode (s : State) : Nat :=
  match s.flt.st with
  | .drain => 1
  | .fault => 2
  | .normal => if s.pwr.st == BootSt.warmDrain then 3 else 0

/-- FAULT_QUERY. -/
def cmdFaultQuery : Cmd :=
  { opcode := 0x0906
    run := fun s => .ok (leBytes 1 s.fltCode ++ leBytes 1 (b2n (s.flt.st == .fault)) ++ leBytes 2 0 ++ leBytes 4 (s.fld FLT_CE_CNT_fCOUNT) ++
      leBytes 4 (s.fld FLT_CT_CNT_fCOUNT) ++ leBytes 4 (s.fld FLT_FT_CNT_fCOUNT)) s }

def execFaultQuery (h : Hdr) (s : State) : Eff := s.dermel h cmdFaultQuery

/-! ## Fault injection (R463) -/

/-- Does a checker take injection, and does its instance exist (R449)? -/
def canInject (checker : Nat) : Bool :=
  let i := checker % 256
  match checker / 256 with
  | 0x01 | 0x02 => i < 32
  | 0x03 | 0x04 | 0x05 | 0x10 => i < 4
  | 0x06 => i < 4
  | 0x07 | 0x0f => i < 2
  | 0x08 | 0x09 | 0x0a | 0x0b | 0x0c => i < 32
  | 0x0d => i < 64
  | 0x11 => i < 49
  | 0x12 => i < 4
  | 0x13 | 0x14 | 0x15 | 0x16 => i = 0
  | _ => false

/-- Arming replaces any earlier arming; ARM 0 disarms. -/
def State.arm (s : State) (checker mode : Nat) : State :=
  if mode = 0 then s.setFld FLT_INJ_CTL_fARM 0 else (s.setFld FLT_INJ_CTL_fCHECKER checker).setFld FLT_INJ_CTL_fARM mode

/-- Do the lifecycle state and the type permit it? -/
def State.mayArm (s : State) (checker mode : Nat) : Bool :=
  s.lifecycle != 2 && (mode = 0 || checker / 256 != 0x16 || s.lifecycle == 0)

/-- FAULT_INJECT. -/
def cmdFaultInject (checker mode : Nat) : Cmd :=
  { opcode := 0x0905
    bad := fun _ => firstBad [(mode != 0 && !canInject checker, 0), (2 < mode, 2)]
    life := fun s => s.mayArm checker mode
    run := fun s => .ok [] (s.arm checker mode) }

def execFaultInject (h : Hdr) (checker : B16) (arm : Byte) (s : State) : Eff := s.dermel h (cmdFaultInject checker.toNat arm.toNat)

/-- A write of FLT_INJ_CTL.CHECKER and ARM; ignored where FAULT_INJECT is refused. -/
def State.writeArm (s : State) (checker mode : Nat) : State :=
  if !s.mayArm checker mode || 2 < mode || (mode != 0 && !canInject checker) then s
  else (s.setFld FLT_INJ_CTL_fCHECKER checker).setFld FLT_INJ_CTL_fARM mode

/-- DISARM: a write of FLT_INJ_CTL with ARM 00b. -/
def execDisarm (path : Path) (checker : B16) (s : State) : Eff :=
  .next (s.regWrite path FLT_INJ_CTL fun a => a.writeArm checker.toNat 0)

/-- ARM_ONCE. -/
def execArmOnce (path : Path) (checker : B16) (s : State) : Eff :=
  .next (s.regWrite path FLT_INJ_CTL fun a => a.writeArm checker.toNat 1)

/-- ARM_CONTINUOUS. -/
def execArmContinuous (path : Path) (checker : B16) (s : State) : Eff :=
  .next (s.regWrite path FLT_INJ_CTL fun a => a.writeArm checker.toNat 2)

/-! ## Stack loss, temperatures, the Hearth's watchdog (R449, R544) -/

/-- STACK_LOSS (type 0Eh): no response for 10 us, or a training failure. -/
def execStackLoss (k : Stack) (t : Nat) (s0 : State) : Eff :=
  let s := s0.at t
  .next ((s.setFld (HBM_STK_STAT_fLOST k.toNat) 1).fatal { checker := 0x0e00 + k.toNat, source := 12, unit := k.toNat })

/-- Maximum junction temperature of the ordering code in units of 0.5 °C (R1). -/
def maxTj : Int := if Config.orderCode = 1 then 210 else 200

/-- One reading of a sensor: CKP_TEMP_n, HIGH, and a stack's refresh rate. -/
def State.readTemp (s : State) (n : Nat) (raw : Nat) : State :=
  let v := signed 12 raw
  let high := maxTj < v
  let peak := s.fld (CKP_TEMP_n_fPEAK n)
  let s1 := ((s.setFld (CKP_TEMP_n_fTEMP n) raw).setFld (CKP_TEMP_n_fHIGH n) (b2n high)).setFld (CKP_TEMP_n_fPEAK n)
    (if signed 12 peak < v then raw else peak)
  let s2 := s1.setFld CKP_TEMP_STAT_fHIGH (putBits (s1.fld CKP_TEMP_STAT_fHIGH) n 1 (b2n high))
  let s3 := if high then s2.setFld CKP_TEMP_STAT_fHIGH_SEEN 1 else s2
  if n < 12 then s3
  else
    let k := n - 12
    let was := s3.flag (HBM_STK_STAT_fREF2X k)
    let now2 := if 170 < v then true else if v < 164 then false else was
    (s3.setFld (HBM_STK_STAT_fREF2X k) (b2n now2)).setFld CKP_TEMP_STAT_fHBM_2XREF (putBits (s3.fld CKP_TEMP_STAT_fHBM_2XREF) k 1 (b2n now2))

/-- TEMP_READING (R544): every sensor is read, then each that has reached the fatal threshold raises its fault, the lower sensor
first. -/
def execTempReading (readings : List (BitVec 12)) (t : Nat) (s0 : State) : Eff :=
  let s := s0.at t
  let rs := (List.range 16).zip (readings.take 16)
  let s1 := rs.foldl (fun a r => a.readTemp r.1 r.2.toNat) s
  let hot := rs.filter fun r => maxTj + 20 ≤ signed 12 r.2.toNat && signed 12 (s.fld (CKP_TEMP_n_fTEMP r.1)) < maxTj + 20
  .next (hot.foldl (fun a r => a.fatal { checker := 0x1900 + r.1 }) s1)

/-- A fault of the Hearth (types 14h and 1Ah): it restarts as R394 gives; a second restart within 10 s is fatal. -/
def State.hearthFault (s : State) (checker : Nat) (inj : Bool := false) : State :=
  let soon : Bool := match s.flt.hearthFaults with | t0 :: _ => decide (s.now ≤ t0 + 10000000000) | [] => false
  let s1 := s.mapFlt fun f => { f with hearthFaults := s.now :: f.hearthFaults }
  if soon then s1.fatal { checker := checker, injected := inj }
  else
    ({ s1 with pwr := { s1.pwr with previous := none } }.record { checker := checker, cls := 1, injected := inj }).restartHearth

/-- HEARTH_WATCHDOG (type 1Ah). -/
def execHearthWatchdog (t : Nat) (s0 : State) : Eff :=
  let s := s0.at t
  .next (if s.pwr.st == BootSt.run then s.hearthFault 0x1a00 else s)

end Sys2Proof.Machine
end

