-- ==== Sys2Proof/Machine/RegView.lean ====
section
/-! DEFINITION. What a read of each BAR0 register sees (R12 to R17, R550 to R555): the stored value, with the fields that the
structured state holds put in their places. -/

namespace Sys2Proof.Machine

/-- A register's stored value with some bits replaced: (lowest bit, width, value). -/
def State.mix (s : State) (off : Nat) (fs : List (Nat × Nat × Nat)) : Nat :=
  fs.foldl (fun r f => putBits r f.1 f.2.1 f.2.2) (s.reg off).toNat

/-! ## GEN, CMD, FLT and DBG -/

/-- Device state: 0 starting, 1 ready, 2 fault, 3 warm reset in progress (R436, R553). A switch with a fabric ID is ready once
it has locked, one that runs alone once the Hearth is up (R524 steps 14 and 15, R525). -/
def State.devState (s : State) : Nat :=
  if s.flt.st != .normal then 2
  else match s.pwr.st with
    | .warmDrain => 3
    | .run | .restart => if s.fab.fid.isNone || s.fab.everLocked then 1 else 0
    | _ => 0

/-- The slot state of the running image. -/
def State.runSlot (s : State) : FwSlot := if s.pwr.slot then s.pwr.slot1 else s.pwr.slot0

/-- GEN_FW_VER: 0 until HEARTH_UP and in recovery. -/
def State.fwVer (s : State) : Nat :=
  match s.pwr.st with
  | .run | .restart | .warmDrain => s.runSlot.version
  | _ => 0

/-- Levels of the GPIO balls: the inputs, and FAULT_N where it is mirrored (R497). -/
def State.gpioLevels (s : State) : Nat :=
  (List.range 8).foldl (fun v n => if bitsOf s.pwr.gpioFn (2 * n) 2 = 2 then putBits v n 1 (b2n (s.flt.st != .fault)) else v)
    s.pwr.gpio

def State.viewGen (s : State) (off : Nat) : Nat :=
  if off = 0x10 then s.fwVer
  else if off = 0x14 then
    packBits [(s.devState, 2), (b2n (s.pwr.st == .recovery), 1), (b2n s.cmds.hearthUp, 1), (s.lifecycle, 2)]
  else if off = 0x30 then s.gpioLevels
  else if off = 0x34 then s.pwr.gpioFn
  else if off = 0x9000 then s.ep.pba.foldl (fun v n => putBits v n 1 1) 0
  else (s.reg off).toNat

/-- Whole events readable: END words in the FIFO (R442). -/
def State.evtReady (s : State) : Nat := (s.cmds.fifo.filter fun w => w.getLsbD 62).length

/-- EVT_COUNT. -/
def State.evtCount (s : State) : Nat := packBits [(s.evtReady, 12), (0, 1), (s.cmds.fifo.length, 13)]

def State.ring (s : State) (n : Nat) : Ring := s.cmds.rings.getD n {}

def State.viewCmd (s : State) (off : Nat) : Nat :=
  if off = 0x10000 then packBits [(s.cmds.pend.length, 10), (b2n s.cmds.hearthUp, 1)]
  else if off = 0x10010 then s.evtCount
  else if off = 0x10014 then s.mix off [(0, 17, s.cmds.backlogWords)]
  else if 0x10100 ≤ off && off % 0x20 = 0x0c then
    let r := s.ring ((off - 0x10100) / 0x20)
    packBits [(r.head, 12), (0, 4), (r.tail, 12)]
  else (s.reg off).toNat

def State.viewFlt (s : State) (off : Nat) : Nat :=
  if off = 0x20000 then
    packBits [(s.fltCode, 2), (b2n (s.flt.st == .fault), 1), (b2n s.flt.first.isSome, 1), (b2n s.flt.limit, 1), (b2n s.hbmKeep, 1)]
  else if off = 0x20020 then packBits [(s.flt.ringNext, 5), (s.flt.ring.length, 6)]
  else if off = 0x20024 then s.mix off [(0, 1, b2n (s.stackUp 1))]
  else if off = 0x20028 then s.flt.seq
  else if off = 0x20050 then s.flt.done
  else if off = 0x20054 then s.flt.failed
  else (s.reg off).toNat

def State.viewDbg (s : State) (off : Nat) : Nat :=
  if off = 0x30000 then
    packBits [(s.lifecycle, 2), (b2n s.dbg.fuseErr, 1), (b2n s.dbg.chal.isSome, 1), (b2n s.dbg.advDone, 1)]
  else if off = 0x3000c then s.mix off [(16, 1, b2n (!s.cmds.monitor.isEmpty))]
  else (s.reg off).toNat

/-! ## STW and DWY -/

/-- ROLE of STW_ROLE: 0 MEMBER, 1 STANDBY, 2 RIDGE, 3 HELD (R397). -/
def State.roleCode (s : State) : Nat :=
  if s.fab.cause != 0 then 3 else if s.isRidge then 2
  else if s.fab.fid.isSome && s.fab.standby == s.fab.fid then 1 else 0

def State.viewStw (s : State) (off : Nat) : Nat :=
  let live := if s.fab.fid.isSome && s.pwr.st != BootSt.reset then s.fab.members.length + 1 else 0
  let t := match s.fab.schemaPend with | some i => i.t | none => 0
  if off = 0x40000 then packBits [(s.fab.rank, 16), (s.fab.fid.getD 0, 12), (b2n s.fab.dual, 1)]
  else if off = 0x40004 then
    packBits [(s.roleCode, 2), (s.fab.cause, 2), (b2n s.quorum, 1), (b2n s.fab.restarting.isSome, 1), (0, 2), (live, 9),
      (s.fab.nCfg - 1, 8)]
  else if off = 0x40008 then
    packBits [(s.fab.ridge.getD 0, 12), (b2n s.fab.ridge.isSome, 1), (0, 3), (s.fab.standby.getD 0, 12), (b2n s.fab.standby.isSome, 1)]
  else if off = 0x4000c then s.fab.epoch
  else if off = 0x40020 then s.schemaImage
  else if off = 0x40024 then s.schemaPendImage
  else if off = 0x40028 then bitsOf t 0 32
  else if off = 0x4002c then bitsOf t 32 32
  else if off = 0x40030 then bitsOf s.now 0 32
  else if off = 0x40034 then bitsOf s.now 32 32
  else if off = 0x40038 then s.timeStat
  else if off = 0x40040 then packBits [(s.ports.routeVer, 16), (match s.ports.staged with | some x => x.1 | none => 0, 16)]
  else if off = 0x40050 then s.mix off [(0, 8, Nat.min 255 s.fab.relays.length)]
  else (s.reg off).toNat

def State.viewDwy (s : State) (off : Nat) : Nat :=
  if off = 0x50004 then s.mix off [(8, 6, s.ramping)]
  else if off < 0x51000 then (s.reg off).toNat
  else
    let n := (off - 0x51000) / 0x40
    let c := s.dch n
    let g := dwNat c.par 26
    match off % 0x40 with
    | 0x00 => packBits [(b2n c.en, 1), (b2n (g != 255), 1), (if g = 255 then 0 else g, 3), (0, 3), (c.port.getD 0, 6), (b2n c.port.isSome, 1)]
    | 0x04 => s.dwyStat n
    | 0x08 => c.vImage
    | 0x0c => c.iImage
    | 0x10 => c.tjImage
    | 0x18 => bitsOf c.tripT 0 32
    | 0x1c => bitsOf c.tripT 32 32
    | _ => (s.reg off).toNat

/-! ## MOV, QOS, RMC, PAN, VST and XBR -/

def State.viewMov (s : State) (off : Nat) : Nat :=
  if off = 0x60004 then s.movStat
  else if off < 0x61000 then (s.reg off).toNat
  else
    let c := s.chan ((off - 0x61000) / 0x40)
    match off % 0x40 with
    | 0x00 => packBits [(b2n c.en, 1), (0, 15), (c.room.getD 0, 6), (b2n c.room.isSome, 1)]
    | 0x04 => c.stat
    | 0x08 => bitsOf c.err 0 32
    | 0x0c => bitsOf c.err 32 32
    | 0x10 => bitsOf c.desc 0 32
    | 0x14 => bitsOf c.desc 32 32
    | 0x18 => bitsOf c.bytes 0 32
    | 0x1c => bitsOf c.bytes 32 32
    | _ => (s.reg off).toNat

/-- STATE of RMC_STATE: 0 FREE, 1 ACTIVE, 2 CLOSING (R228). -/
def RoomSt.code : RoomSt → Nat | .active => 1 | .closing => 2

def State.viewRmc (s : State) (off : Nat) : Nat :=
  let r := (off - 0xa0000) / 0x400
  let i := off % 0x400
  match s.room? r with
  | none => if i < 0x24 then 0 else (s.reg off).toNat
  | some x =>
    match i with
    | 0x00 => packBits [(x.st.code, 2), (b2n x.bank, 1), (b2n x.commitPend, 1), (0, 4), (x.fid, 8)]
    | 0x04 => x.share.tracker
    | 0x08 => x.share.dir
    | 0x0c => x.share.pan
    | 0x10 => x.share.vst
    | 0x14 => packBits [(x.share.mover, 7), (0, 1), (x.share.slices, 11), (x.share.rules, 9)]
    | 0x18 => packBits [(x.hmax, 13), (0, 3), (x.hosts.length, 13)]
    | 0x20 => s.oldInfl r x
    | _ => (s.reg off).toNat

/-- Lines as whole 4 KiB units, rounded up. -/
def units4k (lines : Nat) : Nat := (lines + 63) / 64

def State.viewPan (s : State) (off : Nat) : Nat :=
  if off = 0xc0000 then
    s.mix off [(0, 1, b2n s.pan.pfw), (1, 1, b2n (s.pan.flush.isSome || s.busyWith fun w => match w with | .pantryFlush .. => true | _ => false)),
      (2, 1, b2n s.pan.flushDone), (4, 1, b2n s.senseFault),
      (5, 1, b2n (s.cmds.hearthUp && noParam s.pan.par))]
  else if off = 0xc0010 then s.pan.budget / 64 % 2 ^ 24
  else if off = 0xc0014 then units4k s.allDirty % 2 ^ 24
  else if off = 0xc0034 then
    match s.win? (s.fld PAN_WIN_SEL_fWINDOW) with
    | some w => packBits [(w.pmode.code, 2), (w.run.code, 2), (b2n w.grant, 1), (0, 3), (units4k (s.winDirty w), 24)]
    | none => 0
  else (s.reg off).toNat

/-- Cells that a port holds or has committed (R170, R172, R561): its REQ messages and credits, the class reserves that its credits
advertise, and the response slots in use of a pool-device port; a port whose link is down holds its messages only. -/
def State.portTaken (s : State) (p : Nat) : Nat :=
  let w := s.portWidth p
  let r := s.role p
  let held := fun (req : Bool) => s.home.vst.foldl (fun n v => if v.port == p && (v.cls == .req) == req then n + v.cells else n) 0
  let edge := r == roleUpstream || r == rolePt
  let cache := s.ports.vppb.any fun v => v.vcs == p && v.cache
  let fixed := if r == roleUpstream then 384 + 512 + 144 * w + (if cache then 128 + 112 * w else 0)
    else if r == rolePool then 3 * s.slotsUsed p
    else s.portReserve p
  (if edge then held true + s.portCommit p else 0) + (if s.inL0 p then fixed else held false + (if edge then 0 else held true))

/-- Cells of a die that hold a message or are committed (VST_LD_FREE). -/
def State.dieTaken (s : State) (die : Nat) : Nat := (s.diePorts die).foldl (fun n p => n + s.portTaken p) 0

def State.viewVst (s : State) (off : Nat) : Nat :=
  if 0xe8000 ≤ off then
    if off % 16 = 0 then (s.home.vst.filter fun v => v.port == (off - 0xe8000) / 16).length else (s.reg off).toNat
  else if off < 0xe1000 then (s.reg off).toNat
  else
    let die := (off - 0xe1000) / 0x1000
    let room := s.fld (VST_ROOM_SEL_fROOM die)
    match off % 0x1000 with
    | 0x00 => 393216 - s.dieTaken die
    | 0x04 => s.dieRes die
    | 0x08 => s.sharedPool die
    | 0x0c => s.sharedUsed die
    | 0x14 => packBits [(s.roomCells room die, 19), (0, 12),
        (b2n ((s.room? room).isSome && (s.share room).vst + s.sharedCap die ≤ s.roomCells room die), 1)]
    | _ => (s.reg off).toNat

/-- Counters of the arbiter and requester selected (R188, R195). -/
def State.arbSel (s : State) : Nat × Nat × Nat × Nat :=
  let type := s.fld XBR_ARB_SEL_fTYPE
  (NMap.get? s.home.arb ((type * 256 + s.fld XBR_ARB_SEL_fINST) * 128 + s.fld XBR_ARB_SEL_fREQ)).getD (0, 0, 0, 0)

def State.viewXbr (s : State) (off : Nat) : Nat :=
  match off % 0x1000 with
  | 0x220 => bitsOf s.arbSel.1 0 32
  | 0x224 => bitsOf s.arbSel.1 32 32
  | 0x228 => bitsOf s.arbSel.2.1 0 32
  | 0x22c => bitsOf s.arbSel.2.1 32 32
  | 0x230 => Nat.min 0xFFFFFFFF s.arbSel.2.2.1
  | _ => (s.reg off).toNat

/-! ## LNG, HSL and CKP -/

def State.viewLng (s : State) (off : Nat) : Nat :=
  let g := s.group ((off - 0x100000) / 0x1000)
  match off % 0x1000 with
  | 0x000 => g.1
  | 0x004 => (List.range 4).foldl (fun v i => match g.2[i]? with
      | some p => v + (p % 64 + 128) * 256 ^ i
      | none => v) 0
  | _ => (s.reg off).toNat

def State.viewHsl (s : State) (off : Nat) : Nat :=
  let hu := (off - 0x400000) / 0x4000
  match off % 0x4000 with
  | 0x10 => s.trkCountWord hu
  | 0x24 => s.mix off [(0, 9, s.bisnpOut hu)]
  | 0x30 => s.mix off [(0, 7, s.scqLevel hu), (17, 1, b2n (64 ≤ s.scqLevel hu))]
  | 0x40 => s.mix off [(2, 1, b2n (s.markers hu != 0))]
  | 0x50 => s.mix off [(24, 4, Nat.min 15 (s.markers hu))]
  | 0x90 => s.mix off [(0, 9, (s.home.cfl.filter fun c => c.hu == hu).length)]
  | _ => (s.reg off).toNat

def State.viewCkp (s : State) (off : Nat) : Nat :=
  if off = 0xa00014 then b2n s.pwr.prefer
  else if off = 0xa00040 then
    s.mix off [(0, 1, b2n s.pwr.slot), (1, 1, b2n s.pwr.preferred), (3, 1, b2n s.pwr.copy)]
  else if off = 0xa00044 then Config.hours + s.pwr.hours
  else (s.reg off).toNat

/-! ## Reads -/

/-- Is the offset in the MSI-X table or its pending-bit array (R549)? -/
def isMsix (off : Nat) : Bool := (0x8000 ≤ off && off < 0x8080) || off == 0x9000

/-- The word that a register holds now, its write-only fields too; 0 where no register is defined (R16, R551). -/
def State.view (s : State) (off : Nat) : Word :=
  if (regAt off).isNone && !isMsix off then 0
  else BitVec.ofNat 32 (match off / 0x10000 with
    | 0x0 => s.viewGen off
    | 0x1 => s.viewCmd off
    | 0x2 => s.viewFlt off
    | 0x3 => s.viewDbg off
    | 0x4 => s.viewStw off
    | 0x5 => s.viewDwy off
    | 0x6 | 0x7 => s.viewMov off
    | 0x8 | 0x9 => s.qosReg ((off - 0x80000) / 0x400) (off % 0x400)
    | 0xa | 0xb => s.viewRmc off
    | 0xc | 0xd => s.viewPan off
    | 0xe => s.viewVst off
    | 0xf => s.viewXbr off
    | b => if b < 0x20 then s.viewLng off
      else if 0x40 ≤ b && b < 0x80 then s.viewHsl off
      else if 0xa0 ≤ b && b < 0xb0 then s.viewCkp off
      else (s.reg off).toNat)

/-- A register's word with its fields of some access codes cleared. -/
def clearAcc (off : Nat) (v : Word) (p : Acc → Bool) : Word :=
  match regAt off with
  | some d => v &&& ~~~(d.mask fun f => p f.acc)
  | none => v

/-- TJ_PEAK, which an RC read clears in the channel (R421). -/
def State.clearPeak (s : State) (off : Nat) : State :=
  if 0x51000 ≤ off && off < 0x51800 && off % 0x40 = 0x10 then s.mapDch ((off - 0x51000) / 0x40) fun c => { c with peak := 0 } else s

/-- Code of a path for its latches (R552). -/
def pathCode : Path → Nat
  | .endpoint => 0 | .monitor => 1 | .jtag => 2

/-- One aligned 32-bit read on a path (R13, R15, R16): the word returned. A write-only field reads 0, an RC field is cleared, a
latching _LO latches its _HI for the path, and a latching _HI returns what was latched, 0 before any (log 40). -/
def State.regRead (s : State) (path : Path) (off : Nat) : Word × State :=
  let key := pathCode path * 2 ^ 32 + off
  if 4 ≤ off && isLatchLo (off - 4) then ((NMap.get? s.latch key).getD 0, s)
  else
    let v := clearAcc off (s.view off) fun a => a == .wo
    let s1 := if isLatchLo off then { s with latch := NMap.set s.latch (key + 4) (s.view (off + 4)) } else s
    let kept := clearAcc off (s.reg off) fun a => a == .rc
    (v, if kept = s.reg off then s1.clearPeak off else (s1.setReg off kept).clearPeak off)

end Sys2Proof.Machine
end

