-- ==== Sys2Proof/Machine/Fifo.lean ====
section
/-! DEFINITION. The event FIFO and its backlog (R440 to R445): what moves words between them, EVT_POP and EVT_CTL.FLUSH. -/

namespace Sys2Proof.Machine

/-- The DROPPED event posted once the backlog can take it (R443). -/
def State.noteDropped (s : State) : State :=
  if s.cmds.dropped = 0 || s.starting || 65536 < s.cmds.backlogWords + s.cmds.reserved + 3 then s
  else (s.mapCmds fun c => { c with dropped := 0 }).postWords (eventWords 0x60 0 0 8 s.now (leBytes 4 s.cmds.dropped)) false

/-- Whole events moved from the backlog into the FIFO, oldest first, as far as they fit (R443). -/
def State.moveEvents : Nat → State → State
  | 0, s => s
  | n + 1, s =>
    match s.cmds.backlog with
    | e :: es =>
      if s.cmds.fifo.length + e.length ≤ 4096 then
        State.moveEvents n ((s.mapCmds fun c => { c with backlog := es, fifo := c.fifo ++ e }).raise 0)
      else s
    | [] => s

/-- The Hearth serves the backlog (R443). -/
def State.pumpFifo (s : State) : State :=
  if s.starting then s else (State.moveEvents s.cmds.backlog.length s).noteDropped

/-- The oldest readable word removed; 0 if no event is readable (R442). A word that its check finds uncorrectable is dropped and
counted (type 15h of R449); what the read then returns is open (log 3). -/
def State.popWord (s : State) : B64 × State :=
  if s.evtReady = 0 then (0, s)
  else match s.cmds.fifo with
    | w :: ws =>
      let r : Report := { checker := 0x1500 }
      let (hurt, s1) := s.checkOnce r
      let s2 := s1.mapCmds fun c => { c with fifo := ws }
      if hurt then
        let (v, s3) := ((s2.mapCmds fun c => { c with dropped := Nat.min 0xFFFFFFFF (c.dropped + 1) }).setFld EVT_STAT_fDROP_SEEN 1).free
        (v, (s3.record { r with injected := true }).pumpFifo)
      else (w, s2.pumpFifo)
    | [] => (0, s)

/-- An access that breaks R12: Completer Abort, recorded with checker type 49h. -/
def State.badAccess (s : State) (path : Path) (off : Nat) : State :=
  (s.emit (.abort path)).record { checker := 0x4900, addr := off }

/-- EVT_POP (R442, R445): a read of BAR2 at `off` with `size` bytes. -/
def execEvtPop (size : Nat) (off : Nat) (s : State) : Eff :=
  let lo := fun (w : B64) => w.setWidth 32
  let hi := fun (w : B64) => (w >>> 32).setWidth 32
  let say := fun (ws : List Word) (a : State) => a.emit (.value .endpoint ws)
  .next (
    if !s.ep.mse || s.ep.d3 then s.emit (.unsupported .endpoint)
    else if size = 8 && off = 0x1000 then
      let (w, a) := s.popWord
      say [lo w, hi w] a
    else if size != 4 || off % 4 != 0 || 0x10000 ≤ off then s.badAccess .endpoint off
    else if off = 0x1000 then
      let (w, a) := s.popWord
      say [lo w] (a.mapCmds fun c => { c with evtHi := NMap.set c.evtHi 0 (hi w) })
    else if off = 0x1004 then say [(NMap.get? s.cmds.evtHi 0).getD 0] s
    else if off = 0x1010 then say [BitVec.ofNat 32 s.evtCount] s
    else say [0] s)

/-- EVT_CTL.FLUSH (R444): every word of the FIFO and the backlog discarded and counted. -/
def State.flushEvents (s : State) : State :=
  let n := s.cmds.fifo.length + s.cmds.backlogWords
  ((s.mapCmds fun c => { c with fifo := [], backlog := [] }).bumpBy EVT_STAT_fFLUSHED n).noteDropped

/-- EVT_FLUSH (R444): a write of EVT_CTL. -/
def execEvtFlush (value : Word) (s : State) : Eff :=
  .next (s.regWrite .endpoint EVT_CTL fun a => if value.getLsbD 0 then a.flushEvents else a)

/-- EVENT_POSTED (R442, R443): the events that wait go into the FIFO as far as they fit. -/
def execEventPosted (s : State) : Eff := .next s.pumpFifo

end Sys2Proof.Machine
end

