-- ==== Sys2Proof/Machine/Board.lean ====
section
/-! DEFINITION. The Ehrec board image (R521 to R523): its header, its items, and what each item sets. The spec gives the item
types and not the layout of their data: the layouts are the model's (log 80, DESIGN CHOICE). -/

namespace Sys2Proof.Machine

/-- One item of a board image. -/
structure EItem where
  type : Nat
  idx : Nat
  data : List Byte
deriving DecidableEq, Repr

/-- A byte of an item's data; 0 beyond its end. -/
def EItem.byte (e : EItem) (i : Nat) : Nat := fieldAt e.data i 1

/-- Items of a board image, and whether what follows them is no item. -/
def ehrecItems : Nat → List Byte → List EItem × Bool
  | 0, _ => ([], false)
  | n + 1, bs =>
    if bs.isEmpty then ([], false)
    else
      let len := fieldAt bs 2 2
      if bs.length < 8 + len || len % 4 != 0 then ([], true)
      else
        let r := ehrecItems n (bs.drop (8 + len))
        (⟨fieldAt bs 0 2, fieldAt bs 4 2, (bs.drop 8).take len⟩ :: r.1, r.2)

/-- The image at the start of some bytes, if its MAGIC, length and CRC hold (R521, R522). -/
def imageOf (bs : List Byte) : Option (List Byte) :=
  let len := fieldAt bs 8 4
  let img := bs.take len
  if fieldAt bs 0 4 = 0x43524845 && 32 ≤ len && len ≤ 0x100000 && len ≤ bs.length
      && fieldAt img 28 4 == crc32c (img.take 28 ++ leBytes 4 0 ++ img.drop 32) then some img else none

/-- Flash address of an Ehrec copy (R516). -/
def copyBase (copy : Bool) : Nat := flashAddr (if copy then 0x08200000 else 0x08100000)

/-- The image that a copy of the boot flash holds. -/
def State.flashImage (s : State) (copy : Bool) : Option (List Byte) :=
  imageOf (Memory.readBytes s.mem (copyBase copy) (Nat.min 0x100000 (leNat (Memory.readBytes s.mem (copyBase copy + 8) 4))))

/-- Number of indexes of an item type; 0 for an unknown type (R521). -/
def itemCount (type : Nat) : Nat := [0, 1, 32, 64, 32, 256, 4, 32, 1, 1, 8, 1].getD type 0

/-- A fault of a board image recorded with checker type 4Fh (R522). -/
def State.imageFault (s : State) (e : EItem) : State :=
  s.record { checker := 0x4f00, payload := packBits [(e.type, 16), (e.idx, 16)] }

/-- The items that take effect: of known types and indexes, the first of each; the others are recorded (R522). -/
def State.usedItems (s : State) (es : List EItem) : List EItem × State :=
  es.foldl (fun (acc : List EItem × State) e =>
    if itemCount e.type ≤ e.idx || acc.1.any fun x => x.type == e.type && x.idx == e.idx then (acc.1, acc.2.imageFault e)
    else (acc.1 ++ [e], acc.2)) ([], s)

/-! ## Lane groups (R283, R285) -/

/-- A group at its default: MODE 00b with port number g; without a port where another group holds that number (log 81). -/
def State.defaultGroup (s : State) (g : Nat) : State :=
  let held := (List.range 32).flatMap fun x => if x = g then [] else (s.group x).2
  s.mapPorts fun p => { p with grp := NMap.set p.grp g (0, if held.contains g then [] else [g]) }

/-- One lane item checked as R283 does and applied; one that fails leaves its group at the default, recorded. -/
def State.laneItem (s : State) (e : EItem) : State :=
  let g := e.idx
  let mode := e.byte 0
  let mine := modePorts mode [e.byte 1, e.byte 2, e.byte 3, e.byte 4]
  let gs := if mode = 3 then [g, g + 1] else [g]
  let held := ((List.range 32).filter fun x => !gs.contains x).flatMap fun x => (s.group x).2
  if 3 < mode || (mode == 3 && g % 2 == 1) || mine.any (64 ≤ ·) || !mine.Nodup || mine.any held.contains || 64 < held.length + mine.length then
    (s.imageFault e).defaultGroup g
  else
    let s1 := gs.foldl (fun a x => a.mapPorts fun p => { p with grp := NMap.set p.grp x (if mode = 3 then 3 else 0, []) }) s
    s1.mapPorts fun p => { p with grp := NMap.set p.grp g (mode, mine) }

/-- Lane groups as the image sets out (R285). -/
def State.laneItems (s : State) (es : List EItem) : State :=
  let ls := es.filter fun e => e.type == 2
  let covered := fun (g : Nat) => ls.any fun e => e.idx == g || (e.idx + 1 == g && e.byte 0 == 3)
  let empty := (List.range 32).map fun g => (g, (0, if covered g then [] else [g]))
  ls.foldl (fun a e => a.laneItem e) (s.mapPorts fun p => { p with grp := empty })

/-! ## The other items -/

/-- Signed parameter words of a Doorway item, and hold-up words. -/
def EItem.words (e : EItem) (at_ n : Nat) : List Nat := (List.range n).map fun j => fieldAt e.data (at_ + 4 * j) 4

/-- Valid Doorway parameters of an item: VALID at byte 4, then the words of R438 (R399). -/
def EItem.dwPars (e : EItem) : NMap Int :=
  let valid := fieldAt e.data 4 4
  ((List.range 27).zip ((e.words 8 27).map fun v => signed 32 v)).filter fun p => bitOf valid p.1 && dwRange p.1 p.2

/-- Hold-up parameters of an item: VALID at byte 0, the words from byte 4 (R147). One out of its range is as if missing; r, which
alone has a default, stays and makes the parameters invalid. -/
def EItem.hpPars (e : EItem) : NMap Nat :=
  let valid := fieldAt e.data 0 2
  let all : NMap Nat := ((List.range 9).zip (e.words 4 9)).filter fun p => bitOf valid p.1
  all.filter fun p => p.1 == 3 || hpRange all p.1 p.2

/-- Does an item carry a hold-up parameter out of its range? -/
def EItem.hpBad (e : EItem) : Bool := e.hpPars.length != onesIn (fieldAt e.data 0 2) 9 || e.hpPars.any fun p => !hpRange e.hpPars p.1 p.2

/-- Is a value of an item out of its range? -/
def EItem.bad (e : EItem) : Bool :=
  match e.type with
  | 1 => 4095 < fieldAt e.data 0 2 || 1 < e.byte 4 || fieldAt e.data 6 2 == 0 || 256 < fieldAt e.data 6 2
  | 3 => 6 < e.byte 0 || 1 < e.byte 1 || 1 < e.byte 2 || 1 < e.byte 3
  | 5 => (List.range 5).any fun r => 10 < e.byte (4 * r) || 10 < e.byte (4 * r + 1) || 15 < e.byte (4 * r + 2) || 1 < e.byte (4 * r + 3)
  | 6 => 15 < e.byte 0 || 15 < e.byte 1
  | 7 => (63 < e.byte 0 && e.byte 0 != 255) || e.dwPars.length != onesIn (fieldAt e.data 4 4) 27
  | 8 => e.hpBad
  | 9 => 45 < e.byte 0
  | 10 => 2 < e.byte 0
  | 11 => 1 < e.byte 0
  | _ => false

/-- One item applied (R136, R147, R287, R288, R302, R304, R363, R368, R398, R497, R505); a value out of range takes its default.
Doorway channels and the house units are set at a cold reset alone. -/
def State.applyItem (cold house : Bool) (s : State) (e : EItem) : State :=
  let s1 := if e.bad then s.imageFault e else s
  let i := e.idx
  let ok := fun (v max dflt : Nat) => if v ≤ max then v else dflt
  match e.type with
  | 1 =>
    let n := fieldAt e.data 6 2
    s1.mapFab fun f => { f with
      fid := if fieldAt e.data 0 2 ≤ 4095 then some (fieldAt e.data 0 2) else none
      rank := fieldAt e.data 2 2
      dual := e.byte 4 == 1
      nCfg := if n = 0 || 256 < n then 1 else n }
  | 3 =>
    let s2 := (s1.setFld (PRT_CFG_fMAX_RATE i) (ok (e.byte 0) 6 6)).setFld (PRT_CFG_fSRIS i) (ok (e.byte 1) 1 0)
    s2.mapPort i fun p => { p with noInband := e.byte 3 == 0, upType := e.byte 2 == 1 }
  | 5 => s1.mapPorts fun p => { p with eq := (List.range 5).foldl (fun m r => NMap.set m (8 * i + r + 2)
      (ok (e.byte (4 * r)) 10 (Config.defaultPreset (r + 2)).toNat, ok (e.byte (4 * r + 1)) 10 (Config.defaultPreset (r + 2)).toNat,
       ok (e.byte (4 * r + 2)) 15 8, e.byte (4 * r + 3) == 1)) p.eq }
  | 4 =>
    ((List.range 64).filter fun p => bitOf (fieldAt e.data 0 8) p).foldl (fun a p => a.mapPort p fun x => { x with perst := x.perst ++ [i] }) s1
  | 6 => (s1.setFld (STW_LNK_CFG_fTX_DEEMPH i) (ok (e.byte 0) 15 7)).setFld (STW_LNK_CFG_fRX_CTLE i) (ok (e.byte 1) 15 8)
  | 7 =>
    if cold then s1.mapDch i fun c => { c with port := if e.byte 0 ≤ 63 then some (e.byte 0) else none, par := e.dwPars } else s1
  | 8 => s1.mapPan fun p => { p with par := e.hpPars, ehrec := e.hpPars }
  | 9 => if house then s1.mapPool fun p => { p with house := ok (e.byte 0) 45 0 } else s1
  | 10 => { s1 with pwr := { s1.pwr with gpioFn := putBits s1.pwr.gpioFn (2 * i) 2 (ok (e.byte 0) 2 0) } }
  | 11 => if e.byte 0 = 1 then (s1.setFld CKP_AVS_fEN 1).setFld CKP_AVS_fFIXED 0 else s1
  | _ => s1

/-- The board image in force applied, at a cold reset or again at a warm one (R522, R523, R526 step 8). Where HBM is kept, the
lane groups and the house units stand with the bindings (log 82, DEDUCED). -/
def State.applyImage (s0 : State) (cold keep : Bool) : State :=
  let s := s0.setFld CKP_AVS_fFIXED 1
  let img := s.pwr.ehrec
  let (all, junk) := ehrecItems img.length (img.drop 32)
  let (es, s1) := s.usedItems all
  let s2 := if junk then s1.imageFault ⟨0, 0, []⟩ else s1
  let s3 := if keep then s2 else s2.laneItems es
  let s4 := es.foldl (fun a e => a.applyItem cold (!keep) e) s3
  let s5 := match s4.pan.cal with
    | some c => s4.mapPan fun p => { p with par := NMap.set p.par 0 c }
    | none => s4
  s5.dwy.foldl (fun a c => match c.2.port with
    | some p => a.mapPort p fun x => { x with dch := some c.1 }
    | none => a) s5

end Sys2Proof.Machine
end

