-- ==== Sys2Proof/Machine/Teardown.lean ====
section
/-! DEFINITION. ROOM_DESTROY: the teardown of a Room (R205). -/

namespace Sys2Proof.Machine

/-- D1 to D6 of R205: the Room is CLOSING, its requests are discarded, its slices, Mover channels and bindings end, and its
ports return to no Room. -/
def State.teardown (s : State) (r : Nat) : State :=
  let s1 := s.mapRoom r fun x => { x with st := .closing }
  let s2 := (s1.home.vst.filter fun v => v.cls == .req && v.room == some r).foldl (fun a v => a.discardD2 v) s1
  let ids := (s2.pool.slices.filter fun p => p.2.room == r).map fun p => p.1
  let s3 := ids.foldl (fun a i => a.dropSlice i) s2
  let (n, s4) := s3.moverTeardown r
  let bs := s4.pool.wins.flatMap fun w => if w.2.room == r then w.2.binds.map fun b => (w.1, b.host) else []
  let s5 := bs.foldl (fun a b => a.forceUnbind b.1 b.2) (s4.mapRoom r fun x => { x with d3 := ids.length, d4 := n, d5 := bs.length })
  let ports := (List.range 64).filter fun p => (s5.port p).room == some r
  let s6 := (s5.ports.vppb.filter fun b => ports.contains b.vcs || ports.contains b.port).foldl (fun a b => a.unbindPt b) s5
  ports.foldl (fun a p => (a.mapPort p fun x => { x with room := none }).dropRet p) s6

/-- Is the teardown of a Room past D7: it holds no tracker entry, and every unbind of D5 has ended? -/
def State.tornDown (s : State) (r : Nat) : Bool :=
  !(s.home.trk.any fun t => t.room == r) && s.pool.wins.all fun w => w.2.room != r || w.2.binds.isEmpty

/-- The window that the work of a command is on. -/
def Work.window : Work → Option Nat
  | .windowCreate w | .windowDestroy w | .windowBind w _ | .windowUnbind w _ | .dcAdd w _ | .dcRelease w .. | .rehome w
  | .migrate w _ | .pantryMode w => some w
  | _ => none

/-- D8 for one window: commands on it that are still PENDING end with ABORTED, its migrations are over, and it is destroyed
with its extents zeroed. -/
def State.destroyWin (s : State) (w : Nat) : State :=
  let s1 := s.finish (fun p => p.work.window == some w) ⟨.aborted, 0, []⟩
  let s2 := (s1.mov.migs.filter fun m => m.win == w).foldl (fun a m =>
    ((if m.taken && m.step == 0 then a.giveBack m.dstHouse m.dstDev m.dstExt false else a).dropMig m.x).freeMigChan m.x) s1
  s2.removeWin w true

/-- D8 and D9 of R205: windows destroyed, rule banks cleared, allotments returned, the number freed; the counts of D2 to D5. -/
def State.endTeardown (s : State) (r : Nat) : WorkRes × State :=
  match s.room? r with
  | none => (⟨.ok, 0, []⟩, s)
  | some x =>
    let s1 := (s.pool.wins.filter fun w => w.2.room == r).foldl (fun a w => a.destroyWin w.1) s
    let s2 := (s1.finishWork (.ruleCommit r) .ok []).finishWork (.roomResize r) .aborted []
    let chans := s2.mov.chans.map fun c => if c.2.room == some r then (c.1, { c.2 with room := none }) else c
    let s3 := (s2.mapMov fun m => { m with chans := chans }).mapPool fun p => { p with rooms := NMap.erase p.rooms r }
    (⟨.ok, 0, leBytes 4 x.d2 ++ leBytes 4 x.d3 ++ leBytes 4 x.d4 ++ leBytes 4 x.d5⟩, s3.notice ntcRoomEnd (leBytes 1 x.fid))

/-- ROOM_DESTROY (R205). -/
def cmdRoomDestroy (froom : Nat) : Cmd :=
  { opcode := 0x0306, most := 16, names := [froom]
    bad := fun s => firstBad [(froom == 0 || s.noRoom froom, 0)]
    run := fun s =>
      match s.localRoom froom with
      | none => .refuse .badParam 0
      | some r => .pending (.roomDestroy r) [] (s.teardown r) }

def execRoomDestroy (h : Hdr) (froom : Byte) (s : State) : Eff := s.dermel h (cmdRoomDestroy froom.toNat)

end Sys2Proof.Machine
end

