-- ==== Sys2Proof/Machine/Reset.lean ====
section
/-! DEFINITION. Resets and start-up (R457, R512 to R515, R518, R519, R524 to R528, R562, R564): what a cold and a warm reset keep
and clear, the boot, HEARTH_UP; and the end of DRAIN (R454). -/

namespace Sys2Proof.Machine

def State.mapPwr (s : State) (f : Power → Power) : State := { s with pwr := f s.pwr }

/-! ## What every reset keeps (R512) -/

/-- The first-fatal record closed by a reset: REFUSED and HBM_KEEP stand as they are now (R462). -/
def State.closedFirst (s : State) : Option FirstFatal :=
  s.flt.first.map fun f => if s.flt.st != .normal && f.event.time == s.flt.drainT then
    { f with refused := s.flt.refused, keep := s.hbmKeep } else f

/-- The state that any reset leaves: boot flash and fuses, the always-on domain while `aon` holds, the levels at the balls, and
the model's own records. -/
def State.survive (s : State) (aon : Bool) : State :=
  { now := s.now
    fresh := s.fresh
    out := s.out
    pending := s.pending
    mem := s.mem.filter fun c => 2 ^ 40 ≤ c.1
    flt := { ring := if aon then s.flt.ring else [], ringNext := if aon then s.flt.ringNext else 0,
             first := if aon then s.closedFirst else none, retired := s.flt.retired }
    pan := { cal := s.pan.cal, calHours := s.pan.calHours }
    pwr := { slot0 := s.pwr.slot0, slot1 := s.pwr.slot1, preferred := s.pwr.preferred, copy := s.pwr.copy, ehNew := s.pwr.ehNew,
             prefer := aon && s.pwr.prefer, aonLost := s.pwr.aonLost || !aon, hours := s.pwr.hours, fuses := s.pwr.fuses,
             floor := s.pwr.floor, perstUp := s.pwr.perstUp, gpio := s.pwr.gpio } }

/-- Validity of the reference inputs, which is the board's, kept in CKP_CLK_STAT. -/
def State.keepClocks (b s : State) : State :=
  (b.setFld CKP_CLK_STAT_fA_OK (s.fld CKP_CLK_STAT_fA_OK)).setFld CKP_CLK_STAT_fB_OK (s.fld CKP_CLK_STAT_fB_OK)

/-- FLT_HBM_RR_s as the retired-row lists stand. -/
def State.rowRegs (s : State) : State :=
  (List.range 4).foldl (fun a k => a.setFld (FLT_HBM_RR_s_fENTRIES k) (a.flt.retired.getD k []).length) s

/-! ## Boot (R509, R518, R519, R521, R524) -/

/-- The firmware slot that the boot ROM runs: the preferred one, else the other, recorded (R518); none: recovery (R519), in which
the first event is RESET (R444). -/
def State.bootRom (s : State) : Bool × State :=
  let ok := fun (b : Bool) => if b then s.pwr.slot1.valid else s.pwr.slot0.valid
  let run := fun (a : State) (b : Bool) => a.mapPwr fun p =>
    { p with slot := b, slot0 := if b then p.slot0 else { p.slot0 with verified := true },
             slot1 := if b then { p.slot1 with verified := true } else p.slot1 }
  if ok s.pwr.preferred then (true, run s s.pwr.preferred)
  else if ok (!s.pwr.preferred) then
    (true, ((run s (!s.pwr.preferred)).setFld CKP_BOOT_fFALLBACK 1).record { checker := 0x4f00 })
  else (false, s.mapPwr fun p => { p with st := .recovery })

/-- HBM trained after a cold reset, the listed rows repaired as far as the stack's resources allow: how many is a free value (R448,
log 3); each row left in the list is recorded. -/
def State.trainHbm (s : State) : State :=
  (List.range 4).foldl (fun a k =>
    let rows := a.flt.retired.getD k []
    let (v, b) := if rows.isEmpty then ((0 : B64), a) else a.free
    let n := v.toNat % (rows.length + 1)
    let c := (b.mapFlt fun f => { f with retired := f.retired.set k (rows.drop n) }).setFld (HBM_STK_STAT_fTRAINED k) 1
    let d := ((c.setFld (HBM_STK_STAT_fREPAIRED k) n).setFld (FLT_HBM_RR_s_fENTRIES k) (rows.length - n)).setFld
      (FLT_HBM_RR_s_fUNREPAIRED k) (rows.length - n)
    (rows.drop n).foldl (fun e r => e.record { checker := 0x4f00, source := 12, unit := k, addr := r }) d) s

/-- The Ehrec copy of a cold reset (R522, R523): a copy written since the last one if it is valid, else the active one, else the
other; with none, every item takes its default. `active` is the active copy as the flash held it before this run. -/
def State.chooseImage (s : State) (active : List Byte) : State :=
  let cur := match s.flashImage s.pwr.copy with
    | some i => some i
    | none => imageOf active
  let other := s.flashImage (!s.pwr.copy)
  let use := fun (c : Bool) (i : List Byte) => (s.mapPwr fun p =>
    { p with copy := c, ehrec := i, ehrecVer := fieldAt i 4 4, ehNew := false })
  match s.pwr.ehNew, cur, other with
  | true, _, some i => use (!s.pwr.copy) i
  | _, some i, _ => use s.pwr.copy i
  | _, none, some i => (use (!s.pwr.copy) i).record { checker := 0x4f00 }
  | _, none, none => ((s.mapPwr fun p => { p with ehrec := [], ehrecVer := 0 }).setFld CKP_BOOT_fEHREC_DEFAULT 1).record { checker := 0x4f00 }

/-- OPF modules and module 48 begin their start-up training, reason 04h (R355, R360). -/
def State.trainModules (s : State) : State :=
  ((List.range 48).foldl (fun a m =>
    let k := 2 * m
    (bothEnds k).foldl (fun b e => b.sendRtrq e 4) (a.beginRetrain k 4)) s).train 96

/-- Start-up from step 4 of R524 on: the image is applied, the core voltage requested, HBM trained and swept. -/
def State.bootOn (s : State) : State := ((s.mapPwr fun p => { p with st := .cold }).applyImage true false).trainHbm.trainModules

/-- The cold start-up once RESET_N is high and a reference is valid (R467, R509, R518, R524). -/
def State.bootCold (s0 : State) : State :=
  let s := s0.mapPwr fun p => { p with t0 := s0.now }
  let a := s.flag CKP_CLK_STAT_fA_OK
  let b := s.flag CKP_CLK_STAT_fB_OK
  let sel := if s.pwr.prefer then b else !a
  let s1 := ((s.setFld CKP_CLK_STAT_fSEL (b2n sel)).setFld CKP_CLK_STAT_fROOT_LOCK 1).setFld CKP_RESET_CAUSE_fLAST (b2n !s.pwr.aonLost)
  let s2 := (s1.setFld CKP_RESET_CAUSE_fAON_KEPT (b2n !s.pwr.aonLost)).mapPwr fun p => { p with aonLost := false }
  let fuses := Config.fuses.toNat ||| s.pwr.fuses
  let s3 := { s2 with dbg := { s2.dbg with lc := some (fuseState fuses), fuseErr := fuses == 2 } }
  let s4 := if a then s3 else s3.corrected 0x1700 0 0
  let s5 := if b then s4 else s4.corrected 0x1701 0 1
  let (ok, s6) := (s5.chooseImage s.pwr.ehrec).bootRom
  if ok then s6.bootOn else s6.post 0x50 [0, 0x10]

/-- RESET_RELEASE (R496, R503, R509, R524): RESET_N rises; the operands are the active Ehrec copy and the validity of the two slots
as the flash held them before this run, and the SMB_ADDR straps. -/
def execResetRelease (ehrec : List Byte) (slotOk : Bool × Bool) (strap : BitVec 2) (s : State) : Eff :=
  if s.pwr.st != .reset || s.pwr.released then .next s
  else
    let s1 := s.mapPwr fun p => { p with
      released := true, smb := 0x64 + strap.toNat, ehrec := ehrec
      slot0 := { p.slot0 with valid := slotOk.1 || p.slot0.verified }, slot1 := { p.slot1 with valid := slotOk.2 || p.slot1.verified } }
    let s1 := s1.setFld CKP_RAIL_STAT_fIN_RANGE 0x1FF
    let s2 := { s1 with dwy := s1.dwy.map fun c => (c.1, { c.2 with cntT := if c.2.prsHigh then none else some s.now }) }
    .next (if s.flag CKP_CLK_STAT_fA_OK || s.flag CKP_CLK_STAT_fB_OK then s2.bootCold else s2)

/-! ## Cold reset (R504, R512, R527, R528) -/

/-- The cold reset: RESET_N low, or the loss of a rail other than VDD_AON. -/
def State.coldReset (s : State) (aonLost : Bool) : State :=
  let s1 := match s.pan.flush with
    | some f => s.flushRecord f false
    | none => s
  let s2 := if s1.flt.st == .fault then s1.driveFaultN true else s1
  let s3 := if s2.pan.flushDone then s2.emit (.pin .flushDone false) else s2
  let s4 := s3.dwy.foldl (fun a c =>
    let b := if c.2.perst then a.emit (.pin (.perstDn c.1) false) else a
    if c.2.on then b.emit (.pin (.gate c.1) false) else b) s3
  let locked := s.lifecycle == 2
  let base := (s4.survive (!aonLost && !s.pwr.aonLost)).keepClocks s
  let dwyMap := s4.dwy.map fun c => (c.1, ({ prsHigh := c.2.prsHigh } : DwCh))
  let cleared : State := { base with
    now := 0
    flt := { base.flt with first := match base.flt.first with
      | some f => if locked && f.read then none else some f
      | none => none }
    dwy := dwyMap }
  cleared.rowRegs

/-- COLD_RESET. -/
def execColdReset (_rail : Bool) (aonLost : Bool) (s : State) : Eff := .next (s.coldReset aonLost)

/-- VDD_AON_LOSS (R504): the always-on state is lost: the history ring, the first-fatal record, the flags and PREFER. -/
def execVddAonLoss (s : State) : Eff :=
  .next ((s.mapFlt fun f => { f with ring := [], ringNext := 0, first := none }).mapPwr fun p =>
    { p with aonLost := true, flag83 := false, flag159 := false, prefer := false })

/-! ## Warm reset (R513 to R515, R526, R528) -/

/-- FW_ACTIVATE is PENDING and will restart the Hearth: a warm reset waits for it (R528). -/
def State.warmWaits (s : State) : Bool := s.flt.st == .normal && s.busyWith fun w => w == Work.fwActivate

/-- A warm reset begins (R514 step 1): `cause` is 2 for WARM_N and 3 for CKP_RESET_CTL. It is ignored with RESET_N low and while one
runs, and waits while the Hearth restarts. -/
def State.startWarm (s : State) (cause : Nat) : State :=
  match s.pwr.st with
  | .reset | .warmDrain | .warmBoot => s
  | .restart => s.mapPwr fun p => { p with warmWait := some cause }
  | _ =>
    if s.warmWaits then s.mapPwr fun p => { p with warmWait := some cause } else
    let s1 := (s.mapPwr fun p => { p with st := .warmDrain, t0 := s.now, warmCause := cause, warmWait := none }).mapPool fun p =>
      { p with wins := p.wins.map fun w => if w.2.grant then (w.1, { w.2 with grant := false, fit := 0 }) else w }
    match s.flt.st with
    | .fault => s1
    | .drain => (s1.mapFlt fun f => { f with allKeep := false }).drainLimit.enterFault
    | .normal =>
      let s2 := (s1.mapFlt fun f => { f with limit := false, done := 0, failed := 0, refused := 0 }).stopWork
      if s2.flag FLT_CFG_fDRAIN_CLEAN then s2.drainClean else s2

/-- WARM_N (R513). -/
def execWarmN (t : Nat) (s : State) : Eff := .next ((s.at t).startWarm 2)

/-- CKP_RESET_CTL written (R513). -/
def State.writeReset (s : State) (v : Word) : State := if v.getLsbD 0 && bitsOf v.toNat 8 8 = 0xA5 then s.startWarm 3 else s

/-- WARM (R513). -/
def execWarm (path : Path) (value : Word) (t : Nat) (s : State) : Eff :=
  .next ((s.at t).regWrite path CKP_RESET_CTL fun a => a.writeReset value)

/-- Steps 2 and 3 of R514: dirty directory-cache entries go to HBM; the hosts of coherent shared windows lose their lines at the
link-down of step 4 (R337). -/
def State.saveHome (s : State) : State :=
  let s1 := s.home.cache.foldl (fun a p => a.evictCache p.1) s
  (s1.pool.wins.filter fun w => w.2.type == .shared).foldl (fun a w => w.2.binds.foldl (fun b x => b.purgeHost w.1 x.host) a) s1

/-- Ports and bindings where HBM is kept: lane groups, roles and Rooms stand (log 82, DEDUCED). -/
def Ports.warmKept (p : Ports) : Ports :=
  { grp := p.grp
    vppb := p.vppb.map fun v => { v with cache := false, cacheId := 0, base := 1, limit := 0, pbase := 1, plimit := 0, sec := 0, sub := 0, removing := none }
    st := p.st.map fun x => (x.1, { room := x.2.room }) }

/-- A binding where HBM is kept: its logical device loses its configuration, its registers and its events. -/
def Binding.warmKept (b : Binding) : Binding :=
  { b with presPend := b.decode, sweep := [], sec := 0, bar := 0, bar2 := 0, regs := [], pba := [], events := [], nextEvt := 1, evtPolicy := 0 }

/-- A pool where HBM is kept: each window is presented again at link-up, and each device waits for its link (R53, R564). -/
def Pool.warmKept (p : Pool) : Pool :=
  { p with
    devs := p.devs.map fun d => (d.1, { d.2 with awaitLink := true })
    slices := p.slices.map fun x => (x.1, { x.2 with slots := [], jobs := [] })
    wins := p.wins.map fun w => (w.1, { w.2 with
      grant := false
      fit := 100
      binds := w.2.binds.map Binding.warmKept }) }

/-- R515: HBM is kept if the drain ended without LIMIT and, after a fatal fault, with HBM_KEEP. -/
def State.keepsHbm (s : State) : Bool := if s.flt.st == .normal then !s.flt.limit else s.hbmKeep

/-- Stack registers across a warm reset: in self-refresh where HBM is kept (R514 step 3), else trained again (R515). -/
def State.warmStacks (b s : State) (keep : Bool) : State :=
  (List.range 4).foldl (fun a k =>
    let was := s.stackUp k
    let c := (a.setFld (HBM_STK_STAT_fREPAIRED k) (s.fld (HBM_STK_STAT_fREPAIRED k))).setFld (FLT_HBM_RR_s_fUNREPAIRED k)
      (s.fld (FLT_HBM_RR_s_fUNREPAIRED k))
    if keep then (c.setFld (HBM_STK_STAT_fSREF k) (b2n was)).setFld (HBM_STK_STAT_fLOST k) (s.fld (HBM_STK_STAT_fLOST k))
    else c.setFld (HBM_STK_STAT_fTRAINED k) 1) b

/-- A Mover channel where HBM is kept: it stays with the Room that owns it, as the allotments stand (R199); every other register is
reset, and the reset value of EN is that of channels 60 to 63. -/
def MChan.kept (c : MChan) (n : Nat) : MChan :=
  let on := 60 ≤ n
  { en := on, room := c.room, st := if on then .idle else .disabled }

/-- Steps 2 to 4 of R514: what is kept is saved, every domain but VDD_AON, the root PLL, the time base and the Doorway die is
reset, and start-up goes on from the boot ROM. -/
def State.warmInternal (s0 : State) : State :=
  let keep := s0.keepsHbm
  let s1 := if s0.flt.st == .fault then s0.driveFaultN true else s0
  let s := if keep then s1.saveHome else s1
  let base := (s.survive true).keepClocks s
  let b : State := { base with
    dwy := s.dwy.map fun c => (c.1, { c.2 with cause := 0, tripT := 0, peak := 0 })
    dbg := { lc := s.dbg.lc, fuseErr := s.dbg.fuseErr }
    pan := { base.pan with
      pfw := s.pan.pfw, flushDone := s.pan.flushDone, grantsFrom := s.pan.grantsFrom, sampleT := s.now
      tags := if keep then s.pan.tags else [] }
    pwr := { base.pwr with
      st := .warmBoot, t0 := s.now, released := true, aonLost := s.pwr.aonLost, smb := s.pwr.smb, ehrec := s.pwr.ehrec
      ehrecVer := s.pwr.ehrecVer, warmCause := s.pwr.warmCause, keep := keep, flag83 := keep, flag159 := keep, avsFail := s.pwr.avsFail } }
  let c : State := if keep then { b with
      mem := s.mem
      poison := s.poison
      home := { dir := s.home.dir }
      pool := s.pool.warmKept
      ports := s.ports.warmKept
      mov := { chans := s.mov.chans.map fun c => (c.1, c.2.kept c.1), migs := s.mov.migs }
      flt := { b.flt with log := s.flt.log } } else b
  let d := if keep then (List.range 64).foldl (fun a p => if s.role p = 0 then a else a.setFld (PRT_CFG_fROLE p) (s.role p)) c
    else ((List.range 32).foldl (fun a hu => a.setFld (HSL_DIR_ERR_fWARM_LOST hu) 1) c).setFld PAN_STAT_fWARM_LOST 1
  let e := (((d.warmStacks s keep).rowRegs.setReg GEN_SCRATCH_S (s.reg GEN_SCRATCH_S)).setFld CKP_CLK_STAT_fSEL
    (s.fld CKP_CLK_STAT_fSEL)).setFld CKP_CLK_STAT_fROOT_LOCK (s.fld CKP_CLK_STAT_fROOT_LOCK)
  let f := ((e.setFld CKP_RAIL_STAT_fIN_RANGE (s.fld CKP_RAIL_STAT_fIN_RANGE)).setFld CKP_RESET_CAUSE_fLAST s.pwr.warmCause).setFld
    CKP_RESET_CAUSE_fHBM_KEPT (b2n keep)
  let g := f.setFld CKP_RESET_CAUSE_fAON_KEPT (s.fld CKP_RESET_CAUSE_fAON_KEPT)
  let (ok, h) := g.bootRom
  if ok then (h.applyImage false keep).trainModules else h.post 0x50 [1, 0x10]

/-- The drain of DRAIN or of a warm reset is over: no tracker entry is open, and cleaning and a flush have ended (R454, R528). -/
def State.drainOver (s : State) : Bool := s.home.trk.isEmpty && s.pan.cleans.isEmpty && s.pan.flush.isNone

/-- DRAIN_END (R454, R514). -/
def execDrainEnd (t : Nat) (s0 : State) : Eff :=
  let s := (s0.at t).sweepCleans
  .next (if !s.drainOver then s
    else if s.pwr.st == .warmDrain then s.warmInternal
    else if s.flt.st == .drain then s.enterFault else s)

/-- DRAIN_LIMIT (R454): DRAIN_TMO has expired. -/
def execDrainLimit (t : Nat) (s0 : State) : Eff :=
  let s := s0.at t
  let tmo := s.fld FLT_CFG_fDRAIN_TMO * 1000000
  .next (if s.pwr.st == .warmDrain then
      (if s.flt.st == .normal && !s.flt.limit && s.pwr.t0 + tmo ≤ s.now then
        (let a := s.drainLimit
         if a.pan.flush.isNone then a.warmInternal else a)
      else s)
    else if s.flt.st == .drain && s.flt.drainT + tmo ≤ s.now then s.drainLimit.enterFault
    else s)

/-! ## Work in progress across a warm reset (R276, R562) -/

/-- A migration or re-homing copy undone or completed (R276): DUAL becomes LIVE on its source, RETIRE on its destination; recorded. -/
def State.settleExt (s : State) (x : Nat) : State :=
  let e := s.ext x
  let note := fun (a : State) => a.record { checker := 0x4e00, source := srcWindow, unit := e.window, room := e.room, addr := x * 2 ^ 28 }
  if !e.valid then s
  else if e.st == .dual then
    note ((s.giveDst e).setExt x { e with st := .live, dstHouse := false, dstDev := 0, dstExt := 0, dstRemote := false })
  else if e.st == .retire then
    note ((s.giveSrc e false).setExt x { e with
      st := .live, srcHouse := e.dstHouse, srcDev := e.dstDev, srcExt := e.dstExt, srcRemote := e.dstRemote
      dstHouse := false, dstDev := 0, dstExt := 0, dstRemote := false })
  else if e.st == .offered || e.st == .releasing then (s.giveSrc e false).setExt x { Ext.zero with gen := e.gen }
  else s

/-- One window settled (R562). -/
def State.settleWin (s : State) (w : Nat) : State :=
  match s.win? w with
  | none => s
  | some x =>
    match x.st with
    | .creating | .destroying | .incoming | .proxy => s.removeWin w false
    | _ =>
      let s1 := (List.range x.extents).foldl (fun a i => a.settleExt (x.baseX + i)) s
      let gone := x.binds.filter fun b => b.st == BState.binding || b.st == BState.unbinding
      let s2 := gone.foldl (fun a b => a.dropSlices w b.host) s1
      s2.mapWin w fun y => { y with
        st := .active
        pmode := if x.rehome.isSome then .wt else y.pmode
        rehome := none
        offers := []
        binds := y.binds.filter fun b => !(b.st == BState.binding || b.st == BState.unbinding) }

/-- Everything settled before HEARTH_UP where HBM is kept (R562). -/
def State.settleWarm (s : State) : State :=
  let s1 := (s.mov.migs.filter fun m => m.taken && m.step == 0).foldl (fun a m => a.giveBack m.dstHouse m.dstDev m.dstExt false) s
  let s2 := (s1.pool.wins.map fun w => w.1).foldl (fun a w => a.settleWin w) (s1.mapMov fun m => { m with migs := [] })
  let s3 := (s2.pool.rooms.filter fun r => r.2.st == .closing).foldl (fun a r => (a.endTeardown r.1).2) s2
  s3.mapPool fun p => { p with rooms := p.rooms.map fun r => (r.1, { r.2 with held := {}, commitPend := false }) }

/-! ## HEARTH_UP (R419, R444, R524 steps 10 to 12) -/

/-- Ports that exist leave the idle state they hold in reset; Stairwell links train. -/
def State.startLinks (s : State) : State :=
  let s1 := ((List.range 64).filter fun p => s.portExists p).foldl (fun a p => a.setFld (PRT_LINK_STAT_fSTATE p) (a.idleState p)) s
  (List.range 4).foldl (fun a l => if a.mayTrainSw (100 + l) then a.train (100 + l) else a) s1

/-- R83: a directory whose flag is lost is initialised again; every coherent shared window is marked failed. -/
def State.loseDir (s : State) : State :=
  let ws := s.pool.wins.filter fun w => w.2.type == .shared
  let s1 := ws.foldl (fun a w => (a.mapWin w.1 fun x => { x with failed := true }).record
    { checker := 0x4e00, source := srcWindow, unit := w.1, room := w.2.room }) (s.mapHome fun h => { h with dir := [], cache := [] })
  (List.range 32).foldl (fun a hu => a.setFld (HSL_DIR_ERR_fWARM_LOST hu) 1) s1

/-- R159: a Pantry whose flag is lost is invalidated; every window that had dirty lines is marked failed. -/
def State.losePantry (s : State) : State :=
  let ws := s.pool.wins.filter fun w => !(s.dirtyOf w.2).isEmpty
  let s1 := ws.foldl (fun a w => (a.mapWin w.1 fun x => { x with failed := true }).record
    { checker := 0x4e00, source := srcWindow, unit := w.1, room := w.2.room }) s
  (s1.mapPan fun p => { p with tags := [] }).setFld PAN_STAT_fWARM_LOST 1

/-- The directory and the Pantry that a warm reset has kept are used only if their always-on flags are still set (R83, R159). -/
def State.checkKept (s : State) : State :=
  let s1 := if s.pwr.flag83 then s else s.loseDir
  if s.pwr.flag159 then s1 else s1.losePantry

/-- Stacks leave self-refresh (R526 step 9). -/
def State.wakeStacks (s : State) : State :=
  (List.range 4).foldl (fun a k => if a.flag (HBM_STK_STAT_fSREF k) then
    (a.setFld (HBM_STK_STAT_fSREF k) 0).setFld (HBM_STK_STAT_fTRAINED k) 1 else a) s

/-- The Hearth runs: the slot that it runs from has its version and range, and the switch is in RUN. -/
def State.enterRun (s : State) (warm : Bool) (version : Word) (ownMin ownMax : Byte) : State :=
  let info := fun (x : FwSlot) => { x with version := version.toNat, ownMin := ownMin.toNat, ownMax := ownMax.toNat }
  let s1 := s.mapPwr fun p => { p with
    st := .run
    slot0 := if p.slot then p.slot0 else info p.slot0
    slot1 := if p.slot then info p.slot1 else p.slot1
    poolWait := if warm then some (s.now + 2000000000) else none }
  let s2 := s1.mapFab fun f => { f with
    ownMin := ownMin.toNat
    ownMax := ownMax.toNat
    quiet := s.now
    schema := if f.fid.isNone then ownMax.toNat else f.schema }
  s2.setFld CKP_BOOT_fBOOT_MS (Nat.min 65535 ((s.now - s.pwr.t0) / 1000000))

/-- HEARTH_UP is set, and the RESET event comes before those that have waited (R444). -/
def State.announceReset (s : State) (warm : Bool) : State :=
  let s1 := (s.mapCmds fun c => { c with hearthUp := true, backlog := [] }).post 0x50 [if warm then 1 else 0, 0x10]
  (s1.mapCmds fun c => { c with backlog := c.backlog ++ s.cmds.backlog }).pumpFifo

/-- Doorway channels that the Ehrec enables at start-up. -/
def State.startDoorway (s : State) : State :=
  (s.dwy.filter fun c => dwVal c.2.par 25 == 1).foldl (fun a c => a.setDwyEn c.1 true) s

/-- HEARTH_UP: the image's version and schema range are the operands. -/
def execHearthUp (t : Nat) (version : Word) (ownMin ownMax : Byte) (s0 : State) : Eff :=
  let s := s0.at t
  let warm := s.pwr.st == .warmBoot
  if !warm && s.pwr.st != .cold then .next s
  else
    let s1 := s.wakeStacks
    let s2 := if warm && s.pwr.keep then s1.checkKept.settleWarm else s1
    let s3 := (s2.enterRun warm version ownMin ownMax).announceReset warm
    .next (if warm then s3 else s3.startDoorway).startLinks.fabSettle

end Sys2Proof.Machine
end

