-- ==== Sys2Proof/Machine/Clocks.lean ====
section
/-! DEFINITION. Reference clocks, PLLs, rails and the core voltage (R449, R503, R505 to R511, R528), powered hours (R545), the
I3C address (R496), and the management endpoint's configuration and rings (R434, R547, R549). -/

namespace Sys2Proof.Machine

/-! ## The management endpoint -/

/-- Pending MSI-X messages that may now be sent are sent, the lower vector first (R549). -/
def State.sendMsix (s : State) : State :=
  (List.range 8).foldl (fun a v =>
    if a.ep.pba.contains v then
      (let ep := a.ep
       ({ a with ep := { ep with pba := ep.pba.filter fun i => i != v } }).raise v)
    else a) s

/-- ENDPOINT_CONFIG_WRITE (R547, R549). -/
def execEndpointConfigWrite (mse bme d3hot : Bool) (s : State) : Eff :=
  let ep := s.ep
  .next ({ s with ep := { ep with mse := mse, bme := bme, d3 := d3hot } }).sendMsix

/-- One ring's record replaced. -/
def State.mapRing (s : State) (n : Nat) (f : Ring → Ring) : State :=
  s.mapCmds fun c => { c with rings := c.rings.set n (f (c.rings.getD n {})) }

/-- EN of a ring cleared (R434): slots not yet taken are never executed. -/
def State.ringOff (s : State) (n : Nat) : State := (s.setFld (CMD_RNG_CFG_fEN n) 0).mapRing n fun r => { r with slots := [] }

/-- EN of a ring set: HEAD becomes TAIL, and a stopped ring runs again (R434). -/
def State.ringOn (s : State) (n : Nat) : State :=
  ((s.setFld (CMD_RNG_CFG_fEN n) 1).setFld (CMD_RNG_STAT_fSTOPPED n) 0).mapRing n fun r => { r with head := r.tail, slots := [] }

/-- EN of a ring written: nothing changes while the ring has that value. -/
def State.ringEnable (s : State) (n : Nat) (on : Bool) : State :=
  if on == s.flag (CMD_RNG_CFG_fEN n) then s else if on then s.ringOn n else s.ringOff n

/-! ## Reference clocks (R509 to R511) -/

/-- The root PLL changes to an input. -/
def State.takeClock (s : State) (b : Bool) : State := s.setFld CKP_CLK_STAT_fSEL (b2n b)

/-- The OK bit of an input. -/
def clkOk (b : Bool) : RegF := if b then CKP_CLK_STAT_fB_OK else CKP_CLK_STAT_fA_OK

/-- REFCLK_LOST (R510, R511, R528): failover to the other input if that is valid; both lost is fatal, and before HEARTH_UP the
switch stops in its reset state. -/
def execRefclkLost (b : Bool) (t : Nat) (s0 : State) : Eff :=
  let s := (s0.at t).setFld (clkOk b) 0
  .next (
    if s.pwr.st == .reset || s.flag CKP_CLK_STAT_fSEL != b || !s0.flag (clkOk b) then s
    else if s.flag (clkOk !b) then
      (((s.takeClock !b).setFld CKP_CLK_STAT_fFAIL_SEEN 1).bump CKP_CLK_STAT_fFAIL_CNT).corrected (0x1700 + b2n b) 0 (b2n b)
    else if s.cmds.hearthUp || s.pwr.st == .restart then s.fatal { checker := 0x1700 + b2n b, unit := b2n b }
    else (s.record { checker := 0x1700 + b2n b, cls := 2, unit := b2n b }).coldReset false)

/-- CKP_SWITCH (R511): the other input if it is valid. -/
def State.switchClock (s : State) : State :=
  let other := !s.flag CKP_CLK_STAT_fSEL
  if s.flag (clkOk other) then s.takeClock other else s

def execCkpSwitch (path : Path) (s : State) : Eff := .next (s.regWrite path CKP_CLK_CTL fun a => a.switchClock)

/-- REFCLK_VALID (R509): an input is valid again; a switch that waits for one starts up. -/
def execRefclkValid (b : Bool) (s0 : State) : Eff :=
  let s := s0.setFld (clkOk b) 1
  .next (if s.pwr.st == .reset && s.pwr.released then s.bootCold else s)

/-- Ports with lanes in a lane group. -/
def State.portsIn (s : State) (g : Nat) : List Nat :=
  (List.range 64).filter fun p => s.portExists p && (s.portLanes p).any fun l => l / 8 == g

/-- PLL_LOCK_LOSS (type 18h): the root PLL is fatal; a SerDes PLL takes its lane group's ports down; the MG PLL takes the
management link down, which clears every ring's EN (R549). -/
def execPllLockLoss (pll : Option (BitVec 6)) (t : Nat) (s0 : State) : Eff :=
  let s := s0.at t
  match pll with
  | none => .next ((s.setFld CKP_CLK_STAT_fROOT_LOCK 0).fatal { checker := 0x1800 })
  | some x =>
    let n := x.toNat
    if 32 < n then .next s
    else
      let s1 := s.record { checker := 0x1801 + n, source := if n < 32 then 2 else 0, unit := n % 32 }
      .next (if n = 32 then (List.range 4).foldl (fun a i => a.ringEnable i false) s1
        else (s1.portsIn n).foldl (fun a p => a.linkDown p 1) s1)

/-! ## Rails, core voltage, hours (R503, R505, R506, R545) -/

/-- RAIL_OUT_OF_RANGE (R503): the levels now in range; nothing else acts on it. -/
def execRailOutOfRange (inRange : BitVec 9) (s : State) : Eff :=
  let old := s.fld CKP_RAIL_STAT_fIN_RANGE
  let left := (List.range 9).any fun i => bitOf old i && !inRange.getLsbD i
  let s1 := s.setFld CKP_RAIL_STAT_fIN_RANGE inRange.toNat
  .next (if s.pwr.released && left then s1.setFld CKP_RAIL_STAT_fOUT_SEEN 1 else s1)

/-- The request of R505 for a number of powered hours. -/
def avsTarget (fuse hours : Nat) : Nat :=
  if fuse < 720 || 800 < fuse then 800
  else Nat.min 800 (Nat.max 720 ((fuse + hours / 17532 + 4) / 5 * 5))

/-- One step of at most 5 mV towards a voltage. -/
def avsToward (now target : Nat) : Nat := if now < target then Nat.min target (now + 5) else Nat.max target (now - 5)

/-- AVS_UPDATE (R505, R506): `acked`: one of the three attempts was acknowledged; `differs10ms`: the measured voltage has differed
from the request by more than 25 mV for 10 ms. -/
def execAvsUpdate (acked : Bool) (measured : BitVec 10) (differs10ms : Bool) (s : State) : Eff :=
  .next (
    if !s.flag CKP_AVS_fEN || s.pwr.st == .reset || s.pwr.st == .recovery || s.pwr.st == .restart then s
    else
      let s1 := s.setFld CKP_AVS_STAT_fMEAS_MV measured.toNat
      let fails := !s.pwr.avsFail && (!acked || differs10ms)
      let s2 := if fails then
          ((s1.setFld CKP_AVS_STAT_fBUS_ERR 1).mapPwr fun p => { p with avsFail := true }).record { checker := 0x4f00 }
        else s1
      let mv := if s2.pwr.avsFail then 800
        else avsToward (s.fld CKP_AVS_STAT_fREQ_MV) (avsTarget Config.fuseMv.toNat (Config.hours + s.pwr.hours))
      (s2.setFld CKP_AVS_STAT_fREQ_MV mv).emit (.avs mv))

/-- POWERED_HOUR (R149, R529, R545). -/
def execPoweredHour (s : State) : Eff :=
  .next ((s.mapPwr fun p => { p with hours := p.hours + 1 }).mapPan fun p => { p with calHours := p.calHours + 1 })

/-- I3C_DYNAMIC_ADDRESS (R496): until the next reset the switch is an I3C target at this address. -/
def execI3cDynamicAddress (addr : BitVec 7) (s : State) : Eff := .next (s.mapPwr fun p => { p with i3c := some addr.toNat })

end Sys2Proof.Machine
end

