-- ==== Sys2Proof/Machine/Coherence.lean ====
section
/-! DEFINITION. The rows of the home units: grants of CXL.mem messages, memory responses, timeouts, the scrub, ageing and
the HBM arbiters (spec/03, spec/04, spec/06). -/

namespace Sys2Proof.Machine

/-- The check of a home unit's tracker state (type 08h of R449), made when the answer to a snoop or a memory response reads its
entry (log 212): true means uncorrectable. -/
def State.trkCheck (s : State) (hu : Nat) : Bool × State :=
  s.checkRetry { checker := 0x0800 + hu, source := srcHome, unit := hu }

/-- An uncorrectable tracker entry is fatal. -/
def State.trkFatal (s : State) (hu : Nat) : State :=
  s.fatal { checker := 0x0800 + hu, source := srcHome, unit := hu, injected := true }

/-- The forced unbinds of R96 that nothing holds any longer are ended (R54 steps 4 and 5). -/
def State.removeFailed (s : State) : State :=
  let due := s.pool.wins.flatMap fun w => (w.2.binds.filter fun b => b.r96 && b.removed).map fun b => (w.1, b.host)
  due.foldl (fun a d => a.unbind5 d.1 d.2) s

/-- The grant row of one kind of snoop answer: the entry that it answers is read and checked. -/
def State.answerRow (s0 : State) (hu : Nat) (plane : Bool) (t : Nat) (k : MKind → Bool) : State :=
  let s := s0.at t
  match s.pick hu plane with
  | none => s
  | some v =>
    if k v.m.kind then
      let (bad, a) := s.trkCheck hu
      if bad then a.trkFatal hu else ((a.countsGrant hu plane v).grantMsg v hu).removeFailed
    else s

/-- MEMRD (R113): the arbiter's choice, if it is a MemRd, is granted. -/
def execMemrd (hu : Hu) (plane : Bool) (t : Nat) (s : State) : Eff := .next (s.grantRow hu.toNat plane t (· == .memRd))
/-- MEMRDDATA (R105, R113). -/
def execMemrddata (hu : Hu) (plane : Bool) (t : Nat) (s : State) : Eff :=
  .next (s.grantRow hu.toNat plane t (· == .memRdData))
/-- MEMINV (R113). -/
def execMeminv (hu : Hu) (plane : Bool) (t : Nat) (s : State) : Eff := .next (s.grantRow hu.toNat plane t (· == .memInv))
/-- MEMINVNT (R113). -/
def execMeminvnt (hu : Hu) (plane : Bool) (t : Nat) (s : State) : Eff := .next (s.grantRow hu.toNat plane t (· == .memInvNT))
/-- MEMSPECRD (R107). -/
def execMemspecrd (hu : Hu) (plane : Bool) (t : Nat) (s : State) : Eff :=
  .next (s.grantRow hu.toNat plane t (· == .memSpecRd))
/-- MEMWR (R113). -/
def execMemwr (hu : Hu) (plane : Bool) (t : Nat) (s : State) : Eff := .next (s.grantRow hu.toNat plane t (· == .memWr))
/-- MEMWRPTL (R113). -/
def execMemwrptl (hu : Hu) (plane : Bool) (t : Nat) (s : State) : Eff := .next (s.grantRow hu.toNat plane t (· == .memWrPtl))
/-- BIRSPI (R114). -/
def execBirspi (hu : Hu) (plane : Bool) (t : Nat) (s : State) : Eff := .next (s.answerRow hu.toNat plane t (· == .biRspI))
/-- BIRSPS (R114, R115). -/
def execBirsps (hu : Hu) (plane : Bool) (t : Nat) (s : State) : Eff := .next (s.answerRow hu.toNat plane t (· == .biRspS))
/-- BIRSPE (R114, R115). -/
def execBirspe (hu : Hu) (plane : Bool) (t : Nat) (s : State) : Eff := .next (s.answerRow hu.toNat plane t (· == .biRspE))
/-- BICONFLICT (R117). -/
def execBiconflict (hu : Hu) (plane : Bool) (t : Nat) (s : State) : Eff :=
  .next (s.answerRow hu.toNat plane t (· == .biConflict))

/-- The notice of a response that FLIT_RECEIVED has raised leaves the Vestibule with its response (R162, R164). -/
def State.takeNotice (s : State) (r : MemReq) : State :=
  match s.home.vst.find? fun v => (v.cls == .mrsp || v.cls == .cmp) && (match v.dst with | .home _ => true | _ => false)
      && v.m.tag.toNat == r.id % 65536 with
  | some v => s.leave v
  | none => s

/-- The message of a response at a home unit that answers no open request. -/
def State.strayMsg (s : State) (req : Nat) : Option (VMsg × Nat) :=
  s.home.vst.findSome? fun v => match v.cls, v.dst with
    | .mrsp, .home hu | .cmp, .home hu => if v.m.tag.toNat == req % 65536 then some (v, hu) else none
    | _, _ => none

/-- MEMORY_RESPONSE (R114, R119): the response of an outstanding request. One for a slot in quarantine is violation 0Bh of the
port (R334); any other that matches no open request is violation 0Ch (R118). -/
def execMemoryResponse (req : Nat) (rsp : DevRsp) (t : Nat) (s0 : State) : Eff :=
  let s := s0.at t
  match s.home.memq.find? fun r => r.id == req && r.sent with
  | some r =>
    let (bad, a) := s.trkCheck r.hu
    .next (if bad then a.trkFatal r.hu else ((a.takeNotice r).memResp r rsp).removeFailed)
  | none =>
    match s.ports.st.find? fun p => p.2.quar.contains req with
    | some p =>
      -- violation 0Bh: discarded, the quarantine slot is freed (R333)
      .next ((((s.mapPort p.1 fun x => { x with quar := x.quar.filter (· != req) }).bump (PRT_PV_STAT_fPV_CNT p.1)).setFld
        (PRT_PV_STAT_fPV_SEEN p.1) 1).record { checker := 0x4100, source := srcPort, unit := p.1, tag := req, payload := 11 }).pumpDev
    | none =>
      match s.strayMsg req with
      | some (v, hu) => .next (s.strayResp v hu)
      | none => .next s

/-- SNOOP_TIMEOUT (R95, R96): a host that has not answered within the snoop timeout is treated as having answered BIRspI. -/
def execSnoopTimeout (hu : Hu) (trk : Nat) (host : Fid) (t : Nat) (s0 : State) : Eff :=
  let s := s0.at t
  match s.trk? trk with
  | none => .next s
  | some x =>
    match x.snoops.find? fun y => y.host == host.toNat with
    | none => .next s
    | some y =>
      if x.hu == hu.toNat && s.fld (HSL_SNP_CFG_fSNP_TMO hu.toNat) * 1000 ≤ s.now - y.t0 then
        let (bad, a) := s.trkCheck x.hu
        .next (if bad then a.trkFatal x.hu else ((a.failSnoop x host.toNat).advance trk).run.removeFailed)
      else .next s

/-- INTERNAL_RETRY (R71): a NAKed internal request is offered again once its delay has passed. -/
def execInternalRetry (req : Nat) (t : Nat) (s0 : State) : Eff :=
  let s := s0.at t
  match s.home.intq.find? fun r => r.id == req && r.next ≤ s.now with
  | some r => .next (s.askInt r)
  | none => .next s

/-- An uncorrectable HBM entry that the scrub meets (R99 to R101). -/
def State.dirUe (s : State) (hu set way : Nat) (trusted inj : Bool) : State := (s.dirBad hu set way trusted inj).run

/-- Command, address and write-data parity of an HBM channel (type 0Dh of R449): the access is reissued up to four times, and if
none is clean the stack is lost, as type 0Eh. -/
def State.hbmParity (s : State) (stack k : Nat) : Bool × State :=
  let r : Report := { checker := 0x0d00 + k, source := 12, unit := stack + 16 * (k % 16), injected := true }
  let (seen, s1) := s.check1 r.checker 1 false
  if seen == .clean then (false, s1)
  else
    let (bad, s2) := (List.range 4).foldl (fun (a : Bool × State) _ =>
      if a.1 then
        let (x, b) := (a.2.bump (HBM_ECC_fPAR_CNT stack)).check1 r.checker 1 false
        (x != .clean, b)
      else a) (true, s1)
    if bad then (true, (s2.setFld (HBM_STK_STAT_fLOST stack) 1).fatal r)
    else (false, s2.record { r with cls := 0, transient := true })

/-- DIRECTORY_SCRUB (R101): the next set of the unit is read; `e` is the error that a way shows: the way, whether it is
uncorrectable, whether its tag is trusted. An armed checker strikes the lowest way (R463). -/
def execDirectoryScrub (hu : Hu) (e : Option (BitVec 4 × Bool × Bool)) (s : State) : Eff :=
  let h := hu.toNat
  if !s.flag (HSL_SCRUB_CFG_fEN h) then .next s
  else
    let set := (NMap.get? s.home.scrub h).getD 0
    let s1 := s.mapHome fun x => { x with scrub := NMap.set x.scrub h ((set + 1) % 524288) }
    let (lost, s1) := s1.hbmParity (huStack h) (16 * huStack h +
      (Config.hbmChannel (huStack h) (huPos h * 0x8000000 + set * 256)).toNat)
    if lost then .next s1 else
    let (sn, s2) := s1.check1 (0x0a00 + h) 8 true
    let (again, s3) := if sn == .clean then (Seen.clean, s2) else s2.check1 (0x0a00 + h) 8 true
    let s4 := if sn == .clean then s3
      else match again with
        | .clean => s3.dirCe h (0x0a00 + h) true false
        | .ce => s3.dirCe h (0x0a00 + h) true true
        | .ue => s3.dirUe h set 0 true true
    match e with
    | none => .next s4
    | some (way, ue, trusted) =>
      .next (if ue then s4.dirUe h set way.toNat trusted false else s4.dirCe h (0x0a00 + h) false false)

/-- AGEING_SWEEP (R182): every REQ-class message that has reached the age limit is discarded. -/
def execAgeingSweep (t : Nat) (s0 : State) : Eff :=
  let s := s0.at t
  let s1 := (s.home.vst.filter s.aged).foldl (fun a v => a.discard v 0x4300) s
  .next ((s.home.egress.filter fun e => match s.sentOn e with | some v => s.aged v | none => false).foldl (fun a e => a.failSentOn e) s1)

/-- A body with its data poisoned; none: it carries no data. -/
def Body.poisoned : Body → Option Body
  | .memData host tag d _ load => some (.memData host tag d true load)
  | .ioCpl host tag st d _ => if d.isEmpty then none else some (.ioCpl host tag st d true)
  | .devReq req dpa (some w) _ => some (.devReq req dpa (some w) true)
  | .remReq req sw a (some w) _ => some (.remReq req sw a (some w) true)
  | _ => none

/-- Beat parity of a home unit's message that has crossed to port `p` (type 06h of R449): a data beat is poisoned and carried on, a
header beat is fatal. -/
def State.egressBeat (s : State) (p : Nat) (e : EMsg) : State :=
  if e.src < 64 then s
  else
    let hu := e.src - 64
    let r : Report := { checker := xbarChecker hu e.plane, source := srcHome, unit := hu, injected := true }
    let (seen, s1) := s.check1 r.checker 1 false
    if seen == .clean then s1
    else match e.body.poisoned with
      | some b => ({ s1 with out := s1.out.map fun o => if o == Out.send p e.body then Out.send p b else o }).record { r with cls := 1 }
      | none => s1.fatal r

/-- EGRESS_DEQUEUE (R233). -/
def execEgressDequeue (port : Port) (t : Nat) (s0 : State) : Eff :=
  let p := port.toNat
  let s := s0.at t
  let s1 := s.egressSlot p
  .next (match s.home.egress.find? fun e => e.port == p && !(s1.home.egress.any fun x => x.id == e.id) with
    | some e => s1.egressBeat p e
    | none => s1)

/-- HBM_REFRESH (R190 to R192): refresh takes the channel at a beat boundary, from a locked sequence too, which keeps its place and its
lock; when refresh ends that sequence goes on first, then those that waited are granted, the debug port before the others. -/
def execHbmRefresh (stack : Stack) (channel : BitVec 4) (start : Bool) (s : State) : Eff :=
  let k := stack.toNat * 16 + channel.toNat
  let s1 := s.mapHome fun h => { h with
    refresh := if start then (if h.refresh.contains k then h.refresh else k :: h.refresh) else h.refresh.filter (· != k) }
  .next (if start then s1.countArb 2 k 10 [] else State.hbmDrain k (s1.hchan k).wait.length s1)

/-- Is a lock of a kind held: 0 a directory set and 1 a Pantry line at HBM channel `inst`, 2 a message of several beats at crossbar
attachment `inst` (R190)? -/
def State.lockHeld (s : State) (kind inst : Nat) : Bool :=
  if kind = 2 then s.home.xlock.contains inst
  else match (s.hchan inst).cur with
    | some q => q.lock == some kind
    | none => false

/-- A lock released: the owner's remaining beats go on without it. -/
def State.unlock (s : State) (kind inst : Nat) : State :=
  s.mapHome fun h =>
    if kind = 2 then { h with xlock := h.xlock.filter (· != inst) }
    else { h with hbm := NMap.adjust h.hbm inst fun c => { c with cur := c.cur.map fun q => { q with lock := none } } }

/-- LOCK_OVERRUN (R193): a lock that is still held at the bound is released, counted, and recorded as a contained fault of the owning
unit. -/
def execLockOverrun (kind : BitVec 2) (inst : Byte) (hu : Hu) (s : State) : Eff :=
  if !s.lockHeld kind.toNat inst.toNat then .next s else
  let s1 := ((s.unlock kind.toNat inst.toNat).bump XBR_LOCK_STAT_fOVR_CNT).setFld XBR_LOCK_STAT_fOVR_SEEN 1
  .next (s1.record { checker := 0x4600, source := srcHome, unit := hu.toNat, payload := kind.toNat + inst.toNat * 256 })

/-- ARB_COUNTER_CLEAR (R195): a write of XBR_ARB_CTL with CLR set clears every arbiter counter; CNT_EN takes its bit. -/
def execArbCounterClear (value : Word) (s : State) : Eff :=
  let s1 := s.setFld XBR_ARB_CTL_fCNT_EN (value.toNat % 2)
  .next (if bitOf value.toNat 1 then s1.mapHome fun h => { h with arb := [] } else s1)

end Sys2Proof.Machine
end

