-- ==== Sys2Proof/Machine/Firmware.lean ====
section
/-! DEFINITION. Firmware and the Ehrec board image in the boot flash (R516 to R523, R438 group 0Bxxh), and the restart of the
Hearth (R394, R520). -/

namespace Sys2Proof.Machine

/-- Boot-flash base of a slot: Indigo or Madder (R516). -/
def slotBase (b : Bool) : Nat := flashAddr (if b then 0x04100000 else 0x00100000)

def State.slotOf (s : State) (b : Bool) : FwSlot := if b then s.pwr.slot1 else s.pwr.slot0

def State.mapSlot (s : State) (b : Bool) (f : FwSlot → FwSlot) : State :=
  s.mapPwr fun p => if b then { p with slot1 := f p.slot1 } else { p with slot0 := f p.slot0 }

/-- Is a slot the running one? In recovery none is. -/
def State.running (s : State) (b : Bool) : Bool := s.pwr.st != BootSt.recovery && s.pwr.slot == b

def State.slotBytes (s : State) (b : Bool) : List Byte :=
  let x := s.slotOf b
  leBytes 4 x.version ++ leBytes 1 x.ownMin ++ leBytes 1 x.ownMax ++ leBytes 1 (b2n x.verified) ++ leBytes 1 (b2n (s.running b))

/-- FW_QUERY. -/
def cmdFwQuery : Cmd :=
  { opcode := 0x0b01, run := fun s => .ok (s.slotBytes false ++ s.slotBytes true ++ leBytes 4 s.pwr.ehrecVer) s }

def execFwQuery (h : Hdr) (s : State) : Eff := s.dermel h cmdFwQuery

/-- FW_WRITE: what the slot holds is no longer known to be valid until FW_VERIFY. -/
def cmdFwWrite (bank : Bool) (off : Nat) (data : List Byte) : Cmd :=
  { opcode := 0x0b02, bank := true
    bad := fun _ => firstBad [(0x4000000 < off + data.length, 0), (4056 < data.length, 4)]
    run := fun s =>
      if s.running bank then .refuse .conflict 0
      else .ok [] ({ s with mem := Memory.writeBytes s.mem (slotBase bank + off) data }.mapSlot bank fun x =>
        { x with valid := false, verified := false }) }

def execFwWrite (h : Hdr) (off : Word) (data : List Byte) (s : State) : Eff := s.dermel h (cmdFwWrite h.bank off.toNat data)

/-- FW_VERIFY (R517): the check ends by COMMAND_COMPLETION. -/
def cmdFwVerify (bank : Bool) : Cmd := { opcode := 0x0b03, bank := true, run := fun s => .pending (.fwVerify bank) [] s }

def execFwVerify (h : Hdr) (s : State) : Eff := s.dermel h (cmdFwVerify h.bank)

/-- The Hearth restarts from the preferred slot; a Ridge hands over first, to the switch that R375 would then choose (R379,
R520). -/
def State.restartFw (s : State) : State :=
  match s.isRidge, s.nextKey s.me with
  | true, some b => s.replicateTo b (.handover b)
  | _, _ => s.restartHearth

/-- FW_ACTIVATE. -/
def cmdFwActivate (bank : Bool) : Cmd :=
  { opcode := 0x0b04, bank := true
    run := fun s =>
      if !(s.slotOf bank).verified then .refuse .badParam 0xFFFF
      else if !s.cmds.pend.isEmpty then .refuse .busy 0
      else .pending .fwActivate [] (s.mapPwr fun p => { p with preferred := bank, previous := some p.slot }).restartFw }

def execFwActivate (h : Hdr) (s : State) : Eff := s.dermel h (cmdFwActivate h.bank)

/-- EHREC_WRITE (R523): the copy that is not active. -/
def cmdEhrecWrite (off : Nat) (data : List Byte) : Cmd :=
  { opcode := 0x0b05
    bad := fun _ => firstBad [(0x100000 < off + data.length, 0), (4056 < data.length, 4)]
    run := fun s => .ok [] ({ s with mem := Memory.writeBytes s.mem (copyBase (!s.pwr.copy) + off) data }.mapPwr fun p => { p with ehNew := true }) }

def execEhrecWrite (h : Hdr) (off : Word) (data : List Byte) (s : State) : Eff := s.dermel h (cmdEhrecWrite off.toNat data)

/-- EHREC_READ: bytes of the image in force; a range beyond it is BAD_PARAM. -/
def cmdEhrecRead (off len : Nat) : Cmd :=
  { opcode := 0x0b06
    bad := fun s => firstBad [(s.pwr.ehrec.length < off + len, 0), (4064 < len, 4)]
    run := fun s => .ok ((s.pwr.ehrec.drop off).take len) s }

def execEhrecRead (h : Hdr) (off len : Word) (s : State) : Eff := s.dermel h (cmdEhrecRead off.toNat len.toNat)

/-! ## The restart's end (R394, R520) -/

/-- FIRMWARE_FALLBACK (R520): no HEARTH_UP within 2 s; the hardware restarts the Hearth from the previous slot, which is preferred
again. -/
def execFirmwareFallback (t : Nat) (s0 : State) : Eff :=
  let s := s0.at t
  match s.pwr.st, s.pwr.previous with
  | .restart, some b =>
    if s.now < s.pwr.t0 + 2000000000 then .next s
    else .next ((s.mapPwr fun p => { p with slot := b, preferred := b, previous := none, t0 := s.now }).finishWork .fwActivate .faulted [])
  | _, _ => .next s

/-- A warm reset that has waited for the Hearth's restart begins (R528). -/
def State.resumeWarm (s : State) : State :=
  match s.pwr.warmWait with
  | some c => if s.pwr.st == .restart || s.warmWaits then s else s.startWarm c
  | none => s

/-- The running image's schema range after a restart (R390, R394). -/
def State.adoptRange (s : State) : State :=
  let x := s.slotOf s.pwr.slot
  s.mapFab fun f => { f with
    ownMin := x.ownMin, ownMax := x.ownMax, restarting := none, schema := if f.fid.isNone then x.ownMax else f.schema }

/-- A flush record that waited for the Hearth written (R528). -/
def State.payRecord (s : State) : State :=
  match s.pan.recOwed with
  | some v => (s.mapPan fun p => { p with recOwed := none }).record { checker := 0x4800, source := 13, payload := v }
  | none => s

end Sys2Proof.Machine
end

