-- ==== Sys2Proof/Machine/RegWrite.lean ====
section
/-! DEFINITION. Register accesses through BAR0 (R12 to R16, R549 to R556): what a write of each register does. -/

namespace Sys2Proof.Machine

/-- One field of a stored register after a write of a word (R13): a value outside its range leaves it (R556). -/
def FieldDef.written (f : FieldDef) (old v : Nat) : Nat :=
  let x := bitsOf v f.lo f.w
  let was := bitsOf old f.lo f.w
  match f.acc with
  | .rw | .rws | .rwb | .rw1 => if f.min ≤ x && x ≤ f.max then putBits old f.lo f.w x else old
  | .w1c => putBits old f.lo f.w (was - (was &&& x))
  | .w1s => putBits old f.lo f.w (was ||| x)
  | .ro | .wo | .rc => old

/-- The writable fields of a register stored. -/
def State.storeWord (s : State) (off : Nat) (d : RegDef) (v : Nat) : State :=
  s.setReg off (BitVec.ofNat 32 (d.fields.foldl (fun r f => f.written r v) (s.reg off).toNat))

/-- CMD_RNG_BASE: ignored while EN is 1; bits [12:0] of the low half must be 0, else the half keeps its value (R445, R556). -/
def State.writeRingBase (s : State) (off v : Nat) : State :=
  let n := (off - 0x10100) / 0x20
  if s.flag (CMD_RNG_CFG_fEN n) || (off % 0x20 == 0 && v % 8192 != 0) then s else s.setReg off (BitVec.ofNat 32 v)

/-- CMD_RNG_CFG: SIZE stays while EN is 1 (R445). -/
def State.writeRingCfg (s : State) (n v : Nat) : State :=
  let size := bitsOf v 4 4
  let s1 := (s.setFld (CMD_RNG_CFG_fIRQ_EN n) (v / 2)).setFld (CMD_RNG_CFG_fROOM_LOCK n) (v / 256)
  let s2 := if s.flag (CMD_RNG_CFG_fEN n) || size < 4 || 12 < size then s1 else s1.setFld (CMD_RNG_CFG_fSIZE n) size
  s2.ringEnable n (bitOf v 0)

/-- PRT_LINK_CTL (R310): DISABLE, then RETRAIN, then HOT_RESET. -/
def State.writeLinkCtl (s : State) (p v : Nat) : State :=
  let s1 := if bitOf v 1 == s.flag (PRT_LINK_CTL_fDISABLE p) then s else s.setDisable p (bitOf v 1)
  let s2 := if bitOf v 0 && s1.inL0 p then s1.recover p else s1
  if bitOf v 2 then s2.sendHotReset p else s2

/-- A write of one register: its fields, and the actions that it triggers. -/
def State.writeReg (s : State) (off : Nat) (w : Word) : State :=
  let v := w.toNat
  if 0x8000 ≤ off && off < 0x8080 then (s.setReg off (if off % 16 = 12 then w &&& 1 else w)).sendMsix
  else match regAt off with
    | none => s
    | some d =>
      let st := s.storeWord off d v
      if d.base = 0x10018 then if bitOf v 0 then s.flushEvents else s
      else if d.base = 0x10100 || d.base = 0x10104 then s.writeRingBase off v
      else if d.base = 0x10108 then s.writeRingCfg ((off - 0x10108) / 0x20) v
      else if d.base = FLT_INJ_CTL then
        let a := s.writeArm (v % 65536) (bitsOf v 16 2)
        if bitOf v 18 then a.setFld FLT_INJ_CTL_fFIRED 0 else a
      else if d.base = 0x4800c then
        let n := (off - 0x4800c) / 0x100
        let a := if bitOf v 1 == s.flag (STW_LNK_CTL_fDISABLE n) then s else s.setStwDisable n (bitOf v 1)
        if bitOf v 0 then a.wantRetrain (100 + n) 3 else a
      else if d.base = DWY_CTL then st.pumpRamps
      else if d.base = 0x51000 then s.setDwyEn ((off - 0x51000) / 0x40) (bitOf v 0)
      else if d.base = MOV_CTL then if s.enabledChans = 0 then st else st.setFld MOV_CTL_fMODE (s.fld MOV_CTL_fMODE)
      else if d.base = 0x61000 then
        let n := (off - 0x61000) / 0x40
        let a := s.setChanEn n (bitOf v 0)
        if bitOf v 1 then a.resumeChan n (bitsOf v 2 2) else a
      else if d.base = 0x80048 || d.base = 0x8004c then
        if bitsOf v 0 25 < 4096 || 16777216 < bitsOf v 0 25 then s else st.fillBuckets ((off - 0x80000) / 0x400)
      else if d.base = XBR_ARB_CTL then if bitOf v 1 then st.mapHome fun h => { h with arb := [] } else st
      else if d.base = 0x100010 then s.setFreeze ((off - 0x100000) / 0x1000) (bitOf v 0)
      else if d.base = 0x200000 then
        let p := (off - 0x200000) / 0x1000
        if 4 < bitsOf v 8 3 || s.portWidth p < widthLanes (bitsOf v 8 3) then st.setFld (PRT_CFG_fMIN_WIDTH p) (s.fld (PRT_CFG_fMIN_WIDTH p)) else st
      else if d.base = 0x200004 then s.writeLinkCtl ((off - 0x200000) / 0x1000) v
      else if d.base = CKP_RESET_CTL then s.writeReset w
      else if d.base = CKP_CLK_CTL then
        let a := s.mapPwr fun p => { p with prefer := bitOf v 0 }
        if bitOf v 1 then a.switchClock else a
      else st

/-- Is an access to BAR0 one that R12 permits? -/
def goodAccess (off size : Nat) : Bool := size == 4 && off % 4 == 0

/-- REGISTER_WRITE (R12, R13, R556): a write of BAR0 on a path. -/
def execRegisterWrite (path : Path) (off : Nat) (size : Nat) (value : Word) (s : State) : Eff :=
  .next (s.regWrite path off fun a => if goodAccess off size then a.writeReg off value else a.badAccess path off)

/-- LO_READ_LATCH (R12, R13, R15, R552): a read of BAR0 on a path. -/
def execLoReadLatch (path : Path) (off : Nat) (size : Nat) (s : State) : Eff :=
  .next (
    if path == .endpoint && (!s.ep.mse || s.ep.d3) then s.emit (.unsupported path)
    else if !goodAccess off size then s.badAccess path off
    else
      let (w, a) := s.regRead path off
      a.emit (.value path [w]))

end Sys2Proof.Machine
end

