-- ==== Sys2Proof/Machine/Debug.lean ====
section
/-! DEFINITION. The debug master (R469, R474 to R479): accesses of REG, POOL and HBM space, and their refusals. -/

namespace Sys2Proof.Machine

/-! ## Raw HBM (R133 to R135, R138, R140) -/

/-- The home unit whose directory holds a stack address. -/
def dirHome (stack a : Nat) : Nat := 16 * (stack / 2) + 2 * (a / 0x8000000) + stack % 2

/-- The key of the directory entry at a stack address below 4000_0000h (R79, R134). -/
def dirKeyAt (stack a : Nat) : Nat :=
  let i := a % 0x8000000 / 16
  dirKey (dirHome stack a) (i / 16) (i % 16)

/-- The key of the Pantry tag at a stack address, if a Pantry unit has a tag there (R138). -/
def State.tagKeyAt (s : State) (stack a : Nat) : Option Nat :=
  if a < 0x60000000 then none
  else
    let x := a - 0x60000000
    let u := x / 0x20000000
    let off := x % 0x4000000
    if s.panUnits ≤ u || off < 0x3800000 || 0x3f00000 ≤ off then none
    else
      let i := (off - 0x3800000) / 8
      let hu := 16 * (stack / 2) + 2 * (x % 0x20000000 / 0x4000000) + stack % 2
      some (panKey hu (u * 57344 + i / 16) (i % 16))

/-- The 64-bit image of a Pantry tag (R140). -/
def tagImage (t : Option PTag) : Nat :=
  let v := match t with
    | some x => packBits [(x.line, 42), (1, 1), (b2n x.d, 1), (x.room, 6), (x.repl, 4)]
    | none => 0
  v + (Config.secDed v).toNat * 2 ^ 56

/-- A tag from its image; none where V is 0. -/
def tagOf (v : Nat) : Option PTag :=
  if bitOf v 42 then some { line := bitsOf v 0 42, d := bitOf v 43, room := bitsOf v 44 6, repl := bitsOf v 50 4 } else none

/-- A directory entry from its image (R79); the check bits are computed again when it is read (log 83). -/
def dirOf (v : Nat) : DEnt :=
  { tag := bitsOf v 0 23, room := bitsOf v 23 6, st := bitsOf v 29 2, fmt := bitOf v 31, sharers := bitsOf v 32 48
    nsh := bitsOf v 80 3, pending := bitOf v 83, repl := bitsOf v 84 4 }

/-- Byte `i` of a number. -/
def byteOf (v i : Nat) : Byte := BitVec.ofNat 8 (v / 256 ^ i)

/-- One byte of a stack: directory entries, the copy of the extent map, the overflow log, Pantry tags, else what the memory
holds. -/
def State.hbmByte (s : State) (stack a : Nat) : Byte :=
  if a < 0x40000000 then byteOf (s.dirEnt (dirKeyAt stack a)).image (a % 16)
  else if stack = 1 && a < 0x41000000 then
    let e := s.ext ((a - 0x40000000) / 16)
    byteOf (if e = Ext.zero then 0 else e.image) (a % 16)
  else if stack = 1 && a < 0x41400000 then (s.logRecordBytes ((a - 0x41000000) / 64)).getD (a % 64) 0
  else match s.tagKeyAt stack a with
    | some k => byteOf (tagImage (NMap.get? s.pan.tags k)) (a % 8)
    | none => Memory.read s.mem (hbmAddr stack a)

/-- One aligned word written raw. The copies that the Hearth and the Attic keep in the system reserve are not changed
(log 83). -/
def State.hbmPoke (s : State) (stack a v : Nat) : State :=
  if a < 0x40000000 then
    let k := dirKeyAt stack a
    s.setDir k (dirOf (putBits (s.dirEnt k).image (8 * (a % 16)) 32 v))
  else match s.tagKeyAt stack a with
    | some k =>
      let v1 := putBits (tagImage (NMap.get? s.pan.tags k)) (8 * (a % 8)) 32 v
      s.mapPan fun p => { p with tags := match tagOf v1 with | some t => NMap.set p.tags k t | none => NMap.erase p.tags k }
    | none => { s with mem := Memory.writeBytes s.mem (hbmAddr stack a) (leBytes 4 v) }

/-! ## Parts of an access (R474, R477, R478) -/

/-- How one part ends. -/
inductive PartRes where
  | done (bs : List Byte)
  /-- Refused: reason of R478, local Room. -/
  | refused (reason room : Nat)
  | failed (st : Status)
deriving DecidableEq, Repr

/-- One line of a POOL access (R475): an internal request of Room 0; a NAK ends it with BUSY, since a command is one step. -/
def State.dbgLine (s : State) (w line : Nat) (wr : Option (Line × B64)) (dev : List DevRsp) :
    Except Status Line × List DevRsp × State :=
  let (ok, s1) := s.checkExt w line
  let e := s1.ext (line / 2 ^ 22)
  let gone := match s1.win? w with | some x => x.failed | none => true
  if !ok || gone then (.error .faulted, dev, s1)
  else if (if wr.isSome then (e.write? line).isNone else (e.read? line).isNone) then (.error .faulted, dev, s1.refusedExt w line 0)
  else
    let (k, s2) := s1.fresh1
    let s3 := s2.askInt { id := k, room := 0, line := line, win := w, wr := wr }
    if s3.home.intq.any fun r => r.id == k then
      (.error .busy, dev, s3.mapHome fun h => { h with intq := h.intq.filter fun r => r.id != k })
    else
      let (d1, s4) := State.pumpInt 8 s3 k dev
      match s4.takeInt k with
      | (some (d, poison, refused), s5) => (if refused || (poison && wr.isNone) then .error .faulted else .ok d, d1, s5)
      | (none, _) => (if wr.isSome then .ok 0 else .error .busy, d1, s4)

/-- The lines of one part of a POOL access, `n` at most: bytes from `addr` up to `stop`. -/
def State.dbgLines : Nat → State → Nat → Nat → Nat → Option Word → List DevRsp → List Byte → PartRes × List DevRsp × State
  | 0, s, _, _, _, _, dev, bs => (.done bs, dev, s)
  | n + 1, s, w, addr, stop, wr, dev, bs =>
    if stop ≤ addr then (.done bs, dev, s)
    else
      let line := addr / 64
      let off := addr % 64
      let next := Nat.min stop (line * 64 + 64)
      let data := wr.map fun v => lineSet off 4 v.toNat
      match s.dbgLine w line data dev with
      | (.error st, d1, s1) => (.failed st, d1, s1)
      | (.ok l, d1, s1) => State.dbgLines n s1 w next stop wr d1 (bs ++ (lineBytes l).drop off |>.take (bs.length + (next - addr)))

/-- One part of an access of POOL space: the tests before it is issued, and those at its grant. -/
def State.poolPart (s : State) (addr len : Nat) (wr : Option Word) (dev : List DevRsp) : PartRes × List DevRsp × State :=
  match s.winOfLine (addr / 64) with
  | none => (.failed .badParam, dev, s)
  | some w =>
    match s.win? w with
    | none => (.failed .badParam, dev, s)
    | some x =>
      let isSealed := match s.room? x.room with | some r => r.sealedPage r.bank (addr / 4096) | none => false
      if s.lifecycle == 2 && wr.isSome then (.refused 2 x.room, dev, s)
      else if s.lifecycle != 0 && isSealed then (.refused 1 x.room, dev, s)
      else
        let (perm, s1) := s.ruleCheck (lineHu (addr / 64)) x.room addr .debug { r := wr.isNone, w := wr.isSome }
        if !perm then (.refused 3 x.room, dev, s1.denyNote x.room addr .debug (if wr.isSome then 7 else 6))
        else s1.dbgLines 65 w addr (addr + len) wr dev []

/-- Is an address one of the parts of the system reserve that the Hearth and the Mover write (R135, R159)? The spec does not lay out
what they hold: reading them gives free values (log 229). -/
def hearthOwn (stack a : Nat) : Bool := 0x40000000 ≤ a && a < 0x60000000 && (stack != 1 || 0x41400000 ≤ a)

/-- One part of an access of HBM space (R469, R472, R476): the debug port asks the channel for each beat of 64 bytes. -/
def State.hbmPart (s : State) (addr len : Nat) (wr : Option Word) : PartRes × State :=
  let stack := addr / 2 ^ 35
  let a := addr % 2 ^ 35
  if 4 ≤ stack || 0x600000000 ≤ a then (.failed .badParam, s)
  else if !(s.lifecycle == 0 || (s.lifecycle == 1 && wr.isNone && a < 0x60000000)) then (.refused 2 0, s)
  else if !s.stackUp stack then (.failed .faulted, s)
  else
    let s1 := (List.range ((a + len + 63) / 64 - a / 64)).foldl (fun b i =>
      b.hbmAsk (16 * stack + (Config.hbmChannel stack ((a / 64 + i) * 64)).toNat) { req := 11 }) s
    match wr with
    | some v => (.done [], s1.hbmPoke stack a v.toNat)
    | none =>
      if hearthOwn stack a then
        let (bs, s2) := s1.freeBytes len
        (.done bs, s2)
      else (.done ((List.range len).map fun i => s1.hbmByte stack (a + i)), s1)

/-- What an access has come to: data, the first refusal (reason, address, Room), refused bytes, and the status of a failure. -/
structure DbgAcc where
  data : List Byte := []
  den : Option (Nat × Nat × Nat) := none
  len : Nat := 0
  bad : Option Status := none
deriving DecidableEq, Repr

/-- Bytes up to the next 4 KiB boundary. -/
def toPage (addr len : Nat) : Nat := Nat.min len (4096 - addr % 4096)

/-- The parts of an access in address order, `n` at most; a failure ends it. -/
def State.dbgParts : Nat → State → Space → Nat → Nat → Option Word → List DevRsp → DbgAcc → DbgAcc × State
  | 0, s, _, _, _, _, _, acc => (acc, s)
  | n + 1, s, sp, addr, len, wr, dev, acc =>
    if len = 0 then (acc, s)
    else
      let k := toPage addr len
      let (r, d1, s1) := if sp == .pool then s.poolPart addr k wr dev
        else
          let (r, a) := s.hbmPart addr k wr
          (r, dev, a)
      let zeros : List Byte := List.replicate k 0
      match r with
      | .done bs => State.dbgParts n s1 sp (addr + k) (len - k) wr d1 { acc with data := acc.data ++ bs }
      | .refused reason room =>
        let den := match acc.den with | some x => some x | none => some (reason, addr, room)
        State.dbgParts n s1 sp (addr + k) (len - k) wr d1 { acc with data := acc.data ++ zeros, den := den, len := acc.len + k }
      | .failed st => ({ acc with data := acc.data ++ List.replicate len 0, bad := some st }, s1)

/-- Bytes as 32-bit words, byte 0 lowest. -/
def toWords : Nat → List Byte → List Word
  | 0, _ => []
  | n + 1, bs => if bs.isEmpty then [] else BitVec.ofNat 32 (leNat (bs.take 4)) :: toWords n (bs.drop 4)

/-- Registers read one by one. -/
def State.peekRegs : Nat → State → Path → Nat → List Word × State
  | 0, s, _, _ => ([], s)
  | n + 1, s, path, off =>
    let (w, s1) := s.regRead path off
    let (ws, s2) := State.peekRegs n s1 path (off + 4)
    (w :: ws, s2)

/-- A whole access of the debug master: the words read, the status, and the state. A device of which the command gives no answer
has not answered. -/
def State.debugAccess (s : State) (path : Path) (sp : Space) (addr n : Nat) (wr : Option Word) (dev : List DevRsp) :
    List Word × MonSt × State :=
  let jtag := path == .jtag
  let deny := fun (a : State) (reason at_ len room : Nat) => (a.debugRefuse jtag reason sp wr.isSome at_ len room, MonSt.denied reason at_)
  if n = 0 || 256 < n then ([], .err .badParam, s)
  else match sp with
    | .reg =>
      if addr % 4 != 0 then ([], .err .badParam, s.badAccess path addr)
      else match wr with
        | some v =>
          if s.lifecycle == 2 then
            let (a, st) := deny s 2 addr 4 0
            ([], st, a)
          else ([], .ok, s.writeReg addr v)
        | none =>
          let (ws, a) := State.peekRegs n s path addr
          (ws, .ok, a)
    | _ =>
      if addr % 4 != 0 then ([], .err .badParam, s)
      else
        let (r, a) := State.dbgParts 3 s sp addr (4 * n) wr (dev ++ List.replicate 64 DevRsp.error) {}
        let ws := if wr.isSome then [] else toWords n r.data
        match r.den, r.bad with
        | some (reason, at_, room), _ =>
          let (b, st) := deny a reason at_ r.len room
          (ws, st, b)
        | none, some st => (ws, .err st, a)
        | none, none => (ws, .ok, a)

end Sys2Proof.Machine
end

