-- ==== Sys2Proof/Machine/Monitor.lean ====
section
/-! DEFINITION. The Camey monitor (R468, R470 to R473): its commands, its lines and its receive buffer. -/

namespace Sys2Proof.Machine

/-! ## Answers -/

/-- The monitor serves lines: with the Hearth up, and in recovery (R473, R519). -/
def State.monUp (s : State) : Bool := s.cmds.hearthUp || s.pwr.st == .recovery

def State.mapDbg (s : State) (f : Debug → Debug) : State := { s with dbg := f s.dbg }

/-- An answer: result words, the status line, then the completion events of the monitor's own commands (R471, R473). DESIGN CHOICE
(log 228): an answer is held as its words, not in the text form of R8. -/
def State.monSay (s : State) (ws : List Word) (st : MonSt) : State :=
  let s1 := s.emit (.mon ws st)
  s1.dbg.evs.foldl (fun a e => a.emit (.monEv e)) (s1.mapDbg fun d => { d with evs := [] })

/-- Result of a command: words, status, state. -/
abbrev MonRes := List Word × MonSt × State

/-- The monitor's challenge discarded, as by any command between ADVANCE and CONFIRM (R468). -/
def State.dropChal (s : State) (jtag : Bool) : State :=
  match s.dbg.chal with
  | some (j, _, _) => if j == jtag then s.mapDbg fun d => { d with chal := none } else s
  | none => s

/-- One command of the monitor executed and answered. -/
def State.monRun (s : State) (confirm : Bool) (f : State → MonRes) : State :=
  if !s.monUp then s
  else
    let (ws, st, a) := f (if confirm then s else s.dropChal false)
    a.monSay ws st

/-- A refusal for the lifecycle state: reason 4h (R478). -/
def State.lifeDeny (s : State) : MonRes := ([], .denied 4 0, s.debugRefuse false 4 .reg false 0 0 0)

/-! ## The commands (R472) -/

/-- PEEK. -/
def monPeek (sp : Space) (addr n : Nat) (dev : List DevRsp) (s : State) : MonRes := s.debugAccess .monitor sp addr n none dev

def execPeek (sp : Space) (addr : B64) (n : Nat) (dev : DevData) (s : State) : Eff :=
  .next (s.monRun false (monPeek sp addr.toNat n dev))

/-- POKE; FAULTED in DRAIN and FAULT (R473). -/
def monPoke (sp : Space) (addr : Nat) (v : Word) (dev : List DevRsp) (s : State) : MonRes :=
  if s.draining then ([], .err .faulted, s) else s.debugAccess .monitor sp addr 1 (some v) dev

def execPoke (sp : Space) (addr : B64) (value : Word) (dev : DevData) (s : State) : Eff :=
  .next (s.monRun false (monPoke sp addr.toNat value dev))

/-- ATTIC RING. -/
def monAtticRing (s : State) : MonRes := (toWords 2048 (s.ringRead 0 32).1, .ok, (s.ringRead 0 32).2)

def execAtticRing (s : State) : Eff := .next (s.monRun false monAtticRing)

/-- ATTIC FATAL. -/
def monAtticFatal (s : State) : MonRes := (toWords 64 s.firstBytes, .ok, s.markFirst)

def execAtticFatal (s : State) : Eff := .next (s.monRun false monAtticFatal)

/-- ATTIC LOG. -/
def monAtticLog (off len : Nat) (s : State) : MonRes :=
  if 0x400000 < off + len || 4064 < len then ([], .err .badParam, s)
  else (toWords 1024 (s.logBytes off len), .ok, s.markRead off len)

def execAtticLog (off len : Word) (s : State) : Eff := .next (s.monRun false (monAtticLog off.toNat len.toNat))

/-- Counters printed: the registers as they stand. -/
def monRegs (ok : Bool) (offs : List Nat) (s : State) : MonRes :=
  if ok then (offs.map s.view, .ok, s) else ([], .err .badParam, s)

/-- STATS PORT (R301). -/
def monStatsPort (p : Nat) : State → MonRes := monRegs (decide (p < 64)) [PRT_LINK_EVT p, PRT_REC_CNT p, PRT_FLIT_ERR p]

def execStatsPort (p : Byte) (s : State) : Eff := .next (s.monRun false (monStatsPort p.toNat))

/-- STATS LANE (R301). -/
def monStatsLane (n : Nat) : State → MonRes := monRegs (decide (n < 256)) [LNG_LANE_ERR (n / 8) (n % 8)]

def execStatsLane (n : Byte) (s : State) : Eff := .next (s.monRun false (monStatsLane n.toNat))

/-- STATS OPF (R366). -/
def monStatsOpf (m : Nat) : State → MonRes := monRegs (decide (m < 49)) [OPF_MOD_ERR m, OPF_MOD_LEAK m]

def execStatsOpf (m : Byte) (s : State) : Eff := .next (s.monRun false (monStatsOpf m.toNat))

/-- STATS STW (R367). -/
def monStatsStw (n : Nat) : State → MonRes := monRegs (decide (n < 4)) [STW_LNK_ERR n]

def execStatsStw (n : Byte) (s : State) : Eff := .next (s.monRun false (monStatsStw n.toNat))

/-- INJECT: as FAULT_INJECT, with the mask of FLT_INJ_MASK where one is given (R463); FAULTED in DRAIN and FAULT. -/
def monInject (checker mode : Nat) (mask : Option Word) (s : State) : MonRes :=
  if s.draining then ([], .err .faulted, s)
  else if 2 < mode || (mode != 0 && !canInject checker) then ([], .err .badParam, s)
  else if !s.mayArm checker mode then s.lifeDeny
  else
    let s1 := match mask with | some m => s.setReg FLT_INJ_MASK m | none => s
    ([], .ok, s1.arm checker mode)

def execInject (checker : B16) (arm : Byte) (mask : Option Word) (s : State) : Eff :=
  .next (s.monRun false (monInject checker.toNat arm.toNat mask))

/-- DERMEL: the packet takes its turn among the transports (R429, R473). -/
def State.monDermel (s : State) (pkt : List Byte) : State :=
  if !s.monUp then s
  else (s.dropChal false).mapCmds fun c => { c with monitor := c.monitor ++ [⟨pkt, none⟩] }

def execDermel (pkt : List Byte) (s : State) : Eff := .next (s.monDermel pkt)

/-- Code of a rate in DBG_MON_CFG.BAUD (R483). -/
def baudCode (rate : Nat) : Option Nat :=
  let i := [115200, 230400, 460800, 921600, 1500000, 3000000].idxOf rate
  if i < 6 then some i else none

/-- BAUD (R470): the change waits for BAUD_CHANGE. -/
def monBaud (rate : Nat) (s : State) : MonRes :=
  match baudCode rate with
  | some c => ([], .ok, s.mapDbg fun d => { d with baud := some c })
  | none => ([], .err .badParam, s)

def execBaud (rate : Nat) (s : State) : Eff := .next (s.monRun false (monBaud rate))

/-- BAUD_CHANGE (R470): 10 ms after the OK. -/
def execBaudChange (s : State) : Eff :=
  match s.dbg.baud with
  | some c => .next ((s.setFld DBG_MON_CFG_fBAUD c).mapDbg fun d => { d with baud := none })
  | none => .next s

/-! ## The lifecycle (R466, R468) -/

/-- LIFECYCLE. -/
def monLifecycle (s : State) : MonRes := ([BitVec.ofNat 32 s.lifecycle], .ok, s)

def execLifecycle (s : State) : Eff := .next (s.monRun false monLifecycle)

/-- The fuse bits as they are now. -/
def State.fuseBits (s : State) : Nat := Config.fuses.toNat ||| s.pwr.fuses

/-- May the lifecycle state advance (R469, R480)? -/
def State.mayAdvance (s : State) : Bool := s.lifecycle != 2 && fuseState s.fuseBits != 2

/-- A fresh challenge for a path, which replaces the other path's. -/
def State.newChal (s : State) (jtag : Bool) : B16 × State :=
  let (v, s1) := s.free
  (v.setWidth 16, s1.mapDbg fun d => { d with chal := some (jtag, v.setWidth 16, s.now) })

/-- The fuses of the next state blown; it takes effect at the next cold reset. -/
def State.blowFuses (s : State) : State :=
  let next := if s.fuseBits = 0 then 1 else 3
  (s.mapPwr fun p => { p with fuses := p.fuses ||| next }).mapDbg fun d => { d with chal := none, advDone := true }

/-- Does a challenge of a path hold this value within 10 s? -/
def State.chalMeets (s : State) (jtag : Bool) (v : B16) : Bool :=
  match s.dbg.chal with
  | some (j, c, t0) => j == jtag && c == v && decide (s.now ≤ t0 + 10000000000)
  | none => false

/-- LIFECYCLE ADVANCE. -/
def monAdvance (s : State) : MonRes :=
  if !s.mayAdvance then s.lifeDeny
  else
    let (c, a) := s.newChal false
    ([c.setWidth 32], .ok, a)

def execLifecycleAdvance (t : Nat) (s : State) : Eff := .next ((s.at t).monRun false monAdvance)

/-- LIFECYCLE CONFIRM. -/
def monConfirm (code : B16) (s : State) : MonRes :=
  if s.chalMeets false code then ([], .ok, s.blowFuses) else (s.dropChal false).lifeDeny

def execLifecycleConfirm (t : Nat) (code : B16) (s : State) : Eff := .next ((s.at t).monRun true (monConfirm code))

/-- CHALLENGE_EXPIRY (R468). -/
def execChallengeExpiry (t : Nat) (s0 : State) : Eff :=
  let s := s0.at t
  match s.dbg.chal with
  | some (j, _, t0) =>
    .next (if t0 + 10000000000 ≤ s.now then s.mapDbg fun d => { d with chal := none, jFail := d.jFail || j } else s)
  | none => .next s

/-! ## Lines (R471, R473) -/

/-- ASCII codes with letters in capitals. -/
def upCode (b : Byte) : Nat := if 97 ≤ b.toNat && b.toNat ≤ 122 then b.toNat - 32 else b.toNat

/-- Words of a line, split at spaces. -/
def tokens : List Byte → List Nat → List (List Nat)
  | [], w => if w.isEmpty then [] else [w]
  | b :: bs, w =>
    if b = 32 then (if w.isEmpty then tokens bs [] else w :: tokens bs []) else tokens bs (w ++ [upCode b])

/-- A keyword as its codes. -/
def kw (k : String) : List Nat := k.toList.map fun c => c.toNat

/-- Value of a hexadecimal digit. -/
def hexDigit (c : Nat) : Option Nat :=
  if 48 ≤ c && c ≤ 57 then some (c - 48) else if 65 ≤ c && c ≤ 70 then some (c - 55) else none

/-- Are the underscores of a number, read from the right, after every fourth digit and nowhere else (R8)? -/
def grouped : List Nat → Nat → Bool
  | [], k => k != 0
  | c :: cs, k => if k = 4 then c == 95 && grouped cs 0 else c != 95 && grouped cs (k + 1)

/-- Digits of a base as a number, underscores passed over. -/
def digits (base : Nat) : List Nat → Nat → Option Nat
  | [], v => some v
  | c :: cs, v =>
    if c = 95 && base = 16 then digits base cs v
    else match hexDigit c with
      | some d => if d < base then digits base cs (v * base + d) else none
      | none => none

/-- A number: hexadecimal where it ends in h, else decimal (R471). DESIGN CHOICE (log 228): the underscores of R8 may be left out, all
of them; where there are any, each stands at its place. -/
def number (w : List Nat) : Option Nat :=
  if w.isEmpty then none
  else if w.getLast? = some 72 then
    (if w.length < 2 || (w.contains 95 && !grouped w.dropLast.reverse 0) then none else digits 16 w.dropLast 0)
  else digits 10 w 0

/-- Bytes given as pairs of hexadecimal digits. -/
def hexBytes : List Nat → Option (List Byte)
  | [] => some []
  | [_] => none
  | a :: b :: cs =>
    match hexDigit a, hexDigit b, hexBytes cs with
    | some x, some y, some r => some (BitVec.ofNat 8 (x * 16 + y) :: r)
    | _, _, _ => none

/-- A debug space by name. -/
def spaceOf (w : List Nat) : Option Space :=
  if w = kw "REG" then some .reg else if w = kw "POOL" then some .pool else if w = kw "HBM" then some .hbm else none

/-- The command that the words of a line spell; none: SYNTAX. The answers of pool devices are not part of a line. -/
def lineCmd (ws : List (List Nat)) : Option (State → State) :=
  match ws with
  | [] => none
  | k :: args =>
    let run := fun (f : State → MonRes) => some fun (s : State) => s.monRun false f
    let nums := args.map number
    if k = kw "PEEK" then
      match args, nums with
      | [sp, _], [_, some a] => (spaceOf sp).bind fun x => run (monPeek x a 1 [])
      | [sp, _, _], [_, some a, some n] => (spaceOf sp).bind fun x => run (monPeek x a n [])
      | _, _ => none
    else if k = kw "POKE" then
      match args, nums with
      | [sp, _, _], [_, some a, some v] => if v < 2 ^ 32 then (spaceOf sp).bind fun x => run (monPoke x a (BitVec.ofNat 32 v) []) else none
      | _, _ => none
    else if k = kw "ATTIC" then
      match args, nums with
      | [w], _ => if w = kw "RING" then run monAtticRing else if w = kw "FATAL" then run monAtticFatal else none
      | [w, _, _], [_, some off, some len] => if w = kw "LOG" then run (monAtticLog off len) else none
      | _, _ => none
    else if k = kw "STATS" then
      match args, nums with
      | [w, _], [_, some n] =>
        if w = kw "PORT" then run (monStatsPort n) else if w = kw "LANE" then run (monStatsLane n)
        else if w = kw "OPF" then run (monStatsOpf n) else if w = kw "STW" then run (monStatsStw n) else none
      | _, _ => none
    else if k = kw "INJECT" then
      match nums with
      | [some c, some m] => run (monInject c m none)
      | [some c, some m, some v] => if v < 2 ^ 32 then run (monInject c m (some (BitVec.ofNat 32 v))) else none
      | _ => none
    else if k = kw "DERMEL" then (hexBytes args.flatten).map fun bs => fun (s : State) => s.monDermel bs
    else if k = kw "BAUD" then
      match nums with
      | [some r] => run (monBaud r)
      | _ => none
    else if k = kw "LIFECYCLE" then
      match args, nums with
      | [], _ => run monLifecycle
      | [w], _ => if w = kw "ADVANCE" then run monAdvance else none
      | [w, _], [_, some c] =>
        if w = kw "CONFIRM" && c < 2 ^ 16 then some fun (s : State) => s.monRun true (monConfirm (BitVec.ofNat 16 c)) else none
      | _, _ => none
    else none

/-- The line before its checksum, and whether a checksum it carries is right (R471). -/
def splitLine (l : List Byte) : List Byte × Bool :=
  let body := l.take (l.length - 3)
  match l.drop (l.length - 3) with
  | [h, a, b] =>
    if h != 35 then (l, true)
    else match hexDigit (upCode a), hexDigit (upCode b) with
      | some x, some y => (body, x * 16 + y == crc8 body)
      | _, _ => (l, true)
  | _ => (l, true)

/-- One line executed. A line of more than 9,000 characters is no command. -/
def State.runLine (s : State) (l : List Byte) : State :=
  if l.isEmpty then s
  else
    let (body, ok) := splitLine l
    if 9000 < l.length then s.monSay [] .syntax_
    else if !ok then (s.setFld DBG_MON_STAT_fCHK_ERR 1).monSay [] .checksum
    else match lineCmd (tokens body []) with
      | some f => f s
      | none => (s.dropChal false).monSay [] .syntax_

/-- Buffered lines executed in arrival order, while the monitor is not busy with a packet (R473). -/
def State.runLines : Nat → State → State
  | 0, s => s
  | n + 1, s =>
    if !s.monUp || !s.cmds.monitor.isEmpty then s
    else match s.dbg.rx with
      | l :: ls => State.runLines n ((s.mapDbg fun d => { d with rx := ls }).runLine l)
      | [] => s

def State.pumpLines (s : State) : State := s.runLines s.dbg.rx.length

/-- MONITOR_LINE (R473): a line arrives. MON_RX is ignored with RESET_N low (R495). -/
def execMonitorLine (line : List Byte) (s0 : State) : Eff :=
  let used := s0.dbg.rx.foldl (fun n l => n + l.length) 0
  let s := if s0.flag DBG_MON_CFG_fECHO then s0.emit (.monEcho line) else s0
  .next (
    if s0.pwr.st == .reset then s0
    else if 16384 < used + line.length then (s.bump DBG_MON_STAT_fRX_DROP).monSay [] .overflow
    else (s.mapDbg fun d => { d with rx := d.rx ++ [line] }).pumpLines)

/-- Was the restart FW_ACTIVATE's, and not a fault's? -/
def State.restartedByFw (s : State) : Bool :=
  s.cmds.pend.any fun p => p.work == Work.fwActivate && (p.res.isSome || s.pwr.previous.isSome)

/-- HEARTH_RETURN (R394, R520): the restarted Hearth is back; it posts the completions it owes: FW_ACTIVATE's, or ABORTED for
every command that was PENDING at a memory fault or watchdog, or in FAULT the FAULTED of R457, and takes commands again. -/
def execHearthReturn (t : Nat) (s0 : State) : Eff :=
  let s := s0.at t
  if s.pwr.st != .restart then .next s
  else
    let s1 := if s.flt.st == .fault then s.endPends (fun _ => true) .faulted
      else if s.restartedByFw then s.endPends (· == Work.fwActivate) .ok else s.endPends (fun _ => true) .aborted
    let s2 := (s1.mapPwr fun p => { p with st := .run, previous := none }).mapCmds fun c => { c with hearthUp := true }
    .next ((s2.adoptRange.payRecord.emit .monRestart).fabSettle).resumeWarm.pumpLines

end Sys2Proof.Machine
end

