-- ==== Sys2Proof/Machine/Jtag.lean ====
section
/-! DEFINITION. The JTAG port (R468, R480, R481): its instructions, DBG_ACCESS and LC_ADVANCE. -/

namespace Sys2Proof.Machine

/-- An instruction loaded (R480, R483): LC_ADVANCE is left, and its challenge discarded (R468). -/
def State.loadIr (s : State) (code : Nat) : State :=
  ((s.dropChal true).mapDbg fun d => { d with jLoaded := false }).setFld DBG_JTAG_STAT_fLAST_IR code

/-- An instruction taken as BYPASS: REFUSED. -/
def State.refuseIr (s : State) : State := (s.setFld DBG_JTAG_STAT_fREFUSED 1).emit (.jtag 0)

/-- BYPASS: the register captures 0 (IEEE 1149.1). -/
def execBypass (s : State) : Eff := .next ((s.loadIr 0xFF).emit (.jtag 0))

/-- The word that IDCODE shifts out. -/
def idcode : Nat := packBits [(1, 1), (Config.jedecId.toNat, 11), (0x9256, 16), (1, 4)]

/-- IDCODE. -/
def execIdcode (s : State) : Eff := .next ((s.loadIr 1).emit (.jtag idcode))

/-- SAMPLE/PRELOAD: the levels of the balls as the chain holds them, a free value (log 3). -/
def execSamplePreload (s : State) : Eff :=
  let (v, a) := (s.loadIr 2).free
  .next (a.emit (.jtag v.toNat))

/-- EXTEST, CLAMP and HIGHZ (R481): with RESET_N low they act on the balls alone; else BYPASS, REFUSED, and a refusal with reason
4h. -/
def State.ballTest (s : State) (code : Nat) : State :=
  let s1 := s.loadIr code
  if s.pwr.st == .reset && !s.pwr.released then s1 else s1.refuseIr.debugRefuse true 4 .reg false 0 0 0

/-- EXTEST. -/
def execExtest (s : State) : Eff := .next (s.ballTest 0)

/-- CLAMP. -/
def execClamp (s : State) : Eff := .next (s.ballTest 3)

/-- HIGHZ. -/
def execHighz (s : State) : Eff := .next (s.ballTest 4)

/-- DBG_ACCESS (R474, R480): one word read or written by the debug master; nothing is reached with RESET_N low. -/
def execDbgAccess (write : Bool) (sp : Space) (addr : B64) (value : Word) (dev : DevData) (s : State) : Eff :=
  let s1 := s.loadIr 0x20
  .next (
    if s.pwr.st == .reset then s1
    else if s.lifecycle == 2 && (write || sp != .reg) then s1.refuseIr.debugRefuse true 2 sp write addr.toNat 4 0
    else
      let (ws, _, a) := s1.debugAccess .jtag sp addr.toNat 1 (if write then some value else none) dev
      a.emit (.jtag (ws.headD 0).toNat))

/-- LC_ADVANCE (R468): the first Capture-DR gives a fresh challenge in [15:0]. -/
def execLcAdvance (t : Nat) (s0 : State) : Eff :=
  let s := (s0.at t).loadIr 0x21
  .next (
    if !s.mayAdvance then s.refuseIr
    else
      let (c, a) := s.newChal true
      (a.mapDbg fun d => { d with jLoaded := true, jFail := false }).emit (.jtag c.toNat))

/-- LC_ADVANCE_UPDATE (R468): the challenge with A5C3h blows the fuses; any other value discards it. What later Capture-DRs report
in [31:16] follows, 0001h or 0002h; [15:0] is a free value. -/
def execLcAdvanceUpdate (t : Nat) (v : Word) (s0 : State) : Eff :=
  let s := s0.at t
  let say := fun (a : State) (code : Nat) =>
    let (w, b) := a.free
    b.emit (.jtag (code * 65536 + w.toNat % 65536))
  .next (
    if !s.dbg.jLoaded then s
    else if bitsOf v.toNat 16 16 = 0xA5C3 && s.chalMeets true (v.setWidth 16) then say s.blowFuses 1
    else
      let a := (s.dropChal true).mapDbg fun d => { d with jFail := true }
      say (a.debugRefuse true 4 .reg true 0 0 0) 2)

/-- MBIST: in MANUFACTURE it runs; its result is a free value (log 3), and the spec gives it no effect on state. -/
def execMbist (s0 : State) : Eff :=
  let s := s0.loadIr 0x30
  .next (
    if s.lifecycle != 0 then s.refuseIr
    else
      let (v, a) := s.free
      a.emit (.jtag v.toNat))

/-- FUSE_PROG: in MANUFACTURE the rollback floor is raised (R517); the lifecycle fuses are not its own (R468). -/
def execFuseProg (floor : Word) (s0 : State) : Eff :=
  let s := s0.loadIr 0x31
  .next (if s.lifecycle != 0 then s.refuseIr else s.mapPwr fun p => { p with floor := Nat.max p.floor floor.toNat })

/-- TAP_RESET (R468): the challenge is discarded. -/
def execTapReset (s : State) : Eff := .next ((s.dropChal true).mapDbg fun d => { d with jLoaded := false })

end Sys2Proof.Machine
end

