-- ==== Sys2Proof/Machine/Packet.lean ====
section
/-! DEFINITION. Dermel packets as bytes (R422, R423, R426, R436 to R439): the parser from a packet to the command it spells,
and the two commands that only identify (R436). -/

namespace Sys2Proof.Machine

/-! ## IDENTIFY and STATUS_QUERY (R436) -/

/-- IDENTIFY. A switch without a fabric ID gives 0. -/
def cmdIdentify : Cmd :=
  { opcode := 0x0101
    run := fun s => .ok (leBytes 4 (s.view 0).toNat ++ leBytes 8 Config.uid.toNat ++ leBytes 2 (s.fab.fid.getD 0) ++ leBytes 1 s.fab.ownMin ++
      leBytes 1 s.fab.ownMax ++ leBytes 4 s.fwVer ++ leBytes 1 s.lifecycle) s }

def execIdentify (h : Hdr) (s : State) : Eff := s.dermel h cmdIdentify

/-- STATUS_QUERY. -/
def cmdStatusQuery : Cmd :=
  { opcode := 0x0102
    run := fun s => .ok (leBytes 8 s.devState ++ leBytes 8 s.now ++ leBytes 2 s.cmds.pend.length ++
      leBytes 1 (s.allPorts.filter s.inL0).length ++ leBytes 1 s.pool.rooms.length ++ leBytes 2 s.pool.wins.length) s }

def execStatusQuery (h : Hdr) (s : State) : Eff := s.dermel h cmdStatusQuery

/-! ## The command of each row (R436 to R438) -/

/-- A Dermel row as a command with its header; none: not a row of the opcode tables of R436 to R438. -/
def rowCmd (i : Instr) : Option (Hdr × Cmd) :=
  match i with
  | .identify h => some (h, cmdIdentify)
  | .statusQuery h => some (h, cmdStatusQuery)
  | .laneConfig h group mode pa pb pc pd => some (h, cmdLaneConfig group.toNat mode.toNat pa.toNat pb.toNat pc.toNat pd.toNat)
  | .portRole h port role => some (h, cmdPortRole port.toNat role.toNat)
  | .portLinkSet h port rate width => some (h, cmdPortLinkSet port.toNat rate.toNat width.toNat)
  | .portEnable h port en => some (h, cmdPortEnable port.toNat en.toNat)
  | .portQuery h port => some (h, cmdPortQuery port.toNat)
  | .laneMargin h port target mask dir steps errLimit dwell => some (h, cmdLaneMargin port.toNat target.toNat mask.toNat dir.toNat
      steps.toNat errLimit.toNat dwell.toNat)
  | .laneStats h port => some (h, cmdLaneStats port.toNat)
  | .opfQuery h module => some (h, cmdOpfQuery module.toNat)
  | .opfRetrain h module => some (h, cmdOpfRetrain module.toNat)
  | .roomCreate h froom hmax a rates => some (h, cmdRoomCreate froom.toNat hmax.toNat a rates)
  | .roomResize h froom valid a rates => some (h, cmdRoomResize froom.toNat valid.toNat a rates)
  | .roomHostAdd h froom host => some (h, cmdRoomHostAdd froom.toNat host.toNat)
  | .roomHostRemove h froom host => some (h, cmdRoomHostRemove froom.toNat host.toNat)
  | .roomPortAssign h froom port add => some (h, cmdRoomPortAssign froom.toNat port.toNat add.toNat)
  | .roomDestroy h froom => some (h, cmdRoomDestroy froom.toNat)
  | .roomQuery h froom first n => some (h, cmdRoomQuery froom.toNat first.toNat n.toNat)
  | .sliceCreate h window host pasid => some (h, cmdSliceCreate window.toNat host.toNat pasid.toNat)
  | .sliceDestroy h slice => some (h, cmdSliceDestroy slice.toNat)
  | .sliceQuery h slice => some (h, cmdSliceQuery slice.toNat)
  | .poolAdopt h port => some (h, cmdPoolAdopt port.toNat)
  | .poolRelease h handle => some (h, cmdPoolRelease handle.toNat)
  | .poolList h => some (h, cmdPoolList)
  | .windowCreate h p => some (h, cmdWindowCreate p)
  | .windowDestroy h window => some (h, cmdWindowDestroy window.toNat)
  | .windowQuery h window first n => some (h, cmdWindowQuery window.toNat first.toNat n.toNat)
  | .windowBind h window host port access hpa => some (h, cmdWindowBind window.toNat host.toNat port.toNat access.toNat hpa.toNat)
  | .windowUnbind h window host timeout => some (h, cmdWindowUnbind h.force window.toNat host.toNat timeout.toNat)
  | .dcAdd h window xs => some (h, cmdDcAdd window.toNat xs)
  | .dcRelease h window xs => some (h, cmdDcRelease h.force window.toNat xs)
  | .extentRead h x n => some (h, cmdExtentRead h x.toNat n.toNat)
  | .rehomePrepare h p => some (h, cmdRehomePrepare h p)
  | .rehomeStart h window bid bwin age => some (h, cmdRehomeStart window.toNat bid.toNat bwin.toNat age.toNat)
  | .rehomeStatus h window => some (h, cmdRehomeStatus window.toNat)
  | .dirRead h pa => some (h, cmdDirRead pa.toNat)
  | .ruleWrite h froom index entry => some (h, cmdRuleWrite h.bank froom.toNat index.toNat entry.toNat)
  | .ruleRead h froom first n => some (h, cmdRuleRead h.bank froom.toNat first.toNat n.toNat)
  | .ruleCopy h froom => some (h, cmdRuleCopy froom.toNat)
  | .ruleCommit h froom => some (h, cmdRuleCommit froom.toNat)
  | .ruleStatus h froom => some (h, cmdRuleStatus froom.toNat)
  | .qosPortSet h port valid qmap quanta cbs pbs en => some (h, cmdQosPortSet port.toNat valid.toNat qmap quanta cbs.toNat pbs.toNat
      en.toNat)
  | .qosPortQuery h port => some (h, cmdQosPortQuery port.toNat)
  | .gateWrite h port cycle base entries => some (h, cmdGateWrite h.bank port.toNat cycle.toNat base.toNat entries)
  | .gateRead h port => some (h, cmdGateRead h.bank port.toNat)
  | .gateCommit h instant mask => some (h, cmdGateCommit instant.toNat mask.toNat)
  | .gateStatus h port => some (h, cmdGateStatus port.toNat)
  | .moverJob h head => some (h, cmdMoverJob h head.toNat)
  | .moverChResume h ch action => some (h, cmdMoverChResume ch.toNat action.toNat)
  | .moverChEnable h ch en => some (h, cmdMoverChEnable ch.toNat en.toNat)
  | .moverQuery h => some (h, cmdMoverQuery)
  | .extentMigrate h window x dstDev house => some (h, cmdExtentMigrate window.toNat x.toNat dstDev.toNat house.toNat)
  | .migrateStatus h window x => some (h, cmdMigrateStatus window.toNat x.toNat)
  | .migrateAbort h window x => some (h, cmdMigrateAbort window.toNat x.toNat)
  | .doorwayEnable h mask en => some (h, cmdDoorwayEnable mask.toNat en.toNat)
  | .doorwaySet h ch valid vals => some (h, cmdDoorwaySet ch.toNat valid.toNat vals)
  | .doorwayQuery h ch => some (h, cmdDoorwayQuery ch.toNat)
  | .doorwayPolicy h froom rebind => some (h, cmdDoorwayPolicy froom.toNat rebind.toNat)
  | .atticRead h first n => some (h, cmdAtticRead first.toNat n.toNat)
  | .atticFatalRead h => some (h, cmdAtticFatalRead)
  | .atticClear h what => some (h, cmdAtticClear what.toNat)
  | .atticLogRead h off len => some (h, cmdAtticLogRead off.toNat len.toNat)
  | .faultInject h checker arm => some (h, cmdFaultInject checker.toNat arm.toNat)
  | .faultQuery h => some (h, cmdFaultQuery)
  | .fabricQuery h => some (h, cmdFabricQuery)
  | .timeQuery h => some (h, cmdTimeQuery)
  | .schemaQuery h => some (h, cmdSchemaQuery)
  | .schemaSet h ceiling => some (h, cmdSchemaSet ceiling.toNat)
  | .ridgeYield h => some (h, cmdRidgeYield)
  | .routeSet h fid sw port set => some (h, cmdRouteSet fid.toNat sw.toNat port.toNat set.toNat)
  | .routeQuery h first n => some (h, cmdRouteQuery first.toNat n.toNat)
  | .noticeMask h mask => some (h, cmdNoticeMask mask)
  | .fabricRelay h target pkt => some (h, cmdFabricRelay target.toNat pkt)
  | .fwQuery h => some (h, cmdFwQuery)
  | .fwWrite h off data => some (h, cmdFwWrite h.bank off.toNat data)
  | .fwVerify h => some (h, cmdFwVerify h.bank)
  | .fwActivate h => some (h, cmdFwActivate h.bank)
  | .ehrecWrite h off data => some (h, cmdEhrecWrite off.toNat data)
  | .ehrecRead h off len => some (h, cmdEhrecRead off.toNat len.toNat)
  | .hbmLayout h units => some (h, cmdHbmLayout units.toNat)
  | .hbmLayoutQuery h => some (h, cmdHbmLayoutQuery)
  | .pantryMode h window mode rank quota => some (h, cmdPantryMode window.toNat mode.toNat rank.toNat quota.toNat)
  | .pantryQuery h window => some (h, cmdPantryQuery window.toNat)
  | .pantryFlush h window => some (h, cmdPantryFlush h.invalidate window.toNat)
  | .holdupSet h valid vals => some (h, cmdHoldupSet valid.toNat vals)
  | .holdupQuery h => some (h, cmdHoldupQuery)
  | .holdupCal h c0 => some (h, cmdHoldupCal c0.toNat)
  | _ => none

/-! ## Parameters -/

/-- The field of a parameter block at an offset, as wide as its operand. -/
def bv (w : Nat) (p : List Byte) (off : Nat) : BitVec w := BitVec.ofNat w (fieldAt p off (w / 8))

/-- A command as its parameters spell it: the length that PLEN must have, and the gaps that must be 0 (offset, bytes). -/
structure Parsed where
  instr : Instr
  len : Nat
  gaps : List (Nat × Nat) := []

/-- A length rounded up to whole words. -/
def up4 (n : Nat) : Nat := (n + 3) / 4 * 4

/-- The Allot block at offset 4 (R436). -/
def allotAt (p : List Byte) : Allot :=
  let u := fun off n => fieldAt p off n
  { tracker := BitVec.ofNat 32 (u 4 4), dir := BitVec.ofNat 32 (u 8 4), pan := BitVec.ofNat 32 (u 12 4), vst := BitVec.ofNat 32 (u 16 4)
    mover := BitVec.ofNat 8 (u 20 1), slices := BitVec.ofNat 16 (u 22 2), rules := BitVec.ofNat 16 (u 24 2) }

/-- The rate entries after the Allot block, and their gaps. -/
def ratesAt (p : List Byte) : List RateEntry :=
  (List.range (fieldAt p 26 2)).map fun i =>
    { port := BitVec.ofNat 8 (fieldAt p (28 + 8 * i) 1), cir := BitVec.ofNat 16 (fieldAt p (30 + 8 * i) 2)
      pir := BitVec.ofNat 16 (fieldAt p (32 + 8 * i) 2) }

def allotLen (p : List Byte) : Nat := 28 + 8 * fieldAt p 26 2

def allotGaps (p : List Byte) : List (Nat × Nat) :=
  [(21, 1)] ++ (List.range (fieldAt p 26 2)).flatMap fun i => [(29 + 8 * i, 1), (34 + 8 * i, 2)]

/-- Parameters of WINDOW_CREATE and REHOME_PREPARE (R437). -/
def winParamsAt (p : List Byte) : WinParams :=
  let u := fun off n => fieldAt p off n
  { type := BitVec.ofNat 8 (u 0 1), froom := BitVec.ofNat 8 (u 1 1), pmode := BitVec.ofNat 8 (u 2 1), flags := BitVec.ofNat 8 (u 3 1)
    extents := BitVec.ofNat 32 (u 4 4), poolBase := BitVec.ofNat 64 (u 8 8), handles := (p.drop 20).take (u 16 1) }

/-- Words from an offset on. -/
def wordsAt (p : List Byte) (off n : Nat) : List Word := (List.range n).map fun i => BitVec.ofNat 32 (fieldAt p (off + 4 * i) 4)

/-- Length and gaps of the parameters of WINDOW_CREATE (R437): the handles are filled to whole words. -/
def winLen (p : List Byte) : Nat := up4 (20 + fieldAt p 16 1)

def winGaps (p : List Byte) : List (Nat × Nat) := [(17, 3), (20 + fieldAt p 16 1, winLen p - (20 + fieldAt p 16 1))]

/-- The filling of a block of data at offset 8. -/
def blobGaps (p : List Byte) : List (Nat × Nat) := [(8 + fieldAt p 4 4, up4 (fieldAt p 4 4) - fieldAt p 4 4)]

/-- Groups 01xxh to 03xxh (R436). -/
def parse1 (h : Hdr) (op : Nat) (p : List Byte) : Option Parsed :=
  match op with
  | 0x0101 => some ⟨.identify h, 0, []⟩
  | 0x0102 => some ⟨.statusQuery h, 0, []⟩
  | 0x0201 => some ⟨.laneConfig h (bv 8 p 0) (bv 8 p 1) (bv 8 p 2) (bv 8 p 3) (bv 8 p 4) (bv 8 p 5), 8, [(6, 2)]⟩
  | 0x0202 => some ⟨.portRole h (bv 8 p 0) (bv 8 p 1), 4, [(2, 2)]⟩
  | 0x0203 => some ⟨.portLinkSet h (bv 8 p 0) (bv 8 p 1) (bv 8 p 2), 4, [(3, 1)]⟩
  | 0x0204 => some ⟨.portEnable h (bv 8 p 0) (bv 8 p 1), 4, [(2, 2)]⟩
  | 0x0205 => some ⟨.portQuery h (bv 8 p 0), 4, [(1, 3)]⟩
  | 0x0206 => some ⟨.laneMargin h (bv 8 p 0) (bv 8 p 1) (bv 16 p 2) (bv 8 p 4) (bv 8 p 5) (bv 8 p 6) (bv 32 p 8), 12, [(7, 1)]⟩
  | 0x0207 => some ⟨.laneStats h (bv 8 p 0), 4, [(1, 3)]⟩
  | 0x0210 => some ⟨.opfQuery h (bv 8 p 0), 4, [(1, 3)]⟩
  | 0x0211 => some ⟨.opfRetrain h (bv 8 p 0), 4, [(1, 3)]⟩
  | 0x0301 => some ⟨.roomCreate h (bv 8 p 0) (bv 16 p 2) (allotAt p) (ratesAt p), allotLen p, (1, 1) :: allotGaps p⟩
  | 0x0302 => some ⟨.roomResize h (bv 8 p 0) (bv 16 p 2) (allotAt p) (ratesAt p), allotLen p, (1, 1) :: allotGaps p⟩
  | 0x0303 => some ⟨.roomHostAdd h (bv 8 p 0) (bv 16 p 2), 4, [(1, 1)]⟩
  | 0x0304 => some ⟨.roomHostRemove h (bv 8 p 0) (bv 16 p 2), 4, [(1, 1)]⟩
  | 0x0305 => some ⟨.roomPortAssign h (bv 8 p 0) (bv 8 p 1) (bv 8 p 2), 4, [(3, 1)]⟩
  | 0x0306 => some ⟨.roomDestroy h (bv 8 p 0), 4, [(1, 3)]⟩
  | 0x0307 => some ⟨.roomQuery h (bv 8 p 0) (bv 16 p 2) (bv 16 p 4), 8, [(1, 1), (6, 2)]⟩
  | 0x0310 => some ⟨.sliceCreate h (bv 16 p 0) (bv 16 p 2) (bv 32 p 4), 8, []⟩
  | 0x0311 => some ⟨.sliceDestroy h (bv 16 p 0), 4, [(2, 2)]⟩
  | 0x0312 => some ⟨.sliceQuery h (bv 16 p 0), 4, [(2, 2)]⟩
  | _ => none

/-- Groups 04xxh to 06xxh (R437). -/
def parse2 (h : Hdr) (op : Nat) (p : List Byte) : Option Parsed :=
  let u := fun off n => fieldAt p off n
  match op with
  | 0x0401 => some ⟨.poolAdopt h (bv 8 p 0), 4, [(1, 3)]⟩
  | 0x0402 => some ⟨.poolRelease h (bv 8 p 0), 4, [(1, 3)]⟩
  | 0x0403 => some ⟨.poolList h, 0, []⟩
  | 0x0410 => some ⟨.windowCreate h (winParamsAt p), winLen p, winGaps p⟩
  | 0x0411 => some ⟨.windowDestroy h (bv 16 p 0), 4, [(2, 2)]⟩
  | 0x0412 => some ⟨.windowQuery h (bv 16 p 0) (bv 16 p 2) (bv 16 p 4), 8, [(6, 2)]⟩
  | 0x0420 => some ⟨.windowBind h (bv 16 p 0) (bv 16 p 2) (bv 8 p 4) (bv 8 p 5) (bv 64 p 8), 16, [(6, 2)]⟩
  | 0x0421 => some ⟨.windowUnbind h (bv 16 p 0) (bv 16 p 2) (bv 32 p 4), 8, []⟩
  | 0x0430 => some ⟨.dcAdd h (bv 16 p 0) (wordsAt p 4 (u 2 2)), 4 + 4 * u 2 2, []⟩
  | 0x0431 => some ⟨.dcRelease h (bv 16 p 0) (wordsAt p 4 (u 2 2)), 4 + 4 * u 2 2, []⟩
  | 0x0440 => some ⟨.extentRead h (bv 32 p 0) (bv 8 p 4), 8, [(5, 3)]⟩
  | 0x0450 => some ⟨.rehomePrepare h (winParamsAt p), winLen p, winGaps p⟩
  | 0x0451 => some ⟨.rehomeStart h (bv 16 p 0) (bv 16 p 2) (bv 16 p 4) (bv 32 p 8), 12, [(6, 2)]⟩
  | 0x0452 => some ⟨.rehomeStatus h (bv 16 p 0), 4, [(2, 2)]⟩
  | 0x0460 => some ⟨.dirRead h (bv 64 p 0), 8, []⟩
  | 0x0501 => some ⟨.ruleWrite h (bv 8 p 0) (bv 8 p 1) (bv 128 p 4), 20, [(2, 2)]⟩
  | 0x0502 => some ⟨.ruleRead h (bv 8 p 0) (bv 8 p 1) (bv 8 p 2), 4, [(3, 1)]⟩
  | 0x0503 => some ⟨.ruleCopy h (bv 8 p 0), 4, [(1, 3)]⟩
  | 0x0504 => some ⟨.ruleCommit h (bv 8 p 0), 4, [(1, 3)]⟩
  | 0x0505 => some ⟨.ruleStatus h (bv 8 p 0), 4, [(1, 3)]⟩
  | 0x0601 => some ⟨.qosPortSet h (bv 8 p 0) (bv 8 p 1) (bv 32 p 4) ((List.range 6).map fun i => bv 16 p (8 + 2 * i)) (bv 32 p 20) (bv 32
      p 24) (bv 8 p 28), 32, [(2, 2), (29, 3)]⟩
  | 0x0602 => some ⟨.qosPortQuery h (bv 8 p 0), 4, [(1, 3)]⟩
  | 0x0610 => some ⟨.gateWrite h (bv 8 p 0) (bv 32 p 4) (bv 64 p 8) ((List.range (u 1 1)).map fun i => bv 64 p (16 + 8 * i)), 16 + 8 * u 1
      1, [(2, 2)]⟩
  | 0x0611 => some ⟨.gateRead h (bv 8 p 0), 4, [(1, 3)]⟩
  | 0x0612 => some ⟨.gateCommit h (bv 64 p 0) (bv 64 p 8), 16, []⟩
  | 0x0613 => some ⟨.gateStatus h (bv 8 p 0), 4, [(1, 3)]⟩
  | _ => none

/-- Groups 07xxh to 0Cxxh (R438). -/
def parse3 (h : Hdr) (op : Nat) (p : List Byte) : Option Parsed :=
  let u := fun off n => fieldAt p off n
  match op with
  | 0x0701 => some ⟨.moverJob h (bv 64 p 0), 8, []⟩
  | 0x0702 => some ⟨.moverChResume h (bv 8 p 0) (bv 8 p 1), 4, [(2, 2)]⟩
  | 0x0703 => some ⟨.moverChEnable h (bv 8 p 0) (bv 8 p 1), 4, [(2, 2)]⟩
  | 0x0704 => some ⟨.moverQuery h, 0, []⟩
  | 0x0710 => some ⟨.extentMigrate h (bv 16 p 0) (bv 32 p 4) (bv 8 p 8) (bv 8 p 9), 12, [(2, 2), (10, 2)]⟩
  | 0x0711 => some ⟨.migrateStatus h (bv 16 p 0) (bv 32 p 4), 8, [(2, 2)]⟩
  | 0x0712 => some ⟨.migrateAbort h (bv 16 p 0) (bv 32 p 4), 8, [(2, 2)]⟩
  | 0x0801 => some ⟨.doorwayEnable h (bv 32 p 0) (bv 8 p 4), 8, [(5, 3)]⟩
  | 0x0802 => some ⟨.doorwaySet h (bv 8 p 0) (bv 32 p 4) (wordsAt p 8 27), 116, [(1, 3)]⟩
  | 0x0803 => some ⟨.doorwayQuery h (bv 8 p 0), 4, [(1, 3)]⟩
  | 0x0804 => some ⟨.doorwayPolicy h (bv 8 p 0) (bv 8 p 1), 4, [(2, 2)]⟩
  | 0x0901 => some ⟨.atticRead h (bv 8 p 0) (bv 8 p 1), 4, [(2, 2)]⟩
  | 0x0902 => some ⟨.atticFatalRead h, 0, []⟩
  | 0x0903 => some ⟨.atticClear h (bv 8 p 0), 4, [(1, 3)]⟩
  | 0x0904 => some ⟨.atticLogRead h (bv 32 p 0) (bv 32 p 4), 8, []⟩
  | 0x0905 => some ⟨.faultInject h (bv 16 p 0) (bv 8 p 2), 4, [(3, 1)]⟩
  | 0x0906 => some ⟨.faultQuery h, 0, []⟩
  | 0x0a01 => some ⟨.fabricQuery h, 0, []⟩
  | 0x0a02 => some ⟨.timeQuery h, 0, []⟩
  | 0x0a03 => some ⟨.schemaQuery h, 0, []⟩
  | 0x0a04 => some ⟨.schemaSet h (bv 8 p 0), 4, [(1, 3)]⟩
  | 0x0a05 => some ⟨.ridgeYield h, 0, []⟩
  | 0x0a06 => some ⟨.routeSet h (bv 16 p 0) (bv 16 p 2) (bv 8 p 4) (bv 8 p 5), 8, [(6, 2)]⟩
  | 0x0a07 => some ⟨.routeQuery h (bv 16 p 0) (bv 16 p 2), 4, []⟩
  | 0x0a08 => some ⟨.noticeMask h (bv 32 p 0), 4, []⟩
  | 0x0a10 => some ⟨.fabricRelay h (bv 16 p 0) (p.drop 4), Nat.max 36 p.length, [(2, 2)]⟩
  | 0x0b01 => some ⟨.fwQuery h, 0, []⟩
  | 0x0b02 => some ⟨.fwWrite h (bv 32 p 0) ((p.drop 8).take (u 4 4)), up4 (8 + u 4 4), blobGaps p⟩
  | 0x0b03 => some ⟨.fwVerify h, 0, []⟩
  | 0x0b04 => some ⟨.fwActivate h, 0, []⟩
  | 0x0b05 => some ⟨.ehrecWrite h (bv 32 p 0) ((p.drop 8).take (u 4 4)), up4 (8 + u 4 4), blobGaps p⟩
  | 0x0b06 => some ⟨.ehrecRead h (bv 32 p 0) (bv 32 p 4), 8, []⟩
  | 0x0c01 => some ⟨.hbmLayout h (bv 8 p 0), 4, [(1, 3)]⟩
  | 0x0c02 => some ⟨.hbmLayoutQuery h, 0, []⟩
  | 0x0c10 => some ⟨.pantryMode h (bv 16 p 0) (bv 8 p 2) (bv 8 p 3) (bv 32 p 4), 8, []⟩
  | 0x0c11 => some ⟨.pantryQuery h (bv 16 p 0), 4, [(2, 2)]⟩
  | 0x0c12 => some ⟨.pantryFlush h (bv 16 p 0), 4, [(2, 2)]⟩
  | 0x0c20 => some ⟨.holdupSet h (bv 16 p 0) (wordsAt p 4 9), 40, [(2, 2)]⟩
  | 0x0c21 => some ⟨.holdupQuery h, 0, []⟩
  | 0x0c22 => some ⟨.holdupCal h (bv 32 p 0), 4, []⟩
  | _ => none

/-- A row of the opcode tables from its opcode and parameters. -/
def parsed (h : Hdr) (op : Nat) (p : List Byte) : Option Parsed :=
  if op < 0x0400 then parse1 h op p else if op < 0x0700 then parse2 h op p else parse3 h op p

/-- Offset of the first byte of the gaps that is not 0. -/
def gapBad (p : List Byte) (gaps : List (Nat × Nat)) : Option Nat :=
  (gaps.flatMap fun g => (List.range g.2).map (g.1 + ·)).find? fun i => fieldAt p i 1 != 0

/-- The lower of two faulty offsets. -/
def lowerOff : Option Nat → Option Nat → Option Nat
  | some a, some b => some (Nat.min a b)
  | some a, none => some a
  | none, b => b

/-- The command of an opcode and its parameters, with check 8 of R426 for PLEN and the gaps; none: not in the opcode tables. -/
def parseCmd (h : Hdr) (op : Nat) (p : List Byte) : Option Cmd :=
  match parsed h op p with
  | none => none
  | some x => (rowCmd x.instr).map fun y => { y.2 with
      bad := fun s => if p.length != x.len then some 0xFFFF else lowerOff (gapBad p x.gaps) (y.2.bad s) }

/-! ## Headers (R422) -/

/-- The header of a packet that came by a transport. -/
def hdrOf (src : Source) (bs : List Byte) : Hdr :=
  let f := fieldAt bs 5 1
  let k := fieldAt bs 8 1
  { src := src, tag := BitVec.ofNat 16 (fieldAt bs 2 2), room := BitVec.ofNat 8 (fieldAt bs 4 1), force := bitOf f 0, invalidate := bitOf f 1
    fence := bitOf f 2, bankV := bitOf k 0, bank := bitOf k 1, schema := BitVec.ofNat 8 (fieldAt bs 9 1) }

/-- A reserved bit of the header is 1. -/
def hdrRsvd (bs : List Byte) : Bool := 8 ≤ fieldAt bs 5 1 || 4 ≤ fieldAt bs 8 1 || fieldAt bs 10 18 != 0

/-- Parameter bytes of a packet. -/
def paramsOf (bs : List Byte) : List Byte := (bs.drop 32).take (fieldAt bs 6 2)

/-- Is the packet's CRC right? It has to be there whole. -/
def crcOk (bs : List Byte) : Bool :=
  let n := 32 + fieldAt bs 6 2
  let pkt := bs.take n
  decide (n ≤ bs.length) && fieldAt bs 28 4 == crc32c (pkt.take 28 ++ leBytes 4 0 ++ pkt.drop 32)

/-- Checks 1 to 3 of R426: DETAIL and CRC_ERR of the refusal. -/
def badPacket (bs : List Byte) : Option (Nat × Bool) :=
  let n := fieldAt bs 6 2
  if 4064 < n || n % 4 != 0 then some (0xFFFF, false)
  else if !crcOk bs then some (0, true)
  else if hdrRsvd bs then some (0xFFFF, false) else none

/-- A packet checked, executed and answered (R426, R431). -/
def State.runPacket (s : State) (src : Source) (p : Packet) : State :=
  let h := hdrOf src p.bytes
  let op := fieldAt p.bytes 0 2
  let say := fun (st : Status) (d : Nat) (crc : Bool) =>
    s.sendReply src p.relay { s.mkReply h op st d [] with crcErr := crc }
  match badPacket p.bytes with
  | some (d, crc) => say .badParam d crc
  | none =>
    match parseCmd h op (paramsOf p.bytes) with
    | some c => s.runCmd h p.relay c
    | none => match s.checkFirst op h.schema.toNat with
      | some st => say st 0 false
      | none => say .badOpcode 0 false

/-! ## Packets made (R422) -/

/-- Little-endian fields one after the other: (bytes, value). -/
def cat (fs : List (Nat × Nat)) : List Byte := fs.flatMap fun f => leBytes f.1 f.2

def wordBytes (xs : List Word) : List Byte := xs.flatMap fun x => leBytes 4 x.toNat

/-- The Allot block and the rate entries after it (R436). -/
def allotBytes (a : Allot) (rates : List RateEntry) : List Byte :=
  cat [(4, a.tracker.toNat), (4, a.dir.toNat), (4, a.pan.toNat), (4, a.vst.toNat), (1, a.mover.toNat), (1, 0), (2, a.slices.toNat),
    (2, a.rules.toNat), (2, rates.length)] ++
  rates.flatMap fun r => cat [(1, r.port.toNat), (1, 0), (2, r.cir.toNat), (2, r.pir.toNat), (2, 0)]

/-- Parameters of WINDOW_CREATE and REHOME_PREPARE (R437). -/
def winBytes (p : WinParams) : List Byte :=
  cat [(1, p.type.toNat), (1, p.froom.toNat), (1, p.pmode.toNat), (1, p.flags.toNat), (4, p.extents.toNat), (8, p.poolBase.toNat),
    (1, p.handles.length), (3, 0)] ++ pad4 p.handles

/-- The opcode of a Dermel row (R436 to R438). -/
def rowOpcode (i : Instr) : Option Nat :=
  match i with
  | .identify .. => some 0x0101
  | .statusQuery .. => some 0x0102
  | .laneConfig .. => some 0x0201
  | .portRole .. => some 0x0202
  | .portLinkSet .. => some 0x0203
  | .portEnable .. => some 0x0204
  | .portQuery .. => some 0x0205
  | .laneMargin .. => some 0x0206
  | .laneStats .. => some 0x0207
  | .opfQuery .. => some 0x0210
  | .opfRetrain .. => some 0x0211
  | .roomCreate .. => some 0x0301
  | .roomResize .. => some 0x0302
  | .roomHostAdd .. => some 0x0303
  | .roomHostRemove .. => some 0x0304
  | .roomPortAssign .. => some 0x0305
  | .roomDestroy .. => some 0x0306
  | .roomQuery .. => some 0x0307
  | .sliceCreate .. => some 0x0310
  | .sliceDestroy .. => some 0x0311
  | .sliceQuery .. => some 0x0312
  | .poolAdopt .. => some 0x0401
  | .poolRelease .. => some 0x0402
  | .poolList .. => some 0x0403
  | .windowCreate .. => some 0x0410
  | .windowDestroy .. => some 0x0411
  | .windowQuery .. => some 0x0412
  | .windowBind .. => some 0x0420
  | .windowUnbind .. => some 0x0421
  | .dcAdd .. => some 0x0430
  | .dcRelease .. => some 0x0431
  | .extentRead .. => some 0x0440
  | .rehomePrepare .. => some 0x0450
  | .rehomeStart .. => some 0x0451
  | .rehomeStatus .. => some 0x0452
  | .dirRead .. => some 0x0460
  | .ruleWrite .. => some 0x0501
  | .ruleRead .. => some 0x0502
  | .ruleCopy .. => some 0x0503
  | .ruleCommit .. => some 0x0504
  | .ruleStatus .. => some 0x0505
  | .qosPortSet .. => some 0x0601
  | .qosPortQuery .. => some 0x0602
  | .gateWrite .. => some 0x0610
  | .gateRead .. => some 0x0611
  | .gateCommit .. => some 0x0612
  | .gateStatus .. => some 0x0613
  | .moverJob .. => some 0x0701
  | .moverChResume .. => some 0x0702
  | .moverChEnable .. => some 0x0703
  | .moverQuery .. => some 0x0704
  | .extentMigrate .. => some 0x0710
  | .migrateStatus .. => some 0x0711
  | .migrateAbort .. => some 0x0712
  | .doorwayEnable .. => some 0x0801
  | .doorwaySet .. => some 0x0802
  | .doorwayQuery .. => some 0x0803
  | .doorwayPolicy .. => some 0x0804
  | .atticRead .. => some 0x0901
  | .atticFatalRead .. => some 0x0902
  | .atticClear .. => some 0x0903
  | .atticLogRead .. => some 0x0904
  | .faultInject .. => some 0x0905
  | .faultQuery .. => some 0x0906
  | .fabricQuery .. => some 0x0a01
  | .timeQuery .. => some 0x0a02
  | .schemaQuery .. => some 0x0a03
  | .schemaSet .. => some 0x0a04
  | .ridgeYield .. => some 0x0a05
  | .routeSet .. => some 0x0a06
  | .routeQuery .. => some 0x0a07
  | .noticeMask .. => some 0x0a08
  | .fabricRelay .. => some 0x0a10
  | .fwQuery .. => some 0x0b01
  | .fwWrite .. => some 0x0b02
  | .fwVerify .. => some 0x0b03
  | .fwActivate .. => some 0x0b04
  | .ehrecWrite .. => some 0x0b05
  | .ehrecRead .. => some 0x0b06
  | .hbmLayout .. => some 0x0c01
  | .hbmLayoutQuery .. => some 0x0c02
  | .pantryMode .. => some 0x0c10
  | .pantryQuery .. => some 0x0c11
  | .pantryFlush .. => some 0x0c12
  | .holdupSet .. => some 0x0c20
  | .holdupQuery .. => some 0x0c21
  | .holdupCal .. => some 0x0c22
  | _ => none

/-- The parameters of a Dermel row as bytes; the other rows have none. -/
def rowParams (i : Instr) : List Byte :=
  match i with
  | .identify _ => cat []
  | .statusQuery _ => cat []
  | .laneConfig _ group mode pa pb pc pd => cat [(1, group.toNat), (1, mode.toNat), (1, pa.toNat), (1, pb.toNat), (1, pc.toNat), (1,
      pd.toNat), (2, 0)]
  | .portRole _ port role => cat [(1, port.toNat), (1, role.toNat), (2, 0)]
  | .portLinkSet _ port rate width => cat [(1, port.toNat), (1, rate.toNat), (1, width.toNat), (1, 0)]
  | .portEnable _ port en => cat [(1, port.toNat), (1, en.toNat), (2, 0)]
  | .portQuery _ port => cat [(1, port.toNat), (3, 0)]
  | .laneMargin _ port target mask dir steps errLimit dwell => cat [(1, port.toNat), (1, target.toNat), (2, mask.toNat), (1, dir.toNat),
      (1, steps.toNat), (1, errLimit.toNat), (1, 0), (4, dwell.toNat)]
  | .laneStats _ port => cat [(1, port.toNat), (3, 0)]
  | .opfQuery _ module => cat [(1, module.toNat), (3, 0)]
  | .opfRetrain _ module => cat [(1, module.toNat), (3, 0)]
  | .roomCreate _ froom hmax a rates => cat [(1, froom.toNat), (1, 0), (2, hmax.toNat)] ++ allotBytes a rates
  | .roomResize _ froom valid a rates => cat [(1, froom.toNat), (1, 0), (2, valid.toNat)] ++ allotBytes a rates
  | .roomHostAdd _ froom host => cat [(1, froom.toNat), (1, 0), (2, host.toNat)]
  | .roomHostRemove _ froom host => cat [(1, froom.toNat), (1, 0), (2, host.toNat)]
  | .roomPortAssign _ froom port add => cat [(1, froom.toNat), (1, port.toNat), (1, add.toNat), (1, 0)]
  | .roomDestroy _ froom => cat [(1, froom.toNat), (3, 0)]
  | .roomQuery _ froom first n => cat [(1, froom.toNat), (1, 0), (2, first.toNat), (2, n.toNat), (2, 0)]
  | .sliceCreate _ window host pasid => cat [(2, window.toNat), (2, host.toNat), (4, pasid.toNat)]
  | .sliceDestroy _ slice => cat [(2, slice.toNat), (2, 0)]
  | .sliceQuery _ slice => cat [(2, slice.toNat), (2, 0)]
  | .poolAdopt _ port => cat [(1, port.toNat), (3, 0)]
  | .poolRelease _ handle => cat [(1, handle.toNat), (3, 0)]
  | .poolList _ => cat []
  | .windowCreate _ p => winBytes p
  | .windowDestroy _ window => cat [(2, window.toNat), (2, 0)]
  | .windowQuery _ window first n => cat [(2, window.toNat), (2, first.toNat), (2, n.toNat), (2, 0)]
  | .windowBind _ window host port access hpa => cat [(2, window.toNat), (2, host.toNat), (1, port.toNat), (1, access.toNat), (2, 0), (8,
      hpa.toNat)]
  | .windowUnbind _ window host timeout => cat [(2, window.toNat), (2, host.toNat), (4, timeout.toNat)]
  | .dcAdd _ window xs => cat [(2, window.toNat), (2, xs.length)] ++ wordBytes xs
  | .dcRelease _ window xs => cat [(2, window.toNat), (2, xs.length)] ++ wordBytes xs
  | .extentRead _ x n => cat [(4, x.toNat), (1, n.toNat), (3, 0)]
  | .rehomePrepare _ p => winBytes p
  | .rehomeStart _ window bid bwin age => cat [(2, window.toNat), (2, bid.toNat), (2, bwin.toNat), (2, 0), (4, age.toNat)]
  | .rehomeStatus _ window => cat [(2, window.toNat), (2, 0)]
  | .dirRead _ pa => cat [(8, pa.toNat)]
  | .ruleWrite _ froom index entry => cat [(1, froom.toNat), (1, index.toNat), (2, 0), (16, entry.toNat)]
  | .ruleRead _ froom first n => cat [(1, froom.toNat), (1, first.toNat), (1, n.toNat), (1, 0)]
  | .ruleCopy _ froom => cat [(1, froom.toNat), (3, 0)]
  | .ruleCommit _ froom => cat [(1, froom.toNat), (3, 0)]
  | .ruleStatus _ froom => cat [(1, froom.toNat), (3, 0)]
  | .qosPortSet _ port valid qmap quanta cbs pbs en => cat [(1, port.toNat), (1, valid.toNat), (2, 0), (4, qmap.toNat)] ++ quanta.flatMap
      (fun q => leBytes 2 q.toNat) ++ cat [(4, cbs.toNat), (4, pbs.toNat), (1, en.toNat), (3, 0)]
  | .qosPortQuery _ port => cat [(1, port.toNat), (3, 0)]
  | .gateWrite _ port cycle base entries => cat [(1, port.toNat), (1, entries.length), (2, 0), (4, cycle.toNat), (8, base.toNat)] ++
      entries.flatMap fun e => leBytes 8 e.toNat
  | .gateRead _ port => cat [(1, port.toNat), (3, 0)]
  | .gateCommit _ instant mask => cat [(8, instant.toNat), (8, mask.toNat)]
  | .gateStatus _ port => cat [(1, port.toNat), (3, 0)]
  | .moverJob _ head => cat [(8, head.toNat)]
  | .moverChResume _ ch action => cat [(1, ch.toNat), (1, action.toNat), (2, 0)]
  | .moverChEnable _ ch en => cat [(1, ch.toNat), (1, en.toNat), (2, 0)]
  | .moverQuery _ => cat []
  | .extentMigrate _ window x dstDev house => cat [(2, window.toNat), (2, 0), (4, x.toNat), (1, dstDev.toNat), (1, house.toNat), (2, 0)]
  | .migrateStatus _ window x => cat [(2, window.toNat), (2, 0), (4, x.toNat)]
  | .migrateAbort _ window x => cat [(2, window.toNat), (2, 0), (4, x.toNat)]
  | .doorwayEnable _ mask en => cat [(4, mask.toNat), (1, en.toNat), (3, 0)]
  | .doorwaySet _ ch valid vals => cat [(1, ch.toNat), (3, 0), (4, valid.toNat)] ++ wordBytes vals
  | .doorwayQuery _ ch => cat [(1, ch.toNat), (3, 0)]
  | .doorwayPolicy _ froom rebind => cat [(1, froom.toNat), (1, rebind.toNat), (2, 0)]
  | .atticRead _ first n => cat [(1, first.toNat), (1, n.toNat), (2, 0)]
  | .atticFatalRead _ => cat []
  | .atticClear _ what => cat [(1, what.toNat), (3, 0)]
  | .atticLogRead _ off len => cat [(4, off.toNat), (4, len.toNat)]
  | .faultInject _ checker arm => cat [(2, checker.toNat), (1, arm.toNat), (1, 0)]
  | .faultQuery _ => cat []
  | .fabricQuery _ => cat []
  | .timeQuery _ => cat []
  | .schemaQuery _ => cat []
  | .schemaSet _ ceiling => cat [(1, ceiling.toNat), (3, 0)]
  | .ridgeYield _ => cat []
  | .routeSet _ fid sw port set => cat [(2, fid.toNat), (2, sw.toNat), (1, port.toNat), (1, set.toNat), (2, 0)]
  | .routeQuery _ first n => cat [(2, first.toNat), (2, n.toNat)]
  | .noticeMask _ mask => cat [(4, mask.toNat)]
  | .fabricRelay _ target pkt => cat [(2, target.toNat), (2, 0)] ++ pkt
  | .fwQuery _ => cat []
  | .fwWrite _ off data => cat [(4, off.toNat), (4, data.length)] ++ pad4 data
  | .fwVerify _ => cat []
  | .fwActivate _ => cat []
  | .ehrecWrite _ off data => cat [(4, off.toNat), (4, data.length)] ++ pad4 data
  | .ehrecRead _ off len => cat [(4, off.toNat), (4, len.toNat)]
  | .hbmLayout _ units => cat [(1, units.toNat), (3, 0)]
  | .hbmLayoutQuery _ => cat []
  | .pantryMode _ window mode rank quota => cat [(2, window.toNat), (1, mode.toNat), (1, rank.toNat), (4, quota.toNat)]
  | .pantryQuery _ window => cat [(2, window.toNat), (2, 0)]
  | .pantryFlush _ window => cat [(2, window.toNat), (2, 0)]
  | .holdupSet _ valid vals => cat [(2, valid.toNat), (2, 0)] ++ wordBytes vals
  | .holdupQuery _ => cat []
  | .holdupCal _ c0 => cat [(4, c0.toNat)]
  | _ => []

/-- The header of a packet, its CRC field as given (R422). -/
def hdrBytes (h : Hdr) (op plen crc : Nat) : List Byte :=
  leBytes 32 (packBits [(op, 16), (h.tag.toNat, 16), (h.room.toNat, 8), (b2n h.force, 1), (b2n h.invalidate, 1), (b2n h.fence, 1), (0, 5),
    (plen, 16), (b2n h.bankV, 1), (b2n h.bank, 1), (0, 6), (h.schema.toNat, 8), (0, 144), (crc, 32)])

/-- The packet of a Dermel row: its header with the CRC over the whole packet, then its parameters (R422). -/
def packetOf (h : Hdr) (i : Instr) : List Byte :=
  let p := rowParams i
  let op := (rowOpcode i).getD 0
  hdrBytes h op p.length (crc32c (hdrBytes h op p.length 0 ++ p)) ++ p

/-- The row that a packet from a transport spells; none: its opcode is in no table. -/
def packetInstr (src : Source) (bs : List Byte) : Option Instr :=
  (parsed (hdrOf src bs) (fieldAt bs 0 2) (paramsOf bs)).map (·.instr)

end Sys2Proof.Machine
end

