-- ==== Sys2Proof/Machine/Transport.lean ====
section
/-! DEFINITION. The transports of Dermel packets (R326, R429, R430, R433 to R435): rings, doorbells, and the turn of the
Hearth. -/

namespace Sys2Proof.Machine

/-! ## Rings (R433, R434) -/

/-- RING_ENABLE: a write of CMD_RNG_CFG.EN. -/
def execRingEnable (path : Path) (ring : BitVec 2) (on : Bool) (s : State) : Eff :=
  .next (s.regWrite path (CMD_RNG_CFG ring.toNat) fun a => a.ringEnable ring.toNat on)

/-- The new slots of a doorbell, as many as TAIL has advanced; a slot that the command does not show cannot be read (log 236). -/
def newSlots (n : Nat) (pkts : List (List Byte)) : List (List Byte) := pkts.take n ++ List.replicate (n - pkts.length) []

/-- DOORBELL (R433, R434, R445): a write of CMD_DB_n in BAR2; a value at or above the ring size stops the ring. -/
def execDoorbell (ring : BitVec 2) (value : Word) (pkts : List (List Byte)) (s : State) : Eff :=
  let n := ring.toNat
  let v := value.toNat
  let size := 2 ^ s.fld (CMD_RNG_CFG_fSIZE n)
  let r := s.ring n
  .next (
    if !s.ep.mse || s.ep.d3 then s.emit (.unsupported .endpoint)
    else if size ≤ v then (s.setFld (CMD_RNG_STAT_fSTOPPED n) 1).setFld (CMD_RNG_STAT_fTAIL_ERR n) 1
    else if !s.flag (CMD_RNG_CFG_fEN n) then s.mapRing n fun x => { x with tail := v }
    else
      let k := (v + size - r.tail % size) % size
      s.mapRing n fun x => { x with tail := v, slots := x.slots ++ newSlots k pkts })

/-- Is a ring served (R433, R434, R549)? -/
def State.ringServed (s : State) (n : Nat) : Bool :=
  s.flag (CMD_RNG_CFG_fEN n) && !s.flag (CMD_RNG_STAT_fSTOPPED n) && s.ep.bme && !s.ep.d3

/-! ## The Hearth's turn (R429, R430) -/

/-- The source of transport `i` in the order of R429. -/
def transport (i : Nat) : Source :=
  match i with
  | 4 => .mailbox | 5 => .mctp | 6 => .monitor | 7 => .relay
  | n => .ring (BitVec.ofNat 2 n)

/-- The packet that stands first in a transport. -/
def State.firstPacket (s : State) (src : Source) : Option Packet :=
  match src with
  | .ring n => if s.ringServed n.toNat then (s.ring n.toNat).slots.head?.map fun b => ⟨b, none⟩ else none
  | .mailbox => s.cmds.mailbox.head?
  | .mctp => s.cmds.mctp.head?
  | .monitor => s.cmds.monitor.head?
  | .relay => s.cmds.relay.head?

/-- May it be taken now: the Hearth is up, and a good packet with FENCE has no earlier command to wait for? -/
def State.packetDue (s : State) (src : Source) (p : Packet) : Bool :=
  s.monUp && (s.cmds.hearthUp || servesRecovery src) && ((badPacket p.bytes).isSome || !(hdrOf src p.bytes).fence || !(s.cmds.pend.any fun x => x.src == src))

/-- The transport served, from the present turn on. -/
def State.nextTransport (s : State) : Option (Nat × Packet) :=
  (List.range 8).findSome? fun k =>
    let i := (s.cmds.turn + k) % 8
    match s.firstPacket (transport i) with
    | some p => if s.packetDue (transport i) p then some (i, p) else none
    | none => none

/-- The packet at the head of a transport taken out of it. -/
def State.takePacket (s : State) (src : Source) : State :=
  match src with
  | .ring n => s.mapRing n.toNat fun r => { r with slots := r.slots.drop 1 }
  | .mailbox => s.mapCmds fun c => { c with mailbox := c.mailbox.drop 1 }
  | .mctp => s.mapCmds fun c => { c with mctp := c.mctp.drop 1 }
  | .monitor => s.mapCmds fun c => { c with monitor := c.monitor.drop 1 }
  | .relay => s.mapCmds fun c => { c with relay := c.relay.drop 1 }

/-- What follows a reply: a ring's HEAD advances and its vector is raised (R433); the monitor prints its status line and goes on
with its lines (R471, R473). -/
def State.afterReply (s : State) (src : Source) : State :=
  match src with
  | .ring n =>
    let k := n.toNat
    let s1 := s.mapRing k fun r => { r with head := (r.head + 1) % 2 ^ s.fld (CMD_RNG_CFG_fSIZE k) }
    if s.flag (CMD_RNG_CFG_fIRQ_EN k) then s1.raise (1 + k) else s1
  | .monitor => (s.monSay [] .ok).pumpLines
  | _ => s

/-- The check of the Hearth's memory when it takes its turn (type 14h of R449): true means uncorrectable. -/
def State.hearthCheck (s : State) : Bool × State :=
  if s.pwr.st == BootSt.run then s.checkRetry { checker := 0x1400 } else (false, s)

/-- A DMA error on a ring stops it (R434). -/
def State.ringDmaErr (s : State) (n : Nat) : State := (s.setFld (CMD_RNG_STAT_fSTOPPED n) 1).setFld (CMD_RNG_STAT_fDMA_ERR n) 1

/-- HEARTH_TURN: one packet of the next transport that has one. -/
def execHearthTurn (s0 : State) : Eff :=
  let (hurt, s) := s0.hearthCheck
  if hurt then .next (s.hearthFault 0x1400 true) else
  match s.nextTransport with
  | none => .next s.pumpLines
  | some (i, p) =>
    let src := transport i
    let s1 := s.mapCmds fun c => { c with turn := (i + 1) % 8 }
    .next (if i < 4 && p.bytes.isEmpty then s1.ringDmaErr i else ((s1.takePacket src).runPacket src p).afterReply src)

/-- KRARIN_VENDOR_COMMAND (R326): the packet waits in its transport, and its reply is the output payload; an opcode that does not
match, a CRC failure or a payload beyond 4 KiB is Invalid Input. -/
def execKrarinVendorCommand (src : FmSrc) (opcode : B16) (pkt : List Byte) (s : State) : Eff :=
  let ok := decide (opcode.toNat = 0xC000 + fieldAt pkt 0 2) && decide (opcode.toNat ≤ 0xCFFF) && decide (pkt.length ≤ 4096) && crcOk pkt
  .next (
    if !ok then s.emit (.mbox none .invalidInput [])
    else match src with
      | .mailbox => s.mapCmds fun c => { c with mailbox := c.mailbox ++ [⟨pkt, none⟩] }
      | .mctp => s.mapCmds fun c => { c with mctp := c.mctp ++ [⟨pkt, none⟩] })

end Sys2Proof.Machine
end

