-- ==== Sys2Proof/Machine/Complete.lean ====
section
/-! DEFINITION. COMMAND_COMPLETION (R430, R431): the work of a PENDING command goes on, and once it has ended its completion
event is posted. -/

namespace Sys2Proof.Machine

/-- The bindings of a Room's windows: window and host. -/
def State.roomBinds (s : State) (r : Nat) : List (Nat × Nat) :=
  s.pool.wins.flatMap fun w => if w.2.room == r then w.2.binds.map fun b => (w.1, b.host) else []

/-- The unbind of a binding goes on (R54). -/
def State.pumpUnbind (s : State) (w host : Nat) : State := (s.pumpSweep w host).unbind5 w host

/-- What a work item still has to do inside the switch, carried on as far as it can go now. -/
def State.carryOn (s : State) (w : Work) : State :=
  match w with
  | .windowBind w h => (s.pumpUnbind w h).present w h
  | .windowUnbind w h => s.pumpUnbind w h
  | .dcRelease w .. => (s.pumpRelease w).endReleases w
  | .roomDestroy r => (s.roomBinds r).foldl (fun a b => a.pumpUnbind b.1 b.2) s
  | .rehome w => s.pumpHandoff w
  | _ => s

/-- The end of FW_VERIFY (R517): a valid image makes its slot verified; in recovery the boot ROM then boots it (R519). -/
def State.endVerify (s : State) (slot : Bool) (version ownMin ownMax : Nat) : State :=
  let s1 := s.mapSlot slot fun x => { x with valid := true, verified := true, version := version, ownMin := ownMin, ownMax := ownMax }
  if s1.pwr.st == .recovery then (s1.mapPwr fun p => { p with slot := slot }).bootOn else s1

/-- How the work of a PENDING command ends now, and the state it leaves; none: it goes on. `e` is what it found outside. -/
def State.endWork (s : State) (p : Pend) (e : WorkEnd) : Option (WorkRes × State) :=
  let failed := match e with | .failed _ => true | _ => false
  match p.work with
  | .portLink q => some (s.linkSetDone q (!failed))
  | .margin q mask =>
    match (s.port q).margin.find? fun m => m.1 == mask, e with
    | some m, .margin errors => some (s.endMargin q m errors)
    | _, _ => none
  | .roomResize r => if s.resizeMet r then some (⟨.ok, 0, []⟩, s.mapRoom r fun x => { x with held := {} }) else none
  | .roomDestroy r => if s.tornDown r then some (s.endTeardown r) else none
  | .poolAdopt q =>
    let r := s.endAdopt q e
    some (r.1, if r.1.status == .ok then r.2.dropRet q else r.2)
  | .windowCreate w => some (s.endCreate w)
  | .windowDestroy w => some (⟨.ok, 0, []⟩, s.removeWin w true)
  | .ruleCommit r =>
    match s.room? r with
    | none => some (⟨.aborted, 0, []⟩, s)
    | some x => if s.oldInfl r x = 0 then some (⟨.ok, 0, []⟩, s.mapRoom r fun y => { y with commitPend := false }) else none
  | .fwVerify slot =>
    match e with
    | .image v a b => some (⟨.ok, 0, []⟩, s.endVerify slot v.toNat a.toNat b.toNat)
    | .failed _ => some (⟨.faulted, 0, []⟩, s)
    | _ => none
  | .hbmLayout u => s.endLayout p.id u
  | .pantryMode w => s.endClean p.id [w] false
  | .pantryFlush ws _ => s.endClean p.id ws true
  | .windowBind .. | .windowUnbind .. | .dcAdd .. | .dcRelease .. | .rehome _ | .gateCommit .. | .moverJob _ | .migrate ..
  | .schemaSet | .ridgeYield | .routeSet | .relay _ | .fwActivate => none

/-- Does FW_ACTIVATE still wait for a handover that has been cancelled, so that the Hearth is to restart now (R379, R520)? -/
def State.activateStuck (s : State) (p : Pend) : Bool :=
  p.work == .fwActivate && s.pwr.st == .run && s.fab.handover.isNone &&
    !(s.fab.todo.any fun x => match x.2 with | .handover _ => true | _ => false)

/-- COMMAND_COMPLETION: one PENDING command, named by its number. While the Hearth is not up, nothing happens. -/
def execCommandCompletion (id : Nat) (e : WorkEnd) (s : State) : Eff :=
  match s.cmds.pend.find? fun p => p.id == id with
  | none => .next s
  | some p0 =>
    if !s.monUp then .next s
    else
      let s1 := s.carryOn p0.work
      match s1.cmds.pend.find? fun p => p.id == id with
      | none => .next s1
      | some p =>
        match p.res with
        | some r => .next (s1.complete p r).noteDropped.resumeWarm
        | none =>
          match s1.endWork p e with
          | some (r, s2) => .next (s2.complete p r).noteDropped.resumeWarm
          | none => .next (if s1.activateStuck p then s1.restartFw else s1)

end Sys2Proof.Machine
end

