-- ==== Sys2Proof/Machine/Dispatch.lean ====
section
/-! DEFINITION. One arm per command of the opcode table, each a direct call of that command's meaning. -/

namespace Sys2Proof.Machine

/-- The effect of a command on everything but the queue. -/
def exec (i : Instr) (s : State) : Host.Outcome State Fault Refusal :=
  match i with
  | .identify h => Sys2Proof.Machine.execIdentify h s
  | .statusQuery h => Sys2Proof.Machine.execStatusQuery h s
  | .laneConfig h group mode pa pb pc pd => Sys2Proof.Machine.execLaneConfig h group mode pa pb pc pd s
  | .portRole h port role => Sys2Proof.Machine.execPortRole h port role s
  | .portLinkSet h port rate width => Sys2Proof.Machine.execPortLinkSet h port rate width s
  | .portEnable h port en => Sys2Proof.Machine.execPortEnable h port en s
  | .portQuery h port => Sys2Proof.Machine.execPortQuery h port s
  | .laneMargin h port target mask dir steps errLimit dwell => Sys2Proof.Machine.execLaneMargin h port target mask dir steps errLimit dwell s
  | .laneStats h port => Sys2Proof.Machine.execLaneStats h port s
  | .opfQuery h module => Sys2Proof.Machine.execOpfQuery h module s
  | .opfRetrain h module => Sys2Proof.Machine.execOpfRetrain h module s
  | .roomCreate h froom hmax a rates => Sys2Proof.Machine.execRoomCreate h froom hmax a rates s
  | .roomResize h froom valid a rates => Sys2Proof.Machine.execRoomResize h froom valid a rates s
  | .roomHostAdd h froom host => Sys2Proof.Machine.execRoomHostAdd h froom host s
  | .roomHostRemove h froom host => Sys2Proof.Machine.execRoomHostRemove h froom host s
  | .roomPortAssign h froom port add => Sys2Proof.Machine.execRoomPortAssign h froom port add s
  | .roomDestroy h froom => Sys2Proof.Machine.execRoomDestroy h froom s
  | .roomQuery h froom first n => Sys2Proof.Machine.execRoomQuery h froom first n s
  | .sliceCreate h window host pasid => Sys2Proof.Machine.execSliceCreate h window host pasid s
  | .sliceDestroy h slice => Sys2Proof.Machine.execSliceDestroy h slice s
  | .sliceQuery h slice => Sys2Proof.Machine.execSliceQuery h slice s
  | .poolAdopt h port => Sys2Proof.Machine.execPoolAdopt h port s
  | .poolRelease h handle => Sys2Proof.Machine.execPoolRelease h handle s
  | .poolList h => Sys2Proof.Machine.execPoolList h s
  | .windowCreate h p => Sys2Proof.Machine.execWindowCreate h p s
  | .windowDestroy h window => Sys2Proof.Machine.execWindowDestroy h window s
  | .windowQuery h window first n => Sys2Proof.Machine.execWindowQuery h window first n s
  | .windowBind h window host port access hpa => Sys2Proof.Machine.execWindowBind h window host port access hpa s
  | .windowUnbind h window host timeout => Sys2Proof.Machine.execWindowUnbind h window host timeout s
  | .dcAdd h window xs => Sys2Proof.Machine.execDcAdd h window xs s
  | .dcRelease h window xs => Sys2Proof.Machine.execDcRelease h window xs s
  | .extentRead h x n => Sys2Proof.Machine.execExtentRead h x n s
  | .rehomePrepare h p => Sys2Proof.Machine.execRehomePrepare h p s
  | .rehomeStart h window bid bwin age => Sys2Proof.Machine.execRehomeStart h window bid bwin age s
  | .rehomeStatus h window => Sys2Proof.Machine.execRehomeStatus h window s
  | .dirRead h pa => Sys2Proof.Machine.execDirRead h pa s
  | .ruleWrite h froom index entry => Sys2Proof.Machine.execRuleWrite h froom index entry s
  | .ruleRead h froom first n => Sys2Proof.Machine.execRuleRead h froom first n s
  | .ruleCopy h froom => Sys2Proof.Machine.execRuleCopy h froom s
  | .ruleCommit h froom => Sys2Proof.Machine.execRuleCommit h froom s
  | .ruleStatus h froom => Sys2Proof.Machine.execRuleStatus h froom s
  | .qosPortSet h port valid qmap quanta cbs pbs en => Sys2Proof.Machine.execQosPortSet h port valid qmap quanta cbs pbs en s
  | .qosPortQuery h port => Sys2Proof.Machine.execQosPortQuery h port s
  | .gateWrite h port cycle base entries => Sys2Proof.Machine.execGateWrite h port cycle base entries s
  | .gateRead h port => Sys2Proof.Machine.execGateRead h port s
  | .gateCommit h instant mask => Sys2Proof.Machine.execGateCommit h instant mask s
  | .gateStatus h port => Sys2Proof.Machine.execGateStatus h port s
  | .moverJob h head => Sys2Proof.Machine.execMoverJob h head s
  | .moverChResume h ch action => Sys2Proof.Machine.execMoverChResume h ch action s
  | .moverChEnable h ch en => Sys2Proof.Machine.execMoverChEnable h ch en s
  | .moverQuery h => Sys2Proof.Machine.execMoverQuery h s
  | .extentMigrate h window x dstDev house => Sys2Proof.Machine.execExtentMigrate h window x dstDev house s
  | .migrateStatus h window x => Sys2Proof.Machine.execMigrateStatus h window x s
  | .migrateAbort h window x => Sys2Proof.Machine.execMigrateAbort h window x s
  | .doorwayEnable h mask en => Sys2Proof.Machine.execDoorwayEnable h mask en s
  | .doorwaySet h ch valid vals => Sys2Proof.Machine.execDoorwaySet h ch valid vals s
  | .doorwayQuery h ch => Sys2Proof.Machine.execDoorwayQuery h ch s
  | .doorwayPolicy h froom rebind => Sys2Proof.Machine.execDoorwayPolicy h froom rebind s
  | .atticRead h first n => Sys2Proof.Machine.execAtticRead h first n s
  | .atticFatalRead h => Sys2Proof.Machine.execAtticFatalRead h s
  | .atticClear h what => Sys2Proof.Machine.execAtticClear h what s
  | .atticLogRead h off len => Sys2Proof.Machine.execAtticLogRead h off len s
  | .faultInject h checker arm => Sys2Proof.Machine.execFaultInject h checker arm s
  | .faultQuery h => Sys2Proof.Machine.execFaultQuery h s
  | .fabricQuery h => Sys2Proof.Machine.execFabricQuery h s
  | .timeQuery h => Sys2Proof.Machine.execTimeQuery h s
  | .schemaQuery h => Sys2Proof.Machine.execSchemaQuery h s
  | .schemaSet h ceiling => Sys2Proof.Machine.execSchemaSet h ceiling s
  | .ridgeYield h => Sys2Proof.Machine.execRidgeYield h s
  | .routeSet h fid sw port set => Sys2Proof.Machine.execRouteSet h fid sw port set s
  | .routeQuery h first n => Sys2Proof.Machine.execRouteQuery h first n s
  | .noticeMask h mask => Sys2Proof.Machine.execNoticeMask h mask s
  | .fabricRelay h target pkt => Sys2Proof.Machine.execFabricRelay h target pkt s
  | .fwQuery h => Sys2Proof.Machine.execFwQuery h s
  | .fwWrite h off data => Sys2Proof.Machine.execFwWrite h off data s
  | .fwVerify h => Sys2Proof.Machine.execFwVerify h s
  | .fwActivate h => Sys2Proof.Machine.execFwActivate h s
  | .ehrecWrite h off data => Sys2Proof.Machine.execEhrecWrite h off data s
  | .ehrecRead h off len => Sys2Proof.Machine.execEhrecRead h off len s
  | .hbmLayout h units => Sys2Proof.Machine.execHbmLayout h units s
  | .hbmLayoutQuery h => Sys2Proof.Machine.execHbmLayoutQuery h s
  | .pantryMode h window mode rank quota => Sys2Proof.Machine.execPantryMode h window mode rank quota s
  | .pantryQuery h window => Sys2Proof.Machine.execPantryQuery h window s
  | .pantryFlush h window => Sys2Proof.Machine.execPantryFlush h window s
  | .holdupSet h valid vals => Sys2Proof.Machine.execHoldupSet h valid vals s
  | .holdupQuery h => Sys2Proof.Machine.execHoldupQuery h s
  | .holdupCal h c0 => Sys2Proof.Machine.execHoldupCal h c0 s
  | .commandCompletion id r => Sys2Proof.Machine.execCommandCompletion id r s
  | .mbIdentify at_ => Sys2Proof.Machine.execMbIdentify at_ s
  | .mbBackgroundOperationStatus at_ => Sys2Proof.Machine.execMbBackgroundOperationStatus at_ s
  | .mbGetEventRecords at_ log => Sys2Proof.Machine.execMbGetEventRecords at_ log s
  | .mbClearEventRecords at_ log all handles => Sys2Proof.Machine.execMbClearEventRecords at_ log all handles s
  | .getEventInterruptPolicy at_ => Sys2Proof.Machine.execGetEventInterruptPolicy at_ s
  | .setEventInterruptPolicy at_ policy => Sys2Proof.Machine.execSetEventInterruptPolicy at_ policy s
  | .mbGetTimestamp at_ => Sys2Proof.Machine.execMbGetTimestamp at_ s
  | .setTimestamp at_ time => Sys2Proof.Machine.execSetTimestamp at_ time s
  | .getSupportedLogs at_ => Sys2Proof.Machine.execGetSupportedLogs at_ s
  | .getLog at_ => Sys2Proof.Machine.execGetLog at_ s
  | .identifyMemoryDevice at_ => Sys2Proof.Machine.execIdentifyMemoryDevice at_ s
  | .getHealthInfo at_ => Sys2Proof.Machine.execGetHealthInfo at_ s
  | .getPoisonList at_ => Sys2Proof.Machine.execGetPoisonList at_ s
  | .getDynamicCapacityConfiguration at_ => Sys2Proof.Machine.execGetDynamicCapacityConfiguration at_ s
  | .getDynamicCapacityExtentList at_ => Sys2Proof.Machine.execGetDynamicCapacityExtentList at_ s
  | .addDynamicCapacityResponse at_ extents => Sys2Proof.Machine.execAddDynamicCapacityResponse at_ extents s
  | .releaseDynamicCapacity at_ extents => Sys2Proof.Machine.execReleaseDynamicCapacity at_ extents s
  | .fmIdentify src => Sys2Proof.Machine.execFmIdentify src s
  | .fmBackgroundOperationStatus src => Sys2Proof.Machine.execFmBackgroundOperationStatus src s
  | .fmGetEventRecords src => Sys2Proof.Machine.execFmGetEventRecords src s
  | .fmClearEventRecords src all handles => Sys2Proof.Machine.execFmClearEventRecords src all handles s
  | .fmGetTimestamp src => Sys2Proof.Machine.execFmGetTimestamp src s
  | .identifySwitchDevice src => Sys2Proof.Machine.execIdentifySwitchDevice src s
  | .getPhysicalPortState src ports => Sys2Proof.Machine.execGetPhysicalPortState src ports s
  | .physicalPortControl src port op => Sys2Proof.Machine.execPhysicalPortControl src port op s
  | .sendPpbCxlIoConfigurationRequest src port write reg value => Sys2Proof.Machine.execSendPpbCxlIoConfigurationRequest src port write reg value s
  | .getVirtualCxlSwitchInfo src vcs => Sys2Proof.Machine.execGetVirtualCxlSwitchInfo src vcs s
  | .bindVppb src vcs vppb port => Sys2Proof.Machine.execBindVppb src vcs vppb port s
  | .unbindVppb src vcs vppb wait => Sys2Proof.Machine.execUnbindVppb src vcs vppb wait s
  | .generateAerEvent src vcs vppb err => Sys2Proof.Machine.execGenerateAerEvent src vcs vppb err s
  | .krarinVendorCommand src opcode pkt => Sys2Proof.Machine.execKrarinVendorCommand src opcode pkt s
  | .peek sp addr n dev => Sys2Proof.Machine.execPeek sp addr n dev s
  | .poke sp addr value dev => Sys2Proof.Machine.execPoke sp addr value dev s
  | .atticRing => Sys2Proof.Machine.execAtticRing s
  | .atticFatal => Sys2Proof.Machine.execAtticFatal s
  | .atticLog off len => Sys2Proof.Machine.execAtticLog off len s
  | .statsPort p => Sys2Proof.Machine.execStatsPort p s
  | .statsLane n => Sys2Proof.Machine.execStatsLane n s
  | .statsOpf m => Sys2Proof.Machine.execStatsOpf m s
  | .statsStw n => Sys2Proof.Machine.execStatsStw n s
  | .inject checker arm mask => Sys2Proof.Machine.execInject checker arm mask s
  | .dermel pkt => Sys2Proof.Machine.execDermel pkt s
  | .baud rate => Sys2Proof.Machine.execBaud rate s
  | .lifecycle => Sys2Proof.Machine.execLifecycle s
  | .lifecycleAdvance t => Sys2Proof.Machine.execLifecycleAdvance t s
  | .lifecycleConfirm t code => Sys2Proof.Machine.execLifecycleConfirm t code s
  | .monitorLine line => Sys2Proof.Machine.execMonitorLine line s
  | .baudChange => Sys2Proof.Machine.execBaudChange s
  | .bypass => Sys2Proof.Machine.execBypass s
  | .idcode => Sys2Proof.Machine.execIdcode s
  | .samplePreload => Sys2Proof.Machine.execSamplePreload s
  | .extest => Sys2Proof.Machine.execExtest s
  | .clamp => Sys2Proof.Machine.execClamp s
  | .highz => Sys2Proof.Machine.execHighz s
  | .dbgAccess write sp addr value dev => Sys2Proof.Machine.execDbgAccess write sp addr value dev s
  | .lcAdvance t => Sys2Proof.Machine.execLcAdvance t s
  | .lcAdvanceUpdate t v => Sys2Proof.Machine.execLcAdvanceUpdate t v s
  | .mbist => Sys2Proof.Machine.execMbist s
  | .fuseProg floor => Sys2Proof.Machine.execFuseProg floor s
  | .tapReset => Sys2Proof.Machine.execTapReset s
  | .challengeExpiry t => Sys2Proof.Machine.execChallengeExpiry t s
  | .flitReceived port t fecOk crcOk msgs ret => Sys2Proof.Machine.execFlitReceived port t fecOk crcOk msgs ret s
  | .memrd hu plane t => Sys2Proof.Machine.execMemrd hu plane t s
  | .memrddata hu plane t => Sys2Proof.Machine.execMemrddata hu plane t s
  | .meminv hu plane t => Sys2Proof.Machine.execMeminv hu plane t s
  | .meminvnt hu plane t => Sys2Proof.Machine.execMeminvnt hu plane t s
  | .memspecrd hu plane t => Sys2Proof.Machine.execMemspecrd hu plane t s
  | .memwr hu plane t => Sys2Proof.Machine.execMemwr hu plane t s
  | .memwrptl hu plane t => Sys2Proof.Machine.execMemwrptl hu plane t s
  | .birspi hu plane t => Sys2Proof.Machine.execBirspi hu plane t s
  | .birsps hu plane t => Sys2Proof.Machine.execBirsps hu plane t s
  | .birspe hu plane t => Sys2Proof.Machine.execBirspe hu plane t s
  | .biconflict hu plane t => Sys2Proof.Machine.execBiconflict hu plane t s
  | .fetchadd hu plane t => Sys2Proof.Machine.execFetchadd hu plane t s
  | .swap hu plane t => Sys2Proof.Machine.execSwap hu plane t s
  | .cas hu plane t => Sys2Proof.Machine.execCas hu plane t s
  | .umin slice slot t => Sys2Proof.Machine.execUmin slice slot t s
  | .umax slice slot t => Sys2Proof.Machine.execUmax slice slot t s
  | .smin slice slot t => Sys2Proof.Machine.execSmin slice slot t s
  | .smax slice slot t => Sys2Proof.Machine.execSmax slice slot t s
  | .and slice slot t => Sys2Proof.Machine.execAnd slice slot t s
  | .or slice slot t => Sys2Proof.Machine.execOr slice slot t s
  | .xor slice slot t => Sys2Proof.Machine.execXor slice slot t s
  | .add128 slice slot t => Sys2Proof.Machine.execAdd128 slice slot t s
  | .binc slice slot t => Sys2Proof.Machine.execBinc slice slot t s
  | .mjSubmit slice value => Sys2Proof.Machine.execMjSubmit slice value s
  | .cxlIoMemoryRead window host pasid tag off len => Sys2Proof.Machine.execCxlIoMemoryRead window host pasid tag off len s
  | .cxlIoMemoryWrite window host pasid tag off data => Sys2Proof.Machine.execCxlIoMemoryWrite window host pasid tag off data s
  | .doorbellPageAccess window host pasid tag off write size value => Sys2Proof.Machine.execDoorbellPageAccess window host pasid tag off write size value s
  | .cxlCacheD2hReq port tag cacheId expectsData => Sys2Proof.Machine.execCxlCacheD2hReq port tag cacheId expectsData s
  | .cxlCacheH2dReq port tag cacheId => Sys2Proof.Machine.execCxlCacheH2dReq port tag cacheId s
  | .secondaryBusReset vcs bridge => Sys2Proof.Machine.execSecondaryBusReset vcs bridge s
  | .slotPowerOff window host => Sys2Proof.Machine.execSlotPowerOff window host s
  | .memoryResponse req rsp t => Sys2Proof.Machine.execMemoryResponse req rsp t s
  | .snoopTimeout hu trk host t => Sys2Proof.Machine.execSnoopTimeout hu trk host t s
  | .internalRetry req t => Sys2Proof.Machine.execInternalRetry req t s
  | .directoryScrub hu e => Sys2Proof.Machine.execDirectoryScrub hu e s
  | .ageingSweep t => Sys2Proof.Machine.execAgeingSweep t s
  | .unbindTimeout window host t => Sys2Proof.Machine.execUnbindTimeout window host t s
  | .capacityResponseTimeout window t => Sys2Proof.Machine.execCapacityResponseTimeout window t s
  | .purgeEnd port => Sys2Proof.Machine.execPurgeEnd port s
  | .handoffStart window => Sys2Proof.Machine.execHandoffStart window s
  | .handoffReady window t => Sys2Proof.Machine.execHandoffReady window t s
  | .handoffAgeDiscard window t => Sys2Proof.Machine.execHandoffAgeDiscard window t s
  | .rehomeAbandon window => Sys2Proof.Machine.execRehomeAbandon window s
  | .egressDequeue port t => Sys2Proof.Machine.execEgressDequeue port t s
  | .bucketTick t => Sys2Proof.Machine.execBucketTick t s
  | .gateSwap port t => Sys2Proof.Machine.execGateSwap port t s
  | .groupDrainExpiry neighbour t => Sys2Proof.Machine.execGroupDrainExpiry neighbour t s
  | .hbmRefresh stack channel start => Sys2Proof.Machine.execHbmRefresh stack channel start s
  | .lockOverrun kind inst hu => Sys2Proof.Machine.execLockOverrun kind inst hu s
  | .arbCounterClear value => Sys2Proof.Machine.execArbCounterClear value s
  | .jobStart room dev => Sys2Proof.Machine.execJobStart room dev s
  | .copy ch dev => Sys2Proof.Machine.execCopy ch dev s
  | .fill ch dev => Sys2Proof.Machine.execFill ch dev s
  | .zero ch dev => Sys2Proof.Machine.execZero ch dev s
  | .compare ch dev => Sys2Proof.Machine.execCompare ch dev s
  | .flush ch dev => Sys2Proof.Machine.execFlush ch dev s
  | .prepare ch dev => Sys2Proof.Machine.execPrepare ch dev s
  | .migstepCopy ch dev => Sys2Proof.Machine.execMigstepCopy ch dev s
  | .switch ch => Sys2Proof.Machine.execSwitch ch s
  | .release ch => Sys2Proof.Machine.execRelease ch s
  | .abandon ch => Sys2Proof.Machine.execAbandon ch s
  | .bystanderResume t => Sys2Proof.Machine.execBystanderResume t s
  | .retry path ch => Sys2Proof.Machine.execRetry path ch s
  | .skip path ch => Sys2Proof.Machine.execSkip path ch s
  | .abort path ch => Sys2Proof.Machine.execAbort path ch s
  | .channelDisable path ch => Sys2Proof.Machine.execChannelDisable path ch s
  | .linkUp port t info => Sys2Proof.Machine.execLinkUp port t info s
  | .linkDown port t => Sys2Proof.Machine.execLinkDown port t s
  | .widthRetry port t => Sys2Proof.Machine.execWidthRetry port t s
  | .partnerChange port rw belowCommon => Sys2Proof.Machine.execPartnerChange port rw belowCommon s
  | .partnerMarginRequest lane => Sys2Proof.Machine.execPartnerMarginRequest lane s
  | .marginDwellEnd port errors => Sys2Proof.Machine.execMarginDwellEnd port errors s
  | .adaptationStep lane up => Sys2Proof.Machine.execAdaptationStep lane up s
  | .retrain path port => Sys2Proof.Machine.execRetrain path port s
  | .hotReset path port => Sys2Proof.Machine.execHotReset path port s
  | .disable path port on t => Sys2Proof.Machine.execDisable path port on t s
  | .freeze path group on => Sys2Proof.Machine.execFreeze path group on s
  | .hotResetReceived port t => Sys2Proof.Machine.execHotResetReceived port t s
  | .perstUpN n high t => Sys2Proof.Machine.execPerstUpN n high t s
  | .poolDeviceTimeout req t => Sys2Proof.Machine.execPoolDeviceTimeout req t s
  | .poolLinkWaitExpiry port t => Sys2Proof.Machine.execPoolLinkWaitExpiry port t s
  | .opfFlit e f t => Sys2Proof.Machine.execOpfFlit e f t s
  | .ackFlit e f t => Sys2Proof.Machine.execAckFlit e f t s
  | .auditFlit e f freed t => Sys2Proof.Machine.execAuditFlit e f freed t s
  | .rtrqFlit e f reason die wordsA wordsB verifyA verifyB t => Sys2Proof.Machine.execRtrqFlit e f reason die wordsA wordsB verifyA verifyB t s
  | .syncFlit e f next free t => Sys2Proof.Machine.execSyncFlit e f next free t s
  | .stairwellPacket l p t => Sys2Proof.Machine.execStairwellPacket l p t s
  | .ctlAck c ack crVc crCnt t => Sys2Proof.Machine.execCtlAck c ack crVc crCnt t s
  | .ctlAudit c freed t => Sys2Proof.Machine.execCtlAudit c freed t s
  | .ctlRtrq c rank id reason t => Sys2Proof.Machine.execCtlRtrq c rank id reason t s
  | .trn c rank id reason t => Sys2Proof.Machine.execTrn c rank id reason t s
  | .ctlSync c next free peerEven t => Sys2Proof.Machine.execCtlSync c next free peerEven t s
  | .timeMark c mark localTime => Sys2Proof.Machine.execTimeMark c mark localTime s
  | .replayTimeout l t => Sys2Proof.Machine.execReplayTimeout l t s
  | .standaloneAck l t => Sys2Proof.Machine.execStandaloneAck l t s
  | .auditInterval l t => Sys2Proof.Machine.execAuditInterval l t s
  | .retrainLimit l t => Sys2Proof.Machine.execRetrainLimit l t s
  | .stairwellTrainingRetry l t => Sys2Proof.Machine.execStairwellTrainingRetry l t s
  | .stwRetrain path l => Sys2Proof.Machine.execStwRetrain path l s
  | .stwDisable path l on => Sys2Proof.Machine.execStwDisable path l on s
  | .hello l m t => Sys2Proof.Machine.execHello l m t s
  | .member l x m t => Sys2Proof.Machine.execMember l x m t s
  | .lost l x id serial t => Sys2Proof.Machine.execLost l x id serial t s
  | .ridge l x ridge standby epoch t => Sys2Proof.Machine.execRidge l x ridge standby epoch t s
  | .state l x ceiling routes seq t => Sys2Proof.Machine.execState l x ceiling routes seq t s
  | .handover l x successor instant t => Sys2Proof.Machine.execHandover l x successor instant t s
  | .delayReq l t1 t => Sys2Proof.Machine.execDelayReq l t1 t s
  | .delayRsp l t1 t2 t3 t4 => Sys2Proof.Machine.execDelayRsp l t1 t2 t3 t4 s
  | .routeStage l x version entries t => Sys2Proof.Machine.execRouteStage l x version entries t s
  | .routeAct l x version instant t => Sys2Proof.Machine.execRouteAct l x version instant t s
  | .homeMove l x window oldHome newHome newWin t => Sys2Proof.Machine.execHomeMove l x window oldHome newHome newWin t s
  | .schemaSwitch l x next instant t => Sys2Proof.Machine.execSchemaSwitch l x next instant t s
  | .ack l x type serial t => Sys2Proof.Machine.execAck l x type serial t s
  | .relay l x all seq pkt t => Sys2Proof.Machine.execRelay l x all seq pkt t s
  | .relayReply l x seq completion status bytes t => Sys2Proof.Machine.execRelayReply l x seq completion status bytes t s
  | .notice l x kind body t => Sys2Proof.Machine.execNotice l x kind body t s
  | .helloInterval t => Sys2Proof.Machine.execHelloInterval t s
  | .helloTimeout l t => Sys2Proof.Machine.execHelloTimeout l t s
  | .memberInterval t => Sys2Proof.Machine.execMemberInterval t s
  | .memberTimeout id t => Sys2Proof.Machine.execMemberTimeout id t s
  | .electionTimer t => Sys2Proof.Machine.execElectionTimer t s
  | .handoverInstant t => Sys2Proof.Machine.execHandoverInstant t s
  | .routeActivation t => Sys2Proof.Machine.execRouteActivation t s
  | .schemaSwitchOver t => Sys2Proof.Machine.execSchemaSwitchOver t s
  | .timeMarkInterval t => Sys2Proof.Machine.execTimeMarkInterval t s
  | .delayInterval t => Sys2Proof.Machine.execDelayInterval t s
  | .holdoverExpiry t => Sys2Proof.Machine.execHoldoverExpiry t s
  | .lowerKeyEligible id t => Sys2Proof.Machine.execLowerKeyEligible id t s
  | .reassemblyTimeout src serial t => Sys2Proof.Machine.execReassemblyTimeout src serial t s
  | .ackResendTimeout serial t => Sys2Proof.Machine.execAckResendTimeout serial t s
  | .relayTimeout seq t => Sys2Proof.Machine.execRelayTimeout seq t s
  | .relayHoldExpiry t => Sys2Proof.Machine.execRelayHoldExpiry t s
  | .noticeGap origin t => Sys2Proof.Machine.execNoticeGap origin t s
  | .restartingLimit t => Sys2Proof.Machine.execRestartingLimit t s
  | .presenceRecognised ch t => Sys2Proof.Machine.execPresenceRecognised ch t s
  | .removal ch t => Sys2Proof.Machine.execRemoval ch t s
  | .modelStep samples t => Sys2Proof.Machine.execModelStep samples t s
  | .fast ch t => Sys2Proof.Machine.execFast ch t s
  | .faultTmr ch t => Sys2Proof.Machine.execFaultTmr ch t s
  | .enhTmo ch t => Sys2Proof.Machine.execEnhTmo ch t s
  | .pgood ch t => Sys2Proof.Machine.execPgood ch t s
  | .perstRelease ch t => Sys2Proof.Machine.execPerstRelease ch t s
  | .offTimerExpiry ch t => Sys2Proof.Machine.execOffTimerExpiry ch t s
  | .gpioEnable n high t => Sys2Proof.Machine.execGpioEnable n high t s
  | .dwyChEn path ch on t => Sys2Proof.Machine.execDwyChEn path ch on t s
  | .module48Down t => Sys2Proof.Machine.execModule48Down t s
  | .module48Up t => Sys2Proof.Machine.execModule48Up t s
  | .doorbell ring value pkts => Sys2Proof.Machine.execDoorbell ring value pkts s
  | .ringEnable path ring on => Sys2Proof.Machine.execRingEnable path ring on s
  | .hearthTurn => Sys2Proof.Machine.execHearthTurn s
  | .evtPop size off => Sys2Proof.Machine.execEvtPop size off s
  | .evtFlush value => Sys2Proof.Machine.execEvtFlush value s
  | .eventPosted => Sys2Proof.Machine.execEventPosted s
  | .loReadLatch path off size => Sys2Proof.Machine.execLoReadLatch path off size s
  | .registerWrite path off size value => Sys2Proof.Machine.execRegisterWrite path off size value s
  | .budgetTick t => Sys2Proof.Machine.execBudgetTick t s
  | .huSenseSample mv10 t => Sys2Proof.Machine.execHuSenseSample mv10 t s
  | .senseFault t => Sys2Proof.Machine.execSenseFault t s
  | .pfwN t => Sys2Proof.Machine.execPfwN t s
  | .vstopWaitExpiry t => Sys2Proof.Machine.execVstopWaitExpiry t s
  | .flushDone t => Sys2Proof.Machine.execFlushDone t s
  | .pfwRelease t => Sys2Proof.Machine.execPfwRelease t s
  | .fatalFault checker addr t => Sys2Proof.Machine.execFatalFault checker addr t s
  | .drainEnd t => Sys2Proof.Machine.execDrainEnd t s
  | .drainLimit t => Sys2Proof.Machine.execDrainLimit t s
  | .disarm path checker => Sys2Proof.Machine.execDisarm path checker s
  | .armOnce path checker => Sys2Proof.Machine.execArmOnce path checker s
  | .armContinuous path checker => Sys2Proof.Machine.execArmContinuous path checker s
  | .stackLoss k t => Sys2Proof.Machine.execStackLoss k t s
  | .hearthWatchdog t => Sys2Proof.Machine.execHearthWatchdog t s
  | .tempReading readings t => Sys2Proof.Machine.execTempReading readings t s
  | .refclkLost b t => Sys2Proof.Machine.execRefclkLost b t s
  | .ckpSwitch path => Sys2Proof.Machine.execCkpSwitch path s
  | .pllLockLoss pll t => Sys2Proof.Machine.execPllLockLoss pll t s
  | .coldReset rail aonLost => Sys2Proof.Machine.execColdReset rail aonLost s
  | .resetRelease ehrec slotOk strap => Sys2Proof.Machine.execResetRelease ehrec slotOk strap s
  | .warmN t => Sys2Proof.Machine.execWarmN t s
  | .warm path value t => Sys2Proof.Machine.execWarm path value t s
  | .vddAonLoss => Sys2Proof.Machine.execVddAonLoss s
  | .hearthUp t version ownMin ownMax => Sys2Proof.Machine.execHearthUp t version ownMin ownMax s
  | .firmwareFallback t => Sys2Proof.Machine.execFirmwareFallback t s
  | .avsUpdate acked measured differs10ms => Sys2Proof.Machine.execAvsUpdate acked measured differs10ms s
  | .railOutOfRange inRange => Sys2Proof.Machine.execRailOutOfRange inRange s
  | .memoryActiveTimeout port => Sys2Proof.Machine.execMemoryActiveTimeout port s
  | .cxlIoCompletionTimeout port => Sys2Proof.Machine.execCxlIoCompletionTimeout port s
  | .linkRecovery port lockLost retry => Sys2Proof.Machine.execLinkRecovery port lockLost retry s
  | .endpointConfigWrite mse bme d3hot => Sys2Proof.Machine.execEndpointConfigWrite mse bme d3hot s
  | .refclkValid b => Sys2Proof.Machine.execRefclkValid b s
  | .i3cDynamicAddress addr => Sys2Proof.Machine.execI3cDynamicAddress addr s
  | .prsntNLow ch t => Sys2Proof.Machine.execPrsntNLow ch t s
  | .poweredHour => Sys2Proof.Machine.execPoweredHour s
  | .hearthReturn t => Sys2Proof.Machine.execHearthReturn t s

end Sys2Proof.Machine
end

