-- ==== Sys2Proof/Safety.lean ====
section
/-! DEFINITION. What counts as a safe run, and the words in which statements speak of commands that are accepted, answered
or left pending. -/

namespace Sys2Proof

open Sys2Proof.Machine

/-- A step goes on: it answers a next state, no fault and no refusal. -/
def Goes (s : State) : Prop := ∃ s', step s = .next s'

/-- A command goes on in a state. -/
def Runs (c : Instr) (s : State) : Prop := ∃ s', exec c s = .next s'

end Sys2Proof

namespace Sys2Proof.Machine

/-! ## Dermel commands -/

/-- The Hearth takes a command of this header now, and checks 4 to 9 of R426 all pass for it. -/
def State.accepts (s : State) (h : Hdr) (c : Cmd) : Bool := s.takes h && (s.checkCmd h c).isNone

/-- One more command can be PENDING: fewer than 512 are, and the completion backlog has room for its result (R430, R443). -/
def State.canPend (s : State) (c : Cmd) : Bool :=
  decide (s.cmds.pend.length < 512) && decide (s.cmds.backlogWords + s.cmds.reserved + compWords c.most ≤ 65536)

/-- The Hearth serves a command of this header now, so that only its own parameters and the state of what it names are left to check
(R422, R423, R426 checks 3 to 7, R428 to R433, R519, R204): the Hearth is up, or recovery serves this transport and opcode; the device is
outside a fatal fault and a warm reset's drain, or the opcode only reads; a FENCE finds no earlier command of its transport PENDING; the schema is 00h or accepted; the ring's ROOM_LOCK permits the Room; the
Room is 00h or one that the opcode permits (`room`); the tag is not that of a PENDING command of the transport; BANK_V is as the opcode
asks (`bank`), FORCE is clear unless it has a use (`force`), INVALIDATE is clear; and the Room is not CLOSING. -/
abbrev State.serves (s : State) (h : Hdr) (op : Nat) (room : Bool := false) (bank : Bool := false) (force : Bool := false) : Prop :=
  ((s.cmds.hearthUp = true ∧ s.pwr.st ≠ .recovery) ∨ (s.pwr.st = .recovery ∧ servesRecovery h.src = true ∧ inRecovery op = true)) ∧
  (s.faulted = false ∨ onlyReads op = true) ∧
  (h.fence = true → ∀ p ∈ s.cmds.pend, p.src ≠ h.src) ∧
  (h.schema = 0 ∨ s.schemaOk op h.schema.toNat = true) ∧
  s.lockOk h.src h.room.toNat = true ∧
  (h.room = 0 ∨ room = true) ∧
  (∀ p ∈ s.cmds.pend, ¬(p.src = h.src ∧ p.tag = h.tag)) ∧
  (h.bankV = bank ∧ (h.force = true → force = true) ∧ h.invalidate = false) ∧
  (op ≠ 0x0307 → s.fidClosing h.room.toNat = false)

/-- One more command can be PENDING: fewer than 512 are, and the backlog has room for the completion of `most` bytes of result data
(R430, R443). -/
abbrev State.pendRoom (s : State) (most : Nat) : Prop :=
  s.cmds.pend.length < 512 ∧ s.cmds.backlogWords + s.cmds.reserved + compWords most ≤ 65536

/-- Allotments of a Room in the ranges of R197. -/
abbrev State.allotOk (s : State) (a : Allot) : Prop :=
  a.tracker.toNat % 32 = 0 ∧ a.tracker.toNat ≤ 59392 ∧ a.dir.toNat ≤ 8388608 ∧ a.pan.toNat ≤ s.panUnits * 917504 ∧
  a.vst.toNat ≤ 262144 ∧ a.mover.toNat ≤ 64 ∧ a.slices.toNat ≤ 1024 ∧ a.rules.toNat ≤ 256

/-- Rates of a Room on ports as R198 asks: the port exists, and CIR is at most PIR, PIR at most the port's raw rate. -/
abbrev State.ratesOk (s : State) (rs : List RateEntry) : Prop :=
  ∀ e ∈ rs, s.portExists e.port.toNat = true ∧ e.cir.toNat ≤ e.pir.toNat ∧ e.pir.toNat ≤ s.rawRate e.port.toNat

/-- Parameters of a window that R48 and R144 permit, for WINDOW_CREATE and (`prep`) for REHOME_PREPARE (R58): type, Room, Pantry mode,
flags, size, pool base and device handles. -/
abbrev State.winOk (s : State) (p : WinParams) (prep : Bool) : Prop :=
  p.type.toNat ≤ 2 ∧ (prep = false → s.noRoom p.froom.toNat = false) ∧ p.pmode.toNat ≤ 2 ∧ (wfHouse p = true → p.pmode = 0) ∧
  p.flags.toNat ≤ 7 ∧ (p.type.toNat = 2 → wfAlias p = false) ∧ (prep = true → wfBase p = false) ∧
  1 ≤ p.extents.toNat ∧ p.extents.toNat ≤ 262144 ∧
  (wfBase p = true → p.poolBase.toNat % 2 ^ 28 = 0 ∧ p.poolBase.toNat + p.extents.toNat * 2 ^ 28 ≤ 2 ^ 48) ∧
  p.handles.length ≤ 64 ∧ p.handles.isEmpty = wfHouse p ∧ p.handles.Nodup ∧ ∀ x ∈ p.handles, (s.dev? x.toNat).isSome = true

/-- DOORWAY_SET leaves VIN_OV (parameter 6) above VIN_UV (parameter 5) when it sets either (R403). -/
abbrev State.uvBelowOv (s : State) (ch valid : Nat) (vals : List Word) : Prop :=
  let m := (((List.range 27).filter fun j => bitOf valid j).map fun j => (j, (vals.getD j 0).toInt)).foldl
    (fun a p => NMap.set a p.1 p.2) (s.dch ch).coming
  (bitOf valid 5 || bitOf valid 6) = true → dwOwn m 5 < dwOwn m 6

/-- The one reply to a command, on the transport that it came from. -/
def State.says (s : State) (h : Hdr) (op : Nat) (st : Status) (detail : Nat) (data : List Byte) : State :=
  s.emit (.reply h.src (s.mkReply h op st detail data))

/-- A command done: its effect, then the reply OK. -/
def State.answers (s : State) (h : Hdr) (op : Nat) (data : List Byte) : State := s.says h op .ok 0 data

/-- A command accepted whose work goes on: it is put among the PENDING commands under the next command number, and
replied to with PENDING. -/
def State.pends (s : State) (h : Hdr) (c : Cmd) (w : Work) : State :=
  let p : Pend := { id := s.cmds.nextId, src := h.src, tag := h.tag, opcode := BitVec.ofNat 16 c.opcode, room := h.room,
                    work := w, words := compWords c.most, relay := none, res := none }
  (s.mapCmds fun x => { x with pend := x.pend ++ [p], nextId := x.nextId + 1 }).says h c.opcode .pending 0 []

/-- The same, by the opcode and the largest completion result data in bytes. -/
def State.waits (s : State) (h : Hdr) (op most : Nat) (w : Work) : State :=
  let p : Pend := { id := s.cmds.nextId, src := h.src, tag := h.tag, opcode := BitVec.ofNat 16 op, room := h.room, work := w,
                    words := compWords most, relay := none, res := none }
  (s.mapCmds fun x => { x with pend := x.pend ++ [p], nextId := x.nextId + 1 }).says h op .pending 0 []

/-! ## The whole state -/

/-- The two states differ in nothing but the outputs. -/
def OnlyOutputs (s t : State) : Prop := t = { s with out := t.out }

/-- Every memory byte reads the same in the two states. -/
def SameBytes (s t : State) : Prop := ∀ a, Memory.read t.mem a = Memory.read s.mem a

/-- HBM and flash are held in the canonical form. -/
abbrev MemInv (s : State) : Prop := Memory.wf s.mem = true

end Sys2Proof.Machine

namespace Sys2Proof.Machine

/-! ## Mailboxes -/

/-- The mailbox of a window serves its host: the window exists, the host's binding is BOUND, and the Hearth is up (R320). -/
abbrev MbReady (s : State) (a : MbAt) (x : Window) (b : Binding) : Prop :=
  s.win? a.window.toNat = some x ∧ x.bind? a.host.toNat = some b ∧ b.st = .bound ∧ s.cmds.hearthUp = true

/-- The answer of a window's mailbox: its return code, payload length and payload stand in the mailbox registers of the host's binding
(R319), and the host is told. -/
def State.mbAnswers (s : State) (a : MbAt) (ret : MbRet) (data : List Byte) : State :=
  s.mbPost a.window.toNat a.host.toNat ret data

/-- The answer to a Fabric Manager API command. -/
def State.fmAnswers (s : State) (ret : MbRet) (data : List Byte) : State := s.emit (.mbox none ret data)

end Sys2Proof.Machine

namespace Sys2Proof.Machine

/-! ## Home units -/

/-- A message for window `w` is granted in `s`, neither aged nor under DRAIN, and leaves the Vestibule: `u` is what
follows. -/
abbrev GrantedFor (s u : State) (hu : Nat) (plane : Bool) (v : VMsg) (w : Nat) (x : Window) : Prop :=
  s.pick hu plane = some v ∧ (s.countsGrant hu plane v).aged v = false ∧ (s.countsGrant hu plane v).draining = false ∧
  v.win = some w ∧ (s.countsGrant hu plane v).win? w = some x ∧ u = (s.countsGrant hu plane v).leave v

/-- What a CXL.mem request needs of its rule (R214, R216): a read-only binding asks for nothing but a read. -/
def State.asks (s : State) (v : VMsg) (b : Binding) (line : Nat) : Needs :=
  if b.rw then s.memNeeds v line else { r := true }

/-- A request is this home's own to serve (no raw access of another home, and no re-homing hands it over), the window is sound, and the
extent of its line answers it: it is checked, and it can be read or written now (R41, R60, R96). -/
abbrev ExtentServes (s : State) (v : VMsg) (w : Nat) (x : Window) (b : Binding) : Prop :=
  let line := x.lineAt v.off
  let c := s.checkExt w line
  s.isRaw v = false ∧ s.handedOver v x = none ∧ s.bindOf v x = some b ∧ b.r96 = false ∧ x.failed = false ∧ c.1 = true ∧
  (if expectsData v.m.kind || v.m.kind == .memSpecRd then ((c.2.ext (line / 2 ^ 22)).read? line).isSome
   else ((c.2.ext (line / 2 ^ 22)).write? line).isSome)

/-- The binding and the rules of the Room permit a request (R215, R216). -/
abbrev RulesPermit (s : State) (v : VMsg) (hu w : Nat) (x : Window) (b : Binding) : Prop :=
  let line := x.lineAt v.off
  let c := (s.checkExt w line).2
  (b.rw || !(v.m.kind == .memInv || v.m.kind == .memInvNT || v.cls != .req)) = true ∧
  (c.ruleCheck hu x.room (line * 64) (.host v.m.host.toNat none) (c.asks v b line)).1 = true

/-- The state after the two checks of a request. -/
def State.checked (s : State) (v : VMsg) (hu w : Nat) (x : Window) (b : Binding) : State :=
  let line := x.lineAt v.off
  let c := (s.checkExt w line).2
  (c.ruleCheck hu x.room (line * 64) (.host v.m.host.toNat none) (c.asks v b line)).2

/-- A request opens or joins its line: a tracker entry for it, with the Room's rule bank, and the engine runs. A violation
that it comes with (kind, host, tag) is recorded before (R118). -/
def State.opens (s : State) (hu room line w : Nat) (rwd : Bool) (req : Req) (bank : Option Bool)
    (viol : Option (Nat × Nat × Nat)) : State :=
  let n := (s.abandonSpec line).fresh1
  let a := match viol with
    | some (kind, host, tag) => n.2.homeViol hu kind host w line tag
    | none => n.2
  (a.addTrk (a.mkTrk n.1 hu room line w rwd req bank)).run

/-- A granted writeback under a tracker number (R70, R105, R112): it opens a line that nothing has open; a line that is open
keeps its data, the writeback in an entry beside the chain; a line in B is first opened for recovery. -/
def State.writesBack (s : State) (id : Nat) (v : VMsg) (hu w : Nat) (x : Window) : State :=
  let line := x.lineAt v.off
  let full := v.m.kind == .memWr
  let d := (v.m.data, v.m.poison)
  let t := s.mkTrk id hu x.room line w true
    (.wbk v.m.host.toNat v.m.tag.toNat v.port v.m.data (if full then allBe else v.m.be) v.m.poison v.m.mval full) none
  match s.busyTrk line with
  | some o => (s.acceptWbk t o full d).run
  | none =>
    if s.stable line = stB then
      match (s.startRecover line).busyTrk line with
      | some o => ((s.startRecover line).acceptWbk t o full d).run
      | none => ((s.startRecover line).addTrk t).run
    else (s.addTrk t).run

/-- A snoop of `host` is outstanding in an open entry. -/
abbrev AwaitsSnoop (s : State) (line host : Nat) (k : Trk) (y : Snoop) : Prop :=
  s.home.trk.find? (fun t => t.line == line && t.snoops.any fun x => x.host == host) = some k ∧
  k.snoops.find? (fun x => x.host == host) = some y

/-- A snoop answered (R114): the snoop is off the entry's list with the answer noted (1 I, 2 S, 3 E), a recall counts the line, and the
entry goes on. -/
def State.takesAnswer (s : State) (k : Trk) (host n : Nat) : State :=
  let b := match k.req, n with
    | .recall w h, 1 => if h < 4096 then s.mapBind w h fun b => { b with linesInv := b.linesInv + 1 } else s
    | _, _ => s
  ((b.mapTrk k.id fun x => { x with snoops := x.snoops.filter fun y => y.host != host, ans := n }).advance k.id).run

/-- Entries of a line whose completions are owed to a host before its BIConflictAck (R117). -/
def State.owed (s : State) (line host : Nat) (k : Trk) : List Nat :=
  (s.home.trk.filter fun u => u.line == line && u.q == host && u.id != k.id && u.st != .done &&
    (u.par || (u.id < k.id && u.st != .chained))).map (·.id)

/-- A BIConflict noted at its snoop. -/
def State.conflictNoted (s : State) (k : Trk) (host : Nat) : State :=
  s.mapTrk k.id fun x => { x with
    snoops := x.snoops.map fun y => if y.host == host then { y with cfl := y.cfl + 1 } else y }

/-- The rule bank in force for a Room. -/
def State.bankOf (s : State) (room : Nat) : Option Bool := (s.room? room).map (·.bank)

end Sys2Proof.Machine

namespace Sys2Proof.Machine

/-- An AtomicOp that the arbiter grants passes every check of R122; `u` is the state that it has left the Vestibule of. -/
abbrev AtomPasses (s u : State) (hu : Nat) (plane : Bool) (v : VMsg) (op : AtomOp) (w : Nat) (x : Window) (b : Binding) : Prop :=
  let line := x.lineAt v.off
  let p := u.ruleCheck hu x.room (line * 64) (.host v.m.host.toNat (v.m.pasid.map (·.toNat))) { r := true, w := true, a := true }
  let c := p.2.checkExt w line
  s.pick hu plane = some v ∧ v.m.kind = .ioAtomic op ∧ (s.countsGrant hu plane v).aged v = false ∧
  u = (s.countsGrant hu plane v).leave v ∧ u.draining = false ∧ v.win = some w ∧ u.win? w = some x ∧
  u.bindOf v x = some b ∧ x.atomic = true ∧ atomSize op v.m.len = true ∧ v.off < x.bytes ∧
  v.off % v.m.len = 0 ∧ b.rw = true ∧ p.1 = true ∧ x.failed = false ∧ c.1 = true ∧
  ((c.2.ext (line / 2 ^ 22)).write? line).isSome = true

/-- The state after the checks of an AtomicOp. -/
def State.atomChecked (u : State) (hu : Nat) (v : VMsg) (w : Nat) (x : Window) : State :=
  let line := x.lineAt v.off
  ((u.ruleCheck hu x.room (line * 64) (.host v.m.host.toNat (v.m.pasid.map (·.toNat))) { r := true, w := true, a := true }).2.checkExt
    w line).2

/-- The request of an AtomicOp (R120): byte offset in the line, size, the two operands of its data. -/
def VMsg.atomReq (v : VMsg) (op : AtomOp) : Req :=
  .atom op v.m.host.toNat v.m.tag.toNat v.port (v.off % 64) v.m.len (v.m.data.toNat % 2 ^ 128) (v.m.data.toNat / 2 ^ 128 % 2 ^ 128)

/-- An extended operation in flight in a slot of a slice, `op` on `n` bytes at offset `target` of window `w` with operand
`opnd`, is the next of its slice on its line, has not reached the age limit, wins the arbiter of its home unit among the REQ requesters
(R110, R174), and passes every check of R126 and R129. -/
abbrev XopPasses (s : State) (slice slot op : Nat) (x : Slice) (w : Window) (y : XSlot) (b : Binding)
    (target size opnd : Nat) (notify : Bool) : Prop :=
  let line := w.lineAt target
  let p := s.ruleCheck (lineHu line) w.room (line * 64) (.host x.host x.pasid) { r := true, w := true, a := true }
  let c := p.2.checkExt x.window line
  NMap.get? s.pool.slices slice = some x ∧ s.win? x.window = some w ∧ NMap.get? x.slots slot = some y ∧
  y.flight = some (target, op, size, notify, opnd) ∧ y.granted = false ∧ x.firstOn w slot = true ∧ s.draining = false ∧
  s.now - y.t0 < s.ageLimit ∧ s.reqWins (lineHu line) (linePlane line) w.room = true ∧ s.scqLevel (lineHu line) < 64 ∧
  xopSize op (xopBytes size) = true ∧ target + xopBytes size ≤ w.bytes ∧ target % xopBytes size = 0 ∧
  w.bind? x.host = some b ∧ b.rw = true ∧ p.1 = true ∧ w.failed = false ∧ c.1 = true ∧
  ((c.2.ext (line / 2 ^ 22)).write? line).isSome = true ∧ c.2.hasGeneral w.room (lineHu line) = true

/-- An extended operation granted: its slot says so, and it opens or joins its line. -/
def State.grantsXop (s : State) (slice slot op : Nat) (x : Slice) (w : Window) (target size opnd : Nat) : State :=
  let line := w.lineAt target
  let c := ((s.ruleCheck (lineHu line) w.room (line * 64) (.host x.host x.pasid) { r := true, w := true, a := true }).2.checkExt
    x.window line).2
  let n := ((c.countsReq (lineHu line) (linePlane line) w.room).abandonSpec line).fresh1
  let a := n.2.mapPool fun p => { p with slices := NMap.adjust p.slices slice fun z =>
    { z with slots := NMap.adjust z.slots slot fun q => { q with granted := true } } }
  (a.addTrk (a.mkTrk n.1 (lineHu line) w.room line x.window false
    (.xop slice slot (target % 64) (xopBytes size) op opnd false) (a.bankOf w.room))).run

end Sys2Proof.Machine

namespace Sys2Proof.Machine

/-! ## The Mover -/

/-- Channel `n` runs job `j` with descriptor `d` fetched, and nothing that it wrote was refused; `u` and `dev1` are the
state and the answers left when its acknowledged writes are taken. -/
abbrev RunsDesc (s u : State) (n : Nat) (dev dev1 : List DevRsp) (j : Job) (head : Nat) (d : Desc) : Prop :=
  s.collect n dev = (none, dev1, u) ∧ (u.chan n).st = .running ∧ (u.chan n).job = some j ∧ j.kind = .list head ∧
  (u.chan n).cur = some d

/-- A channel goes on to its next descriptor when the last one is done (R263). -/
def State.goesOn (s : State) (n : Nat) (j : Job) (dev : List DevRsp) : State :=
  if (s.chan n).st == .running && (s.chan n).cur.isNone && (s.chan n).job.isSome then (s.fetchDesc n j dev).2 else s

/-- Channel `n` runs the migration of extent `x`, which has reached step `k`. -/
abbrev RunsMig (s u : State) (n : Nat) (dev dev1 : List DevRsp) (j : Job) (x k : Nat) (m : Mig) : Prop :=
  s.collect n dev = (none, dev1, u) ∧ (u.chan n).st = .running ∧ (u.chan n).job = some j ∧ j.kind = .mig x ∧
  u.mig? x = some m ∧ m.step = k

/-- A write of a BAR0 register is accepted on a path: through the endpoint with Memory Space Enable outside D3hot, through
the monitor outside DRAIN and FAULT and through the debug paths outside FIELD_LOCKED (R469, R473, R547). -/
abbrev PathWrites (s : State) (path : Path) : Prop :=
  match path with
  | .endpoint => s.ep.mse = true ∧ s.ep.d3 = false
  | .monitor => s.draining = false ∧ s.lifecycle ≠ 2
  | .jtag => s.lifecycle ≠ 2

/-- The answer to an accepted write: the monitor answers its line. -/
def State.pathAnswers (s : State) (path : Path) : State :=
  match path with
  | .monitor => s.emit (.mon [] .ok)
  | _ => s

end Sys2Proof.Machine
end

