-- ==== Sys2Proof/WellFormed.lean ====
section
/-! DEFINITION. Which commands are well formed: their operands can be what the hardware or its partners can send. -/

namespace Sys2Proof

/-- The fabric time at which a command happens, for the commands that carry one (R10). -/
def Instr.time? (i : Instr) : Option Nat :=
  match i with
  | .identify .. => none
  | .statusQuery .. => none
  | .laneConfig .. => none
  | .portRole .. => none
  | .portLinkSet .. => none
  | .portEnable .. => none
  | .portQuery .. => none
  | .laneMargin .. => none
  | .laneStats .. => none
  | .opfQuery .. => none
  | .opfRetrain .. => none
  | .roomCreate .. => none
  | .roomResize .. => none
  | .roomHostAdd .. => none
  | .roomHostRemove .. => none
  | .roomPortAssign .. => none
  | .roomDestroy .. => none
  | .roomQuery .. => none
  | .sliceCreate .. => none
  | .sliceDestroy .. => none
  | .sliceQuery .. => none
  | .poolAdopt .. => none
  | .poolRelease .. => none
  | .poolList .. => none
  | .windowCreate .. => none
  | .windowDestroy .. => none
  | .windowQuery .. => none
  | .windowBind .. => none
  | .windowUnbind .. => none
  | .dcAdd .. => none
  | .dcRelease .. => none
  | .extentRead .. => none
  | .rehomePrepare .. => none
  | .rehomeStart .. => none
  | .rehomeStatus .. => none
  | .dirRead .. => none
  | .ruleWrite .. => none
  | .ruleRead .. => none
  | .ruleCopy .. => none
  | .ruleCommit .. => none
  | .ruleStatus .. => none
  | .qosPortSet .. => none
  | .qosPortQuery .. => none
  | .gateWrite .. => none
  | .gateRead .. => none
  | .gateCommit .. => none
  | .gateStatus .. => none
  | .moverJob .. => none
  | .moverChResume .. => none
  | .moverChEnable .. => none
  | .moverQuery .. => none
  | .extentMigrate .. => none
  | .migrateStatus .. => none
  | .migrateAbort .. => none
  | .doorwayEnable .. => none
  | .doorwaySet .. => none
  | .doorwayQuery .. => none
  | .doorwayPolicy .. => none
  | .atticRead .. => none
  | .atticFatalRead .. => none
  | .atticClear .. => none
  | .atticLogRead .. => none
  | .faultInject .. => none
  | .faultQuery .. => none
  | .fabricQuery .. => none
  | .timeQuery .. => none
  | .schemaQuery .. => none
  | .schemaSet .. => none
  | .ridgeYield .. => none
  | .routeSet .. => none
  | .routeQuery .. => none
  | .noticeMask .. => none
  | .fabricRelay .. => none
  | .fwQuery .. => none
  | .fwWrite .. => none
  | .fwVerify .. => none
  | .fwActivate .. => none
  | .ehrecWrite .. => none
  | .ehrecRead .. => none
  | .hbmLayout .. => none
  | .hbmLayoutQuery .. => none
  | .pantryMode .. => none
  | .pantryQuery .. => none
  | .pantryFlush .. => none
  | .holdupSet .. => none
  | .holdupQuery .. => none
  | .holdupCal .. => none
  | .commandCompletion .. => none
  | .mbIdentify .. => none
  | .mbBackgroundOperationStatus .. => none
  | .mbGetEventRecords .. => none
  | .mbClearEventRecords .. => none
  | .getEventInterruptPolicy .. => none
  | .setEventInterruptPolicy .. => none
  | .mbGetTimestamp .. => none
  | .setTimestamp .. => none
  | .getSupportedLogs .. => none
  | .getLog .. => none
  | .identifyMemoryDevice .. => none
  | .getHealthInfo .. => none
  | .getPoisonList .. => none
  | .getDynamicCapacityConfiguration .. => none
  | .getDynamicCapacityExtentList .. => none
  | .addDynamicCapacityResponse .. => none
  | .releaseDynamicCapacity .. => none
  | .fmIdentify .. => none
  | .fmBackgroundOperationStatus .. => none
  | .fmGetEventRecords .. => none
  | .fmClearEventRecords .. => none
  | .fmGetTimestamp .. => none
  | .identifySwitchDevice .. => none
  | .getPhysicalPortState .. => none
  | .physicalPortControl .. => none
  | .sendPpbCxlIoConfigurationRequest .. => none
  | .getVirtualCxlSwitchInfo .. => none
  | .bindVppb .. => none
  | .unbindVppb .. => none
  | .generateAerEvent .. => none
  | .krarinVendorCommand .. => none
  | .peek .. => none
  | .poke .. => none
  | .atticRing => none
  | .atticFatal => none
  | .atticLog .. => none
  | .statsPort .. => none
  | .statsLane .. => none
  | .statsOpf .. => none
  | .statsStw .. => none
  | .inject .. => none
  | .dermel .. => none
  | .baud .. => none
  | .lifecycle => none
  | .lifecycleAdvance t => some t
  | .lifecycleConfirm t _ => some t
  | .monitorLine .. => none
  | .baudChange => none
  | .bypass => none
  | .idcode => none
  | .samplePreload => none
  | .extest => none
  | .clamp => none
  | .highz => none
  | .dbgAccess .. => none
  | .lcAdvance t => some t
  | .lcAdvanceUpdate t _ => some t
  | .mbist => none
  | .fuseProg .. => none
  | .tapReset => none
  | .challengeExpiry t => some t
  | .flitReceived _ t _ _ _ _ => some t
  | .memrd _ _ t => some t
  | .memrddata _ _ t => some t
  | .meminv _ _ t => some t
  | .meminvnt _ _ t => some t
  | .memspecrd _ _ t => some t
  | .memwr _ _ t => some t
  | .memwrptl _ _ t => some t
  | .birspi _ _ t => some t
  | .birsps _ _ t => some t
  | .birspe _ _ t => some t
  | .biconflict _ _ t => some t
  | .fetchadd _ _ t => some t
  | .swap _ _ t => some t
  | .cas _ _ t => some t
  | .umin _ _ t => some t
  | .umax _ _ t => some t
  | .smin _ _ t => some t
  | .smax _ _ t => some t
  | .and _ _ t => some t
  | .or _ _ t => some t
  | .xor _ _ t => some t
  | .add128 _ _ t => some t
  | .binc _ _ t => some t
  | .mjSubmit .. => none
  | .cxlIoMemoryRead .. => none
  | .cxlIoMemoryWrite .. => none
  | .doorbellPageAccess .. => none
  | .cxlCacheD2hReq .. => none
  | .cxlCacheH2dReq .. => none
  | .secondaryBusReset .. => none
  | .slotPowerOff .. => none
  | .memoryResponse _ _ t => some t
  | .snoopTimeout _ _ _ t => some t
  | .internalRetry _ t => some t
  | .directoryScrub .. => none
  | .ageingSweep t => some t
  | .unbindTimeout _ _ t => some t
  | .capacityResponseTimeout _ t => some t
  | .purgeEnd .. => none
  | .handoffStart .. => none
  | .handoffReady _ t => some t
  | .handoffAgeDiscard _ t => some t
  | .rehomeAbandon .. => none
  | .egressDequeue _ t => some t
  | .bucketTick t => some t
  | .gateSwap _ t => some t
  | .groupDrainExpiry _ t => some t
  | .hbmRefresh .. => none
  | .lockOverrun .. => none
  | .arbCounterClear .. => none
  | .jobStart .. => none
  | .copy .. => none
  | .fill .. => none
  | .zero .. => none
  | .compare .. => none
  | .flush .. => none
  | .prepare .. => none
  | .migstepCopy .. => none
  | .switch .. => none
  | .release .. => none
  | .abandon .. => none
  | .bystanderResume t => some t
  | .retry .. => none
  | .skip .. => none
  | .abort .. => none
  | .channelDisable .. => none
  | .linkUp _ t _ => some t
  | .linkDown _ t => some t
  | .widthRetry _ t => some t
  | .partnerChange .. => none
  | .partnerMarginRequest .. => none
  | .marginDwellEnd .. => none
  | .adaptationStep .. => none
  | .retrain .. => none
  | .hotReset .. => none
  | .disable _ _ _ t => some t
  | .freeze .. => none
  | .hotResetReceived _ t => some t
  | .perstUpN _ _ t => some t
  | .poolDeviceTimeout _ t => some t
  | .poolLinkWaitExpiry _ t => some t
  | .opfFlit _ _ t => some t
  | .ackFlit _ _ t => some t
  | .auditFlit _ _ _ t => some t
  | .rtrqFlit _ _ _ _ _ _ _ _ t => some t
  | .syncFlit _ _ _ _ t => some t
  | .stairwellPacket _ _ t => some t
  | .ctlAck _ _ _ _ t => some t
  | .ctlAudit _ _ t => some t
  | .ctlRtrq _ _ _ _ t => some t
  | .trn _ _ _ _ t => some t
  | .ctlSync _ _ _ _ t => some t
  | .timeMark .. => none
  | .replayTimeout _ t => some t
  | .standaloneAck _ t => some t
  | .auditInterval _ t => some t
  | .retrainLimit _ t => some t
  | .stairwellTrainingRetry _ t => some t
  | .stwRetrain .. => none
  | .stwDisable .. => none
  | .hello _ _ t => some t
  | .member _ _ _ t => some t
  | .lost _ _ _ _ t => some t
  | .ridge _ _ _ _ _ t => some t
  | .state _ _ _ _ _ t => some t
  | .handover _ _ _ _ t => some t
  | .delayReq _ _ t => some t
  | .delayRsp .. => none
  | .routeStage _ _ _ _ t => some t
  | .routeAct _ _ _ _ t => some t
  | .homeMove _ _ _ _ _ _ t => some t
  | .schemaSwitch _ _ _ _ t => some t
  | .ack _ _ _ _ t => some t
  | .relay _ _ _ _ _ t => some t
  | .relayReply _ _ _ _ _ _ t => some t
  | .notice _ _ _ _ t => some t
  | .helloInterval t => some t
  | .helloTimeout _ t => some t
  | .memberInterval t => some t
  | .memberTimeout _ t => some t
  | .electionTimer t => some t
  | .handoverInstant t => some t
  | .routeActivation t => some t
  | .schemaSwitchOver t => some t
  | .timeMarkInterval t => some t
  | .delayInterval t => some t
  | .holdoverExpiry t => some t
  | .lowerKeyEligible _ t => some t
  | .reassemblyTimeout _ _ t => some t
  | .ackResendTimeout _ t => some t
  | .relayTimeout _ t => some t
  | .relayHoldExpiry t => some t
  | .noticeGap _ t => some t
  | .restartingLimit t => some t
  | .presenceRecognised _ t => some t
  | .removal _ t => some t
  | .modelStep _ t => some t
  | .fast _ t => some t
  | .faultTmr _ t => some t
  | .enhTmo _ t => some t
  | .pgood _ t => some t
  | .perstRelease _ t => some t
  | .offTimerExpiry _ t => some t
  | .gpioEnable _ _ t => some t
  | .dwyChEn _ _ _ t => some t
  | .module48Down t => some t
  | .module48Up t => some t
  | .doorbell .. => none
  | .ringEnable .. => none
  | .hearthTurn => none
  | .evtPop .. => none
  | .evtFlush .. => none
  | .eventPosted => none
  | .loReadLatch .. => none
  | .registerWrite .. => none
  | .budgetTick t => some t
  | .huSenseSample _ t => some t
  | .senseFault t => some t
  | .pfwN t => some t
  | .vstopWaitExpiry t => some t
  | .flushDone t => some t
  | .pfwRelease t => some t
  | .fatalFault _ _ t => some t
  | .drainEnd t => some t
  | .drainLimit t => some t
  | .disarm .. => none
  | .armOnce .. => none
  | .armContinuous .. => none
  | .stackLoss _ t => some t
  | .hearthWatchdog t => some t
  | .tempReading _ t => some t
  | .refclkLost _ t => some t
  | .ckpSwitch .. => none
  | .pllLockLoss _ t => some t
  | .coldReset .. => none
  | .resetRelease .. => none
  | .warmN t => some t
  | .warm _ _ t => some t
  | .vddAonLoss => none
  | .hearthUp t _ _ _ => some t
  | .firmwareFallback t => some t
  | .avsUpdate .. => none
  | .railOutOfRange .. => none
  | .memoryActiveTimeout .. => none
  | .cxlIoCompletionTimeout .. => none
  | .linkRecovery .. => none
  | .endpointConfigWrite .. => none
  | .refclkValid .. => none
  | .i3cDynamicAddress .. => none
  | .prsntNLow _ t => some t
  | .poweredHour => none
  | .hearthReturn t => some t

/-- A fabric time is a 64-bit count (R10). -/
def Instr.timeOk (i : Instr) : Bool :=
  match i.time? with
  | some t => decide (t < 2 ^ 64)
  | none => true

/-- Bytes of the parameters of the Dermel commands whose parameters have no fixed length (R436 to R438). -/
def Instr.paramBytes? (i : Instr) : Option Nat :=
  match i with
  | .roomCreate _ _ _ _ rates | .roomResize _ _ _ _ rates => some (28 + 8 * rates.length)
  | .windowCreate _ p | .rehomePrepare _ p => some (20 + p.handles.length)
  | .dcAdd _ _ xs | .dcRelease _ _ xs => some (4 + 4 * xs.length)
  | .gateWrite _ _ _ _ es => some (16 + 8 * es.length)
  | .fabricRelay _ _ pkt => some (4 + pkt.length)
  | .fwWrite _ _ d | .ehrecWrite _ _ d => some (8 + d.length)
  | _ => none

/-- The parameters of a Dermel command fit its packet: at most 4,064 bytes (R423). -/
def Instr.paramsOk (i : Instr) : Bool :=
  match i.paramBytes? with
  | some n => decide (n ≤ 4064)
  | none => true

/-- Lists whose length the parameter tables fix or bound by a one-byte count (R437, R438, R147). -/
def Instr.countsOk (i : Instr) : Bool :=
  match i with
  | .qosPortSet _ _ _ _ quanta _ _ _ => decide (quanta.length = 6)
  | .doorwaySet _ _ _ vals => decide (vals.length = 27)
  | .holdupSet _ _ vals => decide (vals.length = 9)
  | .windowCreate _ p | .rehomePrepare _ p => decide (p.handles.length ≤ 255)
  | .gateWrite _ _ _ _ es => decide (es.length ≤ 255)
  | _ => true

/-- The failing-wire word of a retrain comes once on each of the 66 physical wires of a direction (R355, R356). -/
def Instr.wiresOk (i : Instr) : Bool :=
  match i with
  | .rtrqFlit _ _ _ _ a b _ _ _ => decide (a.length ≤ 66) && decide (b.length ≤ 66)
  | _ => true

/-- A measurement step names each Doorway channel once (R404). -/
def Instr.samplesOk (i : Instr) : Bool :=
  match i with
  | .modelStep samples _ => decide (samples.map (·.ch)).Nodup
  | _ => true

/-- A port has at most 16 lanes, and a margining reports one count for each (R299). -/
def Instr.lanesOk (i : Instr) : Bool :=
  match i with
  | .marginDwellEnd _ errors | .commandCompletion _ (.margin errors) => decide (errors.length ≤ 16)
  | .linkUp _ _ info => decide (info.lanes.length ≤ 16)
  | _ => true

/-- A packet slot holds 4,096 bytes (R422, R433). -/
def Instr.slotsOk (i : Instr) : Bool :=
  match i with
  | .doorbell _ _ pkts => pkts.all fun p => decide (p.length ≤ 4096)
  | .dermel pkt => decide (pkt.length ≤ 4096)
  | _ => true

/-- A register access has 1, 2, 4 or 8 bytes on the bus (R12). -/
def Instr.sizeOk (i : Instr) : Bool :=
  match i with
  | .registerWrite _ _ size _ | .loReadLatch _ _ size | .evtPop size _ =>
    size == 1 || size == 2 || size == 4 || size == 8
  | _ => true

/-- An operand of PCI Express AtomicOps has 4, 8 or 16 bytes (R120). -/
def Instr.atomicsOk (i : Instr) : Bool :=
  match i with
  | .flitReceived _ _ _ _ msgs _ => msgs.all fun m =>
    match m.kind with
    | .ioAtomic _ => m.len == 4 || m.len == 8 || m.len == 16
    | _ => true
  | _ => true

/-- Every check. -/
def Instr.wf (i : Instr) : Bool :=
  i.timeOk && i.paramsOk && i.countsOk && i.wiresOk && i.samplesOk && i.lanesOk && i.slotsOk && i.sizeOk && i.atomicsOk

end Sys2Proof
end

