-- ==== Sys2Proof/Certificates/Slice0/Obligations.lean ====
section
/-! DEFINITION. The statements for the provers. -/

open Sys2Proof Sys2Proof.Machine

/-- IDENTIFY and STATUS_QUERY answer OK with the record of R436 and change nothing but the outputs. LANE_CONFIG on a group
whose ports are unused, with new ports that no other group holds, gives the group its mode and ports, empties the other
groups that the mode concerns, and makes each new port. PORT_ROLE of a port that already has the role changes nothing
else; of another it takes a link that is up down first, then sets PRT_CFG.ROLE, forgets the return record and shows the
idle state. PORT_LINK_SET and LANE_MARGIN end their argument checks PENDING with the target, or the margining, recorded.
PORT_ENABLE writes PRT_LINK_CTL.DISABLE and nothing else for a port that is down and stays enabled. PORT_QUERY,
LANE_STATS and OPF_QUERY answer with the register words. OPF_RETRAIN of a module that is UP starts a retrain. Each reply
has the command's tag and goes to the transport that the command came from. -/
def Obligations.LinkGroupCommandsComplete : Prop :=
  (∀ (s : State) (h : Hdr),
    s.serves h 0x0101 →
    exec (.identify h) s = .next (s.answers h 0x0101
        (leBytes 4 (s.view 0).toNat ++ leBytes 8 Config.uid.toNat ++ leBytes 2 (s.fab.fid.getD 0) ++ leBytes 1 s.fab.ownMin ++
          leBytes 1 s.fab.ownMax ++ leBytes 4 s.fwVer ++ leBytes 1 s.lifecycle))) ∧
  (∀ (s : State) (h : Hdr),
    s.serves h 0x0102 →
    exec (.statusQuery h) s = .next (s.answers h 0x0102
        (leBytes 8 s.devState ++ leBytes 8 s.now ++ leBytes 2 s.cmds.pend.length ++ leBytes 1 (s.allPorts.filter s.inL0).length ++
          leBytes 1 s.pool.rooms.length ++ leBytes 2 s.pool.wins.length))) ∧
  (∀ (s : State) (h : Hdr) (group mode pa pb pc pd : Byte),
    s.serves h 0x0201 →
    (group.toNat < 32 ∧ mode.toNat ≤ 3 ∧ (mode.toNat = 3 → group.toNat % 2 = 0)) →
    ((modePorts mode.toNat [pa.toNat, pb.toNat, pc.toNat, pd.toNat]).Nodup ∧ ∀ p ∈ modePorts mode.toNat [pa.toNat, pb.toNat, pc.toNat, pd.toNat], p < 64) →
    ((s.affected group.toNat mode.toNat).flatMap fun x => (s.group x).2).all (fun p =>
        s.role p == roleUnused && !s.portWork p) = true →
    (modePorts mode.toNat [pa.toNat, pb.toNat, pc.toNat, pd.toNat]).all (fun p =>
        !(((List.range 32).filter fun x => !(s.affected group.toNat mode.toNat).contains x).flatMap fun x => (s.group x).2).contains p)
        = true →
    (((List.range 32).filter fun x => !(s.affected group.toNat mode.toNat).contains x).flatMap fun x => (s.group x).2).length +
        (modePorts mode.toNat [pa.toNat, pb.toNat, pc.toNat, pd.toNat]).length ≤ 64 →
    exec (.laneConfig h group mode pa pb pc pd) s = .next
        (((modePorts mode.toNat [pa.toNat, pb.toNat, pc.toNat, pd.toNat]).foldl (fun a p => a.newPort p)
          (((s.affected group.toNat mode.toNat).foldl (fun a x => a.setGroup x (if mode.toNat = 3 then 3 else 0) []) s).setGroup
            group.toNat mode.toNat (modePorts mode.toNat [pa.toNat, pb.toNat, pc.toNat, pd.toNat]))).answers h 0x0201 [])) ∧
  (∀ (s : State) (h : Hdr) (port role : Byte),
    s.serves h 0x0202 →
    port.toNat < 64 ∧ s.portExists port.toNat = true →
    (role.toNat ≤ 4 ∧ (role.toNat = roleUpstream → (s.port port.toNat).perst ≠ [] ∨ (s.port port.toNat).noInband = false)) →
    (s.port port.toNat).room = none →
    s.portBound port.toNat = false →
    s.portWork port.toNat = false →
    s.role port.toNat = role.toNat →
    exec (.portRole h port role) s = .next (s.answers h 0x0202 [])) ∧
  (∀ (s : State) (h : Hdr) (port role : Byte),
    s.serves h 0x0202 →
    port.toNat < 64 ∧ s.portExists port.toNat = true →
    (role.toNat ≤ 4 ∧ (role.toNat = roleUpstream → (s.port port.toNat).perst ≠ [] ∨ (s.port port.toNat).noInband = false)) →
    (s.port port.toNat).room = none →
    s.portBound port.toNat = false →
    s.portWork port.toNat = false →
    s.role port.toNat ≠ role.toNat →
    exec (.portRole h port role) s = .next (
        let u := ((if s.inL0 port.toNat then s.linkDown port.toNat 1 else s).setFld (PRT_CFG_fROLE port.toNat) role.toNat).dropRet port.toNat
        (u.setFld (PRT_LINK_STAT_fSTATE port.toNat)
          (if (u.port port.toNat).retryAt.isSome then 0 else u.idleState port.toNat)).answers h 0x0202 [])) ∧
  (∀ (s : State) (h : Hdr) (port rate width : Byte),
    s.serves h 0x0203 →
    port.toNat < 64 ∧ s.portExists port.toNat = true →
    rate.toNat ≤ 6 ∧ rate.toNat ≤ s.fld (PRT_CFG_fMAX_RATE port.toNat) →
    width.toNat ≤ 4 ∧ widthLanes width.toNat ≤ s.portWidth port.toNat →
    s.pendRoom 2 →
    s.busyWith (· == .portLink port.toNat) = false →
    exec (.portLinkSet h port rate width) s = .next
        (((s.endMargins port.toNat).mapPort port.toNat fun x => { x with target := some (rate.toNat, width.toNat) }).waits h
          0x0203 2 (.portLink port.toNat))) ∧
  (∀ (s : State) (h : Hdr) (port en : Byte),
    s.serves h 0x0204 →
    port.toNat < 64 ∧ s.portExists port.toNat = true →
    en.toNat ≤ 1 →
    exec (.portEnable h port en) s = .next ((
        if en.toNat = 0 then (s.setFld (PRT_LINK_CTL_fDISABLE port.toNat) 1).linkDown port.toNat 0
        else
          let u := s.setFld (PRT_LINK_CTL_fDISABLE port.toNat) 0
          if u.inL0 port.toNat || (s.port port.toNat).retryAt.isSome then u
          else u.setFld (PRT_LINK_STAT_fSTATE port.toNat) (u.idleState port.toNat)).answers h 0x0204 [])) ∧
  (∀ (s : State) (h : Hdr) (port : Byte),
    s.serves h 0x0205 →
    port.toNat < 64 ∧ s.portExists port.toNat = true →
    exec (.portQuery h port) s = .next (s.answers h 0x0205
        (leBytes 4 (s.reg (PRT_CFG port.toNat)).toNat ++ leBytes 4 (s.reg (PRT_LINK_STAT port.toNat)).toNat ++
          leBytes 4 (s.reg (PRT_LINK_EVT port.toNat)).toNat ++ leBytes 4 (s.reg (PRT_PROTO_STAT port.toNat)).toNat ++
          leBytes 1 ((s.portGroup port.toNat).getD 0) ++
          leBytes 2 ((s.portLanes port.toNat).foldl (fun m l => m + 2 ^ (l - 8 * (s.portGroup port.toNat).getD 0)) 0)))) ∧
  (∀ (s : State) (h : Hdr) (port target : Byte) (mask : B16) (dir steps limit : Byte) (dwell : Word),
    s.serves h 0x0206 →
    port.toNat < 64 ∧ s.portExists port.toNat = true →
    target.toNat ≤ 1 ∧ mask.toNat ≠ 0 ∧ mask.toNat < 2 ^ s.portWidth port.toNat →
    dir.toNat ≤ 3 ∧ steps.toNat ≤ marginSteps (s.fld (PRT_LINK_STAT_fRATE port.toNat)) dir.toNat →
    1 ≤ limit.toNat ∧ limit.toNat ≤ 63 ∧ 1 ≤ dwell.toNat ∧ dwell.toNat ≤ 10000 →
    s.pendRoom 32 →
    s.inL0 port.toNat = true →
    3 ≤ s.fld (PRT_LINK_STAT_fRATE port.toNat) →
    (s.maskLanes port.toNat mask.toNat).all (fun l => !s.flag (LNG_LANE_STAT_fMARGINING (l / 8) (l % 8))) = true →
    exec (.laneMargin h port target mask dir steps limit dwell) s = .next
        (((s.setMargin (s.maskLanes port.toNat mask.toNat) true).mapPort port.toNat fun x =>
            { x with margin := x.margin ++ [(mask.toNat, limit.toNat)] }).waits h
          0x0206 32 (.margin port.toNat mask.toNat))) ∧
  (∀ (s : State) (h : Hdr) (port : Byte),
    s.serves h 0x0207 →
    port.toNat < 64 ∧ s.portExists port.toNat = true →
    exec (.laneStats h port) s = .next (s.answers h 0x0207 ((s.portLanes port.toNat).flatMap fun l =>
        let taps := (NMap.get? s.ports.taps l).getD []
        leBytes 4 (s.reg (LNG_LANE_STAT (l / 8) (l % 8))).toNat ++ leBytes 4 (s.reg (LNG_LANE_ERR (l / 8) (l % 8))).toNat ++
          leBytes 4 (s.reg (LNG_LANE_EQ (l / 8) (l % 8))).toNat ++ leBytes 4 (s.reg (LNG_LANE_EYE (l / 8) (l % 8))).toNat ++
          (taps ++ List.replicate (16 - taps.length) 0)))) ∧
  (∀ (s : State) (h : Hdr) (module : Byte),
    s.serves h 0x0210 →
    module.toNat ≤ 48 →
    exec (.opfQuery h module) s = .next (s.answers h 0x0210
        (leBytes 4 (s.reg (OPF_MOD_STAT module.toNat)).toNat ++ leBytes 4 (s.reg (OPF_MOD_REPAIR module.toNat)).toNat ++
          leBytes 4 (s.reg (OPF_MOD_ERR module.toNat)).toNat ++ leBytes 4 (s.reg (OPF_MOD_LEAK module.toNat)).toNat))) ∧
  (∀ (s : State) (h : Hdr) (module : Byte),
    s.serves h 0x0211 →
    module.toNat ≤ 48 →
    s.lineUp (2 * module.toNat) = true →
    exec (.opfRetrain h module) s = .next ((s.wantRetrain (2 * module.toNat) 3).answers h 0x0211 []))

/-- ROOM_CREATE of a fabric Room ID that is not in use, within the pools and the port rates, makes the Room with the lowest
free local number, gives it its Mover channels, floods the notice and answers with the number. ROOM_RESIZE whose named
allotments cover the Room's use takes effect at once; one that lowers a tracker, directory, Pantry or Vestibule
allotment below the use is left PENDING with the old allotments held back. ROOM_HOST_ADD puts the host at the lowest
free position and answers with it; ROOM_HOST_REMOVE takes a host with no binding and no slice out of the list.
ROOM_PORT_ASSIGN gives a free upstream or pass-through port to the Room, leaves one that the Room has already as it is,
or takes a port that carries nothing from it. ROOM_DESTROY starts the teardown and is PENDING. ROOM_QUERY answers with
the Room's number, state, allotments, use and host list and changes nothing but the outputs. -/
def Obligations.RoomCommandsComplete : Prop :=
  -- ROOM_CREATE
  (∀ (s : State) (h : Hdr) (froom : Byte) (hmax : B16) (a : Allot) (rates : List RateEntry) (r : Nat) (x : Room),
    s.serves h 0x0301 →
    1 ≤ hmax.toNat ∧ hmax.toNat ≤ 4096 →
    s.allotOk a →
    s.ratesOk rates →
    s.localRoom froom.toNat = none →
    r = leastFree (s.pool.rooms.map (·.1)) 65 1 →
    r ≤ 63 →
    s.poolsFit r (allotShare a) = true →
    s.ratesFit r (putRates [] rates) rates = true →
    x = { fid := froom.toNat, share := allotShare a, hmax := hmax.toNat, rates := putRates [] rates } →
    exec (.roomCreate h froom hmax a rates) s = .next ((((s.mapPool fun p => { p with rooms := NMap.set p.rooms r x }).fitChans
        r a.mover.toNat).notice ntcRoomNew (leBytes 1 froom.toNat)).answers h 0x0301 (leBytes 4 r))) ∧
  -- ROOM_RESIZE
  (∀ (s : State) (h : Hdr) (froom : Byte) (valid : B16) (a : Allot) (rates : List RateEntry) (r : Nat) (x : Room)
  (n : Share) (m : NMap (Nat × Nat)),
    s.serves h 0x0302 →
    valid.toNat < 512 ∧ bitOf valid.toNat 7 = false →
    s.allotOk (allotPicked a valid.toNat) →
    (bitOf valid.toNat 8 = true → s.ratesOk rates) →
    s.fidClosing froom.toNat = false →
    s.pendRoom 0 →
    s.localRoom froom.toNat = some r →
    s.room? r = some x →
    n = allotOver a valid.toNat x.share →
    m = (if bitOf valid.toNat 8 then putRates x.rates rates else x.rates) →
    s.poolsFit r n = true →
    (!bitOf valid.toNat 8 || s.ratesFit r m rates) = true →
    s.busyWith (· == .roomResize r) = false →
    (s.roomUse r).mover ≤ n.mover ∧ (s.roomUse r).slices ≤ n.slices ∧ (s.roomUse r).rules ≤ n.rules →
    exec (.roomResize h froom valid a rates) s = .next (
        if (bitOf valid.toNat 0 → (s.roomUse r).tracker ≤ n.tracker) ∧ (bitOf valid.toNat 1 → (s.roomUse r).dir ≤ n.dir) ∧
            (bitOf valid.toNat 2 → (s.roomUse r).pan ≤ n.pan) ∧ (bitOf valid.toNat 3 → (s.roomUse r).vst ≤ n.vst) then
          (((s.mapRoom r fun y => { y with share := n, rates := m, held := {} }).fitChans r n.mover).refillRoom r).answers h 0x0302 []
        else
          (((s.mapRoom r fun y => { y with share := n, rates := m, held := y.share }).fitChans r n.mover).refillRoom r).waits h
            0x0302 0 (.roomResize r))) ∧
  -- ROOM_HOST_ADD
  (∀ (s : State) (h : Hdr) (froom : Byte) (host : B16) (r : Nat) (x : Room) (pos : Nat),
    s.serves h 0x0303 (h.room.toNat == froom.toNat) →
    host.toNat ≤ 4095 →
    s.fidClosing froom.toNat = false →
    s.localRoom froom.toNat = some r →
    s.room? r = some x →
    s.pool.rooms.all (fun p => p.2.hosts.all fun q => q.2 != host.toNat) = true →
    s.freePos r x = some pos →
    exec (.roomHostAdd h froom host) s = .next ((s.mapRoom r fun y => { y with
        hosts := NMap.set y.hosts pos host.toNat, heldPos := y.heldPos.filter (· != pos) }).answers h 0x0303 (leBytes 4 pos))) ∧
  -- ROOM_HOST_REMOVE
  (∀ (s : State) (h : Hdr) (froom : Byte) (host : B16) (r : Nat) (x : Room),
    s.serves h 0x0304 (h.room.toNat == froom.toNat) →
    s.fidClosing froom.toNat = false →
    s.localRoom froom.toNat = some r →
    s.room? r = some x →
    x.hosts.any (fun q => q.2 == host.toNat) = true →
    s.pool.wins.all (fun w => w.2.room != r || w.2.binds.all fun b => b.host != host.toNat) = true →
    s.pool.slices.all (fun p => p.2.room != r || p.2.host != host.toNat) = true →
    exec (.roomHostRemove h froom host) s = .next ((s.mapRoom r fun y => { y with
        heldPos := ((y.hosts.filter fun q => q.2 == host.toNat).map fun q => q.1) ++ y.heldPos
        hosts := y.hosts.filter fun q => q.2 != host.toNat }).answers h 0x0304 [])) ∧
  -- ROOM_PORT_ASSIGN, a port that no Room holds
  (∀ (s : State) (h : Hdr) (froom port add : Byte) (r : Nat),
    s.serves h 0x0305 →
    s.portExists port.toNat = true →
    s.fidClosing froom.toNat = false →
    s.localRoom froom.toNat = some r →
    s.role port.toNat ≠ rolePool ∧ s.role port.toNat ≠ roleFabric →
    (s.port port.toNat).room = none →
    add.toNat = 1 →
    exec (.roomPortAssign h froom port add) s = .next
        ((((s.mapPort port.toNat fun x => { x with room := some r }).dropRet port.toNat).refill port.toNat).answers h 0x0305 [])) ∧
  -- ROOM_PORT_ASSIGN, a port of the Room that carries nothing taken away
  (∀ (s : State) (h : Hdr) (froom port add : Byte) (r : Nat),
    s.serves h 0x0305 →
    s.portExists port.toNat = true →
    s.fidClosing froom.toNat = false →
    s.localRoom froom.toNat = some r →
    s.role port.toNat ≠ rolePool ∧ s.role port.toNat ≠ roleFabric →
    (s.port port.toNat).room = some r →
    add.toNat = 0 →
    s.carries port.toNat = false →
    exec (.roomPortAssign h froom port add) s = .next
        (((s.mapPort port.toNat fun x => { x with room := none }).dropRet port.toNat).answers h 0x0305 [])) ∧
  -- ROOM_PORT_ASSIGN, a port that is in the Room already
  (∀ (s : State) (h : Hdr) (froom port add : Byte) (r : Nat),
    s.serves h 0x0305 →
    s.portExists port.toNat = true →
    s.fidClosing froom.toNat = false →
    s.localRoom froom.toNat = some r →
    s.role port.toNat ≠ rolePool ∧ s.role port.toNat ≠ roleFabric →
    (s.port port.toNat).room = some r →
    add.toNat = 1 →
    exec (.roomPortAssign h froom port add) s = .next (s.answers h 0x0305 [])) ∧
  -- ROOM_DESTROY
  (∀ (s : State) (h : Hdr) (froom : Byte) (r : Nat),
    s.serves h 0x0306 →
    froom.toNat ≠ 0 →
    s.fidClosing froom.toNat = false →
    s.pendRoom 16 →
    s.localRoom froom.toNat = some r →
    exec (.roomDestroy h froom) s = .next ((s.teardown r).waits h 0x0306 16 (.roomDestroy r))) ∧
  -- ROOM_QUERY
  (∀ (s : State) (h : Hdr) (froom : Byte) (first n : B16) (r : Nat) (x : Room),
    s.serves h 0x0307 (h.room.toNat == froom.toNat) →
    first.toNat < x.hmax ∧ n.toNat ≤ 2000 →
    s.localRoom froom.toNat = some r →
    s.room? r = some x →
    ∃ hosts : List Byte, exec (.roomQuery h froom first n) s = .next (s.answers h 0x0307
          (leBytes 1 r ++ leBytes 1 (if x.st = .active then 1 else 2) ++ leBytes 2 x.hmax ++ x.share.bytes ++ (s.roomUse r).bytes ++
            leBytes 4 (Nat.min n.toNat (x.hmax - first.toNat)) ++ hosts)) ∧
        hosts = ((List.range (Nat.min n.toNat (x.hmax - first.toNat))).flatMap fun i =>
          leBytes 2 ((NMap.get? x.hosts (first.toNat + i)).getD 0xFFFF)) ++
            leBytes (2 * (Nat.min n.toNat (x.hmax - first.toNat) % 2)) 0)

/-- SLICE_CREATE for a BOUND host of a window makes the slice with the lowest free slice number and page index and answers
with both; SLICE_DESTROY removes the slice; SLICE_QUERY answers with its record. RULE_WRITE puts the entry into the
inactive bank that the header names, RULE_READ answers with the entries of the named bank, RULE_COPY copies the active
bank into the other, RULE_COMMIT swaps the banks at once and is PENDING, and RULE_STATUS answers with the active bank,
the pending flag and the accesses that carry the old bank. -/
def Obligations.SliceAndRuleCommandsComplete : Prop :=
  -- SLICE_CREATE
  (∀ (s : State) (h : Hdr) (window host : B16) (pasid : Word) (x : Window) (b : Binding) (p : Option Nat) (y : Slice)
  (mine : List (Nat × Slice)) (n page : Nat),
    s.serves h 0x0310 (s.winRoom window.toNat h.room.toNat) →
    bitsOf pasid.toNat 20 11 = 0 →
    s.win? window.toNat = some x →
    x.bind? host.toNat = some b ∧ b.st = .bound →
    s.closing x.room = false →
    p = (if bitOf pasid.toNat 31 then none else some (pasid.toNat % 2 ^ 20)) →
    mine = (s.pool.slices.filter (fun q => q.2.window == window.toNat && q.2.host == host.toNat)) →
    mine.all (fun q => q.2.pasid != p) = true →
    s.roomSlices x.room < (s.share x.room).slices ∧ mine.length < 256 →
    n = leastFree (s.pool.slices.map (·.1)) 1025 0 →
    page = (leastFree (mine.map fun q => q.2.page) 257 0) →
    y = { room := x.room, window := window.toNat, host := host.toNat, pasid := p, page := page } →
    exec (.sliceCreate h window host pasid) s = .next ((s.mapPool fun q => { q with slices := NMap.set q.slices n y }).answers h 0x0310
          (leBytes 2 n ++ leBytes 2 page))) ∧
  -- SLICE_DESTROY
  (∀ (s : State) (h : Hdr) (slice : B16),
    s.serves h 0x0311 (s.sliceRoom slice.toNat h.room.toNat) →
    (NMap.get? s.pool.slices slice.toNat).isSome = true →
    exec (.sliceDestroy h slice) s = .next ((s.dropSlice slice.toNat).answers h 0x0311 [])) ∧
  -- SLICE_QUERY
  (∀ (s : State) (h : Hdr) (slice : B16) (x : Slice),
    s.serves h 0x0312 (s.sliceRoom slice.toNat h.room.toNat) →
    NMap.get? s.pool.slices slice.toNat = some x →
    exec (.sliceQuery h slice) s = .next (s.answers h 0x0312 (leBytes 2 x.window ++ leBytes 2 x.host ++
        leBytes 4 (x.pasid.getD (2 ^ 31)) ++ leBytes 1 x.page ++
        leBytes 1 ((s.roomFid x.room).getD 0) ++ leBytes 1 (x.slots.filter fun p => p.2.flight.isSome).length ++
        leBytes 1 (x.jobs.filter fun p => p.2.flight).length))) ∧
  -- RULE_WRITE into the inactive bank
  (∀ (s : State) (h : Hdr) (froom index : Byte) (entry : BitVec 128) (r : Nat) (x : Room),
    s.serves h 0x0501 (h.room.toNat == froom.toNat) true →
    (ruleOf entry.toNat).mat ≤ 5 ∧ (ruleOf entry.toNat).engine ≤ 1 ∧ (ruleOf entry.toNat).base ≤ (ruleOf entry.toNat).limit ∧ bitOf entry.toNat 119 = false →
    s.fidClosing froom.toNat = false →
    s.localRoom froom.toNat = some r →
    s.room? r = some x →
    h.bank ≠ x.bank →
    x.commitPend = false →
    validRules (NMap.set (x.bankRules h.bank) index.toNat (ruleOf entry.toNat)) ≤ x.share.rules →
    exec (.ruleWrite h froom index entry) s = .next ((s.mapRoom r fun y =>
        y.setBank h.bank (NMap.set (x.bankRules h.bank) index.toNat (ruleOf entry.toNat))).answers h 0x0501 [])) ∧
  -- RULE_READ
  (∀ (s : State) (h : Hdr) (froom first n : Byte) (r : Nat) (x : Room),
    s.serves h 0x0502 (h.room.toNat == froom.toNat) true →
    1 ≤ n.toNat ∧ n.toNat ≤ 32 ∧ first.toNat + n.toNat ≤ 256 →
    s.fidClosing froom.toNat = false →
    s.localRoom froom.toNat = some r →
    s.room? r = some x →
    exec (.ruleRead h froom first n) s = .next (s.answers h 0x0502 ((List.range n.toNat).flatMap fun i =>
        leBytes 16 (ruleImage (NMap.get? (x.bankRules h.bank) (first.toNat + i)) r)))) ∧
  -- RULE_COPY
  (∀ (s : State) (h : Hdr) (froom : Byte) (r : Nat) (x : Room),
    s.serves h 0x0503 (h.room.toNat == froom.toNat) →
    s.fidClosing froom.toNat = false →
    s.localRoom froom.toNat = some r →
    s.room? r = some x →
    x.commitPend = false →
    exec (.ruleCopy h froom) s = .next ((s.mapRoom r fun y => y.setBank (!y.bank) (y.bankRules y.bank)).answers h 0x0503 [])) ∧
  -- RULE_COMMIT
  (∀ (s : State) (h : Hdr) (froom : Byte) (r : Nat) (x : Room),
    s.serves h 0x0504 (h.room.toNat == froom.toNat) →
    s.fidClosing froom.toNat = false →
    s.pendRoom 0 →
    s.localRoom froom.toNat = some r →
    s.room? r = some x →
    ((s.lifecycle = 2 → x.unseals = false)) →
    x.commitPend = false →
    exec (.ruleCommit h froom) s = .next ((s.mapRoom r fun y => { y with bank := !y.bank, commitPend := true }).waits h
        0x0504 0 (.ruleCommit r))) ∧
  -- RULE_STATUS
  (∀ (s : State) (h : Hdr) (froom : Byte) (r : Nat) (x : Room),
    s.serves h 0x0505 (h.room.toNat == froom.toNat) →
    s.fidClosing froom.toNat = false →
    s.localRoom froom.toNat = some r →
    s.room? r = some x →
    exec (.ruleStatus h froom) s = .next (s.answers h 0x0505
        (leBytes 1 (b2n x.bank) ++ leBytes 3 (b2n x.commitPend) ++ leBytes 4 (s.oldInfl r x))))

/-- POOL_ADOPT of a pool-device port in L0 that holds no device is PENDING. POOL_RELEASE of a device with no extent in use
drops it. POOL_LIST answers with the devices. WINDOW_CREATE of a dynamic capacity window puts the window, ACTIVE and
without backing, at its ID and answers with the ID and the pool base; of another window it fills every extent and is
PENDING while extents are zeroed. WINDOW_DESTROY of a window without bindings makes it DESTROYING and is PENDING.
WINDOW_QUERY, EXTENT_READ and DIR_READ change nothing but the outputs. -/
def Obligations.PoolAndWindowCommandsComplete : Prop :=
  -- POOL_ADOPT
  (∀ (s : State) (h : Hdr) (port : Byte),
    s.serves h 0x0401 →
    s.portExists port.toNat = true →
    (s.port port.toNat).unfit = false →
    s.pendRoom 16 →
    s.role port.toNat = rolePool →
    s.devAt port.toNat = none →
    s.inL0 port.toNat = true →
    s.busyWith (· == .poolAdopt port.toNat) = false →
    s.pool.devs.length < 64 →
    exec (.poolAdopt h port) s = .next (s.waits h 0x0401 16 (.poolAdopt port.toNat))) ∧
  -- POOL_RELEASE
  (∀ (s : State) (h : Hdr) (handle : Byte) (d : PoolDev),
    s.serves h 0x0402 →
    s.dev? handle.toNat = some d →
    d.used = [] →
    exec (.poolRelease h handle) s = .next ((s.dropDev handle.toNat).answers h 0x0402 [])) ∧
  -- POOL_LIST
  (∀ (s : State) (h : Hdr),
    s.serves h 0x0403 →
    exec (.poolList h) s = .next (s.answers h 0x0403 (leBytes 4 s.pool.devs.length ++ s.pool.devs.flatMap fun d =>
        leBytes 1 d.1 ++ leBytes 1 d.2.port ++ leBytes 2 0 ++ leBytes 8 d.2.capacity ++ leBytes 4 d.2.free))) ∧
  -- WINDOW_CREATE of a dynamic capacity window
  (∀ (s : State) (h : Hdr) (p : WinParams) (w b room : Nat),
    s.serves h 0x0410 (h.room.toNat == p.froom.toNat) →
    s.winOk p false →
    s.fidClosing p.froom.toNat = false →
    s.placeWin p false = .ok (w, b) →
    s.localRoom p.froom.toNat = some room →
    wtypeOf p.type.toNat = .dynamic →
    exec (.windowCreate h p) s = .next (((s.mapPool fun q => { q with
        wins := NMap.set q.wins w (s.newWin p w b room .creating) }).mapWin w fun y => { y with st := .active }).answers h 0x0410
          (leBytes 8 w ++ leBytes 8 (b * 2 ^ 28)))) ∧
  -- WINDOW_CREATE of a window whose extents have to be zeroed first
  (∀ (s : State) (h : Hdr) (p : WinParams) (w b room : Nat),
    s.serves h 0x0410 (h.room.toNat == p.froom.toNat) →
    s.winOk p false →
    s.fidClosing p.froom.toNat = false →
    s.pendRoom 16 →
    s.placeWin p false = .ok (w, b) →
    s.localRoom p.froom.toNat = some room →
    (wtypeOf p.type.toNat == .dynamic) = false →
    ((s.mapPool fun q => { q with wins := NMap.set q.wins w (s.newWin p w b room .creating) }).fillWin w
        (s.newWin p w b room .creating) .free (List.range p.extents.toNat)).1 = true →
    exec (.windowCreate h p) s = .next (((s.mapPool fun q => { q with
        wins := NMap.set q.wins w (s.newWin p w b room .creating) }).fillWin w
          (s.newWin p w b room .creating) .free (List.range p.extents.toNat)).2.waits h 0x0410 16 (.windowCreate w))) ∧
  -- WINDOW_CREATE of a window whose extents are clean
  (∀ (s : State) (h : Hdr) (p : WinParams) (w b room : Nat),
    s.serves h 0x0410 (h.room.toNat == p.froom.toNat) →
    s.winOk p false →
    s.fidClosing p.froom.toNat = false →
    s.placeWin p false = .ok (w, b) →
    s.localRoom p.froom.toNat = some room →
    (wtypeOf p.type.toNat == .dynamic) = false →
    ((s.mapPool fun q => { q with wins := NMap.set q.wins w (s.newWin p w b room .creating) }).fillWin w
        (s.newWin p w b room .creating) .free (List.range p.extents.toNat)).1 = false →
    exec (.windowCreate h p) s = .next (((((s.mapPool fun q => { q with
          wins := NMap.set q.wins w (s.newWin p w b room .creating) }).fillWin w
            (s.newWin p w b room .creating) .free (List.range p.extents.toNat)).2.mapPool fun q => { q with ext := q.ext.map fun e =>
          if e.2.window == w then (e.1, { e.2 with st := .live }) else e }).mapWin w fun y => { y with st := .active }).answers h 0x0410
        (leBytes 8 w ++ leBytes 8 (b * 2 ^ 28)))) ∧
  -- WINDOW_DESTROY
  (∀ (s : State) (h : Hdr) (window : B16) (x : Window),
    s.serves h 0x0411 (s.winRoom window.toNat h.room.toNat) →
    s.pendRoom 0 →
    s.win? window.toNat = some x →
    x.binds = [] →
    x.st ≠ .creating ∧ x.st ≠ .destroying →
    x.rehome = none →
    exec (.windowDestroy h window) s = .next ((s.mapWin window.toNat fun y => { y with st := .destroying }).waits h
        0x0411 0 (.windowDestroy window.toNat))) ∧
  -- WINDOW_QUERY
  (∀ (s : State) (h : Hdr) (window first n : B16) (x : Window),
    s.serves h 0x0412 (s.winRoom window.toNat h.room.toNat) →
    n.toNat ≤ 250 →
    s.win? window.toNat = some x →
    exec (.windowQuery h window first n) s = .next (s.answers h 0x0412 (leBytes 1 x.type.code ++ leBytes 1 x.st.code ++
        leBytes 1 ((s.roomFid x.room).getD 0) ++ leBytes 1 x.pmode.code ++ leBytes 4 x.extents ++ leBytes 8 x.base ++
        leBytes 2 x.home ++ leBytes 2 x.binds.length ++ leBytes 12 (b2n x.failed) ++
        ((x.binds.drop first.toNat).take n.toNat).flatMap fun b =>
          leBytes 2 b.host ++ leBytes 1 b.port ++ leBytes 1 b.st.code ++ leBytes 1 (b2n b.rw) ++ leBytes 1 b.bridge ++ leBytes 2 0 ++
            leBytes 8 b.hpa))) ∧
  -- EXTENT_READ, with ROOM 00h
  (∀ (s : State) (h : Hdr) (x : Word) (n : Byte),
    s.serves h 0x0440 ((s.localRoom h.room.toNat).isSome) →
    x.toNat + n.toNat ≤ 2 ^ 20 ∧ 1 ≤ n.toNat ∧ n.toNat ≤ 64 →
    h.room = 0 →
    exec (.extentRead h x n) s = .next (s.answers h 0x0440 ((List.range n.toNat).flatMap fun i =>
        leBytes 16 (if s.ext (x.toNat + i) = Ext.zero then 0 else (s.ext (x.toNat + i)).image)))) ∧
  -- EXTENT_READ, with another ROOM: the entries of other Rooms read as zeros
  (∀ (s : State) (h : Hdr) (x : Word) (n : Byte),
    s.serves h 0x0440 ((s.localRoom h.room.toNat).isSome) →
    x.toNat + n.toNat ≤ 2 ^ 20 ∧ 1 ≤ n.toNat ∧ n.toNat ≤ 64 →
    (h.room == 0) = false →
    exec (.extentRead h x n) s = .next (s.answers h 0x0440 ((List.range n.toNat).flatMap fun i =>
        if (s.ext (x.toNat + i)).valid = true ∧ some (s.ext (x.toNat + i)).room = s.hdrRoom h then
          leBytes 16 (if s.ext (x.toNat + i) = Ext.zero then 0 else (s.ext (x.toNat + i)).image)
        else leBytes 16 0))) ∧
  -- DIR_READ
  (∀ (s : State) (h : Hdr) (pa : B64),
    s.serves h 0x0460 ((s.winOfLine (pa.toNat / 64)).any fun w => s.winRoom w h.room.toNat) →
    pa.toNat < 2 ^ 48 →
    exec (.dirRead h pa) s = .next (s.answers h 0x0460 (
        ((List.range 16).flatMap fun w => leBytes 16 (s.dirEnt (dirKey (lineHu (pa.toNat / 64)) (dirSet (pa.toNat / 64)) w)).image) ++
        (match (s.cacheFind (pa.toNat / 64)).bind s.cacheEnt? with
          | some e => leBytes 12 e.image ++ leBytes 4 (1 + 2 * b2n e.dirty)
          | none => leBytes 16 0))))

/-- WINDOW_BIND that R52 does not refuse writes the binding, BINDING, at the host's lowest free bridge, and is PENDING.
WINDOW_UNBIND with FORCE, or of a binding that R96 ended, revokes at once; another one presses the attention button of
the host's bridge and sets the deadline, 5 s for TIMEOUT 0; both leave the binding UNBINDING and are PENDING. DC_ADD of
free indexes of a bound window offers the extents for 5 s and tells the host; DC_RELEASE of LIVE extents makes them
RELEASING and tells the host; both are PENDING. REHOME_PREPARE takes an INCOMING window with clean extents that the
Room's rules cover. REHOME_START turns the window to write-through, starts to clean it and queues one copy for each
extent, and is PENDING. REHOME_STATUS answers with the phase, the lines copied and the tracker entries. -/
def Obligations.BindingAndCapacityCommandsComplete : Prop :=
  -- WINDOW_BIND
  (∀ (s : State) (h : Hdr) (window host : B16) (port access : Byte) (hpa : B64) (x : Window) (b : Binding),
    s.serves h 0x0420 (s.winRoom window.toNat h.room.toNat) →
    host.toNat ≤ 4095 ∧ access.toNat ≤ 1 →
    s.portExists port.toNat = true ∧ s.role port.toNat = roleUpstream →
    s.pendRoom 4 →
    s.win? window.toNat = some x →
    s.bindRefusal host.toNat port.toNat hpa.toNat x = none →
    b = {
        host := host.toNat, port := port.toNat, st := .binding, rw := access.toNat == 1, hpa := hpa.toNat,
        bridge := s.freeBridge port.toNat } →
    exec (.windowBind h window host port access hpa) s = .next
        ((s.mapWin window.toNat fun y => { y with binds := y.binds ++ [b] }).waits h
          0x0420 4 (.windowBind window.toNat host.toNat))) ∧
  -- WINDOW_UNBIND with FORCE, or of a binding that R96 ended
  (∀ (s : State) (h : Hdr) (window host : B16) (timeout : Word) (b : Binding),
    s.serves h 0x0421 (s.winRoom window.toNat h.room.toNat) false true →
    timeout.toNat = 0 ∨ (100 ≤ timeout.toNat ∧ timeout.toNat ≤ 60000) →
    s.pendRoom 8 →
    (s.win? window.toNat).bind (·.bind? host.toNat) = some b →
    b.st ≠ .binding ∧ b.st ≠ .unbinding →
    h.force = true ∨ b.r96 = true →
    exec (.windowUnbind h window host timeout) s = .next
        (((s.mapBind window.toNat host.toNat fun y => { y with st := .unbinding }).unbind2 window.toNat host.toNat).waits h
          0x0421 8 (.windowUnbind window.toNat host.toNat))) ∧
  -- WINDOW_UNBIND without FORCE
  (∀ (s : State) (h : Hdr) (window host : B16) (timeout : Word) (b : Binding) (d : Nat),
    s.serves h 0x0421 (s.winRoom window.toNat h.room.toNat) false true →
    timeout.toNat = 0 ∨ (100 ≤ timeout.toNat ∧ timeout.toNat ≤ 60000) →
    s.pendRoom 8 →
    (s.win? window.toNat).bind (·.bind? host.toNat) = some b →
    b.st ≠ .binding ∧ b.st ≠ .unbinding →
    h.force = false ∧ b.r96 = false →
    d = s.now + (if timeout.toNat = 0 then 5000 else timeout.toNat) * 1000000 →
    exec (.windowUnbind h window host timeout) s = .next
        ((((s.mapBind window.toNat host.toNat fun y => { y with st := .unbinding }).mapBind window.toNat host.toNat fun y =>
            { y with deadline := some d }).bridgeMsg b.port host.toNat b.bridge evtAttention).waits h
          0x0421 8 (.windowUnbind window.toNat host.toNat))) ∧
  -- DC_ADD
  (∀ (s : State) (h : Hdr) (window : B16) (xs : List Word) (x : Window) (b : Binding) (is : List Nat) (o : Offer),
    s.serves h 0x0430 (s.winRoom window.toNat h.room.toNat) →
    x.type = .dynamic ∧ xs.all (fun i => i.toNat < x.extents) = true →
    s.pendRoom (4 + 4 * xs.length) →
    s.win? window.toNat = some x →
    x.boundOne = some b →
    is = (xs.map (·.toNat)).eraseDups →
    is.all (fun i => !(s.ext (x.baseX + i)).valid) = true →
    is.length ≤ s.freeOf x.house x.devs →
    o = { id := x.nextOffer, xs := is, deadline := s.now + 5000000000 } →
    exec (.dcAdd h window xs) s = .next
        ((((s.fillWin window.toNat x .offered is).2.mapWin window.toNat fun y =>
            { y with offers := y.offers ++ [o], nextOffer := y.nextOffer + 1 }).bindEvent window.toNat b.host 0 is).waits h
          0x0430 (4 + 4 * xs.length) (.dcAdd window.toNat x.nextOffer))) ∧
  -- DC_RELEASE
  (∀ (s : State) (h : Hdr) (window : B16) (xs : List Word) (x : Window) (b : Binding) (is : List Nat),
    s.serves h 0x0431 (s.winRoom window.toNat h.room.toNat) false true →
    x.type = .dynamic ∧ xs.all (fun i => i.toNat < x.extents) = true →
    s.pendRoom (4 + 4 * xs.length) →
    s.win? window.toNat = some x →
    x.boundOne = some b →
    is = (xs.map (·.toNat)).eraseDups →
    is.all (fun i => (s.ext (x.baseX + i)).valid && (s.ext (x.baseX + i)).st == .live) = true →
    exec (.dcRelease h window xs) s = .next
        (((is.foldl (fun a i => a.setExt (x.baseX + i) { a.ext (x.baseX + i) with st := .releasing }) s).bindEvent window.toNat
            b.host 1 is).waits h 0x0431 (4 + 4 * xs.length) (.dcRelease window.toNat is h.force (s.now + 5000000000)))) ∧
  -- REHOME_PREPARE
  (∀ (s : State) (h : Hdr) (p : WinParams) (w b room : Nat) (r : Room),
    s.serves h 0x0450 (h.room.toNat == p.froom.toNat) →
    s.winOk p true →
    s.fidClosing p.froom.toNat = false →
    s.localRoom p.froom.toNat = some room →
    s.room? room = some r →
    s.placeWin p true = .ok (w, b) →
    r.covers (b * 65536) (p.extents.toNat * 65536) = true →
    exec (.rehomePrepare h p) s = .next (
        let q := s.incomingWin h p w b room
        ((q.2.mapPool fun y => { y with wins := NMap.set y.wins w q.1 }).fillWin w q.1 .live (List.range p.extents.toNat)).2.answers h
          0x0450 (leBytes 4 w))) ∧
  -- REHOME_START
  (∀ (s : State) (h : Hdr) (window bid bwin : B16) (age : Word) (x : Window),
    s.serves h 0x0451 (s.winRoom window.toNat h.room.toNat) →
    bid.toNat ≤ 4095 ∧ bwin.toNat ≤ 4095 ∧ (age.toNat = 0 ∨ (1000 ≤ age.toNat ∧ age.toNat ≤ 100000)) →
    s.pendRoom 4 →
    s.win? window.toNat = some x →
    x.st = .active ∧ x.rehome = none ∧ x.failed = false →
    (s.validExts x).all (fun i => (s.ext i).st == .live && (s.mig? i).isNone) = true →
    exec (.rehomeStart h window bid bwin age) s = .next (
        let v := s.free
        let r : Rehome := { old := true, peer := bid.toNat, peerWin := bwin.toNat, mode := x.pmode
                            age := if age.toNat = 0 then 20000 else age.toNat }
        let u := (v.2.mapWin window.toNat fun y => { y with st := .copying, pmode := .wt, grant := false, rehome := some r }).startClean none
          window.toNat false (v.2.dirtyOf x)
        let xs := s.validExts x
        (u.mapMov fun m => { m with
          nextJob := s.mov.nextJob + xs.length
          queue := m.queue ++ ((List.range xs.length).zip xs).map fun p => { id := s.mov.nextJob + p.1, room := 0, kind := .mig p.2 }
          migs := m.migs ++ xs.map fun i => { x := i, win := window.toNat, dstHouse := false, dstDev := 0, oldHouse := (s.ext i).srcHouse,
                                              oldDev := (s.ext i).srcDev, cmd := false,
                                              remote := some (bid.toNat, (v.1.toNat + (i - x.baseX)) % 2 ^ 24) } }).waits h
          0x0451 4 (.rehome window.toNat))) ∧
  -- REHOME_STATUS
  (∀ (s : State) (h : Hdr) (window : B16) (x : Window),
    s.serves h 0x0452 (s.winRoom window.toNat h.room.toNat) →
    s.win? window.toNat = some x →
    ∃ copied : Nat, exec (.rehomeStatus h window) s = .next (s.answers h 0x0452
          (leBytes 4 x.st.code ++ leBytes 4 copied ++ leBytes 4 (s.winTrk window.toNat))) ∧
        (x.rehome = none → copied = 0) ∧ ∀ r, x.rehome = some r → copied = r.copied)

/-- QOS_PORT_SET writes the fields that VALID selects and fills the buckets of a port whose depth it sets; with VALID 0 it
changes nothing but the outputs. QOS_PORT_QUERY answers with the 34 words of the port's QOS registers. GATE_WRITE puts
the base, the cycle and the entries into the named bank, which is not the active one; with no entries the bank is empty.
GATE_READ answers with the named bank. GATE_COMMIT stages the swap of the ports' banks at its instant and is PENDING.
GATE_STATUS answers with the active bank, whether a swap is pending, the gates that are open and the instant. -/
def Obligations.SchedulingCommandsComplete : Prop :=
  -- QOS_PORT_SET
  (∀ (s : State) (h : Hdr) (port valid : Byte) (qmap : Word) (quanta : List B16) (cbs pbs : Word) (en : Byte),
    s.serves h 0x0601 (s.portFid port.toNat h.room.toNat) →
    port.toNat < 64 ∧ s.portExists port.toNat = true →
    valid.toNat < 32 →
    (bitOf valid.toNat 0 = true → qmap.toNat < 2 ^ 18) →
    (bitOf valid.toNat 1 = true → ∀ i < 6, 1 ≤ (quanta.getD i 0).toNat ∧ (quanta.getD i 0).toNat ≤ 4095) →
    (bitOf valid.toNat 2 = true → 4096 ≤ cbs.toNat ∧ cbs.toNat ≤ 16777216) →
    (bitOf valid.toNat 3 = true → 4096 ≤ pbs.toNat ∧ pbs.toNat ≤ 16777216) →
    (bitOf valid.toNat 4 = true → en.toNat ≤ 1) →
    ∃ s1 s2 s3 s4 s5 s6 : State, exec (.qosPortSet h port valid qmap quanta cbs pbs en) s = .next (s6.answers h 0x0601 []) ∧
        s1 = (if bitOf valid.toNat 0 then s.setReg (QOS_QMAP port.toNat) qmap else s) ∧
        s2 = (if bitOf valid.toNat 1 then (List.range 6).foldl (fun a i =>
          a.setFld (QOS_DRR_n_fQUANTUM port.toNat i) (quanta.getD i 0).toNat) s1 else s1) ∧
        s3 = (if bitOf valid.toNat 2 then s2.setFld (QOS_CBS_fDEPTH port.toNat) cbs.toNat else s2) ∧
        s4 = (if bitOf valid.toNat 3 then s3.setFld (QOS_PBS_fDEPTH port.toNat) pbs.toNat else s3) ∧
        s5 = (if bitOf valid.toNat 2 || bitOf valid.toNat 3 then s4.fillBuckets port.toNat else s4) ∧
        s6 = (if bitOf valid.toNat 4 then s5.setFld (QOS_GATE_CTL_fEN port.toNat) en.toNat else s5)) ∧
  -- QOS_PORT_QUERY
  (∀ (s : State) (h : Hdr) (port : Byte),
    s.serves h 0x0602 (s.portFid port.toNat h.room.toNat) →
    port.toNat < 64 ∧ s.portExists port.toNat = true →
    exec (.qosPortQuery h port) s = .next (s.answers h 0x0602 ((List.range 34).flatMap fun i =>
        leBytes 4 (s.qosReg port.toNat (4 * i))))) ∧
  -- GATE_WRITE
  (∀ (s : State) (h : Hdr) (port : Byte) (cycle : Word) (base : B64) (entries : List B64) (b : GateBank),
    s.serves h 0x0610 (s.portFid port.toNat h.room.toNat) true →
    port.toNat < 64 ∧ s.portExists port.toNat = true →
    entries.length ≤ 64 ∧ 1000 ≤ cycle.toNat ∧ cycle.toNat ≤ 1000000000 →
    entries.all (fun e => 10 ≤ bitsOf e.toNat 0 30 && bitsOf e.toNat 30 2 == 0 && bitsOf e.toNat 40 24 == 0) = true →
    b = ({ base := base.toNat, cycle := cycle.toNat, entries := entries.map fun e => gateOfWord e.toNat }) →
    b.entries = [] ∨ (b.entries.foldl (fun n e => n + e.1) 0 = cycle.toNat ∧
        (List.range 8).all (fun q => b.entries.any fun e => bitOf e.2 q) = true) →
    (s.port port.toNat).gateAct ≠ h.bank →
    (s.port port.toNat).gateT = none →
    exec (.gateWrite h port cycle base entries) s = .next ((s.mapPort port.toNat fun y =>
        if h.bank then { y with gate1 := b } else { y with gate0 := b }).answers h 0x0610 [])) ∧
  -- GATE_READ
  (∀ (s : State) (h : Hdr) (port : Byte) (b : GateBank),
    s.serves h 0x0611 (s.portFid port.toNat h.room.toNat) true →
    port.toNat < 64 ∧ s.portExists port.toNat = true →
    b = (s.port port.toNat).bank h.bank →
    exec (.gateRead h port) s = .next (s.answers h 0x0611 (leBytes 1 port.toNat ++ leBytes 1 b.entries.length ++ leBytes 2 0 ++
        leBytes 4 b.cycle ++ leBytes 8 b.base ++ b.entries.flatMap fun e => leBytes 8 (packBits [(e.1, 30), (0, 2), (e.2, 8)])))) ∧
  -- GATE_COMMIT
  (∀ (s : State) (h : Hdr) (instant mask : B64),
    s.serves h 0x0612 (((List.range 64).filter fun p => bitOf mask.toNat p).all fun p => s.portFid p h.room.toNat) →
    s.now + 100000 ≤ instant.toNat ∧ instant.toNat ≤ s.now + 2 ^ 40 →
    (∃ p < 64, bitOf mask.toNat p = true) →
    (∀ p < 64, bitOf mask.toNat p = true → s.portExists p = true) →
    s.pendRoom 0 →
    ((List.range 64).filter fun p => bitOf mask.toNat p).all (fun p =>
        decide (((s.port p).bank (!(s.port p).gateAct)).base ≤ instant.toNat) && (s.port p).gateT.isNone) = true →
    exec (.gateCommit h instant mask) s = .next
        ((((List.range 64).filter fun p => bitOf mask.toNat p).foldl (fun a p =>
            a.mapPort p fun x => { x with gateT := some instant.toNat }) s).waits h
          0x0612 0 (.gateCommit instant.toNat mask.toNat))) ∧
  -- GATE_STATUS
  (∀ (s : State) (h : Hdr) (port : Byte),
    s.serves h 0x0613 (s.portFid port.toNat h.room.toNat) →
    port.toNat < 64 ∧ s.portExists port.toNat = true →
    exec (.gateStatus h port) s = .next (s.answers h 0x0613 (leBytes 1 (b2n (s.port port.toNat).gateAct) ++
        leBytes 1 (b2n (s.port port.toNat).gateT.isSome) ++ leBytes 1 (s.gateNow port.toNat) ++ leBytes 5 0 ++
        leBytes 8 ((s.port port.toNat).gateT.getD 0))))

/-- MOVER_JOB of a Room whose queue is not full puts the descriptor list at the tail of the queue under the next job number
and is PENDING. MOVER_CH_RESUME and MOVER_CH_ENABLE act on the named channel. MOVER_QUERY answers with the status
registers, the channel states and the queue lengths. EXTENT_MIGRATE of a LIVE extent that no migration moves queues a
migration job of Room 0 and is PENDING. MIGRATE_STATUS answers with the step and the bytes copied. MIGRATE_ABORT of a
migration that waits in the queue abandons it, of one before the switch it makes ABANDON its next step. -/
def Obligations.MoverCommandsComplete : Prop :=
  -- MOVER_JOB
  (∀ (s : State) (h : Hdr) (head : B64) (r : Nat),
    s.serves h 0x0701 ((s.localRoom h.room.toNat).isSome) →
    head.toNat % 64 = 0 ∧ head.toNat < 2 ^ 48 →
    s.pendRoom 16 →
    s.hdrRoom h = some r →
    (s.mov.queue.filter fun j => j.room == r).length < 1024 →
    exec (.moverJob h head) s = .next ((s.mapMov fun m => { m with
        nextJob := s.mov.nextJob + 1, queue := m.queue ++ [{ id := s.mov.nextJob, room := r, kind := .list head.toNat }] }).waits h
          0x0701 16 (.moverJob s.mov.nextJob))) ∧
  -- MOVER_CH_RESUME
  (∀ (s : State) (h : Hdr) (ch action : Byte),
    s.serves h 0x0702 (s.chanRoom ch.toNat h.room.toNat) →
    ch.toNat ≤ 63 ∧ action.toNat ≤ 2 →
    exec (.moverChResume h ch action) s = .next ((s.resumeChan ch.toNat action.toNat).answers h 0x0702 [])) ∧
  -- MOVER_CH_ENABLE
  (∀ (s : State) (h : Hdr) (ch en : Byte),
    s.serves h 0x0703 (s.chanRoom ch.toNat h.room.toNat) →
    ch.toNat ≤ 63 ∧ en.toNat ≤ 1 →
    exec (.moverChEnable h ch en) s = .next ((s.setChanEn ch.toNat (en.toNat == 1)).answers h 0x0703 [])) ∧
  -- MOVER_QUERY
  (∀ (s : State) (h : Hdr),
    s.serves h 0x0704 →
    exec (.moverQuery h) s = .next (s.answers h 0x0704 (leBytes 4 (s.reg MOV_CTL).toNat ++ leBytes 4 s.movStat ++
        ((List.range 64).flatMap fun n => leBytes 1 (s.chan n).st.code) ++
        ((List.range 64).flatMap fun r => leBytes 2 (s.mov.queue.filter fun j => j.room == r).length)))) ∧
  -- EXTENT_MIGRATE
  (∀ (s : State) (h : Hdr) (window : B16) (x : Word) (dst house : Byte) (y : Window) (m : Mig),
    s.serves h 0x0710 (s.winRoom window.toNat h.room.toNat) →
    y.baseX ≤ x.toNat ∧ x.toNat < y.baseX + y.extents →
    house.toNat = 1 ∨ (house.toNat = 0 ∧ (s.dev? dst.toNat).isSome = true) →
    s.pendRoom 12 →
    s.win? window.toNat = some y →
    y.st ≠ .handoffOut ∧ y.st ≠ .proxy ∧ y.st ≠ .incoming ∧ y.st ≠ .copying →
    (s.ext x.toNat).valid = true ∧ (s.ext x.toNat).st = .live →
    s.mig? x.toNat = none →
    s.mov.chans.any (fun c => c.2.en && c.2.room == some 0) = true →
    (s.takeOne (house.toNat == 1) dst.toNat).isSome = true →
    (s.mov.queue.filter fun j => j.room == 0).length < 1024 →
    m = {
        x := x.toNat, win := window.toNat, dstHouse := house.toNat == 1, dstDev := dst.toNat,
        oldHouse := (s.ext x.toNat).srcHouse, oldDev := (s.ext x.toNat).srcDev } →
    exec (.extentMigrate h window x dst house) s = .next ((s.mapMov fun q => { q with
        nextJob := s.mov.nextJob + 1, migs := q.migs ++ [m],
        queue := q.queue ++ [{ id := s.mov.nextJob, room := 0, kind := .mig x.toNat }] }).waits h
          0x0710 12 (.migrate window.toNat x.toNat))) ∧
  -- MIGRATE_STATUS
  (∀ (s : State) (h : Hdr) (window : B16) (x : Word) (m : Mig),
    s.serves h 0x0711 (s.winRoom window.toNat h.room.toNat) →
    s.notIn window.toNat x.toNat = false →
    s.mig? x.toNat = some m →
    exec (.migrateStatus h window x) s = .next (s.answers h 0x0711 (leBytes 4 m.step ++ leBytes 4 m.copied))) ∧
  -- MIGRATE_ABORT of a migration that waits in the queue
  (∀ (s : State) (h : Hdr) (window : B16) (x : Word) (m : Mig),
    s.serves h 0x0712 (s.winRoom window.toNat h.room.toNat) →
    s.notIn window.toNat x.toNat = false →
    s.mig? x.toNat = some m →
    m.step < 3 ∨ m.step = 4 →
    s.mov.queue.any (fun j => j.kind == .mig x.toNat) = true →
    exec (.migrateAbort h window x) s = .next ((s.migAbandon x.toNat .aborted).answers h 0x0712 [])) ∧
  -- MIGRATE_ABORT of a migration under way, before the switch
  (∀ (s : State) (h : Hdr) (window : B16) (x : Word) (m : Mig),
    s.serves h 0x0712 (s.winRoom window.toNat h.room.toNat) →
    s.notIn window.toNat x.toNat = false →
    s.mig? x.toNat = some m →
    m.step < 3 ∨ m.step = 4 →
    s.mov.queue.any (fun j => j.kind == .mig x.toNat) = false →
    exec (.migrateAbort h window x) s = .next ((s.mapMig x.toNat fun y => { y with step := 4 }).answers h 0x0712 []))

/-- DOORWAY_ENABLE with module 48 up sets or clears the enable of each named channel. DOORWAY_SET of a channel that is off
stages its parameters. DOORWAY_QUERY answers with the channel's parameters, status and measurements. DOORWAY_POLICY
writes the Room's rebind policy. ATTIC_READ, which also checks the entries it reads, ATTIC_LOG_READ and FAULT_QUERY
answer from the Attic; a log read marks the records it read, ATTIC_FATAL_READ marks the first fatal record as read.
ATTIC_CLEAR empties the ring, the first-fatal record, or both, as WHAT names. FAULT_INJECT arms or disarms the checker. -/
def Obligations.DoorwayAndAtticCommandsComplete : Prop :=
  -- DOORWAY_ENABLE
  (∀ (s : State) (h : Hdr) (mask : Word) (en : Byte),
    s.serves h 0x0801 →
    en.toNat ≤ 1 →
    (en.toNat = 1 → ∀ n ∈ maskChans mask.toNat, dwReady (s.dch n).coming = true) →
    s.mod48Up = true →
    exec (.doorwayEnable h mask en) s = .next
        (((maskChans mask.toNat).foldl (fun a n => a.setDwyEn n (en.toNat == 1)) s).answers h 0x0801 [])) ∧
  -- DOORWAY_SET
  (∀ (s : State) (h : Hdr) (ch : Byte) (valid : Word) (vals : List Word),
    s.serves h 0x0802 →
    ch.toNat < 32 ∧ valid.toNat < 2 ^ 27 →
    (∀ j < 27, bitOf valid.toNat j = true → dwRange j (vals.getD j 0).toInt = true) →
    s.uvBelowOv ch.toNat valid.toNat vals →
    s.mod48Up = true →
    (s.dch ch.toNat).st < 2 →
    exec (.doorwaySet h ch valid vals) s = .next ((s.mapDch ch.toNat fun c => { c with
        next := ((List.range 27).filter fun j => bitOf valid.toNat j).foldl (fun a j =>
          NMap.set a j (vals.getD j 0).toInt) c.next }).answers h 0x0802 [])) ∧
  -- DOORWAY_QUERY
  (∀ (s : State) (h : Hdr) (ch : Byte),
    s.serves h 0x0803 →
    ch.toNat < 32 →
    s.mod48Up = true →
    exec (.doorwayQuery h ch) s = .next (
        let c := s.dch ch.toNat
        s.answers h 0x0803 (((List.range 27).flatMap fun j => intBytes (dwVal c.par j)) ++ leBytes 4 (s.dwyStat ch.toNat) ++ leBytes 4 c.vImage ++
          leBytes 4 c.iImage ++ leBytes 4 c.tjImage ++ intBytes (c.t2 * 100).floor ++ intBytes (c.t3 * 100).floor ++
          (match c.ret with
            | some r => leBytes 8 (r.serial.getD 0) ++ leBytes 1 (r.vcs.getD 0) ++ leBytes 1 r.bridge
            | none => leBytes 10 0)))) ∧
  -- DOORWAY_POLICY
  (∀ (s : State) (h : Hdr) (froom rebind : Byte) (r : Nat),
    s.serves h 0x0804 (h.room.toNat == froom.toNat) →
    rebind.toNat ≤ 1 →
    s.fidClosing froom.toNat = false →
    s.localRoom froom.toNat = some r →
    exec (.doorwayPolicy h froom rebind) s = .next
        ((s.mapRoom r fun x => { x with rebind := rebind.toNat == 1 }).answers h 0x0804 [])) ∧
  -- ATTIC_READ
  (∀ (s : State) (h : Hdr) (first n : Byte),
    s.serves h 0x0901 →
    1 ≤ n.toNat ∧ n.toNat ≤ 32 →
    exec (.atticRead h first n) s = .next ((s.ringRead first.toNat n.toNat).2.answers h 0x0901 (s.ringRead first.toNat n.toNat).1)) ∧
  -- ATTIC_FATAL_READ
  (∀ (s : State) (h : Hdr),
    s.serves h 0x0902 →
    exec (.atticFatalRead h) s = .next (s.markFirst.answers h 0x0902 s.firstBytes)) ∧
  -- ATTIC_CLEAR
  (∀ (s : State) (h : Hdr) (what : Byte),
    s.serves h 0x0903 →
    (what.toNat ≤ 3 ∧ (bitOf what.toNat 1 = true → s.lifecycle ≠ 2)) →
    exec (.atticClear h what) s = .next ((s.mapFlt fun f => { f with
        ring := if bitOf what.toNat 0 then [] else f.ring
        first := if bitOf what.toNat 1 then none else f.first }).answers h 0x0903 [])) ∧
  -- ATTIC_LOG_READ
  (∀ (s : State) (h : Hdr) (off len : Word),
    s.serves h 0x0904 →
    off.toNat + len.toNat ≤ 0x400000 ∧ len.toNat ≤ 4064 →
    exec (.atticLogRead h off len) s = .next
        ((s.markRead off.toNat len.toNat).answers h 0x0904 (s.logBytes off.toNat len.toNat))) ∧
  -- FAULT_INJECT
  (∀ (s : State) (h : Hdr) (checker : B16) (arm : Byte),
    s.serves h 0x0905 →
    (arm.toNat ≤ 2 ∧ (arm.toNat ≠ 0 → canInject checker.toNat = true)) →
    s.lifecycle ≠ 2 ∧ (arm.toNat = 0 ∨ checker.toNat / 256 ≠ 0x16 ∨ s.lifecycle = 0) →
    exec (.faultInject h checker arm) s = .next ((s.arm checker.toNat arm.toNat).answers h 0x0905 [])) ∧
  -- FAULT_QUERY
  (∀ (s : State) (h : Hdr),
    s.serves h 0x0906 →
    exec (.faultQuery h) s = .next (s.answers h 0x0906 (leBytes 1 s.fltCode ++ leBytes 1 (b2n (s.flt.st == .fault)) ++ leBytes 2 0 ++
        leBytes 4 (s.fld FLT_CE_CNT_fCOUNT) ++ leBytes 4 (s.fld FLT_CT_CNT_fCOUNT) ++ leBytes 4 (s.fld FLT_FT_CNT_fCOUNT))))

/-- FABRIC_QUERY answers with the epoch, the Ridge, the standby and one record for each live switch. TIME_QUERY answers with
the fabric time. SCHEMA_QUERY answers with the schema in use, a pending switch and each member's range. At the Ridge
with no other fabric-wide work, SCHEMA_SET whose best schema exists, RIDGE_YIELD to a standby and ROUTE_SET without a
conflicting entry are replicated to the standby and PENDING. ROUTE_QUERY answers with the table in force and changes
only the count of free values. NOTICE_MASK sets the mask. FABRIC_RELAY to one switch opens a relay record under the next
sequence number of that switch and is PENDING. -/
def Obligations.FabricCommandsComplete : Prop :=
  -- FABRIC_QUERY
  (∀ (s : State) (h : Hdr),
    s.accepts h cmdFabricQuery = true →
    ∃ (u : State) (data : List Byte), exec (.fabricQuery h) s = .next (u.answers h 0x0a01 data) ∧ u = { s with fresh := u.fresh } ∧
        data.length = 12 + 8 * (s.fab.members.length + (if s.fab.fid.isSome then 1 else 0)) ∧ data.take 4 = leBytes 4 s.fab.epoch) ∧
  -- TIME_QUERY
  (∀ (s : State) (h : Hdr),
    s.accepts h cmdTimeQuery = true →
    exec (.timeQuery h) s = .next (s.answers h 0x0a02 (leBytes 8 s.now ++ leBytes 4 s.timeStat))) ∧
  -- SCHEMA_QUERY
  (∀ (s : State) (h : Hdr),
    s.accepts h cmdSchemaQuery = true →
    ∃ data : List Byte, exec (.schemaQuery h) s = .next (s.answers h 0x0a03 data) ∧
        data.take 8 = leBytes 4 s.schemaImage ++ leBytes 4 s.schemaPendImage) ∧
  -- SCHEMA_SET at the Ridge
  (∀ (s : State) (h : Hdr) (ceiling : Byte) (v : Nat),
    s.accepts h (cmdSchemaSet ceiling.toNat) = true →
    s.canPend (cmdSchemaSet ceiling.toNat) = true →
    s.isRidge = true →
    s.fabBusy = false →
    s.busyWith (· == Work.schemaSet) = false →
    s.bestSchema ceiling.toNat = some v →
    v ≠ s.fab.schema →
    exec (.schemaSet h ceiling) s = .next (((s.mapFab fun f => { f with ceiling := ceiling.toNat }).replicate .schema).pends h
        (cmdSchemaSet ceiling.toNat) .schemaSet)) ∧
  -- RIDGE_YIELD
  (∀ (s : State) (h : Hdr) (b : Nat),
    s.accepts h cmdRidgeYield = true →
    s.canPend cmdRidgeYield = true →
    s.fab.standby = some b →
    s.isRidge = true →
    s.fab.handover = none →
    s.busyWith (· == Work.ridgeYield) = false →
    exec (.ridgeYield h) s = .next ((s.replicateTo b (.handover b)).pends h cmdRidgeYield .ridgeYield)) ∧
  -- ROUTE_SET at the Ridge
  (∀ (s : State) (h : Hdr) (fid sw : B16) (port on : Byte),
    s.accepts h (cmdRouteSet fid.toNat sw.toNat port.toNat on.toNat) = true →
    s.canPend (cmdRouteSet fid.toNat sw.toNat port.toNat on.toNat) = true →
    s.isRidge = true →
    s.fabBusy = false →
    s.busyWith (· == Work.routeSet) = false →
    NMap.get? s.fab.master fid.toNat = none ∨ NMap.get? s.fab.master fid.toNat = some (sw.toNat, port.toNat) →
    exec (.routeSet h fid sw port on) s = .next (((s.mapFab fun f => { f with
          master := if on.toNat = 1 then NMap.set f.master fid.toNat (sw.toNat, port.toNat) else NMap.erase f.master fid.toNat
          }).replicate .stage).pends h (cmdRouteSet fid.toNat sw.toNat port.toNat on.toNat) .routeSet)) ∧
  -- ROUTE_QUERY
  (∀ (s : State) (h : Hdr) (first n : B16),
    s.accepts h (cmdRouteQuery first.toNat n.toNat) = true →
    ∃ data : List Byte, exec (.routeQuery h first n) s = .next (({ s with fresh := s.fresh + 1 } : State).answers h 0x0a07 data) ∧
        data.take 2 = leBytes 2 s.ports.routeVer) ∧
  -- NOTICE_MASK
  (∀ (s : State) (h : Hdr) (mask : Word),
    s.accepts h (cmdNoticeMask mask) = true →
    exec (.noticeMask h mask) s = .next ((s.mapCmds fun c => { c with noticeMask := mask }).answers h 0x0a08 [])) ∧
  -- FABRIC_RELAY to one switch
  (∀ (s : State) (h : Hdr) (target : B16) (pkt : List Byte) (q : Nat) (u : State),
    s.accepts h (cmdFabricRelay target.toNat pkt) = true →
    s.canPend (cmdFabricRelay target.toNat pkt) = true →
    bitOf target.toNat 15 = false →
    q = vcCount s.fab.relayNext (target.toNat % 4096) →
    u = (s.mapFab fun f => { f with
        relays := f.relays ++ [{ n := s.fab.relayN, all := false, seq := some q, open_ := [(target.toNat % 4096, some s.now)], pkt := pkt }]
        relayN := s.fab.relayN + 1, relayNext := NMap.set f.relayNext (target.toNat % 4096) ((q + 1) % 2147483648) }) →
    exec (.fabricRelay h target pkt) s = .next ((
        if s.fab.fid = some (target.toNat % 4096) then u.relayIn false (target.toNat % 4096) q pkt
        else if (NMap.get? s.fab.members (target.toNat % 4096)).isSome then
          u.unicastNew 0x10 (target.toNat % 4096) (leBytes 4 q ++ pkt)
        else u).pends h (cmdFabricRelay target.toNat pkt) (.relay s.fab.relayN)))

/-- FW_QUERY answers with both slots and the Ehrec version. FW_WRITE to the slot that does not run stores the data in the
flash and makes the slot not valid; the bytes read back. FW_VERIFY is PENDING and changes nothing else. FW_ACTIVATE of a
verified slot with nothing PENDING makes it preferred and restarts the firmware. EHREC_WRITE stores the data in the copy
not in use; EHREC_READ answers with the bytes in force. HBM_LAYOUT that fits takes the grants away, starts to clean
every dirty line and is PENDING; HBM_LAYOUT_QUERY answers with the layout. PANTRY_MODE sets the mode, with rank and
quota for write-back, and is PENDING while a dirty line has to be cleaned. PANTRY_QUERY answers with the window's mode.
PANTRY_FLUSH starts the cleaning and is PENDING. HOLDUP_SET stages the parameters, HOLDUP_QUERY answers with those in
force, HOLDUP_CAL writes the capacitance and starts the hours again. -/
def Obligations.FirmwareAndStorageCommandsComplete : Prop :=
  -- FW_QUERY
  (∀ (s : State) (h : Hdr),
    s.accepts h cmdFwQuery = true →
    exec (.fwQuery h) s = .next (s.answers h 0x0b01 (s.slotBytes false ++ s.slotBytes true ++ leBytes 4 s.pwr.ehrecVer))) ∧
  -- FW_WRITE
  (∀ (s : State) (h : Hdr) (off : Word) (data : List Byte),
    s.accepts h (cmdFwWrite h.bank off.toNat data) = true →
    s.running h.bank = false →
    ∃ u : State, exec (.fwWrite h off data) s = .next (u.answers h 0x0b02 []) ∧
        u = { s with mem := Memory.writeBytes s.mem (slotBase h.bank + off.toNat) data, pwr := u.pwr } ∧
        (u.slotOf h.bank).valid = false ∧ (u.slotOf h.bank).verified = false ∧ u.slotOf (!h.bank) = s.slotOf (!h.bank)) ∧
  -- FW_VERIFY
  (∀ (s : State) (h : Hdr),
    s.accepts h (cmdFwVerify h.bank) = true →
    s.canPend (cmdFwVerify h.bank) = true →
    exec (.fwVerify h) s = .next (s.pends h (cmdFwVerify h.bank) (.fwVerify h.bank))) ∧
  -- FW_ACTIVATE
  (∀ (s : State) (h : Hdr),
    s.accepts h (cmdFwActivate h.bank) = true →
    s.canPend (cmdFwActivate h.bank) = true →
    (s.slotOf h.bank).verified = true →
    s.cmds.pend = [] →
    exec (.fwActivate h) s = .next
        ((s.mapPwr fun p => { p with preferred := h.bank, previous := some p.slot }).restartFw.pends h (cmdFwActivate h.bank) .fwActivate)) ∧
  -- EHREC_WRITE
  (∀ (s : State) (h : Hdr) (off : Word) (data : List Byte),
    s.accepts h (cmdEhrecWrite off.toNat data) = true →
    exec (.ehrecWrite h off data) s = .next (({ s with
        mem := Memory.writeBytes s.mem (copyBase (!s.pwr.copy) + off.toNat) data, pwr := { s.pwr with ehNew := true } } : State).answers h
          0x0b05 [])) ∧
  -- EHREC_READ
  (∀ (s : State) (h : Hdr) (off len : Word),
    s.accepts h (cmdEhrecRead off.toNat len.toNat) = true →
    exec (.ehrecRead h off len) s = .next (s.answers h 0x0b06 ((s.pwr.ehrec.drop off.toNat).take len.toNat))) ∧
  -- HBM_LAYOUT
  (∀ (s : State) (h : Hdr) (units : Byte) (u : State),
    s.accepts h (cmdHbmLayout units.toNat) = true →
    s.canPend (cmdHbmLayout units.toNat) = true →
    s.panShares ≤ (45 - units.toNat) * 917504 →
    s.pool.hUsed.all (· < 8 * units.toNat) = true →
    s.busyWith (fun w => match w with | .hbmLayout _ => true | _ => false) = false →
    u = (s.mapPool fun p => { p with wins := p.wins.map fun w => if w.2.grant then (w.1, { w.2 with grant := false, fit := 0 }) else w }) →
    exec (.hbmLayout h units) s = .next
        ((u.startClean (some s.cmds.nextId) 4096 false (u.pool.wins.flatMap fun w => u.dirtyOf w.2)).pends h
          (cmdHbmLayout units.toNat) (.hbmLayout units.toNat))) ∧
  -- HBM_LAYOUT_QUERY
  (∀ (s : State) (h : Hdr),
    s.accepts h cmdHbmLayoutQuery = true →
    exec (.hbmLayoutQuery h) s = .next (s.answers h 0x0c02 (leBytes 1 s.panUnits ++ leBytes 3 s.pool.house))) ∧
  -- PANTRY_MODE
  (∀ (s : State) (h : Hdr) (window : B16) (mode rank : Byte) (quota : Word) (x : Window) (u : State),
    s.accepts h (cmdPantryMode window.toNat mode.toNat rank.toNat quota.toNat) = true →
    s.canPend (cmdPantryMode window.toNat mode.toNat rank.toNat quota.toNat) = true →
    s.win? window.toNat = some x →
    x.rehome = none →
    u = (s.mapWin window.toNat fun y => { y with
        pmode := pmodeOf mode.toNat, rank := if mode.toNat = 2 then rank.toNat else y.rank,
        quota := if mode.toNat = 2 then quota.toNat else y.quota, grant := y.grant && mode.toNat == 2,
        fit := if y.grant = true ∧ mode.toNat ≠ 2 then 0 else y.fit }) →
    exec (.pantryMode h window mode rank quota) s = .next (
        if mode.toNat = 2 ∨ u.dirtyOf x = [] then (if mode.toNat = 0 then u.invalClean x else u).answers h 0x0c10 []
        else (u.startClean (some s.cmds.nextId) window.toNat (mode.toNat == 0) (u.dirtyOf x)
          ((s.pan.tags.filter fun p => x.holds p.2.line).map (·.2.line))).pends h
          (cmdPantryMode window.toNat mode.toNat rank.toNat quota.toNat) (.pantryMode window.toNat))) ∧
  -- PANTRY_QUERY
  (∀ (s : State) (h : Hdr) (window : B16) (x : Window),
    s.accepts h (cmdPantryQuery window.toNat) = true →
    s.win? window.toNat = some x →
    exec (.pantryQuery h window) s = .next (s.answers h 0x0c11 (leBytes 1 x.pmode.code ++ leBytes 1 x.run.code ++
        leBytes 1 (b2n x.grant) ++ leBytes 1 x.rank ++ leBytes 4 x.quota ++ leBytes 4 (s.winDirty x)))) ∧
  -- PANTRY_FLUSH
  (∀ (s : State) (h : Hdr) (window : B16) (u : State) (ws : List (Nat × Window)),
    s.accepts h (cmdPantryFlush h.invalidate window.toNat) = true →
    s.canPend (cmdPantryFlush h.invalidate window.toNat) = true →
    u = (if s.freshBudget < s.allDirty then s.shortOfEnergy else s) →
    ws = (u.pool.wins.filter fun p => window.toNat == 0xFFFF || p.1 == window.toNat) →
    exec (.pantryFlush h window) s = .next
        ((u.startClean (some s.cmds.nextId) window.toNat h.invalidate ((byRank ws).flatMap fun p => u.dirtyOf p.2)).pends h
          (cmdPantryFlush h.invalidate window.toNat) (.pantryFlush (ws.map fun p => p.1) h.invalidate))) ∧
  -- HOLDUP_SET
  (∀ (s : State) (h : Hdr) (valid : B16) (vals : List Word),
    s.accepts h (cmdHoldupSet valid.toNat vals) = true →
    exec (.holdupSet h valid vals) s = .next ((s.mapPan fun p => { p with
        parNext := ((List.range 9).filter fun j => bitOf valid.toNat j).foldl (fun a j =>
          NMap.set a j (vals.getD j 0).toNat) p.parNext }).answers h 0x0c20 [])) ∧
  -- HOLDUP_QUERY
  (∀ (s : State) (h : Hdr),
    s.accepts h cmdHoldupQuery = true →
    exec (.holdupQuery h) s = .next (s.answers h 0x0c21 (((List.range 9).flatMap fun j =>
        leBytes 4 ((hpOf s.pan.par j).getD 0)) ++ leBytes 4 s.pan.lastC ++ leBytes 4 s.pan.lastV ++ leBytes 4 s.pan.lastE ++
        leBytes 8 s.pan.budget))) ∧
  -- HOLDUP_CAL
  (∀ (s : State) (h : Hdr) (c0 : Word),
    s.accepts h (cmdHoldupCal c0.toNat) = true →
    exec (.holdupCal h c0) s = .next ((s.mapPan fun p => { p with
        cal := some c0.toNat, calHours := 0, parNext := NMap.set p.parNext 0 c0.toNat }).answers h 0x0c22 []))

/-- While the monitor and the Hearth serve commands, COMMAND_COMPLETION of a PENDING command whose work, carried on as far
as it goes, has a result ends the command with that result: completion event, resources given back. The same holds where
the work's result comes with this command from outside; FW_VERIFY with an image makes the slot valid and verified with
the image's version and range, and completes OK. A command number that is not PENDING changes nothing. -/
def Obligations.CompletionPostsTheEventAndEndsTheCommand : Prop :=
  -- COMMAND_COMPLETION of a command whose result is recorded
  (∀ (s s1 : State) (id : Nat) (e : WorkEnd) (p0 p : Pend) (r : WorkRes),
    s.cmds.pend.find? (fun q => q.id == id) = some p0 →
    s.monUp = true →
    s.carryOn p0.work = s1 →
    s1.cmds.pend.find? (fun q => q.id == id) = some p →
    p.res = some r →
    exec (.commandCompletion id e) s = .next (s1.complete p r).noteDropped.resumeWarm) ∧
  -- COMMAND_COMPLETION of a command whose work ends now
  (∀ (s s1 s2 : State) (id : Nat) (e : WorkEnd) (p0 p : Pend) (r : WorkRes),
    s.cmds.pend.find? (fun q => q.id == id) = some p0 →
    s.monUp = true →
    s.carryOn p0.work = s1 →
    s1.cmds.pend.find? (fun q => q.id == id) = some p →
    p.res = none →
    s1.endWork p e = some (r, s2) →
    exec (.commandCompletion id e) s = .next (s2.complete p r).noteDropped.resumeWarm) ∧
  -- COMMAND_COMPLETION of FW_VERIFY with a valid image, in a running switch
  (∀ (s : State) (id : Nat) (p : Pend) (slot : Bool) (version : Word) (lo hi : Byte) (x : FwSlot),
    s.cmds.pend.find? (fun q => q.id == id) = some p →
    s.cmds.hearthUp = true →
    s.pwr.st ≠ .recovery →
    p.work = .fwVerify slot ∧ p.res = none →
    x = { valid := true, verified := true, version := version.toNat, ownMin := lo.toNat, ownMax := hi.toNat } →
    exec (.commandCompletion id (.image version lo hi)) s =
        .next (((s.mapSlot slot fun _ => x).complete p ⟨.ok, 0, []⟩).noteDropped.resumeWarm)) ∧
  -- a command number that is not PENDING
  (∀ (s : State) (id : Nat) (e : WorkEnd),
    s.cmds.pend.find? (fun q => q.id == id) = none →
    exec (.commandCompletion id e) s = .next s)

/-- While the window's binding for the host is BOUND and the Hearth is up, each mailbox command answers the host: identity,
no background operation, the event records of a log, the time, the supported logs, the commands accepted, the window's
size, its health and its poisoned lines change nothing but the mailbox registers and the outputs; clearing records
removes them from the binding's log; the interrupt policy is held and read back. On a dynamic capacity window the
capacity commands answer too: the offer that holds a named extent is answered with the extents named, and RELEASING
extents that the host names are closed; on any other window they answer Unsupported. -/
def Obligations.WindowMailboxAnswersTheBoundHost : Prop :=
  (∀ (s : State) (a : MbAt) (x : Window) (b : Binding),
    MbReady s a x b →
    exec (.mbIdentify a) s = .next (s.mbAnswers a .success
        (leBytes 2 Config.vendorId.toNat ++ leBytes 2 x.devId ++ leBytes 2 Config.vendorId.toNat ++ leBytes 2 x.subsys ++ leBytes 8 x.serial)) ∧
      exec (.mbBackgroundOperationStatus a) s = .next (s.mbAnswers a .success (leBytes 8 0)) ∧
      exec (.getEventInterruptPolicy a) s = .next (s.mbAnswers a .success (leBytes 4 b.evtPolicy.toNat)) ∧
      exec (.mbGetTimestamp a) s = .next (s.mbAnswers a .success (leBytes 8 s.now)) ∧
      exec (.getSupportedLogs a) s = .next (s.mbAnswers a .success (leBytes 2 1)) ∧
      exec (.getLog a) s = .next (s.mbAnswers a .success ((mbOpcodes ++
        (if x.type = WType.dynamic then [0x4800, 0x4801, 0x4802, 0x4803] else [])).flatMap (leBytes 2 ·))) ∧
      exec (.identifyMemoryDevice a) s = .next (s.mbAnswers a .success
        (leBytes 8 x.bytes ++ leBytes 8 x.bytes ++ leBytes 8 0 ++ leBytes 4 0)) ∧
      exec (.getHealthInfo a) s = .next (s.mbAnswers a .success (leBytes 1 (b2n x.failed))) ∧
      exec (.getPoisonList a) s = .next (s.mbAnswers a .success (leBytes 2 x.poisoned.length ++
        x.poisoned.flatMap fun l => leBytes 8 (l * 64 - x.base)))) ∧
  (∀ (s : State) (a : MbAt) (x : Window) (b : Binding) (policy : Word) (time : B64),
    MbReady s a x b →
    exec (.setEventInterruptPolicy a policy) s = .next ((s.mapBind a.window.toNat a.host.toNat fun y =>
        { y with evtPolicy := policy }).mbAnswers a .success []) ∧
      exec (.setTimestamp a time) s = .next (s.mbAnswers a .success [])) ∧
  (∀ (s : State) (a : MbAt) (x : Window) (b : Binding) (log : Byte) (es : List (Nat × Nat × List Nat)),
    MbReady s a x b →
    log.toNat ≤ 4 →
    es = (b.events.filter fun e => evLog e.2.1 == log.toNat) →
    exec (.mbGetEventRecords a log) s = .next (s.mbAnswers a .success (leBytes 2 es.length ++ es.flatMap evRecord)) ∧
      exec (.mbClearEventRecords a log true []) s = .next ((s.mapBind a.window.toNat a.host.toNat fun y =>
        { y with events := y.events.filter fun e => evLog e.2.1 != log.toNat }).mbAnswers a .success [])) ∧
  (∀ (s : State) (a : MbAt) (x : Window) (b : Binding) (log : Byte) (handles : List B16),
    MbReady s a x b →
    log.toNat ≤ 4 →
    handles.all (fun h => b.events.any fun e => evLog e.2.1 == log.toNat && e.1 == h.toNat) = true →
    exec (.mbClearEventRecords a log false handles) s = .next ((s.mapBind a.window.toNat a.host.toNat fun y => { y with
        events := y.events.filter fun e => !(evLog e.2.1 == log.toNat && handles.any fun h => h.toNat == e.1) }).mbAnswers a
          .success [])) ∧
  (∀ (s : State) (a : MbAt) (x : Window) (b : Binding),
    MbReady s a x b →
    x.type = .dynamic →
    exec (.getDynamicCapacityConfiguration a) s = .next (s.mbAnswers a .success (leBytes 1 1 ++ leBytes 8 0 ++ leBytes 8 x.bytes)) ∧
      exec (.getDynamicCapacityExtentList a) s = .next (s.mbAnswers a .success
        (leBytes 4 (s.dcHeld x).length ++ (s.dcHeld x).flatMap (leBytes 4 ·)))) ∧
  (∀ (s : State) (a : MbAt) (x : Window) (b : Binding) (extents : List Nat) (o : Offer),
    MbReady s a x b →
    x.type = .dynamic →
    (if extents = [] then x.offers.head? else x.offers.find? fun o => o.xs.any extents.contains) = some o →
    exec (.addDynamicCapacityResponse a extents) s =
        .next ((s.answerOffer a.window.toNat o extents).mbAnswers a .success [])) ∧
  (∀ (s u : State) (a : MbAt) (x : Window) (b : Binding) (extents : List Nat),
    MbReady s a x b →
    x.type = .dynamic →
    u = (extents.foldl (fun c i => if i < x.extents && (c.ext (x.baseX + i)).valid && (c.ext (x.baseX + i)).st == .releasing then
        c.setExt (x.baseX + i) { c.ext (x.baseX + i) with closed := true } else c) s) →
    exec (.releaseDynamicCapacity a extents) s =
        .next (((u.pumpRelease a.window.toNat).endReleases a.window.toNat).mbAnswers a .success [])) ∧
  (∀ (s : State) (a : MbAt) (x : Window) (b : Binding) (extents : List Nat),
    MbReady s a x b →
    x.type ≠ .dynamic →
    exec (.getDynamicCapacityConfiguration a) s = .next (s.mbAnswers a .unsupported []) ∧
      exec (.getDynamicCapacityExtentList a) s = .next (s.mbAnswers a .unsupported []) ∧
      exec (.addDynamicCapacityResponse a extents) s = .next (s.mbAnswers a .unsupported []) ∧
      exec (.releaseDynamicCapacity a extents) s = .next (s.mbAnswers a .unsupported []))

/-- With the Hearth up, the queries answer and change nothing but the outputs; the event log is read and cleared; Physical
Port Control of a pass-through port drives its PERST or sends a hot reset; a configuration request goes to the link and
a read answers with a value from the device; Bind vPPB of two ports of one Room, at a free bridge 64 to 95, makes the
pass-through binding; Unbind vPPB removes it at once or, as a managed hot-remove, sets a deadline of 5 s; Generate AER
Event signals the bridge. A Krarin vendor command whose opcode matches its Dermel packet, with a right CRC, puts the
packet at the end of its transport's queue. -/
def Obligations.FabricManagerCommandsComplete : Prop :=
  (∀ (s : State) (src : FmSrc),
    s.cmds.hearthUp = true →
    exec (.fmIdentify src) s = .next (s.fmAnswers .success (leBytes 2 Config.vendorId.toNat ++ leBytes 2 0x9256)) ∧
      exec (.fmBackgroundOperationStatus src) s = .next (s.fmAnswers .success (leBytes 8 0)) ∧
      exec (.fmGetEventRecords src) s = .next (s.fmAnswers .success (leBytes 2 s.mail.recs.length ++ s.mail.recs.flatMap fun r =>
        leBytes 2 r.1 ++ leBytes 2 r.2.length ++ r.2)) ∧
      exec (.fmGetTimestamp src) s = .next (s.fmAnswers .success (leBytes 8 s.now)) ∧
      exec (.identifySwitchDevice src) s = .next (s.fmAnswers .success (leBytes 1 64 ++ leBytes 1 64 ++ leBytes 2 96))) ∧
  -- FM_CLEAR_EVENT_RECORDS
  (∀ (s : State) (src : FmSrc) (all : Bool) (handles : List B16),
    s.cmds.hearthUp = true →
    all = (true ∨ handles.all (fun h => s.mail.recs.any fun r => r.1 == h.toNat) = true) →
    exec (.fmClearEventRecords src all handles) s = .next (({ s with mail := { s.mail with
        recs := s.mail.recs.filter fun r => !(all || handles.any fun h => h.toNat == r.1) } } : State).fmAnswers .success [])) ∧
  -- GET_PHYSICAL_PORT_STATE
  (∀ (s : State) (src : FmSrc) (ports : List Byte),
    s.cmds.hearthUp = true →
    ports.all (fun p => !s.noPort p.toNat) = true →
    exec (.getPhysicalPortState src ports) s = .next (s.fmAnswers .success (ports.flatMap fun p =>
        leBytes 1 p.toNat ++ leBytes 1 (s.role p.toNat) ++ leBytes 4 (s.reg (PRT_LINK_STAT p.toNat)).toNat))) ∧
  -- PHYSICAL_PORT_CONTROL of a pass-through port
  (∀ (s : State) (src : FmSrc) (port : Byte),
    s.cmds.hearthUp = true →
    s.noPort port.toNat = false →
    s.role port.toNat = rolePt →
    exec (.physicalPortControl src port .assertPerst) s = .next ((s.portPerst port.toNat true).fmAnswers .success []) ∧
      exec (.physicalPortControl src port .deassertPerst) s = .next ((s.portPerst port.toNat false).fmAnswers .success []) ∧
      exec (.physicalPortControl src port .resetPpb) s = .next ((s.sendHotReset port.toNat).fmAnswers .success [])) ∧
  -- SEND_PPB_CXL.IO_CONFIGURATION_REQUEST
  (∀ (s : State) (src : FmSrc) (port : Byte) (reg : BitVec 12) (value : Word),
    s.cmds.hearthUp = true →
    s.noPort port.toNat = false →
    s.inL0 port.toNat = true →
    s.role port.toNat = rolePt →
    (∃ m : MsgIn, m.kind = .ioCfg ∧ m.addr = reg.setWidth 64 ∧ m.data = value.setWidth 512 ∧ m.be = 15 ∧
        exec (.sendPpbCxlIoConfigurationRequest src port true reg value) s =
          .next ((s.emit (.send port.toNat (.fwd m))).fmAnswers .success [])) ∧
      (∃ m : MsgIn, m.kind = .ioCfg ∧ m.addr = reg.setWidth 64 ∧ m.be = 0 ∧
        exec (.sendPpbCxlIoConfigurationRequest src port false reg value) s =
          .next (((s.emit (.send port.toNat (.fwd m))).free).2.fmAnswers .success (leBytes 4 (Config.free s.fresh).toNat)))) ∧
  -- GET_VIRTUAL_CXL_SWITCH_INFO
  (∀ (s : State) (src : FmSrc) (vcs : Byte),
    s.cmds.hearthUp = true →
    s.noPort vcs.toNat = false →
    s.role vcs.toNat = roleUpstream →
    ∃ data : List Byte, exec (.getVirtualCxlSwitchInfo src vcs) s = .next (s.fmAnswers .success (leBytes 2 96 ++ data))) ∧
  -- BIND_VPPB
  (∀ (s : State) (src : FmSrc) (vcs vppb port : Byte) (room : Nat),
    s.cmds.hearthUp = true →
    s.noPort vcs.toNat = false ∧ s.noPort port.toNat = false →
    s.role vcs.toNat = roleUpstream ∧ s.role port.toNat = rolePt →
    64 ≤ vppb.toNat ∧ vppb.toNat < 96 →
    s.portRoom vcs.toNat = some room ∧ s.portRoom port.toNat = some room →
    s.bridgeFree vcs.toNat vppb.toNat = true ∧ s.vppbAt port.toNat = none →
    s.closing room = false →
    exec (.bindVppb src vcs vppb port) s =
        .next (((s.bindPt vcs.toNat vppb.toNat port.toNat).dropRet port.toNat).fmAnswers .success [])) ∧
  -- UNBIND_VPPB at once
  (∀ (s : State) (src : FmSrc) (vcs vppb : Byte) (v : Vppb),
    s.cmds.hearthUp = true →
    s.ports.vppb.find? (fun v => v.vcs == vcs.toNat && v.bridge == vppb.toNat) = some v →
    exec (.unbindVppb src vcs vppb false) s = .next ((s.unbindPt v).fmAnswers .success []) ∧
      exec (.unbindVppb src vcs vppb true) s = .next (((s.mapPorts fun x => { x with vppb := x.vppb.map fun y =>
          if y == v then { y with removing := some (s.now + 5000000000) } else y }).bridgeMsg v.vcs
        (s.portId v.vcs) v.bridge evtAttention).fmAnswers .success [])) ∧
  -- GENERATE_AER_EVENT
  (∀ (s : State) (src : FmSrc) (vcs vppb : Byte) (err : Word),
    s.cmds.hearthUp = true →
    s.noPort vcs.toNat = false →
    s.role vcs.toNat = roleUpstream →
    s.bridgeFree vcs.toNat vppb.toNat = false →
    exec (.generateAerEvent src vcs vppb err) s =
        .next ((s.bridgeMsg vcs.toNat (s.portId vcs.toNat) vppb.toNat (evtAer + 16 * err.toNat)).fmAnswers .success [])) ∧
  -- KRARIN_VENDOR_COMMAND
  (∀ (s : State) (opcode : B16) (pkt : List Byte),
    opcode.toNat = 0xC000 + fieldAt pkt 0 2 →
    opcode.toNat ≤ 0xCFFF →
    pkt.length ≤ 4096 →
    crcOk pkt = true →
    exec (.krarinVendorCommand .mailbox opcode pkt) s = .next (s.mapCmds fun c => { c with mailbox := c.mailbox ++ [⟨pkt, none⟩] }) ∧
      exec (.krarinVendorCommand .mctp opcode pkt) s = .next (s.mapCmds fun c => { c with mctp := c.mctp ++ [⟨pkt, none⟩] }))

/-- While the monitor serves lines, each command first discards the monitor's challenge, then acts and answers one status
line with its result words. PEEK and POKE of a register go through the debug master; the Attic commands print the ring,
whose entries are checked as they are read, the first-fatal record, which is then marked read, and the log, whose
records are marked read; STATS prints the port, lane, OPF and Stairwell counters; INJECT arms the checker, with the mask
if one is given; BAUD names the rate that BAUD_CHANGE then puts into DBG_MON_CFG; LIFECYCLE prints the lifecycle state,
ADVANCE, where the fuses let the state advance, prints a new challenge, and CONFIRM of that challenge within 10 s blows
the fuses. DERMEL puts the packet into the monitor's queue. A line that arrives is echoed where DBG_MON_CFG.ECHO is 1,
buffered and run, unless the 16 KiB buffer overflows, which is counted and answered OVERFLOW. -/
def Obligations.MonitorCommandsComplete : Prop :=
  -- PEEK and POKE
  (∀ (s : State) (sp : Space) (addr : B64) (n : Nat) (value : Word) (dev : DevData),
    s.monUp = true →
    s.draining = false →
    exec (.peek sp addr n dev) s = .next (
        let r := (s.dropChal false).debugAccess .monitor sp addr.toNat n none dev
        r.2.2.monSay r.1 r.2.1) ∧
      exec (.poke sp addr value dev) s = .next (
        let r := (s.dropChal false).debugAccess .monitor sp addr.toNat 1 (some value) dev
        r.2.2.monSay r.1 r.2.1)) ∧
  -- PEEK of registers, whatever the lifecycle state
  (∀ (s : State) (addr : B64) (n : Nat) (dev : DevData),
    s.monUp = true →
    1 ≤ n ∧ n ≤ 256 →
    addr.toNat % 4 = 0 →
    exec (.peek .reg addr n dev) s = .next (
        let r := State.peekRegs n (s.dropChal false) .monitor addr.toNat
        r.2.monSay r.1 .ok)) ∧
  -- ATTIC RING, ATTIC FATAL, LIFECYCLE
  (∀ (s u : State),
    s.monUp = true →
    u = s.dropChal false →
    exec .atticRing s = .next ((u.ringRead 0 32).2.monSay (toWords 2048 (u.ringRead 0 32).1) .ok) ∧
      exec .atticFatal s = .next (u.markFirst.monSay (toWords 64 u.firstBytes) .ok) ∧
      exec .lifecycle s = .next (u.monSay [BitVec.ofNat 32 u.lifecycle] .ok)) ∧
  -- ATTIC LOG
  (∀ (s u : State) (off len : Word),
    s.monUp = true →
    u = s.dropChal false →
    off.toNat + len.toNat ≤ 0x400000 ∧ len.toNat ≤ 4064 →
    exec (.atticLog off len) s =
        .next ((u.markRead off.toNat len.toNat).monSay (toWords 1024 (u.logBytes off.toNat len.toNat)) .ok)) ∧
  -- STATS
  (∀ (s u : State) (p n m w : Byte),
    s.monUp = true →
    u = s.dropChal false →
    p.toNat < 64 ∧ m.toNat < 49 ∧ w.toNat < 4 →
    exec (.statsPort p) s = .next (u.monSay
        [u.view (PRT_LINK_EVT p.toNat), u.view (PRT_REC_CNT p.toNat), u.view (PRT_FLIT_ERR p.toNat)] .ok) ∧
      exec (.statsLane n) s = .next (u.monSay [u.view (LNG_LANE_ERR (n.toNat / 8) (n.toNat % 8))] .ok) ∧
      exec (.statsOpf m) s = .next (u.monSay [u.view (OPF_MOD_ERR m.toNat), u.view (OPF_MOD_LEAK m.toNat)] .ok) ∧
      exec (.statsStw w) s = .next (u.monSay [u.view (STW_LNK_ERR w.toNat)] .ok)) ∧
  -- INJECT
  (∀ (s u : State) (checker : B16) (arm : Byte) (mask : Option Word),
    s.monUp = true →
    u = s.dropChal false →
    u.draining = false →
    arm.toNat ≤ 2 →
    arm.toNat = 0 ∨ canInject checker.toNat = true →
    u.mayArm checker.toNat arm.toNat = true →
    exec (.inject checker arm mask) s = .next (((match mask with
        | some m => u.setReg FLT_INJ_MASK m
        | none => u).arm checker.toNat arm.toNat).monSay [] .ok)) ∧
  -- DERMEL
  (∀ (s : State) (pkt : List Byte),
    s.monUp = true →
    exec (.dermel pkt) s = .next ((s.dropChal false).mapCmds fun c => { c with monitor := c.monitor ++ [⟨pkt, none⟩] })) ∧
  -- BAUD
  (∀ (s : State) (rate c : Nat),
    s.monUp = true →
    baudCode rate = some c →
    exec (.baud rate) s = .next (((s.dropChal false).mapDbg fun d => { d with baud := some c }).monSay [] .ok)) ∧
  -- BAUD_CHANGE
  (∀ (s : State) (c : Nat),
    s.dbg.baud = some c →
    exec .baudChange s = .next ((s.setFld DBG_MON_CFG_fBAUD c).mapDbg fun d => { d with baud := none })) ∧
  -- LIFECYCLE ADVANCE
  (∀ (s u : State) (t : Nat),
    s.monUp = true →
    u = (s.at t).dropChal false →
    exec (.lifecycleAdvance t) s = .next (
        if u.mayAdvance then
          ({ u with fresh := u.fresh + 1
                    dbg := { u.dbg with chal := some (false, (Config.free u.fresh).setWidth 16, u.now) } } : State).monSay
            [((Config.free u.fresh).setWidth 16).setWidth 32] .ok
        else (u.debugRefuse false 4 .reg false 0 0 0).monSay [] (.denied 4 0))) ∧
  -- LIFECYCLE CONFIRM
  (∀ (s : State) (t : Nat) (code : B16) (t0 : Nat),
    s.monUp = true →
    s.dbg.chal = some (false, code, t0) →
    (s.at t).now ≤ t0 + 10000000000 →
    exec (.lifecycleConfirm t code) s = .next ((s.at t).blowFuses.monSay [] .ok)) ∧
  -- MONITOR_LINE
  (∀ (s : State) (line : List Byte),
    s.pwr.st ≠ .reset →
    exec (.monitorLine line) s = .next (
        let u := if s.flag DBG_MON_CFG_fECHO then s.emit (.monEcho line) else s
        if 16384 < s.dbg.rx.foldl (fun n l => n + l.length) 0 + line.length then
          (u.bump DBG_MON_STAT_fRX_DROP).monSay [] .overflow
        else (u.mapDbg fun d => { d with rx := d.rx ++ [line] }).pumpLines))

/-- Each instruction that is loaded leaves LC_ADVANCE, discards the JTAG challenge and is held in DBG_JTAG_STAT.LAST_IR.
BYPASS captures 0 and IDCODE the identity word; SAMPLE/PRELOAD captures what the chain holds. EXTEST, CLAMP and HIGHZ
act on the balls alone with RESET_N low. DBG_ACCESS out of reset and not in FIELD_LOCKED makes one word of a debug
access and captures it. LC_ADVANCE captures a new challenge where the fuses let the state advance, and is refused where
they do not; its update with the key and the challenge, in time, blows the fuses, and captures the code 1. MBIST and
FUSE_PROG act in MANUFACTURE alone: the rollback floor becomes the larger of the two. TAP_RESET discards the challenge;
an expired challenge is discarded. -/
def Obligations.JtagInstructionsComplete : Prop :=
  -- BYPASS, IDCODE, SAMPLE/PRELOAD
  (∀ (s : State),
    exec .bypass s = .next ((s.loadIr 0xFF).emit (.jtag 0)) ∧ exec .idcode s = .next ((s.loadIr 1).emit (.jtag idcode)) ∧
      exec .samplePreload s = .next (({ s.loadIr 2 with fresh := (s.loadIr 2).fresh + 1 } : State).emit
        (.jtag (Config.free (s.loadIr 2).fresh).toNat)) ∧
      exec .tapReset s = .next ((s.dropChal true).mapDbg fun d => { d with jLoaded := false })) ∧
  -- EXTEST, CLAMP, HIGHZ with RESET_N low
  (∀ (s : State),
    s.pwr.st = .reset →
    s.pwr.released = false →
    exec .extest s = .next (s.loadIr 0) ∧ exec .clamp s = .next (s.loadIr 3) ∧ exec .highz s = .next (s.loadIr 4)) ∧
  -- DBG_ACCESS
  (∀ (s : State) (write : Bool) (sp : Space) (addr : B64) (value : Word) (dev : DevData) (u : State),
    s.pwr.st ≠ .reset →
    s.lifecycle ≠ 2 →
    u = s.loadIr 0x20 →
    exec (.dbgAccess write sp addr value dev) s = .next (
        let r := u.debugAccess .jtag sp addr.toNat 1 (if write then some value else none) dev
        r.2.2.emit (.jtag (r.1.headD 0).toNat))) ∧
  -- LC_ADVANCE
  (∀ (s u : State) (t : Nat),
    u = (s.at t).loadIr 0x21 →
    exec (.lcAdvance t) s = .next (
        if u.mayAdvance then
          ({ u with
             fresh := u.fresh + 1
             dbg := { u.dbg with chal := some (true, (Config.free u.fresh).setWidth 16, u.now), jLoaded := true, jFail := false } } : State).emit
            (.jtag ((Config.free u.fresh).setWidth 16 : B16).toNat)
        else u.refuseIr)) ∧
  -- LC_ADVANCE_UPDATE with the key and the challenge
  (∀ (s : State) (t : Nat) (v : Word) (t0 : Nat),
    s.dbg.jLoaded = true →
    bitsOf v.toNat 16 16 = 0xA5C3 →
    s.dbg.chal = some (true, v.setWidth 16, t0) →
    (s.at t).now ≤ t0 + 10000000000 →
    exec (.lcAdvanceUpdate t v) s = .next ((s.at t).blowFuses.free.2.emit
        (.jtag (0x10000 + (Config.free s.fresh).toNat % 65536)))) ∧
  -- MBIST and FUSE_PROG in MANUFACTURE
  (∀ (s u : State) (floor : Word),
    u = s.loadIr 0x31 →
    s.lifecycle = 0 →
    exec (.fuseProg floor) s = .next (u.mapPwr fun p => { p with floor := Nat.max p.floor floor.toNat }) ∧
      exec .mbist s = .next ((s.loadIr 0x30).free.2.emit (.jtag (Config.free s.fresh).toNat))) ∧
  -- CHALLENGE_EXPIRY
  (∀ (s : State) (t : Nat) (j : Bool) (c : B16) (t0 : Nat),
    s.dbg.chal = some (j, c, t0) →
    t0 + 10000000000 ≤ (s.at t).now →
    exec (.challengeExpiry t) s = .next ((s.at t).mapDbg fun d => { d with chal := none, jFail := d.jFail || j }))

/-- When the input arbiter of an attachment grants a MemRd, MemRdData, MemInv or MemInvNT that has not aged, to a window at
its home whose extent serves it and whose rules permit it, the request leaves the Vestibule and takes a tracker entry
that carries its host, tag, port and what it asks of the line; a reserved meta value on a shared window is recorded as
violation 08h. A granted MemSpecRd starts its fill or is discarded. A granted MemWr or MemWrPtl that is no writeback
takes an entry with its data and byte enables, its snoop type violations recorded. -/
def Obligations.MemoryRequestGrantsOpenTheirLine : Prop :=
  -- MEMRD
  (∀ (s u : State) (hu : Hu) (plane : Bool) (t : Nat) (v : VMsg) (w : Nat) (x : Window) (b : Binding),
    GrantedFor (s.at t) u hu.toNat plane v w x →
    ExtentServes u v w x b →
    RulesPermit u v hu.toNat w x b →
    v.m.kind = .memRd →
    v.cls = .req →
    exec (.memrd hu plane t) s = .next (
        let line := x.lineAt v.off
        let a := u.checked v hu.toNat w x b
        a.opens hu.toNat x.room line w false (.rd .memRd (b.rw && v.m.mval == .a) (!(b.rw && v.m.mval == .a) && (v.m.mval == .s || v.m.mval == .a)) v.m.host.toNat v.m.tag.toNat v.port) (a.bankOf x.room)
          (if v.m.mval == .reserved && x.type == .shared then some (8, v.m.host.toNat, v.m.tag.toNat) else none))) ∧
  -- MEMRDDATA
  (∀ (s u : State) (hu : Hu) (plane : Bool) (t : Nat) (v : VMsg) (w : Nat) (x : Window) (b : Binding),
    GrantedFor (s.at t) u hu.toNat plane v w x →
    ExtentServes u v w x b →
    RulesPermit u v hu.toNat w x b →
    v.m.kind = .memRdData →
    v.cls = .req →
    exec (.memrddata hu plane t) s = .next (
        let line := x.lineAt v.off
        let a := u.checked v hu.toNat w x b
        a.opens hu.toNat x.room line w false (.rd .memRdData (b.rw) (!b.rw) v.m.host.toNat v.m.tag.toNat v.port) (a.bankOf x.room)
          (if v.m.mval == .reserved && x.type == .shared then some (8, v.m.host.toNat, v.m.tag.toNat) else none))) ∧
  -- MEMINV
  (∀ (s u : State) (hu : Hu) (plane : Bool) (t : Nat) (v : VMsg) (w : Nat) (x : Window) (b : Binding),
    GrantedFor (s.at t) u hu.toNat plane v w x →
    ExtentServes u v w x b →
    RulesPermit u v hu.toNat w x b →
    v.m.kind = .memInv →
    v.cls = .req →
    exec (.meminv hu plane t) s = .next (
        let line := x.lineAt v.off
        let a := u.checked v hu.toNat w x b
        a.opens hu.toNat x.room line w false (.rd .memInv (b.rw) (!b.rw) v.m.host.toNat v.m.tag.toNat v.port) (a.bankOf x.room)
          (if v.m.mval == .reserved && x.type == .shared then some (8, v.m.host.toNat, v.m.tag.toNat) else none))) ∧
  -- MEMINVNT
  (∀ (s u : State) (hu : Hu) (plane : Bool) (t : Nat) (v : VMsg) (w : Nat) (x : Window) (b : Binding),
    GrantedFor (s.at t) u hu.toNat plane v w x →
    ExtentServes u v w x b →
    RulesPermit u v hu.toNat w x b →
    v.m.kind = .memInvNT →
    v.cls = .req →
    exec (.meminvnt hu plane t) s = .next (
        let line := x.lineAt v.off
        let a := u.checked v hu.toNat w x b
        a.opens hu.toNat x.room line w false (.rd .memInvNT (b.rw) (!b.rw) v.m.host.toNat v.m.tag.toNat v.port) (a.bankOf x.room)
          (if v.m.mval == .reserved && x.type == .shared then some (8, v.m.host.toNat, v.m.tag.toNat) else none))) ∧
  -- MEMSPECRD
  (∀ (s u : State) (hu : Hu) (plane : Bool) (t : Nat) (v : VMsg) (w : Nat) (x : Window) (b : Binding),
    GrantedFor (s.at t) u hu.toNat plane v w x →
    ExtentServes u v w x b →
    RulesPermit u v hu.toNat w x b →
    v.m.kind = .memSpecRd →
    v.cls = .req →
    exec (.memspecrd hu plane t) s = .next ((u.checked v hu.toNat w x b).specRead w (x.lineAt v.off) x)) ∧
  -- MEMWR, no writeback
  (∀ (s u : State) (hu : Hu) (plane : Bool) (t : Nat) (v : VMsg) (w : Nat) (x : Window) (b : Binding),
    GrantedFor (s.at t) u hu.toNat plane v w x →
    ExtentServes u v w x b →
    RulesPermit u v hu.toNat w x b →
    v.m.kind = .memWr →
    v.cls = .rwd →
    (u.checkExt w (x.lineAt v.off)).2.isWbk v.m x (x.lineAt v.off) = false →
    exec (.memwr hu plane t) s = .next (
        let line := x.lineAt v.off
        let a := u.checked v hu.toNat w x b
        a.opens hu.toNat x.room line w true (.wr v.m.host.toNat v.m.tag.toNat v.port v.m.data allBe v.m.poison) (a.bankOf x.room)
          (if x.type == .shared && v.m.snp != .snpInv then
            some (if v.m.snp == .noOp then 5 else 6, v.m.host.toNat, v.m.tag.toNat) else none))) ∧
  -- MEMWRPTL, no writeback
  (∀ (s u : State) (hu : Hu) (plane : Bool) (t : Nat) (v : VMsg) (w : Nat) (x : Window) (b : Binding),
    GrantedFor (s.at t) u hu.toNat plane v w x →
    ExtentServes u v w x b →
    RulesPermit u v hu.toNat w x b →
    v.m.kind = .memWrPtl →
    v.cls = .rwd →
    (u.checkExt w (x.lineAt v.off)).2.isWbk v.m x (x.lineAt v.off) = false →
    exec (.memwrptl hu plane t) s = .next (
        let line := x.lineAt v.off
        let a := u.checked v hu.toNat w x b
        a.opens hu.toNat x.room line w true (.wr v.m.host.toNat v.m.tag.toNat v.port v.m.data v.m.be v.m.poison) (a.bankOf x.room)
          (if x.type == .shared && v.m.snp != .snpInv then
            some (if v.m.snp == .noOp then 5 else 6, v.m.host.toNat, v.m.tag.toNat) else none))) ∧
  -- MEMWR, a writeback of the owner
  (∀ (s u : State) (hu : Hu) (plane : Bool) (t : Nat) (v : VMsg) (w : Nat) (x : Window) (b : Binding),
    GrantedFor (s.at t) u hu.toNat plane v w x →
    ExtentServes u v w x b →
    b.rw = true →
    v.m.kind = .memWr →
    v.cls = .rwd →
    (u.checkExt w (x.lineAt v.off)).2.isWbk v.m x (x.lineAt v.off) = true →
    exec (.memwr hu plane t) s = .next (
        let p := ((u.checkExt w (x.lineAt v.off)).2.abandonSpec (x.lineAt v.off)).fresh1
        p.2.writesBack p.1 v hu.toNat w x)) ∧
  -- MEMWRPTL, a writeback of the owner
  (∀ (s u : State) (hu : Hu) (plane : Bool) (t : Nat) (v : VMsg) (w : Nat) (x : Window) (b : Binding),
    GrantedFor (s.at t) u hu.toNat plane v w x →
    ExtentServes u v w x b →
    b.rw = true →
    v.m.kind = .memWrPtl →
    v.cls = .rwd →
    (u.checkExt w (x.lineAt v.off)).2.isWbk v.m x (x.lineAt v.off) = true →
    exec (.memwrptl hu plane t) s = .next (
        let p := ((u.checkExt w (x.lineAt v.off)).2.abandonSpec (x.lineAt v.off)).fresh1
        p.2.writesBack p.1 v hu.toNat w x))

/-- When the arbiter grants the answer of a host to which a BISnp of an open entry of the line is outstanding, and the
tracker entry passes its check (R449), the snoop is off the entry's list with the answer noted and the entry goes on:
BIRspI to any snoop, BIRspS to SnpData or SnpCur, BIRspE to SnpCur. A binding that a failed snoop had ended is then
withdrawn (R96). BIConflict is acknowledged at once if no completion is owed to the host on this line; otherwise it
waits in the conflict table until the completions owed are sent, and is counted; the snoop stays outstanding, with the
conflict noted. -/
def Obligations.SnoopAnswersAndConflictsAreTaken : Prop :=
  -- BIRSPI
  (∀ (s u : State) (hu : Hu) (plane : Bool) (t : Nat) (v : VMsg) (w : Nat) (x : Window) (k : Trk) (y : Snoop),
    GrantedFor (s.at t) u hu.toNat plane v w x →
    (s.at t).trkCheck hu.toNat = (false, s.at t) →
    x.type = .shared →
    AwaitsSnoop u (x.lineAt v.off) v.m.host.toNat k y →
    v.m.kind = .biRspI →
    v.m.block = false →
    exec (.birspi hu plane t) s = .next (u.takesAnswer k v.m.host.toNat 1).removeFailed) ∧
  -- BIRSPS
  (∀ (s u : State) (hu : Hu) (plane : Bool) (t : Nat) (v : VMsg) (w : Nat) (x : Window) (k : Trk) (y : Snoop),
    GrantedFor (s.at t) u hu.toNat plane v w x →
    (s.at t).trkCheck hu.toNat = (false, s.at t) →
    x.type = .shared →
    AwaitsSnoop u (x.lineAt v.off) v.m.host.toNat k y →
    v.m.kind = .biRspS →
    v.m.block = false →
    y.kind = .snpData ∨ y.kind = .snpCur →
    exec (.birsps hu plane t) s = .next (u.takesAnswer k v.m.host.toNat 2).removeFailed) ∧
  -- BIRSPE
  (∀ (s u : State) (hu : Hu) (plane : Bool) (t : Nat) (v : VMsg) (w : Nat) (x : Window) (k : Trk) (y : Snoop),
    GrantedFor (s.at t) u hu.toNat plane v w x →
    (s.at t).trkCheck hu.toNat = (false, s.at t) →
    x.type = .shared →
    AwaitsSnoop u (x.lineAt v.off) v.m.host.toNat k y →
    v.m.kind = .biRspE →
    v.m.block = false →
    y.kind = .snpCur →
    exec (.birspe hu plane t) s = .next (u.takesAnswer k v.m.host.toNat 3).removeFailed) ∧
  -- BICONFLICT, nothing owed
  (∀ (s u : State) (hu : Hu) (plane : Bool) (t : Nat) (v : VMsg) (w : Nat) (x : Window) (k : Trk) (y : Snoop),
    GrantedFor (s.at t) u hu.toNat plane v w x →
    (s.at t).trkCheck hu.toNat = (false, s.at t) →
    x.type = .shared →
    AwaitsSnoop u (x.lineAt v.off) v.m.host.toNat k y →
    v.m.kind = .biConflict →
    (k.snoops.any fun z => z.host == v.m.host.toNat && z.cfl != 0) = false →
    u.owed (x.lineAt v.off) v.m.host.toNat k = [] →
    exec (.biconflict hu plane t) s = .next ((u.conflictNoted k v.m.host.toNat).pushHome v.port hu.toNat .cmp
        (.biConflictAck v.m.host.toNat (x.lineAt v.off))).removeFailed) ∧
  -- BICONFLICT, completions owed
  (∀ (s u : State) (hu : Hu) (plane : Bool) (t : Nat) (v : VMsg) (w : Nat) (x : Window) (k : Trk) (y : Snoop),
    GrantedFor (s.at t) u hu.toNat plane v w x →
    (s.at t).trkCheck hu.toNat = (false, s.at t) →
    x.type = .shared →
    AwaitsSnoop u (x.lineAt v.off) v.m.host.toNat k y →
    v.m.kind = .biConflict →
    (k.snoops.any fun z => z.host == v.m.host.toNat && z.cfl != 0) = false →
    u.owed (x.lineAt v.off) v.m.host.toNat k ≠ [] →
    exec (.biconflict hu plane t) s = .next (((u.conflictNoted k v.m.host.toNat).mapHome fun h => { h with cfl := h.cfl ++
        [{ hu := hu.toNat, host := v.m.host.toNat, line := x.lineAt v.off, port := v.port,
           owed := u.owed (x.lineAt v.off) v.m.host.toNat k }] }).bump (HSL_CFL_STAT_fDEFER_CNT hu.toNat)).removeFailed)

/-- When the arbiter of an attachment grants a FetchAdd, Swap or CAS that has not aged, from a host whose binding is
writable, to a window that allows atomics, at an aligned target inside the window, of an operand size of its table,
permitted by the rules of the Room and served by the extent, the request leaves the Vestibule and takes a tracker entry
with its operands, its host and its tag. -/
def Obligations.AtomicOpGrantsOpenTheirLine : Prop :=
  -- FETCHADD
  (∀ (s u : State) (hu : Hu) (plane : Bool) (t : Nat) (v : VMsg) (w : Nat) (x : Window) (b : Binding),
    AtomPasses (s.at t) u hu.toNat plane v .fetchAdd w x b →
    exec (.fetchadd hu plane t) s = .next (
        let a := u.atomChecked hu.toNat v w x
        a.opens hu.toNat x.room (x.lineAt v.off) w false (v.atomReq .fetchAdd) (a.bankOf x.room) none)) ∧
  -- SWAP
  (∀ (s u : State) (hu : Hu) (plane : Bool) (t : Nat) (v : VMsg) (w : Nat) (x : Window) (b : Binding),
    AtomPasses (s.at t) u hu.toNat plane v .swap w x b →
    exec (.swap hu plane t) s = .next (
        let a := u.atomChecked hu.toNat v w x
        a.opens hu.toNat x.room (x.lineAt v.off) w false (v.atomReq .swap) (a.bankOf x.room) none)) ∧
  -- CAS
  (∀ (s u : State) (hu : Hu) (plane : Bool) (t : Nat) (v : VMsg) (w : Nat) (x : Window) (b : Binding),
    AtomPasses (s.at t) u hu.toNat plane v .cas w x b →
    exec (.cas hu plane t) s = .next (
        let a := u.atomChecked hu.toNat v w x
        a.opens hu.toNat x.room (x.lineAt v.off) w false (v.atomReq .cas) (a.bankOf x.room) none))

/-- When UMIN, UMAX, SMIN, SMAX, AND, OR, XOR, ADD128 or BINC is granted for a slot whose submitted operation has that code,
is the next of its slice on its line, has a size of its table, an aligned target inside the window, a writable binding,
the permission of the rules and an extent that serves it, and the Room has a tracker entry left, the slot is marked
granted and the operation takes a tracker entry with its operand. -/
def Obligations.ExtendedOperationGrantsOpenTheirLine : Prop :=
  -- UMIN
  (∀ (s : State) (slice : SliceId) (slot : BitVec 5) (t : Nat) (x : Slice) (w : Window) (y : XSlot) (b : Binding) (target size opnd : Nat) (notify : Bool),
    XopPasses (s.at t) slice.toNat slot.toNat 1 x w y b target size opnd notify →
    exec (.umin slice slot t) s = .next ((s.at t).grantsXop slice.toNat slot.toNat 1 x w target size opnd)) ∧
  -- UMAX
  (∀ (s : State) (slice : SliceId) (slot : BitVec 5) (t : Nat) (x : Slice) (w : Window) (y : XSlot) (b : Binding) (target size opnd : Nat) (notify : Bool),
    XopPasses (s.at t) slice.toNat slot.toNat 2 x w y b target size opnd notify →
    exec (.umax slice slot t) s = .next ((s.at t).grantsXop slice.toNat slot.toNat 2 x w target size opnd)) ∧
  -- SMIN
  (∀ (s : State) (slice : SliceId) (slot : BitVec 5) (t : Nat) (x : Slice) (w : Window) (y : XSlot) (b : Binding) (target size opnd : Nat) (notify : Bool),
    XopPasses (s.at t) slice.toNat slot.toNat 3 x w y b target size opnd notify →
    exec (.smin slice slot t) s = .next ((s.at t).grantsXop slice.toNat slot.toNat 3 x w target size opnd)) ∧
  -- SMAX
  (∀ (s : State) (slice : SliceId) (slot : BitVec 5) (t : Nat) (x : Slice) (w : Window) (y : XSlot) (b : Binding) (target size opnd : Nat) (notify : Bool),
    XopPasses (s.at t) slice.toNat slot.toNat 4 x w y b target size opnd notify →
    exec (.smax slice slot t) s = .next ((s.at t).grantsXop slice.toNat slot.toNat 4 x w target size opnd)) ∧
  -- AND
  (∀ (s : State) (slice : SliceId) (slot : BitVec 5) (t : Nat) (x : Slice) (w : Window) (y : XSlot) (b : Binding) (target size opnd : Nat) (notify : Bool),
    XopPasses (s.at t) slice.toNat slot.toNat 5 x w y b target size opnd notify →
    exec (.and slice slot t) s = .next ((s.at t).grantsXop slice.toNat slot.toNat 5 x w target size opnd)) ∧
  -- OR
  (∀ (s : State) (slice : SliceId) (slot : BitVec 5) (t : Nat) (x : Slice) (w : Window) (y : XSlot) (b : Binding) (target size opnd : Nat) (notify : Bool),
    XopPasses (s.at t) slice.toNat slot.toNat 6 x w y b target size opnd notify →
    exec (.or slice slot t) s = .next ((s.at t).grantsXop slice.toNat slot.toNat 6 x w target size opnd)) ∧
  -- XOR
  (∀ (s : State) (slice : SliceId) (slot : BitVec 5) (t : Nat) (x : Slice) (w : Window) (y : XSlot) (b : Binding) (target size opnd : Nat) (notify : Bool),
    XopPasses (s.at t) slice.toNat slot.toNat 7 x w y b target size opnd notify →
    exec (.xor slice slot t) s = .next ((s.at t).grantsXop slice.toNat slot.toNat 7 x w target size opnd)) ∧
  -- ADD128
  (∀ (s : State) (slice : SliceId) (slot : BitVec 5) (t : Nat) (x : Slice) (w : Window) (y : XSlot) (b : Binding) (target size opnd : Nat) (notify : Bool),
    XopPasses (s.at t) slice.toNat slot.toNat 8 x w y b target size opnd notify →
    exec (.add128 slice slot t) s = .next ((s.at t).grantsXop slice.toNat slot.toNat 8 x w target size opnd)) ∧
  -- BINC
  (∀ (s : State) (slice : SliceId) (slot : BitVec 5) (t : Nat) (x : Slice) (w : Window) (y : XSlot) (b : Binding) (target size opnd : Nat) (notify : Bool),
    XopPasses (s.at t) slice.toNat slot.toNat 9 x w y b target size opnd notify →
    exec (.binc slice slot t) s = .next ((s.at t).grantsXop slice.toNat slot.toNat 9 x w target size opnd))

/-- FetchAdd adds modulo the operand size, Swap stores its operand, CAS stores the swap operand exactly if the old value
equals the compare operand; the minimum and maximum operations compare unsigned or in two's complement, the bitwise
operations act bit by bit, ADD128 adds modulo 2^128, and BINC adds 1 below its bound and writes nothing at or above it. -/
def Obligations.AtomicResultsFollowTheTables : Prop :=
  (∀ o a b : BitVec 64,
    atomNew .fetchAdd 8 o.toNat a.toNat b.toNat = (o + a).toNat ∧ atomNew .swap 8 o.toNat a.toNat b.toNat = a.toNat ∧
    atomNew .cas 8 o.toNat a.toNat b.toNat = (if o = a then b else o).toNat ∧
    xopNew 1 8 o.toNat a.toNat = (if o.ult a then o else a).toNat ∧ xopNew 2 8 o.toNat a.toNat = (if o.ult a then a else o).toNat ∧
    xopNew 3 8 o.toNat a.toNat = (if o.slt a then o else a).toNat ∧ xopNew 4 8 o.toNat a.toNat = (if o.slt a then a else o).toNat ∧
    xopNew 5 8 o.toNat a.toNat = (o &&& a).toNat ∧ xopNew 6 8 o.toNat a.toNat = (o ||| a).toNat ∧
    xopNew 7 8 o.toNat a.toNat = (o ^^^ a).toNat ∧ xopNew 9 8 o.toNat a.toNat = (if o.ult a then o + 1 else o).toNat) ∧
  (∀ o a b : BitVec 32,
    atomNew .fetchAdd 4 o.toNat a.toNat b.toNat = (o + a).toNat ∧ atomNew .swap 4 o.toNat a.toNat b.toNat = a.toNat ∧
    atomNew .cas 4 o.toNat a.toNat b.toNat = (if o = a then b else o).toNat ∧
    xopNew 1 4 o.toNat a.toNat = (if o.ult a then o else a).toNat ∧ xopNew 2 4 o.toNat a.toNat = (if o.ult a then a else o).toNat ∧
    xopNew 3 4 o.toNat a.toNat = (if o.slt a then o else a).toNat ∧ xopNew 4 4 o.toNat a.toNat = (if o.slt a then a else o).toNat ∧
    xopNew 5 4 o.toNat a.toNat = (o &&& a).toNat ∧ xopNew 6 4 o.toNat a.toNat = (o ||| a).toNat ∧
    xopNew 7 4 o.toNat a.toNat = (o ^^^ a).toNat ∧ xopNew 9 4 o.toNat a.toNat = (if o.ult a then o + 1 else o).toNat) ∧
  (∀ o a b : BitVec 128,
    atomNew .cas 16 o.toNat a.toNat b.toNat = (if o = a then b else o).toNat ∧
    xopNew 5 16 o.toNat a.toNat = (o &&& a).toNat ∧ xopNew 6 16 o.toNat a.toNat = (o ||| a).toNat ∧
    xopNew 7 16 o.toNat a.toNat = (o ^^^ a).toNat ∧ xopNew 8 16 o.toNat a.toNat = (o + a).toNat)

/-- On a port in L0, a flit that passes FEC, CRC and the port group's checker takes in the acknowledgements and credits that
it returns and gives its messages to the port in order, and the port replays if it asks for that; a flit that fails is
counted, recorded as a corrected transient error and asked for again, and none of its messages is received. A CXL.cache
request of a device behind a pass-through binding that enables CXL.cache is forwarded to the binding's virtual switch,
and one of a host to the device of its CacheID; both only while the port carries traffic. A secondary bus reset of a
pass-through bridge sends Hot Reset on its port, which leaves L0, and one of a window's bridge clears the logical
device's configuration, registers, pending vectors, event log and event policy. A slot power-off by a host whose binding
is UNBINDING ends the wait for it. -/
def Obligations.FlitsAndPassThroughTrafficComplete : Prop :=
  -- FLIT_RECEIVED, a good flit
  (∀ (s u : State) (port : Port) (t : Nat) (msgs : List MsgIn) (ret : FlitRet),
    (s.at t).inL0 port.toNat = true →
    (s.at t).check1 (0x0100 + ((s.at t).portGroup port.toNat).getD 0) 32 false = (.clean, u) →
    exec (.flitReceived port t true true msgs ret) s =
        .next (
          let c := msgs.foldl (fun a m => a.receive port.toNat m) ((u.mapPort port.toNat fun x => { x with part := ret.part }).returnsIn port.toNat ret)
          if ret.nak then (c.bump (PRT_RETRY_CNT_fTX_REPLAY port.toNat)).replayCheck port.toNat else c)) ∧
  -- FLIT_RECEIVED, a bad flit
  (∀ (s u : State) (port : Port) (t : Nat) (fecOk crcOk : Bool) (msgs : List MsgIn) (ret : FlitRet),
    (s.at t).inL0 port.toNat = true →
    (s.at t).check1 (0x0100 + ((s.at t).portGroup port.toNat).getD 0) 32 false = (.clean, u) →
    fecOk = false ∨ crcOk = false →
    exec (.flitReceived port t fecOk crcOk msgs ret) s =
        .next ((((u.bump (if fecOk then PRT_FLIT_ERR_fCRC_CNT port.toNat else PRT_FLIT_ERR_fUNC_CNT port.toNat)).bump
          (PRT_RETRY_CNT_fRX_NAK port.toNat)).record {
            checker := 0x0100 + ((s.at t).portGroup port.toNat).getD 0, cls := 0, source := srcPort, unit := port.toNat
            transient := true, injected := false }).emit (.retry port.toNat))) ∧
  -- CXL_CACHE_D2H_REQ
  (∀ (s : State) (port : Port) (tag : B16) (cacheId : BitVec 4) (data : Bool) (v : Vppb),
    s.traffic port.toNat = true →
    s.role port.toNat = rolePt →
    s.ports.vppb.find? (fun v => v.cache && v.port == port.toNat) = some v →
    exec (.cxlCacheD2hReq port tag cacheId data) s =
        .next (s.forward port.toNat v.vcs (cacheMsg .d2hReq tag cacheId data) none 0 none)) ∧
  -- CXL_CACHE_H2D_REQ
  (∀ (s : State) (port : Port) (tag : B16) (cacheId : BitVec 4) (v : Vppb),
    s.traffic port.toNat = true →
    s.role port.toNat = roleUpstream →
    s.ports.vppb.find? (fun v => v.cache && (v.vcs == port.toNat && v.cacheId == cacheId.toNat)) = some v →
    exec (.cxlCacheH2dReq port tag cacheId) s =
        .next (s.forward port.toNat v.port (cacheMsg .h2dReq tag cacheId false) none 0 none)) ∧
  -- SECONDARY_BUS_RESET of a pass-through bridge
  (∀ (s : State) (vcs : Port) (bridge : BitVec 7) (v : Vppb),
    s.ports.vppb.find? (fun v => v.vcs == vcs.toNat && v.bridge == bridge.toNat) = some v →
    s.role v.port = rolePt →
    s.inL0 v.port = true →
    exec (.secondaryBusReset vcs bridge) s = .next ((s.emit (.pin (.hotReset v.port) true)).linkDown v.port 6)) ∧
  -- SECONDARY_BUS_RESET of a window's bridge
  (∀ (s : State) (vcs : Port) (bridge : BitVec 7),
    s.ports.vppb.find? (fun v => v.vcs == vcs.toNat && v.bridge == bridge.toNat) = none →
    exec (.secondaryBusReset vcs bridge) s = .next (s.mapPool fun x => { x with wins := x.wins.map fun w => (w.1, { w.2 with
        binds := w.2.binds.map fun b => if b.port == vcs.toNat && b.bridge == bridge.toNat then
          { b with events := [], nextEvt := 1, evtPolicy := 0, bar := 0, bar2 := 0, regs := [], pba := [] } else b }) })) ∧
  -- SLOT_POWER_OFF
  (∀ (s : State) (window : Win) (host : Fid) (x : Window) (b : Binding),
    s.win? window.toNat = some x →
    x.bind? host.toNat = some b →
    b.st = .unbinding →
    exec (.slotPowerOff window host) s = .next ((s.unbind2 window.toNat host.toNat).unbind5 window.toNat host.toNat))

/-- A CXL.io memory access that its arbiter grants now and that has not reached the age limit, inside a window, of 1 to
4,096 bytes, whose pages the rules permit and whose lines the extents serve, opens one tracker entry for each line under
one access record; a write needs a writable binding, and carries its bytes. A write with some refused parts writes the
permitted ones. The registers of the window's logical device are read and written below offset 10_0000h of BAR0. A read
of a doorbell page by the slice's host with the slice's PASID completes with the page's bytes, and a write changes the
page. A submit of a job slot whose job has ended, while the Room's queue holds fewer than 1,024 jobs, takes a job with
the current head into the Mover's queue and clears the slot's DONE bit. -/
def Obligations.WindowAccessesOfCxlIoComplete : Prop :=
  -- CXL_IO_MEMORY_READ
  (∀ (s u a c : State) (window : Win) (host : Fid) (pasid : Option (BitVec 20)) (tag : B16) (off : Nat) (len : Nat) (x : Window) (b : Binding),
    s.win? window.toNat = some x →
    s.ioBind window.toNat host.toNat tag.toNat false x = some b →
    s.ioWaits window.toNat host.toNat tag.toNat false = false →
    s.ioStale window.toNat host.toNat tag.toNat false = none →
    u = s.takeIo window.toNat host.toNat tag.toNat false →
    off + len ≤ x.bytes ∧ 1 ≤ len ∧ len ≤ 4096 →
    u.draining = false →
    x.failed = false →
    u.ioPages x host.toNat tag.toNat (pasid.map (·.toNat)) (x.base + off) len false = (accPages (x.base + off) len, a) →
    a.ioLines window.toNat tag.toNat false ((accLines (x.base + off) len).filter fun l => (accPages (x.base + off) len).contains (l / 64)) = (accLines (x.base + off) len, c) →
    exec (.cxlIoMemoryRead window host pasid tag off len) s =
        .next (c.ioOpen window.toNat host.toNat tag.toNat b.port x (x.base + off) len none (accLines (x.base + off) len) false)) ∧
  -- CXL_IO_MEMORY_WRITE
  (∀ (s u a c : State) (window : Win) (host : Fid) (pasid : Option (BitVec 20)) (tag : B16) (off : Nat) (data : List Byte) (pages go : List Nat) (x : Window) (b : Binding),
    s.win? window.toNat = some x →
    s.ioBind window.toNat host.toNat tag.toNat true x = some b →
    s.ioWaits window.toNat host.toNat tag.toNat true = false →
    s.ioStale window.toNat host.toNat tag.toNat true = none →
    u = s.takeIo window.toNat host.toNat tag.toNat true →
    off + data.length ≤ x.bytes ∧ 1 ≤ data.length ∧ data.length ≤ 4096 →
    u.draining = false →
    x.failed = false →
    b.rw = true →
    u.ioPages x host.toNat tag.toNat (pasid.map (·.toNat)) (x.base + off) data.length true = (pages, a) →
    a.ioLines window.toNat tag.toNat true ((accLines (x.base + off) data.length).filter fun l => pages.contains (l / 64)) = (go, c) →
    go ≠ [] →
    exec (.cxlIoMemoryWrite window host pasid tag off data) s =
        .next (c.ioOpen window.toNat host.toNat tag.toNat b.port x (x.base + off) data.length (some data) go
          (go.length != (accLines (x.base + off) data.length).length))) ∧
  -- DOORBELL_PAGE_ACCESS, a read
  (∀ (s u : State) (window : Win) (host : Fid) (pasid : Option (BitVec 20)) (tag : B16) (off size : Nat) (value : B64) (port id : Nat) (x : Slice),
    s.hostPort window.toNat host.toNat 0 = some port →
    s.ioWaits window.toNat host.toNat tag.toNat false = false →
    s.ioStale window.toNat host.toNat tag.toNat false = none →
    u = s.takeIo window.toNat host.toNat tag.toNat false →
    u.draining = false →
    0x100000 ≤ off →
    u.pool.slices.find? (fun p => p.2.window == window.toNat && p.2.page == (off - 0x100000) / 4096 && 0x100000 ≤ off && off < 0x200000 &&
        (u.win? window.toNat).isSome && p.2.host == host.toNat) = some (id, x) →
    x.pasid = pasid.map (·.toNat) →
    exec (.doorbellPageAccess window host pasid tag off false size value) s =
        .next (u.push port .cmp port (.ioCpl host.toNat tag.toNat .sc
          (leBytes (if size ≤ 4 then 4 else 8) (u.readPage id x (off % 4096) (if size ≤ 4 then 4 else 8))) false))) ∧
  -- DOORBELL_PAGE_ACCESS, a write
  (∀ (s u : State) (window : Win) (host : Fid) (pasid : Option (BitVec 20)) (tag : B16) (off size : Nat) (value : B64) (port id : Nat) (x : Slice),
    s.hostPort window.toNat host.toNat 0 = some port →
    s.ioWaits window.toNat host.toNat tag.toNat true = false →
    s.ioStale window.toNat host.toNat tag.toNat true = none →
    u = s.takeIo window.toNat host.toNat tag.toNat true →
    u.draining = false →
    0x100000 ≤ off →
    u.pool.slices.find? (fun p => p.2.window == window.toNat && p.2.page == (off - 0x100000) / 4096 && 0x100000 ≤ off && off < 0x200000 &&
        (u.win? window.toNat).isSome && p.2.host == host.toNat) = some (id, x) →
    x.pasid = pasid.map (·.toNat) →
    exec (.doorbellPageAccess window host pasid tag off true size value) s =
        .next (u.writePage id x (off % 4096) (if size ≤ 4 then 4 else 8) value.toNat)) ∧
  -- DOORBELL_PAGE_ACCESS of the registers of a window's logical device
  (∀ (s u : State) (window : Win) (host : Fid) (pasid : Option (BitVec 20)) (tag : B16) (off size : Nat) (write : Bool) (value : B64) (port : Nat) (x : Window) (b : Binding),
    s.hostPort window.toNat host.toNat 0 = some port →
    s.ioWaits window.toNat host.toNat tag.toNat write = false →
    s.ioStale window.toNat host.toNat tag.toNat write = none →
    u = s.takeIo window.toNat host.toNat tag.toNat write →
    u.draining = false →
    off < 0x100000 →
    u.win? window.toNat = some x →
    x.bind? host.toNat = some b →
    exec (.doorbellPageAccess window host pasid tag off write size value) s = .next (
        if write then u.ldWrite window.toNat host.toNat off (if size ≤ 4 then 4 else 8) value.toNat
        else u.push port .cmp port (.ioCpl host.toNat tag.toNat .sc
          (leBytes (if size ≤ 4 then 4 else 8) (b.ldRead x off (if size ≤ 4 then 4 else 8))) false))) ∧
  -- MJ_SUBMIT
  (∀ (s : State) (slice : SliceId) (value : Word) (x : Slice) (y : JSlot),
    NMap.get? s.pool.slices slice.toNat = some x →
    value.toNat < 8 →
    y = (NMap.get? x.jobs value.toNat).getD {} →
    y.flight = false →
    (s.mov.queue.filter fun j => j.room == x.room).length < 1024 →
    exec (.mjSubmit slice value) s = .next ((s.mapPool fun p => { p with slices := NMap.adjust p.slices slice.toNat fun z =>
        { z with jobs := NMap.set z.jobs value.toNat { y with done := false, flight := true } } }).mapMov fun m =>
          { m with nextJob := s.mov.nextJob + 1, queue := m.queue ++
            [{ id := s.mov.nextJob, room := x.room, kind := .list ((NMap.get? s.mov.heads slice.toNat).getD 0), slice := some (slice.toNat, value.toNat) }] }))

/-- The response of an outstanding memory request is taken by the request's use; the late response of a quarantined request
is discarded, its response slot freed and violation 0Bh counted and recorded. A host that has not answered its snoop
within the timeout is failed and the entry goes on. A NAKed internal request whose delay has passed is offered again.
With scrubbing on, a scrub reads the next set; a correctable error that it meets is counted and recorded, and an
uncorrectable one is recovered. The ageing sweep discards every aged request. At its end, a host purge has purged the
port's hosts and is over. -/
def Obligations.HomeUnitTimersAndResponsesComplete : Prop :=
  -- MEMORY_RESPONSE of an outstanding request
  (∀ (s : State) (req : Nat) (rsp : DevRsp) (t : Nat) (r : MemReq),
    s.home.memq.find? (fun r => r.id == req && r.sent) = some r →
    (s.at t).trkCheck r.hu = (false, s.at t) →
    exec (.memoryResponse req rsp t) s = .next (((s.at t).takeNotice r).memResp r rsp).removeFailed) ∧
  -- MEMORY_RESPONSE of a quarantined request
  (∀ (s : State) (req : Nat) (rsp : DevRsp) (t : Nat) (p : Nat × PortSt),
    s.home.memq.find? (fun r => r.id == req && r.sent) = none →
    s.ports.st.find? (fun p => p.2.quar.contains req) = some p →
    exec (.memoryResponse req rsp t) s = .next (((((s.at t).mapPort p.1 fun x => { x with quar := x.quar.filter (· != req) }).bump
        (PRT_PV_STAT_fPV_CNT p.1)).setFld (PRT_PV_STAT_fPV_SEEN p.1) 1).record
          { checker := 0x4100, source := srcPort, unit := p.1, tag := req, payload := 11 }).pumpDev) ∧
  -- SNOOP_TIMEOUT
  (∀ (s : State) (hu : Hu) (trk : Nat) (host : Fid) (t : Nat) (x : Trk) (y : Snoop),
    s.trk? trk = some x →
    x.snoops.find? (fun y => y.host == host.toNat) = some y →
    x.hu = hu.toNat →
    s.fld (HSL_SNP_CFG_fSNP_TMO hu.toNat) * 1000 ≤ (s.at t).now - y.t0 →
    (s.at t).trkCheck x.hu = (false, s.at t) →
    exec (.snoopTimeout hu trk host t) s = .next (((s.at t).failSnoop x host.toNat).advance trk).run.removeFailed) ∧
  -- INTERNAL_RETRY, taken
  (∀ (s : State) (req t : Nat) (r : IntReq),
    s.home.intq.find? (fun r => r.id == req && r.next ≤ (s.at t).now) = some r →
    (s.at t).reqWins (lineHu r.line) (linePlane r.line) r.room = true →
    (s.at t).scqLevel (lineHu r.line) < 64 →
    (((s.at t).countsReq (lineHu r.line) (linePlane r.line) r.room).offerInt r).1 = true →
    exec (.internalRetry req t) s = .next ((((s.at t).countsReq (lineHu r.line) (linePlane r.line) r.room).offerInt r).2.mapHome fun h => { h with intq := h.intq.filter fun x => x.id != r.id })) ∧
  -- INTERNAL_RETRY, NAKed again
  (∀ (s : State) (req t : Nat) (r : IntReq),
    s.home.intq.find? (fun r => r.id == req && r.next ≤ (s.at t).now) = some r →
    (s.at t).reqWins (lineHu r.line) (linePlane r.line) r.room = true →
    (s.at t).scqLevel (lineHu r.line) < 64 →
    (((s.at t).countsReq (lineHu r.line) (linePlane r.line) r.room).offerInt r).1 = false →
    exec (.internalRetry req t) s = .next ((((s.at t).countsReq (lineHu r.line) (linePlane r.line) r.room).offerInt r).2.nakInt r)) ∧
  -- INTERNAL_RETRY, another requester first
  (∀ (s : State) (req t : Nat) (r : IntReq),
    s.home.intq.find? (fun r => r.id == req && r.next ≤ (s.at t).now) = some r →
    (s.at t).reqWins (lineHu r.line) (linePlane r.line) r.room = false ∨ 64 ≤ (s.at t).scqLevel (lineHu r.line) →
    exec (.internalRetry req t) s = .next ((s.at t).waitInt r)) ∧
  -- DIRECTORY_SCRUB, no error
  (∀ (s u : State) (hu : Hu),
    s.flag (HSL_SCRUB_CFG_fEN hu.toNat) = true →
    u = (s.mapHome fun x => { x with
        scrub := NMap.set x.scrub hu.toNat (((NMap.get? s.home.scrub hu.toNat).getD 0 + 1) % 524288) }) →
    u.hbmParity (huStack hu.toNat) (16 * huStack hu.toNat + (Config.hbmChannel (huStack hu.toNat)
        (huPos hu.toNat * 0x8000000 + (NMap.get? s.home.scrub hu.toNat).getD 0 * 256)).toNat) = (false, u) →
    u.fld FLT_INJ_CTL_fARM = 0 →
    exec (.directoryScrub hu none) s = .next u) ∧
  -- DIRECTORY_SCRUB, a correctable error
  (∀ (s u : State) (hu : Hu) (way : BitVec 4) (trusted : Bool),
    s.flag (HSL_SCRUB_CFG_fEN hu.toNat) = true →
    u = (s.mapHome fun x => { x with
        scrub := NMap.set x.scrub hu.toNat (((NMap.get? s.home.scrub hu.toNat).getD 0 + 1) % 524288) }) →
    u.hbmParity (huStack hu.toNat) (16 * huStack hu.toNat + (Config.hbmChannel (huStack hu.toNat)
        (huPos hu.toNat * 0x8000000 + (NMap.get? s.home.scrub hu.toNat).getD 0 * 256)).toNat) = (false, u) →
    u.fld FLT_INJ_CTL_fARM = 0 →
    exec (.directoryScrub hu (some (way, false, trusted))) s = .next (u.dirCe hu.toNat (0x0a00 + hu.toNat) false false)) ∧
  -- DIRECTORY_SCRUB, an uncorrectable error
  (∀ (s u : State) (hu : Hu) (way : BitVec 4) (trusted : Bool),
    s.flag (HSL_SCRUB_CFG_fEN hu.toNat) = true →
    u = (s.mapHome fun x => { x with
        scrub := NMap.set x.scrub hu.toNat (((NMap.get? s.home.scrub hu.toNat).getD 0 + 1) % 524288) }) →
    u.hbmParity (huStack hu.toNat) (16 * huStack hu.toNat + (Config.hbmChannel (huStack hu.toNat)
        (huPos hu.toNat * 0x8000000 + (NMap.get? s.home.scrub hu.toNat).getD 0 * 256)).toNat) = (false, u) →
    u.fld FLT_INJ_CTL_fARM = 0 →
    exec (.directoryScrub hu (some (way, true, trusted))) s =
        .next (u.dirUe hu.toNat ((NMap.get? s.home.scrub hu.toNat).getD 0) way.toNat trusted false)) ∧
  -- AGEING_SWEEP
  (∀ (s : State) (t : Nat),
    exec (.ageingSweep t) s = .next ((s.home.egress.filter fun e =>
          match (s.at t).sentOn e with | some v => (s.at t).aged v | none => false).foldl (fun a e => a.failSentOn e)
        ((s.home.vst.filter (s.at t).aged).foldl (fun a v => a.discard v 0x4300) (s.at t)))) ∧
  -- PURGE_END
  (∀ (s : State) (port : Port),
    (s.port port.toNat).purge = true →
    s.purgeHeld port.toNat = false →
    exec (.purgeEnd port) s = .next
        ((((s.purgePort port.toNat).mapPort port.toNat fun x => { x with purge := false }).setFld (PRT_PROTO_STAT_fPURGE port.toNat) 0).run))

/-- When refresh takes an HBM channel, the channel is in refresh and the refresh is counted as a grant of requester 10 at
the channel's arbiter; when it ends, the channel is not in refresh. A lock overrun is counted, seen, and recorded as a
contained fault of the home unit. A write of the arbiter control register sets CNT_EN from bit 0 and, with bit 1 set,
clears every arbiter counter. -/
def Obligations.ArbiterCountersAndHbmRefreshComplete : Prop :=
  -- HBM_REFRESH, start
  (∀ (s : State) (stack : Stack) (channel : BitVec 4),
    s.home.refresh.contains (stack.toNat * 16 + channel.toNat) = false →
    exec (.hbmRefresh stack channel true) s = .next ((s.mapHome fun h =>
        { h with refresh := (stack.toNat * 16 + channel.toNat) :: h.refresh }).countArb 2 (stack.toNat * 16 + channel.toNat) 10 [])) ∧
  -- HBM_REFRESH, end
  (∀ (s : State) (stack : Stack) (channel : BitVec 4),
    exec (.hbmRefresh stack channel false) s = .next (State.hbmDrain (stack.toNat * 16 + channel.toNat)
        (s.hchan (stack.toNat * 16 + channel.toNat)).wait.length
        (s.mapHome fun h => { h with refresh := h.refresh.filter (· != stack.toNat * 16 + channel.toNat) }))) ∧
  -- LOCK_OVERRUN
  (∀ (s : State) (kind : BitVec 2) (inst : Byte) (hu : Hu),
    s.lockHeld kind.toNat inst.toNat = true →
    exec (.lockOverrun kind inst hu) s = .next ((((s.unlock kind.toNat inst.toNat).bump XBR_LOCK_STAT_fOVR_CNT).setFld XBR_LOCK_STAT_fOVR_SEEN 1).record
        { checker := 0x4600, source := srcHome, unit := hu.toNat, payload := kind.toNat + inst.toNat * 256 })) ∧
  -- LOCK_OVERRUN, the lock is free again
  (∀ (s : State) (kind : BitVec 2) (inst : Byte) (hu : Hu),
    s.lockHeld kind.toNat inst.toNat = false →
    exec (.lockOverrun kind inst hu) s = .next s) ∧
  -- ARB_COUNTER_CLEAR
  (∀ (s : State) (value : Word),
    exec (.arbCounterClear value) s = .next (
        if bitOf value.toNat 1 then (s.setFld XBR_ARB_CTL_fCNT_EN (value.toNat % 2)).mapHome fun h => { h with arb := [] }
        else s.setFld XBR_ARB_CTL_fCNT_EN (value.toNat % 2)))

/-- At its deadline an unbind that still waits goes on without the host: the binding's lines are taken back and the binding
is removed; the same holds at once for a binding that a snoop timeout failed. Pass-through removals whose wait is over
are unbound. At a capacity response timeout every offer whose deadline has passed is answered as with no extents, and a
forced release whose deadline has passed closes the RELEASING extents that it named. -/
def Obligations.WindowTimersComplete : Prop :=
  -- UNBIND_TIMEOUT at the deadline
  (∀ (s u : State) (window : Win) (host : Fid) (t : Nat) (x : Window) (b : Binding) (d : Nat),
    u = ((s.at t).removalsDue.foldl (fun a v => a.unbindPt v) (s.at t)) →
    u.win? window.toNat = some x →
    x.bind? host.toNat = some b →
    b.deadline = some d →
    d ≤ u.now →
    exec (.unbindTimeout window host t) s = .next ((u.unbind2 window.toNat host.toNat).unbind5 window.toNat host.toNat)) ∧
  -- UNBIND_TIMEOUT of a binding that a snoop timeout failed
  (∀ (s u : State) (window : Win) (host : Fid) (t : Nat) (x : Window) (b : Binding),
    u = ((s.at t).removalsDue.foldl (fun a v => a.unbindPt v) (s.at t)) →
    u.win? window.toNat = some x →
    x.bind? host.toNat = some b →
    b.deadline = none →
    b.r96 = true →
    exec (.unbindTimeout window host t) s = .next ((u.unbind2 window.toNat host.toNat).unbind5 window.toNat host.toNat)) ∧
  -- CAPACITY_RESPONSE_TIMEOUT
  (∀ (s u : State) (window : Win) (t : Nat) (x : Window),
    s.win? window.toNat = some x →
    u = ((x.offers.filter fun o => o.deadline ≤ (s.at t).now).foldl (fun a o => a.answerOffer window.toNat o []) (s.at t)) →
    exec (.capacityResponseTimeout window t) s = .next (
        let c := (u.forcedDue window.toNat).foldl (fun a i => a.closeReleasing (x.baseX + i)) u
        (c.pumpRelease window.toNat).endReleases window.toNat))

/-- At the old home, the handoff of a COPYING window starts when every extent is DUAL with its copy written: the window is
HANDOFF_OUT and its host-held lines are swept. When the sweep is empty and no tracker entry of the window is left,
HANDOFF_READY takes it to PROXY and sends the handoff to the new home. At the new home HANDOFF_READY makes the window
ACTIVE, gives back the extents of a dynamic capacity window that the old home wrote nothing to, lets in the requests
held in order and announces the move. Held requests that have reached the handoff age are discarded with their synthetic
completions and recorded. An abandoned re-homing at the old home ends its copies, makes the window ACTIVE and completes
the command ABORTED; at the new home the held requests receive synthetic completions. -/
def Obligations.RehomingStepsComplete : Prop :=
  -- HANDOFF_START
  (∀ (s u : State) (window : Win) (x : Window) (r : Rehome),
    s.win? window.toNat = some x →
    x.rehome = some r →
    r.old = true ∧ x.st = .copying →
    s.allCopied x = true →
    u = (s.mapWin window.toNat fun y => { y with st := .handoffOut }) →
    exec (.handoffStart window) s = .next ((u.mapWin window.toNat fun y =>
        { y with rehome := some { r with sweep := u.heldLines window.toNat 4096 } }).pumpHandoff window.toNat)) ∧
  -- HANDOFF_READY at the old home
  (∀ (s u : State) (window : Win) (t : Nat) (x y : Window) (r q : Rehome),
    s.win? window.toNat = some x →
    x.rehome = some r →
    r.old = true ∧ x.st = .handoffOut →
    u = (s.at t).pumpHandoff window.toNat →
    u.win? window.toNat = some y →
    y.rehome = some q →
    q.sweep = [] ∧ u.winTrk window.toNat = 0 →
    exec (.handoffReady window t) s = .next
        ((u.mapWin window.toNat fun y => { y with st := .proxy, rehome := some { q with ready := true } }).emit (.handoff q.peer q.peerWin))) ∧
  -- HANDOFF_READY at the new home
  (∀ (s u : State) (window : Win) (t : Nat) (x : Window) (r : Rehome),
    s.win? window.toNat = some x →
    x.rehome = some r →
    r.old = false →
    u = (((if x.type == .dynamic then (List.range x.extents).filter fun i => !r.wrote.contains i else []).foldl
        (fun a i => a.freeOne x i) ((s.at t).mapWin window.toNat fun y => { y with st := .active, rehome := none })).mapHome fun h =>
          { h with hold := h.hold.filter fun q => q.win != window.toNat }) →
    exec (.handoffReady window t) s = .next (((s.home.hold.filter fun h => h.win == window.toNat).foldl (fun a h =>
        match a.win? window.toNat with
        | some y => a.letIn h.v (lineHu (y.lineAt h.v.off)) window.toNat y
        | none => a) u).announceMove window.toNat r)) ∧
  -- HANDOFF_AGE_DISCARD
  (∀ (s : State) (window : Win) (t : Nat) (x : Window) (r : Rehome),
    s.win? window.toNat = some x →
    x.rehome = some r →
    exec (.handoffAgeDiscard window t) s = .next (
        let n := (s.at t).now
        let due := fun (h : Held) => h.win == window.toNat && r.age * 1000 ≤ n - h.t0
        (s.home.hold.filter due).foldl (fun a h => (a.synth h.v.port h.v.port h.v.m).record {
            checker := 0x5100, source := srcWindow, unit := window.toNat, room := h.v.room.getD 0, tag := h.v.m.tag.toNat
            payload := packBits [(n - h.t0, 64), (h.v.cls.rank, 8)] })
          ((s.at t).mapHome fun h => { h with hold := h.hold.filter fun q => !due q }))) ∧
  -- REHOME_ABANDON at the old home
  (∀ (s : State) (window : Win) (x : Window) (r : Rehome),
    s.win? window.toNat = some x →
    x.rehome = some r →
    r.old = true →
    x.st = .copying ∨ x.st = .handoffOut →
    exec (.rehomeAbandon window) s = .next (
        ((((s.mov.migs.filter fun m => m.win == window.toNat && m.remote.isSome).foldl (fun a m => a.migAbandon m.x .aborted) s).mapWin
          window.toNat fun y => { y with st := .active, rehome := none }).finishWork (.rehome window.toNat) .aborted (leBytes 4 r.copied)))) ∧
  -- REHOME_ABANDON at the new home
  (∀ (s : State) (window : Win) (x : Window) (r : Rehome),
    s.win? window.toNat = some x →
    x.rehome = some r →
    r.old = false →
    exec (.rehomeAbandon window) s = .next (
        (s.home.hold.filter fun h => h.win == window.toNat).foldl (fun a h => a.synth h.v.port h.v.port h.v.m)
          ((s.mapWin window.toNat fun y => { y with rehome := none }).mapHome fun h =>
            { h with hold := h.hold.filter fun q => q.win != window.toNat })))

/-- A port that carries traffic and whose group does not drain makes one scheduling decision at a dequeue, after a gate swap
that is due, and with nothing queued only the deficits of its queues 2 to 7 become 0; the beat parity of a message that
leaves so is checked. A bucket tick checks the parity of the control-store registers and refills the buckets of every
port. A gate swap that is due changes the active bank if the fabric's time is locked and completes the pending
GATE_COMMIT commands of that instant. A group drain whose time is over ends, and the messages queued at the group's live
members go to the members that their flows now take. -/
def Obligations.EgressSchedulingCompletes : Prop :=
  -- EGRESS_DEQUEUE
  (∀ (s u : State) (port : Port) (t : Nat),
    u = (s.at t).gateDue port.toNat →
    u.traffic port.toNat = true →
    u.groupDrains port.toNat = false →
    exec (.egressDequeue port t) s = .next (
        match s.home.egress.find? fun e => e.port == port.toNat && !((u.schedule port.toNat).home.egress.any fun x => x.id == e.id) with
        | some e => (u.schedule port.toNat).egressBeat port.toNat e
        | none => u.schedule port.toNat)) ∧
  -- EGRESS_DEQUEUE with nothing queued
  (∀ (s : State) (port : Port) (t : Nat),
    (s.port port.toNat).gateT = none →
    (s.at t).traffic port.toNat = true →
    (s.at t).groupDrains port.toNat = false →
    (s.at t).membersOf port.toNat = [] →
    ∃ d : NMap Nat, exec (.egressDequeue port t) s = .next ((s.at t).mapPort port.toNat fun x => { x with deficit := d }) ∧
        ∀ q, 2 ≤ q → q < 8 → NMap.get? d q = some 0) ∧
  -- BUCKET_TICK
  (∀ (s : State) (t : Nat),
    exec (.bucketTick t) s = .next ((s.at t).parity.allPorts.foldl (fun a p => a.tickPort p) (s.at t).parity)) ∧
  -- GATE_SWAP that is due, with no GATE_COMMIT pending
  (∀ (s : State) (port : Port) (t d : Nat),
    (s.port port.toNat).gateT = some d →
    d ≤ (s.at t).now →
    s.cmds.pend = [] →
    exec (.gateSwap port t) s = .next ((s.ports.st.filter fun x => x.2.gateT == some d).foldl (fun a x =>
        a.mapPort x.1 fun y => { y with gateT := none, gateAct := if (s.at t).timeLocked then !y.gateAct else y.gateAct }) (s.at t))) ∧
  -- GROUP_DRAIN_EXPIRY
  (∀ (s : State) (neighbour : Fid) (t e : Nat),
    NMap.get? s.home.drains neighbour.toNat = some e →
    e ≤ (s.at t).now →
    exec (.groupDrainExpiry neighbour t) s =   .next (((s.at t).mapHome fun h => { h with drains := NMap.erase h.drains neighbour.toNat }).resteer neighbour.toNat))

/-- A queued job starts on the Room's lowest enabled idle channel, which fetches the first descriptor of a list. A channel
whose descriptor is of the row's type runs it line by line as far as the answers of devices go, and then fetches the
next descriptor. For a migration, PREPARE prepares the extent, the copy copies lines until all are copied and then
SWITCH is next, SWITCH retires the old backing under the next generation (the Pantry gives up the extent's lines where
no pool device will back them), RELEASE gives it back once no request of the old generation is open, and ABANDON returns
the extent to its source and ends the command ABORTED. -/
def Obligations.MoverChannelsRun : Prop :=
  -- JOB_START
  (∀ (s : State) (room : LRoom) (dev : DevData) (j : Job) (n : Nat) (c : MChan),
    s.mov.queue.find? (fun j => j.room == room.toNat) = some j →
    s.mov.chans.find? (fun c => c.2.en && c.2.st == .idle && c.2.room == some room.toNat) = some (n, c) →
    s.draining = false →
    exec (.jobStart room dev) s = .next (
        let u := (s.mapMov fun m => { m with queue := m.queue.filter fun k => k.id != j.id }).setChan n { c with
          st := ChSt.running, job := some j, cur := none, pos := 0, count := 0, wait := none, got := [], writes := [], todo := none
          tries := 0, parts := [], desc := match j.kind with
            | .list h => h
            | .mig _ => 0 }
        match j.kind with
        | .list _ => (u.fetchDesc n j dev).2
        | .mig _ => u)) ∧
  -- COPY
  (∀ (s u : State) (ch : Chan) (dev : DevData) (dev1 : List DevRsp) (j : Job) (head : Nat) (d : Desc),
    RunsDesc s u ch.toNat dev dev1 j head d →
    d.type = 0 →
    exec (.copy ch dev) s = .next (
        let r := State.runDesc (2 * (d.len / 64) + 4) u ch.toNat j d dev1
        r.2.goesOn ch.toNat j r.1)) ∧
  -- FILL
  (∀ (s u : State) (ch : Chan) (dev : DevData) (dev1 : List DevRsp) (j : Job) (head : Nat) (d : Desc),
    RunsDesc s u ch.toNat dev dev1 j head d →
    d.type = 1 →
    exec (.fill ch dev) s = .next (
        let r := State.runDesc (2 * (d.len / 64) + 4) u ch.toNat j d dev1
        r.2.goesOn ch.toNat j r.1)) ∧
  -- ZERO
  (∀ (s u : State) (ch : Chan) (dev : DevData) (dev1 : List DevRsp) (j : Job) (head : Nat) (d : Desc),
    RunsDesc s u ch.toNat dev dev1 j head d →
    d.type = 2 →
    exec (.zero ch dev) s = .next (
        let r := State.runDesc (2 * (d.len / 64) + 4) u ch.toNat j d dev1
        r.2.goesOn ch.toNat j r.1)) ∧
  -- COMPARE
  (∀ (s u : State) (ch : Chan) (dev : DevData) (dev1 : List DevRsp) (j : Job) (head : Nat) (d : Desc),
    RunsDesc s u ch.toNat dev dev1 j head d →
    d.type = 3 →
    exec (.compare ch dev) s = .next (
        let r := State.runDesc (2 * (d.len / 64) + 4) u ch.toNat j d dev1
        r.2.goesOn ch.toNat j r.1)) ∧
  -- FLUSH
  (∀ (s u : State) (ch : Chan) (dev : DevData) (dev1 : List DevRsp) (j : Job) (head : Nat) (d : Desc),
    RunsDesc s u ch.toNat dev dev1 j head d →
    d.type = 4 →
    exec (.flush ch dev) s = .next (
        let r := State.runDesc (2 * (d.len / 64) + 4) u ch.toNat j d dev1
        r.2.goesOn ch.toNat j r.1)) ∧
  -- PREPARE of a migration
  (∀ (s u c : State) (ch : Chan) (dev : DevData) (dev1 : List DevRsp) (j : Job) (x : Nat) (m : Mig),
    RunsMig s u ch.toNat dev dev1 j x 0 m →
    (u.migPrepare x dev1).1 ≠ 2 →
    c = (u.migPrepare x dev1).2.2 →
    exec (.prepare ch dev) s = .next c) ∧
  -- MIGSTEP_COPY of a migration, lines left to copy
  (∀ (s u c : State) (ch : Chan) (dev : DevData) (dev1 : List DevRsp) (j : Job) (x : Nat) (m y : Mig) (dev2 : List DevRsp),
    RunsMig s u ch.toNat dev dev1 j x 1 m →
    State.migCopy (2 ^ 22 + dev1.length) u x ch.toNat dev1 = (true, dev2, c) →
    c.mig? x = some y →
    y.copied < 2 ^ 22 →
    exec (.migstepCopy ch dev) s = .next c) ∧
  -- MIGSTEP_COPY of a migration, all lines copied
  (∀ (s u c : State) (ch : Chan) (dev : DevData) (dev1 : List DevRsp) (j : Job) (x : Nat) (m y : Mig) (dev2 : List DevRsp),
    RunsMig s u ch.toNat dev dev1 j x 1 m →
    State.migCopy (2 ^ 22 + dev1.length) u x ch.toNat dev1 = (true, dev2, c) →
    c.mig? x = some y →
    2 ^ 22 ≤ y.copied ∧ y.remote = none →
    exec (.migstepCopy ch dev) s = .next (c.mapMig x fun z => { z with step := 2 })) ∧
  -- SWITCH of a migration
  (∀ (s u : State) (ch : Chan) (dev1 : List DevRsp) (j : Job) (x : Nat) (m : Mig),
    RunsMig s u ch.toNat [] dev1 j x 2 m →
    exec (.switch ch) s = .next (
        let v := if (u.ext x).dstHouse || (u.ext x).dstRemote then u.leavePan x else u
        (v.setExt x { u.ext x with st := .retire, gen := ((u.ext x).gen + 1) % 16 }).mapMig x fun y => { y with step := 3 })) ∧
  -- RELEASE of a migration
  (∀ (s u : State) (ch : Chan) (dev1 : List DevRsp) (j : Job) (x : Nat) (m : Mig),
    RunsMig s u ch.toNat [] dev1 j x 3 m →
    u.oldGen x = false →
    exec (.release ch) s = .next (u.migRelease x)) ∧
  -- ABANDON of a migration
  (∀ (s u : State) (ch : Chan) (dev1 : List DevRsp) (j : Job) (x : Nat) (m : Mig),
    RunsMig s u ch.toNat [] dev1 j x 4 m →
    exec (.abandon ch) s = .next (u.migAbandon x .aborted))

/-- A write of MOV_CH_CTL that its path accepts acts on a channel that a fault or a bystander stop halts: retry runs the
descriptor again from its start, skip ends the job with BUS_ERROR, abort ends it with ABORTED; a migration that it ran
goes on by R275. Disabling an enabled channel stops it and ends its job. One microsecond after a shared-mode stop with
automatic resume, every bystander channel runs again. -/
def Obligations.MoverChannelControlCompletes : Prop :=
  -- RETRY
  (∀ (s : State) (path : Path) (ch : Chan),
    PathWrites s path →
    (s.chan ch.toNat).st = .haltFault ∨ (s.chan ch.toNat).st = .haltBystander →
    exec (.retry path ch) s = .next ((s.setChan ch.toNat { s.chan ch.toNat with st := .running, pos := 0, wait := none, got := [], todo := none }).pathAnswers path)) ∧
  -- SKIP
  (∀ (s : State) (path : Path) (ch : Chan),
    PathWrites s path →
    (s.chan ch.toNat).st = .haltFault ∨ (s.chan ch.toNat).st = .haltBystander →
    exec (.skip path ch) s = .next ((s.quitJob ch.toNat jobBusError).pathAnswers path)) ∧
  -- ABORT
  (∀ (s : State) (path : Path) (ch : Chan),
    PathWrites s path →
    (s.chan ch.toNat).st = .haltFault ∨ (s.chan ch.toNat).st = .haltBystander →
    exec (.abort path ch) s = .next ((s.quitJob ch.toNat jobAborted).pathAnswers path)) ∧
  -- CHANNEL_DISABLE
  (∀ (s : State) (path : Path) (ch : Chan),
    PathWrites s path →
    (s.chan ch.toNat).en = true →
    exec (.channelDisable path ch) s = .next ((s.disableChan ch.toNat).pathAnswers path)) ∧
  -- BYSTANDER_RESUME
  (∀ (s : State) (t d : Nat),
    s.mov.byst = some d →
    d ≤ (s.at t).now →
    exec (.bystanderResume t) s = .next ((s.mov.chans.filter fun c => c.2.st == .haltBystander).foldl (fun a c => a.resumeChan c.1 0)
        ((s.at t).mapMov fun m => { m with byst := none })))

/-- A port that may train comes up with the rate and width that the partners agree on: its status register, its events, its
protocols and credits, and what waits for it. A width below MIN_WIDTH is taken down again with WIDTH_DEGRADED set and is
held off until WIDTH_RETRY. A partner's change of rate or width in L0 is accepted and seen, and the lanes take the
settings of the new rate. An adaptation step on an active lane that is not stopped moves the CTLE by at most one code
and adapts the taps. The link control writes retrain, reset and disable the port, and the adaptation control freezes and
releases the lanes of a group. -/
def Obligations.PortTrainingCompletes : Prop :=
  -- LINK_UP
  (∀ (s : State) (port : Port) (t : Nat) (info : LinkInfo),
    (s.at t).mayTrain port.toNat info = true →
    (s.at t).tooNarrow port.toNat info.width.toNat = false →
    exec (.linkUp port t info) s = .next (((s.at t).linkTrained port.toNat info).linkOpens port.toNat info)) ∧
  -- LINK_UP, too narrow
  (∀ (s : State) (port : Port) (t : Nat) (info : LinkInfo),
    (s.at t).mayTrain port.toNat info = true →
    (s.at t).tooNarrow port.toNat info.width.toNat = true →
    exec (.linkUp port t info) s = .next ((((((s.at t).setFld (PRT_LINK_STAT_fSTATE port.toNat) 0).bump
        (PRT_LINK_EVT_fDOWN_CNT port.toNat)).setFld (PRT_LINK_EVT_fDOWN_SEEN port.toNat) 1).setFld
        (PRT_LINK_EVT_fWIDTH_DEGRADED port.toNat) 1).mapPort port.toNat fun x => { x with retryAt := some ((s.at t).now + 1000000000) })) ∧
  -- LINK_DOWN
  (∀ (s : State) (port : Port) (t : Nat),
    exec (.linkDown port t) s = .next ((s.at t).linkDown port.toNat 1)) ∧
  -- WIDTH_RETRY
  (∀ (s u : State) (port : Port) (t e : Nat),
    (s.port port.toNat).retryAt = some e →
    e ≤ (s.at t).now →
    u = ((s.at t).mapPort port.toNat fun x => { x with retryAt := none }) →
    exec (.widthRetry port t) s =
        .next (if (s.at t).inL0 port.toNat then u else u.setFld (PRT_LINK_STAT_fSTATE port.toNat) (u.idleState port.toNat))) ∧
  -- PARTNER_CHANGE
  (∀ (s : State) (port : Port) (rw : RateWidth) (below : Bool),
    s.inL0 port.toNat = true →
    s.tooNarrow port.toNat rw.width.toNat = false →
    exec (.partnerChange port rw below) s = .next (
        let u := ((((s.recover port.toNat).lanesChange port.toNat rw.rate.toNat rw.width.toNat).setFld (PRT_LINK_STAT_fRATE port.toNat) rw.rate.toNat).setFld
          (PRT_LINK_STAT_fWIDTH port.toNat) rw.width.toNat).setFld (PRT_LINK_EVT_fPARTNER_CHANGE port.toNat) 1
        let c := if below then u.setFld (PRT_LINK_EVT_fRATE_DEGRADED port.toNat) 1 else u
        if c.tooNarrow port.toNat rw.width.toNat then (c.linkDown port.toNat 0).holdNarrow port.toNat else c.endLinkSet port.toNat)) ∧
  -- ADAPTATION_STEP
  (∀ (s : State) (lane : Lane) (up : Option Bool),
    s.flag (LNG_LANE_STAT_fACTIVE (lane.toNat / 8) (lane.toNat % 8)) = true →
    s.flag (LNG_LANE_STAT_fADAPT_STOP (lane.toNat / 8) (lane.toNat % 8)) = false →
    exec (.adaptationStep lane up) s = .next ((s.setFld (LNG_LANE_EQ_fCTLE (lane.toNat / 8) (lane.toNat % 8))
        (ctleMove up (s.fld (LNG_LANE_EQ_fCTLE (lane.toNat / 8) (lane.toNat % 8))))).adaptTaps lane.toNat (s.laneRate lane.toNat))) ∧
  -- RETRAIN
  (∀ (s : State) (path : Path) (port : Port),
    PathWrites s path →
    s.inL0 port.toNat = true →
    exec (.retrain path port) s = .next ((s.recover port.toNat).pathAnswers path)) ∧
  -- HOT_RESET
  (∀ (s : State) (path : Path) (port : Port),
    PathWrites s path →
    s.role port.toNat = rolePt →
    s.inL0 port.toNat = true →
    exec (.hotReset path port) s = .next (((s.emit (.pin (.hotReset port.toNat) true)).linkDown port.toNat 6).pathAnswers path)) ∧
  -- DISABLE, set
  (∀ (s : State) (path : Path) (port : Port) (t : Nat),
    PathWrites (s.at t) path →
    (s.at t).portExists port.toNat = true →
    exec (.disable path port true t) s = .next ((((s.at t).setFld (PRT_LINK_CTL_fDISABLE port.toNat) 1).linkDown port.toNat 0).pathAnswers path)) ∧
  -- DISABLE, cleared
  (∀ (s u : State) (path : Path) (port : Port) (t : Nat),
    PathWrites (s.at t) path →
    (s.at t).portExists port.toNat = true →
    u = (s.at t).setFld (PRT_LINK_CTL_fDISABLE port.toNat) 0 →
    u.inL0 port.toNat = false →
    ((s.at t).port port.toNat).retryAt = none →
    exec (.disable path port false t) s = .next ((u.setFld (PRT_LINK_STAT_fSTATE port.toNat) (u.idleState port.toNat)).pathAnswers path)) ∧
  -- FREEZE
  (∀ (s : State) (path : Path) (group : Group) (on : Bool),
    PathWrites s path →
    exec (.freeze path group on) s = .next (((List.range 8).foldl (fun a k =>
        a.setFld (LNG_LANE_STAT_fADAPT_STOP group.toNat k) (b2n (on || a.flag (LNG_LANE_STAT_fMARGINING group.toNat k))))
        (s.setFld (LNG_ADAPT_CTL_fFREEZE group.toNat) (b2n on))).pathAnswers path))

/-- A partner's margin request on an active lane starts margining unless a margining of the switch's own has the lane, in
which case it is answered busy. At the end of a margin dwell the lanes' error counts complete the command. A Hot Reset
received on an upstream or fabric port, and PERST# asserted on an upstream port that is not disabled, take the link
down. A pool device that has not answered within PD_TMO has its request failed and its response slot put into
quarantine; 64 slots in quarantine take the link down. A device that waited for its link beyond the limit is lost. An
entry to Recovery is counted, with the lock losses of the active lanes and the replay that came with it, whose buffer is
checked. -/
def Obligations.PortEventsComplete : Prop :=
  -- PARTNER_MARGIN_REQUEST
  (∀ (s : State) (lane : Lane),
    s.flag (LNG_LANE_STAT_fACTIVE (lane.toNat / 8) (lane.toNat % 8)) = true →
    (s.allPorts.any fun p => (s.port p).margin.any fun m => (s.maskLanes p m.1).contains lane.toNat) = false →
    exec (.partnerMarginRequest lane) s = .next ((s.setMargin [lane.toNat] true).emit (.marginStatus lane.toNat false))) ∧
  -- PARTNER_MARGIN_REQUEST, the lane being margined by the switch
  (∀ (s : State) (lane : Lane),
    s.flag (LNG_LANE_STAT_fACTIVE (lane.toNat / 8) (lane.toNat % 8)) = true →
    (s.allPorts.any fun p => (s.port p).margin.any fun m => (s.maskLanes p m.1).contains lane.toNat) = true →
    exec (.partnerMarginRequest lane) s = .next (s.emit (.marginStatus lane.toNat true))) ∧
  -- MARGIN_DWELL_END
  (∀ (s u : State) (port : Port) (errors : List (BitVec 6)) (m : Nat × Nat) (ms : List (Nat × Nat)) (r : WorkRes),
    (s.port port.toNat).margin = m :: ms →
    s.endMargin port.toNat m errors = (r, u) →
    exec (.marginDwellEnd port errors) s = .next (u.finishWork (.margin port.toNat m.1) r.status r.data)) ∧
  -- HOT_RESET_RECEIVED
  (∀ (s : State) (port : Port) (t : Nat),
    s.role port.toNat = roleUpstream ∨ s.role port.toNat = roleFabric →
    s.fld (PRT_LINK_STAT_fSTATE port.toNat) ≠ 0 →
    exec (.hotResetReceived port t) s = .next ((s.at t).linkDown port.toNat 1)) ∧
  -- PERST_UP_N
  (∀ (s u : State) (n : BitVec 5) (t : Nat),
    u = { s.at t with pwr := { s.pwr with perstUp := s.pwr.perstUp - (if bitOf s.pwr.perstUp n.toNat then 2 ^ n.toNat else 0) } } →
    exec (.perstUpN n true t) s = .next { u with pwr := { u.pwr with perstUp := u.pwr.perstUp + 2 ^ n.toNat } } ∧
      exec (.perstUpN n false t) s = .next ((u.allPorts.filter fun p => u.role p == roleUpstream && (u.port p).perst.contains n.toNat &&
        u.fld (PRT_LINK_STAT_fSTATE p) != 0).foldl (fun a p => a.linkDown p 1) u)) ∧
  -- POOL_DEVICE_TIMEOUT
  (∀ (s u : State) (req t h d p : Nat) (r : MemReq),
    s.home.memq.find? (fun r => r.id == req) = some r →
    r.tgt = .dev h d →
    p = s.devPort h →
    r.sent = true →
    s.fld (PRT_PROTO_CFG_fPD_TMO p) * 100000 ≤ (s.at t).now - r.t0 →
    s.answered r = false →
    u = (((((s.at t).record { checker := 0x5000, source := 11, unit := h + p * 256, tag := (s.at t).memTag r, addr := r.line * 64 }).failMem
        r).mapPort p fun x => { x with quar := x.quar ++ [r.id] })) →
    exec (.poolDeviceTimeout req t) s = .next (
        let c := u.setFld (PRT_PROTO_STAT_fQUAR p) (u.port p).quar.length
        if 64 ≤ (u.port p).quar.length then c.linkDown p 1 else c)) ∧
  -- POOL_LINK_WAIT_EXPIRY
  (∀ (s : State) (port : Port) (t h e : Nat) (d : PoolDev),
    s.devAt port.toNat = some (h, d) →
    d.awaitLink = true →
    s.pwr.poolWait = some e →
    e ≤ (s.at t).now →
    exec (.poolLinkWaitExpiry port t) s = .next (((s.at t).lostDev h).dropDev h)) ∧
  -- LINK_RECOVERY
  (∀ (s : State) (port : Port) (lock retry : Bool),
    s.inL0 port.toNat = true →
    exec (.linkRecovery port lock retry) s = .next (
        let u := s.recover port.toNat
        let c := if lock then (s.portLanes port.toNat).foldl (fun a l => if a.flag (LNG_LANE_STAT_fACTIVE (l / 8) (l % 8)) then
          a.bump (LNG_LANE_ERR_fLOCK_LOSS (l / 8) (l % 8)) else a) u else u
        if retry then (c.bump (PRT_RETRY_CNT_fTX_REPLAY port.toNat)).replayCheck port.toNat else c))

/-- On a module that is UP, a good sequenced flit gives its acknowledgement and credits and, if its SEQ is the next expected
one, its payload, which joins the stream of its virtual channel; a good ACK flit gives its acknowledgement and credits,
and an audit flit is audited as well. A bad flit is counted and recorded as a corrected transient error, and nothing of
it is taken. A retrain request starts the retraining of a module that is UP and its wires are tested; a module that
already retrains and whose tests are not listed is tested. A SYNC in a retraining whose tests are done resynchronises
the sender, and the module is UP when both ends have it. -/
def Obligations.OpfFlitsComplete : Prop :=
  -- OPF_FLIT, in sequence
  (∀ (s u : State) (e : OpfEnd) (f : OpfFlit) (t : Nat),
    opfKey e < 96 →
    (s.at t).lineUp (opfKey e) = true →
    ((s.at t).sentFlit (peerEnd (opfKey e)) f).linkCheck (opfKey e) 32 f.good = (true, u) →
    f.seq.toNat = ((u.fieldsIn (opfKey e) f.ack.toNat f.crVc.toNat f.crCnt.toNat).lend (opfKey e)).rx →
    exec (.opfFlit e f t) s = .next (((u.fieldsIn (opfKey e) f.ack.toNat f.crVc.toNat f.crCnt.toNat).accept (opfKey e) f.vc.toNat).streamIn
        (opfKey e) f.vc.toNat f.payload)) ∧
  -- OPF_FLIT, out of sequence
  (∀ (s u : State) (e : OpfEnd) (f : OpfFlit) (t : Nat),
    opfKey e < 96 →
    (s.at t).lineUp (opfKey e) = true →
    ((s.at t).sentFlit (peerEnd (opfKey e)) f).linkCheck (opfKey e) 32 f.good = (true, u) →
    f.seq.toNat ≠ ((u.fieldsIn (opfKey e) f.ack.toNat f.crVc.toNat f.crCnt.toNat).lend (opfKey e)).rx →
    exec (.opfFlit e f t) s = .next (u.fieldsIn (opfKey e) f.ack.toNat f.crVc.toNat f.crCnt.toNat)) ∧
  -- OPF_FLIT, bad
  (∀ (s u : State) (e : OpfEnd) (f : OpfFlit) (t : Nat),
    opfKey e < 96 →
    (s.at t).lineUp (opfKey e) = true →
    ((s.at t).sentFlit (peerEnd (opfKey e)) f).check1 (linkChecker (opfKey e)) 32 false = (.clean, u) →
    f.good = false →
    exec (.opfFlit e f t) s = .next ((u.bumpCrc (opfKey e)).record {
        checker := linkChecker (opfKey e), cls := 0, source := 3, unit := opfKey e / 2
        transient := true, injected := false })) ∧
  -- ACK_FLIT
  (∀ (s u : State) (e : OpfEnd) (f : OpfNull) (t : Nat),
    opfKey e < 96 →
    (s.at t).lineUp (opfKey e) = true →
    (s.at t).linkCheck (opfKey e) 32 f.good = (true, u) →
    exec (.ackFlit e f t) s = .next (u.fieldsIn (opfKey e) f.ack.toNat f.crVc.toNat f.crCnt.toNat)) ∧
  -- AUDIT_FLIT
  (∀ (s u : State) (e : OpfEnd) (f : OpfNull) (freed : List B16) (t : Nat),
    opfKey e < 96 →
    (s.at t).lineUp (opfKey e) = true →
    (s.at t).linkCheck (opfKey e) 32 f.good = (true, u) →
    exec (.auditFlit e f freed t) s =
        .next ((u.fieldsIn (opfKey e) f.ack.toNat f.crVc.toNat f.crCnt.toNat).auditIn (opfKey e) (freed.map BitVec.toNat))) ∧
  -- RTRQ_FLIT on a module that is UP
  (∀ (s u : State) (e : OpfEnd) (f : OpfNull) (reason die : Byte) (wordsA wordsB : List B64) (verifyA verifyB : Bool) (t : Nat),
    opfKey e < 96 →
    (s.at t).lineState (opfKey e) = 1 →
    (s.at t).linkCheck (opfKey e) 32 f.good = (true, u) →
    exec (.rtrqFlit e f reason die wordsA wordsB verifyA verifyB t) s = .next (
        (((((u.fieldsIn (opfKey e) f.ack.toNat f.crVc.toNat f.crCnt.toNat).beginRetrain (opfKey e) reason.toNat).mapLend (peerEnd (opfKey e))
          fun x => { x with asked := true }).sendRtrq (opfKey e) reason.toNat).testWires e.m.val wordsA wordsB verifyA verifyB))) ∧
  -- RTRQ_FLIT on a module that retrains
  (∀ (s u : State) (e : OpfEnd) (f : OpfNull) (reason die : Byte) (wordsA wordsB : List B64) (verifyA verifyB : Bool) (t : Nat),
    opfKey e < 96 →
    (s.at t).lineState (opfKey e) = 2 →
    (s.at t).linkCheck (opfKey e) 32 f.good = (true, u) →
    (u.fieldsIn (opfKey e) f.ack.toNat f.crVc.toNat f.crCnt.toNat).links.listed.contains e.m.val = false →
    exec (.rtrqFlit e f reason die wordsA wordsB verifyA verifyB t) s = .next (
        let v := u.fieldsIn (opfKey e) f.ack.toNat f.crVc.toNat f.crCnt.toNat
        let w := if die.toNat < endDie (opfKey e) then v.setFld (OPF_MOD_STAT_fLAST_REASON e.m.val) reason.toNat else v
        let x := if (w.lend (opfKey e)).asked then w else w.sendRtrq (opfKey e) reason.toNat
        x.testWires e.m.val wordsA wordsB verifyA verifyB)) ∧
  -- SYNC_FLIT, both ends in step
  (∀ (s u : State) (e : OpfEnd) (f : OpfNull) (next : BitVec 12) (free : List B16) (t : Nat),
    opfKey e < 96 →
    (s.at t).lineState (opfKey e) = 2 →
    s.links.listed.contains e.m.val = true →
    (s.at t).linkCheck (opfKey e) 32 f.good = (true, u) →
    ((u.resync (opfKey e) next.toNat (free.map BitVec.toNat)).lend (peerEnd (opfKey e))).sync = true →
    exec (.syncFlit e f next free t) s = .next ((u.resync (opfKey e) next.toNat (free.map BitVec.toNat)).goUp (opfKey e))) ∧
  -- SYNC_FLIT, the other end not yet
  (∀ (s u : State) (e : OpfEnd) (f : OpfNull) (next : BitVec 12) (free : List B16) (t : Nat),
    opfKey e < 96 →
    (s.at t).lineState (opfKey e) = 2 →
    s.links.listed.contains e.m.val = true →
    (s.at t).linkCheck (opfKey e) 32 f.good = (true, u) →
    ((u.resync (opfKey e) next.toNat (free.map BitVec.toNat)).lend (peerEnd (opfKey e))).sync = false →
    exec (.syncFlit e f next free t) s = .next (u.resync (opfKey e) next.toNat (free.map BitVec.toNat)))

/-- On a link of the Stairwell link layer that is up, a good packet in sequence gives its acknowledgement, credits and
payload, and on SW0 to SW3 its words are control traffic; CTL_ACK gives acknowledgement and credits, and CTL_AUDIT is
audited. A retrain request on a link that is up starts retraining and is answered. Training sets are counted, sixteen in
a row send the SYNC, and name the peer on a Stairwell link; CTL_SYNC after sixteen training sets resynchronises the
sender and takes the link up, recording a fault if two switches of the same orientation meet, and on module 48 the
Doorway returns. -/
def Obligations.StairwellPacketsComplete : Prop :=
  -- STAIRWELL_PACKET on SW0 to SW3, in sequence
  (∀ (s u : State) (n : SLink) (p : StwPkt) (t : Nat),
    (s.at t).lineUp (100 + n.toNat) = true →
    ((s.at t).codeErrors (100 + n.toNat) p.codeErrs).linkCheck (100 + n.toNat) 32 p.good = (true, u) →
    p.seq.toNat = ((u.fieldsIn (100 + n.toNat) p.ack.toNat p.crVc.toNat p.crCnt.toNat).lend (100 + n.toNat)).rx →
    exec (.stairwellPacket (.sw n) p t) s = .next (((u.fieldsIn (100 + n.toNat) p.ack.toNat p.crVc.toNat p.crCnt.toNat).accept
        (100 + n.toNat) p.vc.toNat).ctlIn n.toNat (p.words.flatMap fun w => leBytes 4 w.toNat))) ∧
  -- STAIRWELL_PACKET on module 48, in sequence
  (∀ (s u : State) (p : StwPkt) (t : Nat),
    (s.at t).lineUp 96 = true →
    ((s.at t).codeErrors 96 p.codeErrs).linkCheck 96 32 p.good = (true, u) →
    p.seq.toNat = ((u.fieldsIn 96 p.ack.toNat p.crVc.toNat p.crCnt.toNat).lend 96).rx →
    exec (.stairwellPacket .mod48 p t) s = .next ((u.fieldsIn 96 p.ack.toNat p.crVc.toNat p.crCnt.toNat).accept 96 p.vc.toNat)) ∧
  -- CTL_ACK
  (∀ (s u : State) (c : CtlSet) (ack : BitVec 12) (crVc : BitVec 2) (crCnt : BitVec 4) (t : Nat),
    (s.at t).lineUp (swKey c.link) = true →
    (s.at t).linkCheck (swKey c.link) 8 (ctlGood 1 (leBytes 2 ack.toNat ++ leBytes 1 (crVc.toNat + 4 * crCnt.toNat)) c.crc) = (true, u) →
    exec (.ctlAck c ack crVc crCnt t) s = .next (u.fieldsIn (swKey c.link) ack.toNat crVc.toNat crCnt.toNat)) ∧
  -- CTL_AUDIT
  (∀ (s u : State) (c : CtlSet) (freed : List B16) (t : Nat),
    (s.at t).lineUp (swKey c.link) = true →
    (s.at t).linkCheck (swKey c.link) 8 (ctlGood 2 (freed.flatMap fun v => leBytes 2 v.toNat) c.crc) = (true, u) →
    exec (.ctlAudit c freed t) s = .next (u.auditIn (swKey c.link) (freed.map BitVec.toNat))) ∧
  -- CTL_RTRQ on a link that is up
  (∀ (s u : State) (c : CtlSet) (rank : B16) (id : Fid) (reason : Byte) (t : Nat),
    (s.at t).lineUp (swKey c.link) = true →
    (s.at t).linkCheck (swKey c.link) 8 (ctlGood 3 (rtrqData rank id reason) c.crc) = (true, u) →
    u.lineUp (swKey c.link) = true →
    exec (.ctlRtrq c rank id reason t) s = .next (((u.beginRetrain (swKey c.link) reason.toNat).sendRtrq (swKey c.link) reason.toNat).emit
        (.ctl (swKey c.link) 4 [s.fab.rank, s.me, reason.toNat]))) ∧
  -- CTL_RTRQ on a Stairwell link that trains
  (∀ (s u : State) (c : CtlSet) (rank : B16) (id : Fid) (reason : Byte) (t : Nat),
    (s.at t).training (swKey c.link) = true →
    (s.at t).linkCheck (swKey c.link) 8 (ctlGood 3 (rtrqData rank id reason) c.crc) = (true, u) →
    u.lineUp (swKey c.link) = false →
    (u.lend (swKey c.link)).asked = false →
    exec (.ctlRtrq c rank id reason t) s = .next (u.sendRtrq (swKey c.link) reason.toNat)) ∧
  -- TRN on SW0 to SW3
  (∀ (s u : State) (n : SLink) (rank : B16) (id : Fid) (reason crc : Byte) (t k : Nat),
    (s.at t).training (100 + n.toNat) = true →
    (s.at t).linkCheck (100 + n.toNat) 8 (ctlGood 4 (rtrqData rank id reason) crc) = (true, u) →
    (u.lend (100 + n.toNat)).trn = k →
    exec (.trn ⟨.sw n, crc⟩ rank id reason t) s = .next (
        let v := ((((u.mapLend (100 + n.toNat) fun e => { e with trn := k + 1 }).setFld (STW_LNK_STAT_fPEER_RANK n.toNat) rank.toNat).setFld
          (STW_LNK_PEER_fPEER_ID n.toNat) id.toNat).setFld (STW_LNK_STAT_fLOCK n.toNat) 1).setFld (STW_LNK_STAT_fALIGNED n.toNat) 1
        if k = 15 then v.sendSync (100 + n.toNat) else v)) ∧
  -- TRN on module 48
  (∀ (s u : State) (rank : B16) (id : Fid) (reason crc : Byte) (t k : Nat),
    (s.at t).training 96 = true →
    (s.at t).linkCheck 96 8 (ctlGood 4 (rtrqData rank id reason) crc) = (true, u) →
    (u.lend 96).trn = k →
    exec (.trn ⟨.mod48, crc⟩ rank id reason t) s = .next (
        if k = 15 then (u.mapLend 96 fun e => { e with trn := k + 1 }).sendSync 96 else u.mapLend 96 fun e => { e with trn := k + 1 })) ∧
  -- CTL_SYNC on SW0 to SW3
  (∀ (s u : State) (n : SLink) (next : BitVec 12) (free : List Byte) (crc : Byte) (even : Bool) (t : Nat),
    (s.at t).training (100 + n.toNat) = true →
    16 ≤ ((s.at t).lend (100 + n.toNat)).trn →
    (s.at t).linkCheck (100 + n.toNat) 8 (ctlGood 5 (leBytes 2 next.toNat ++ free) crc) = (true, u) →
    exec (.ctlSync ⟨.sw n, crc⟩ next free even t) s = .next (
        let v := (u.resync (100 + n.toNat) next.toNat (free.map BitVec.toNat)).goUp (100 + n.toNat)
        if (s.at t).lineState (100 + n.toNat) == 1 && even == (n.toNat % 2 == 0) then
          v.record { checker := 0x4f00, source := 4, unit := n.toNat } else v)) ∧
  -- CTL_SYNC on module 48
  (∀ (s u : State) (next : BitVec 12) (free : List Byte) (crc : Byte) (even : Bool) (t : Nat),
    (s.at t).training 96 = true →
    16 ≤ ((s.at t).lend 96).trn →
    (s.at t).linkCheck 96 8 (ctlGood 5 (leBytes 2 next.toNat ++ free) crc) = (true, u) →
    exec (.ctlSync ⟨.mod48, crc⟩ next free even t) s = .next ((u.resync 96 next.toNat (free.map BitVec.toNat)).goUp 96).mod48Return)

/-- A sender whose timer has run its replay timeout sends its unacknowledged packets again, is counted, and asks for a
retrain at the fourth expiry in a row. A receiver that owes an acknowledgement or credits for 64 ns sends them by
themselves. At an audit interval each end that audits sends its freed counts. A module that is still not UP 100 us after
its retraining began is lost, and a Stairwell link that still trains after 1 ms goes down. A Stairwell link that is down
trains again after 10 ms. The link control retrains a link that is up, and takes a link down that is disabled. -/
def Obligations.LinkTimersComplete : Prop :=
  -- REPLAY_TIMEOUT
  (∀ (s : State) (l : SwLink ⊕ OpfEnd) (t t0 : Nat),
    ((s.at t).lend (anyKey l)).timer = some t0 →
    isEnd (anyKey l) = true →
    (s.at t).lineUp (anyKey l) = true →
    t0 + (s.at t).replayTmo (anyKey l) ≤ (s.at t).now →
    exec (.replayTimeout l t) s = .next (
        let k := anyKey l
        let n := ((s.at t).lend k).expiries + 1
        let u := ((s.at t).mapLend k fun e => { e with expiries := n, timer := some (s.at t).now }).burst k
        let v := if k < 98 then u.bump (OPF_MOD_ERR_fREPLAY_CNT (k / 2)) else u.bump (STW_LNK_ERR_fREPLAY_CNT (k - 100))
        if 4 ≤ n then v.wantRetrain k 1 else v)) ∧
  -- STANDALONE_ACK
  (∀ (s u : State) (l : SwLink ⊕ OpfEnd) (t : Nat) (r : Nat × Nat),
    isEnd (anyKey l) = true →
    (s.at t).lineUp (anyKey l) = true →
    ((s.at t).lend (anyKey l)).sentT + 64 ≤ (s.at t).now →
    (((s.at t).lend (anyKey l)).ackDue || ((s.at t).lend (anyKey l)).owe.any fun p => p.2 != 0) = true →
    (s.at t).takeReturns (anyKey l) = (r, u) →
    exec (.standaloneAck l t) s = .next (u.emit (if anyKey l < 96 then .null (anyKey l) 0 (u.lend (anyKey l)).ack r.1 r.2 []
        else .ctl (anyKey l) 1 [(u.lend (anyKey l)).ack, r.1, r.2]))) ∧
  -- AUDIT_INTERVAL of an OPF module
  (∀ (s u : State) (l : SwLink ⊕ OpfEnd) (t : Nat) (r : Nat × Nat),
    anyKey l < 96 →
    (s.at t).lineUp (anyKey l) = true →
    s.flag OPF_GCFG_fAUDIT_EN = true →
    (s.at t).takeReturns (anyKey l) = (r, u) →
    exec (.auditInterval l t) s = .next (u.emit (.null (anyKey l) 1 (u.lend (anyKey l)).ack r.1 r.2
        ((List.range (endVcs (anyKey l))).map fun v => vcCount ((s.at t).lend (anyKey l)).freed v)))) ∧
  -- AUDIT_INTERVAL of a Stairwell link
  (∀ (s : State) (n : SLink) (t : Nat),
    (s.at t).lineUp (100 + n.toNat) = true →
    s.flag (STW_LNK_CFG_fAUDIT_EN n.toNat) = true →
    exec (.auditInterval (.inl (.sw n)) t) s = .next ((s.at t).emit (.ctl (100 + n.toNat) 2
        ((List.range (endVcs (100 + n.toNat))).map fun v => vcCount ((s.at t).lend (100 + n.toNat)).freed v)))) ∧
  -- RETRAIN_LIMIT of a module
  (∀ (s : State) (m : Module) (t t0 : Nat),
    m.val < 48 →
    NMap.get? s.links.since m.val = some t0 →
    (s.at t).lineState (2 * m.val) ≠ 1 ∧ (s.at t).lineState (2 * m.val) ≠ 3 →
    t0 + 100000 ≤ (s.at t).now →
    exec (.retrainLimit (.inr m) t) s = .next ((s.at t).loseModule m.val)) ∧
  -- RETRAIN_LIMIT of a link
  (∀ (s : State) (l : SwLink) (t t0 : Nat),
    NMap.get? s.links.since (lineNo (swKey l)) = some t0 →
    (s.at t).training (swKey l) = true →
    t0 + 1000000 ≤ (s.at t).now →
    exec (.retrainLimit (.inl l) t) s = .next ((s.at t).stairDown (swKey l))) ∧
  -- STAIRWELL_TRAINING_RETRY
  (∀ (s : State) (l : SwLink) (t t0 : Nat),
    NMap.get? s.links.since (lineNo (swKey l)) = some t0 →
    (s.at t).lineState (swKey l) = 0 →
    s.mayTrainSw (swKey l) = true →
    t0 + 10000000 ≤ (s.at t).now →
    exec (.stairwellTrainingRetry l t) s = .next ((s.at t).train (swKey l))) ∧
  -- STW_RETRAIN
  (∀ (s : State) (path : Path) (l : SLink),
    PathWrites s path →
    s.lineUp (100 + l.toNat) = true →
    exec (.stwRetrain path l) s = .next (((s.beginRetrain (100 + l.toNat) 3).sendRtrq (100 + l.toNat) 3).pathAnswers path)) ∧
  -- STW_DISABLE
  (∀ (s : State) (path : Path) (l : SLink) (on : Bool),
    PathWrites s path →
    exec (.stwDisable path l on) s = .next (
        let u := s.setFld (STW_LNK_CTL_fDISABLE l.toNat) (b2n on)
        (if on && s.lineState (100 + l.toNat) != 0 then u.stairDown (100 + l.toNat) else u).pathAnswers path))

/-- A HELLO on an up link renews its neighbour. A first or newer MEMBER record of another switch enters the live list, and
one with no hops of a higher epoch names the Ridge. A LOST no older than the newest record is noted. A RIDGE of a higher
epoch is adopted. A first STATE of the Ridge is copied and acknowledged, and a second one only acknowledged. A HANDOVER
of the Ridge sets its instant. -/
def Obligations.MembershipPacketsComplete : Prop :=
  -- HELLO
  (∀ (s : State) (l : SLink) (m : MemberRec) (t : Nat),
    s.fab.fid.isSome = true →
    s.lineUp (100 + l.toNat) = true →
    exec (.hello l m t) s = .next (((s.at t).mapFab fun f => { f with
          neigh := NMap.set f.neigh l.toNat (m.id.toNat, m.hops.toNat, (s.at t).now) }).adoptSchema m.schemaCur.toNat).fabSettle) ∧
  -- MEMBER, the first record of a switch
  (∀ (s : State) (l : SLink) (x : CtlPfx) (m : MemberRec) (t : Nat),
    s.fab.fid.isSome = true →
    m.id.toNat ≠ s.me →
    x.src = m.id →
    NMap.get? s.fab.members m.id.toNat = none →
    s.fab.members.length < 255 →
    exec (.member l x m t) s = .next (
        let u := (s.at t).putMember l.toNat m
        if m.hops = 0 ∧ (s.fab.epoch < m.epoch.toNat ∨ s.fab.epoch = m.epoch.toNat ∧ s.fab.ridge.isNone) then
          (u.adoptRidge m.id.toNat none m.epoch.toNat).fabSettle
        else u.fabSettle)) ∧
  -- MEMBER, a newer record
  (∀ (s : State) (l : SLink) (x : CtlPfx) (m : MemberRec) (t : Nat) (o : Member),
    s.fab.fid.isSome = true →
    m.id.toNat ≠ s.me →
    x.src = m.id →
    NMap.get? s.fab.members m.id.toNat = some o →
    0 < (m.serial.toNat + 65536 - o.serial) % 65536 ∧ (m.serial.toNat + 65536 - o.serial) % 65536 < 32768 →
    exec (.member l x m t) s = .next (
        let u := (s.at t).putMember l.toNat m
        if m.hops = 0 ∧ (s.fab.epoch < m.epoch.toNat ∨ s.fab.epoch = m.epoch.toNat ∧ s.fab.ridge.isNone) then
          (u.adoptRidge m.id.toNat none m.epoch.toNat).fabSettle
        else u.fabSettle)) ∧
  -- LOST
  (∀ (s : State) (l : SLink) (x : CtlPfx) (id : Fid) (serial : B16) (t : Nat) (o : Member),
    (s.at t).forMe 3 x = true →
    NMap.get? s.fab.members id.toNat = some o →
    (serial.toNat + 65536 - o.serial) % 65536 < 32768 →
    exec (.lost l x id serial t) s = .next ((((s.at t).mapFab fun f => { f with
          members := NMap.adjust f.members id.toNat fun y =>
            if y.lost.contains x.src.toNat then y else { y with lost := x.src.toNat :: y.lost } }).evalLost id.toNat).fabSettle)) ∧
  -- RIDGE of a higher epoch, or the first
  (∀ (s : State) (l : SLink) (x : CtlPfx) (ridge : Fid) (standby : Option Fid) (epoch : Word) (t : Nat),
    (s.at t).forMe 4 x = true →
    s.fab.epoch < epoch.toNat ∨ s.fab.epoch = epoch.toNat ∧ s.fab.ridge.isNone →
    exec (.ridge l x ridge standby epoch t) s = .next (
        ((s.at t).adoptRidge ridge.toNat (standby.map fun b => b.toNat) epoch.toNat).fabSettle)) ∧
  -- RIDGE of the same epoch: the standby Ridge
  (∀ (s : State) (l : SLink) (x : CtlPfx) (ridge : Fid) (standby : Option Fid) (epoch : Word) (t : Nat),
    (s.at t).forMe 4 x = true →
    s.fab.epoch = epoch.toNat →
    s.fab.ridge = some ridge.toNat →
    exec (.ridge l x ridge standby epoch t) s = .next (
        ((s.at t).mapFab fun f => { f with standby := standby.map fun b => b.toNat }).fabSettle)) ∧
  -- STATE
  (∀ (s : State) (l : SLink) (x : CtlPfx) (ceiling : Byte) (routes : List (Fid × Fid × Byte)) (seq : RidgeSeq)
  (t : Nat),
    (s.at t).forMe 5 x = true →
    s.fab.ridge = some x.src.toNat →
    (s.at t).met 3 x.src.toNat x.serial.toNat = false →
    exec (.state l x ceiling routes seq t) s = .next (
        let u := (s.at t).mapFab fun f => { f with
          ceiling := ceiling.toNat, cmdSeq := seq.cmdSeq.toNat
          master := routes.foldl (fun m r => NMap.set m r.1.toNat (r.2.1.toNat, r.2.2.toNat)) []
          routeT := match seq.routePend with | some p => some ⟨p.2.toNat, p.1.toNat, x.src.toNat⟩ | none => f.routeT
          schemaPend := match seq.schemaPend with | some p => some ⟨p.2.toNat, p.1.toNat, x.src.toNat⟩ | none => f.schemaPend }
        (u.see 3 x.src.toNat x.serial.toNat).sendAck x.src.toNat 5 x.serial.toNat)) ∧
  -- STATE that has been acted on
  (∀ (s : State) (l : SLink) (x : CtlPfx) (ceiling : Byte) (routes : List (Fid × Fid × Byte)) (seq : RidgeSeq)
  (t : Nat),
    (s.at t).forMe 5 x = true →
    s.fab.ridge = some x.src.toNat →
    (s.at t).met 3 x.src.toNat x.serial.toNat = true →
    exec (.state l x ceiling routes seq t) s = .next ((s.at t).sendAck x.src.toNat 5 x.serial.toNat)) ∧
  -- HANDOVER
  (∀ (s : State) (l : SLink) (x : CtlPfx) (successor : Fid) (instant : B64) (t : Nat),
    (s.at t).forMe 6 x = true →
    s.fab.ridge = some x.src.toNat →
    exec (.handover l x successor instant t) s = .next (
        (s.at t).mapFab fun f => { f with handover := some ⟨instant.toNat, successor.toNat, x.src.toNat⟩ }))

/-- A DELAY_REQ is answered on its link with t1 and the receive and send times. A DELAY_RSP sets the link delay to (t4 - t1)
- (t3 - t2), held in half nanoseconds. A mark from the time parent with a good CRC-8 gives the offset; the sixteenth in
a row within 4 ns locks the switch, and one beyond 100 ns unlocks it. A ROUTE_STAGE of the Ridge is staged and
acknowledged; a ROUTE_ACT of the staged version and a SCHEMA_SWITCH set their instants. A HOME_MOVE is flooded by the
Ridge and taken by every switch. -/
def Obligations.TimeAndTablePacketsComplete : Prop :=
  -- DELAY_REQ
  (∀ (s : State) (l : SLink) (t1 : B64) (t : Nat),
    s.fab.fid.isSome = true →
    s.lineUp (100 + l.toNat) = true →
    exec (.delayReq l t1 t) s = .next ((s.at t).ctlOn l.toNat 8 (some 0) s.fab.serial
        (leBytes 8 t1.toNat ++ leBytes 8 (s.at t).now ++ leBytes 8 (s.at t).now))) ∧
  -- DELAY_RSP
  (∀ (s : State) (l : SLink) (t1 t2 t3 t4 : B64),
    exec (.delayRsp l t1 t2 t3 t4) s = .next ((s.at t4.toNat).mapFab fun f => { f with
          delay := NMap.set f.delay l.toNat (((t4.toNat : Int) - t1.toNat) - ((t3.toNat : Int) - t2.toNat)) })) ∧
  -- TIME_MARK within 4 ns
  (∀ (s : State) (c : MarkSet) (mark localTime : B64) (v off : Int),
    c.crc.toNat = crc8 (leBytes 8 mark.toNat) →
    s.fab.fid.isSome = true →
    s.isRidge = false →
    s.parentLink = some c.link.toNat →
    NMap.get? s.fab.delay c.link.toNat = some v →
    off = (localTime.toNat : Int) - (mark.toNat + v / 2) →
    -4 ≤ off ∧ off ≤ 4 →
    exec (.timeMark c mark localTime) s = .next (
        let u := (s.at localTime.toNat).mapFab fun f => { f with
          lastMark := (s.at localTime.toNat).now, holdover := none, offset := off, marks := Nat.min 16 (f.marks + 1) }
        (if Nat.min 16 (s.fab.marks + 1) = 16 then u.mapFab fun f => { f with locked := true, everLocked := true, slew := false }
         else u.mapFab fun f => { f with everLocked := f.everLocked || f.locked }).fabSettle)) ∧
  -- TIME_MARK further off, on a switch that carries data
  (∀ (s : State) (c : MarkSet) (mark localTime : B64) (v off : Int),
    c.crc.toNat = crc8 (leBytes 8 mark.toNat) →
    s.fab.fid.isSome = true →
    s.isRidge = false →
    s.parentLink = some c.link.toNat →
    NMap.get? s.fab.delay c.link.toNat = some v →
    off = (localTime.toNat : Int) - (mark.toNat + v / 2) →
    s.fab.joined = true →
    off < -4 ∨ 4 < off →
    exec (.timeMark c mark localTime) s = .next (
        let u := (s.at localTime.toNat).mapFab fun f => { f with
          lastMark := (s.at localTime.toNat).now, holdover := none, offset := off, marks := 0 }
        (if off < -100 ∨ 100 < off then u.mapFab fun f => { f with locked := false, slew := f.locked || f.slew }
         else u.mapFab fun f => { f with everLocked := f.everLocked || f.locked }).fabSettle)) ∧
  -- TIME_MARK, the step of a switch that carries no data
  (∀ (s : State) (c : MarkSet) (mark localTime : B64) (v off : Int),
    c.crc.toNat = crc8 (leBytes 8 mark.toNat) →
    s.fab.fid.isSome = true →
    s.isRidge = false →
    s.parentLink = some c.link.toNat →
    NMap.get? s.fab.delay c.link.toNat = some v →
    off = (localTime.toNat : Int) - (mark.toNat + v / 2) →
    s.fab.joined = false →
    off < -4 ∨ 4 < off →
    exec (.timeMark c mark localTime) s = .next (
        let u := ((s.at localTime.toNat).mapFab fun f => { f with
          lastMark := (s.at localTime.toNat).now, holdover := none, offset := off }).cancelForeign s.fab.ridge
        let a := u.mapFab fun f => { f with marks := 0, locked := false }
        State.fabSettle { a with now := (mark.toNat + v / 2).toNat })) ∧
  -- ROUTE_STAGE
  (∀ (s : State) (l : SLink) (x : CtlPfx) (version : B16) (entries : List (Fid × Byte × Bool)) (t : Nat),
    (s.at t).forMe 9 x = true →
    s.fab.ridge = some x.src.toNat →
    (s.at t).met 3 x.src.toNat x.serial.toNat = false →
    exec (.routeStage l x version entries t) s = .next (
        let table := entries.foldl (fun m e => NMap.set m e.1.toNat ((s.at t).routeVal e.2.1.toNat e.2.2)) []
        let u := (s.at t).mapPorts fun p => { p with staged := some (version.toNat, table) }
        (u.see 3 x.src.toNat x.serial.toNat).sendAck x.src.toNat 9 x.serial.toNat)) ∧
  -- ROUTE_ACT
  (∀ (s : State) (l : SLink) (x : CtlPfx) (version : B16) (instant : B64) (t : Nat) (m : NMap (Nat × Bool)),
    (s.at t).forMe 10 x = true →
    s.fab.ridge = some x.src.toNat →
    s.ports.staged = some (version.toNat, m) →
    exec (.routeAct l x version instant t) s = .next (
        (s.at t).mapFab fun f => { f with routeT := some ⟨instant.toNat, version.toNat, x.src.toNat⟩ })) ∧
  -- HOME_MOVE flooded
  (∀ (s : State) (l : SLink) (x : CtlPfx) (window : Win) (oldHome newHome : Fid) (newWin : Win) (t : Nat),
    (s.at t).forMe 11 x = true →
    (s.at t).met 3 x.src.toNat x.serial.toNat = false →
    x.bcast = true →
    exec (.homeMove l x window oldHome newHome newWin t) s = .next (
        ((s.at t).see 3 x.src.toNat x.serial.toNat).takeMove x.serial.toNat window.toNat oldHome.toNat newHome.toNat newWin.toNat)) ∧
  -- HOME_MOVE at the Ridge
  (∀ (s : State) (l : SLink) (x : CtlPfx) (window : Win) (oldHome newHome : Fid) (newWin : Win) (t : Nat),
    (s.at t).forMe 11 x = true →
    (s.at t).met 3 x.src.toNat x.serial.toNat = false →
    x.bcast = false →
    s.isRidge = true →
    exec (.homeMove l x window oldHome newHome newWin t) s = .next (
        (((s.at t).see 3 x.src.toNat x.serial.toNat).sendAck x.src.toNat 11 x.serial.toNat).floodMove window.toNat oldHome.toNat newHome.toNat
          newWin.toNat)) ∧
  -- SCHEMA_SWITCH
  (∀ (s : State) (l : SLink) (x : CtlPfx) (next : Byte) (instant : B64) (t : Nat),
    (s.at t).forMe 12 x = true →
    s.fab.ridge = some x.src.toNat →
    exec (.schemaSwitch l x next instant t) s = .next (
        (s.at t).mapFab fun f => { f with schemaPend := some ⟨instant.toNat, next.toNat, x.src.toNat⟩ }))

/-- An ACK removes the packet from those that wait for it; one of a STATE lets the Ridge act on the change, one of a
ROUTE_STAGE counts a switch as staged. A first RELAY is taken in its sequence; a fabric-wide one sent to the Ridge is
sequenced and replicated. A RELAY_REPLY is noted at the origin. A first NOTICE in its originator's order is posted with
what it lets follow; an early one is held. -/
def Obligations.AcknowledgementsRelaysAndNoticesComplete : Prop :=
  -- ACK of a type but STATE, ROUTE_STAGE and HOME_MOVE
  (∀ (s : State) (l : SLink) (x : CtlPfx) (type : Byte) (serial : B16) (t : Nat),
    (s.at t).forMe 13 x = true →
    type ≠ 5 ∧ type ≠ 9 ∧ type ≠ 11 →
    exec (.ack l x type serial t) s = .next (
        let u := (s.at t).mapFab fun f => { f with
          acks := f.acks.filter fun a => !(a.serial == serial.toNat && a.type == type.toNat && a.dst == x.src.toNat) }
        u)) ∧
  -- ACK of a STATE
  (∀ (s : State) (l : SLink) (x : CtlPfx) (type : Byte) (serial : B16) (t : Nat),
    (s.at t).forMe 13 x = true →
    type = 5 →
    exec (.ack l x type serial t) s = .next (
        let u := (s.at t).mapFab fun f => { f with
          acks := f.acks.filter fun a => !(a.serial == serial.toNat && a.type == type.toNat && a.dst == x.src.toNat) }
        let v := u.mapFab fun f => { f with
          todo := f.todo.filter fun d => d.1 != serial.toNat
          stdReady := f.stdReady || (f.standby == some x.src.toNat && !(f.acks.any fun a => a.type == 5 && a.dst == x.src.toNat)) }
        (if s.isRidge then (s.fab.todo.filter fun d => d.1 == serial.toNat).foldl (fun a d => a.doAct d.2) v else v).fabSettle)) ∧
  -- ACK of a ROUTE_STAGE
  (∀ (s : State) (l : SLink) (x : CtlPfx) (type : Byte) (serial : B16) (t : Nat),
    (s.at t).forMe 13 x = true →
    type = 9 →
    exec (.ack l x type serial t) s = .next (
        let u := (s.at t).mapFab fun f => { f with
          acks := f.acks.filter fun a => !(a.serial == serial.toNat && a.type == type.toNat && a.dst == x.src.toNat) }
        (u.mapFab fun f => { f with staging := f.staging.map fun y => (y.1, y.2.filter fun i => i != x.src.toNat) }).checkStaging.fabSettle)) ∧
  -- ACK of a HOME_MOVE, at the old home
  (∀ (s : State) (l : SLink) (x : CtlPfx) (type : Byte) (serial : B16) (t : Nat) (w : Nat) (left : List Nat),
    (s.at t).forMe 13 x = true →
    type = 11 →
    (s.fab.acks.any fun a => a.serial == serial.toNat && a.type == 11 && a.dst == x.src.toNat) = false →
    NMap.get? s.fab.moves serial.toNat = some (w, left) →
    exec (.ack l x type serial t) s = .next (
        let u := (s.at t).mapFab fun f => { f with
          acks := f.acks.filter fun a => !(a.serial == serial.toNat && a.type == type.toNat && a.dst == x.src.toNat) }
        (u.mapFab fun f => { f with
          moves := NMap.set f.moves serial.toNat (w, left.filter fun i => i != x.src.toNat) }).checkMoves)) ∧
  -- RELAY flooded by the Ridge in the name of another switch
  (∀ (s : State) (l : SLink) (x : CtlPfx) (all : Bool) (seq : Word) (pkt : List Byte) (t : Nat),
    s.fab.fid.isSome = true →
    (s.at t).forMe 16 x = true →
    x.bcast = true →
    (s.at t).met 2 x.src.toNat x.serial.toNat = false →
    exec (.relay l x all seq pkt t) s = .next (
        ((s.at t).see 2 x.src.toNat x.serial.toNat).relayIn all x.src.toNat (seq.toNat % 2147483648) pkt)) ∧
  -- RELAY flooded by the Ridge in this switch's own name
  (∀ (s : State) (l : SLink) (x : CtlPfx) (all : Bool) (seq : Word) (pkt : List Byte) (t : Nat),
    s.fab.fid.isSome = true →
    x.bcast = true →
    all = true →
    x.src.toNat = s.me →
    (s.at t).pktSchema 16 x.schema.toNat = true →
    (s.at t).met 2 x.src.toNat x.serial.toNat = false →
    exec (.relay l x all seq pkt t) s = .next (
        (((s.at t).see 2 x.src.toNat x.serial.toNat).seqRelay (seq.toNat % 2147483648) pkt).relayIn true x.src.toNat (seq.toNat % 2147483648)
          pkt)) ∧
  -- RELAY to this switch alone
  (∀ (s : State) (l : SLink) (x : CtlPfx) (all : Bool) (seq : Word) (pkt : List Byte) (t : Nat),
    s.fab.fid.isSome = true →
    (s.at t).forMe 16 x = true →
    x.bcast = false →
    all = false →
    (s.at t).met 3 x.src.toNat x.serial.toNat = false →
    exec (.relay l x all seq pkt t) s = .next (
        ((s.at t).see 3 x.src.toNat x.serial.toNat).relayIn false x.src.toNat (seq.toNat % 2147483648) pkt)) ∧
  -- RELAY for the whole fabric, at the Ridge
  (∀ (s : State) (l : SLink) (x : CtlPfx) (all : Bool) (seq : Word) (pkt : List Byte) (t : Nat),
    s.fab.fid.isSome = true →
    (s.at t).forMe 16 x = true →
    x.bcast = false →
    all = true →
    s.isRidge = true →
    (s.at t).met 3 x.src.toNat x.serial.toNat = false →
    exec (.relay l x all seq pkt t) s = .next (
        (((s.at t).see 3 x.src.toNat x.serial.toNat).mapFab fun f => { f with cmdSeq := (f.cmdSeq + 1) % 2147483648 }).replicate
          (.relay x.src.toNat x.serial.toNat s.fab.cmdSeq pkt))) ∧
  -- RELAY_REPLY
  (∀ (s : State) (l : SLink) (x : CtlPfx) (seq : Word) (completion : Bool) (status : B16) (bytes : List Byte) (t : Nat),
    (s.at t).forMe 17 x = true →
    exec (.relayReply l x seq completion status bytes t) s = .next (
        (s.at t).relayAnswer x.src.toNat seq.toNat completion status.toNat bytes)) ∧
  -- NOTICE, the first of an originator
  (∀ (s : State) (l : SLink) (x : CtlPfx) (kind : Byte) (body : List Byte) (t : Nat),
    (s.at t).forMe 32 x = true →
    (s.at t).met 1 x.src.toNat x.serial.toNat = false →
    NMap.get? s.fab.ntcNext x.src.toNat = none →
    exec (.notice l x kind body t) s = .next (
        let u := (s.at t).see 1 x.src.toNat x.serial.toNat
        ((u.postNotice x.src.toNat x.serial.toNat kind.toNat body).mapFab fun f => { f with
          ntcNext := NMap.set f.ntcNext x.src.toNat ((x.serial.toNat + 1) % 65536) }).drainNotices x.src.toNat s.fab.ntcHeld.length)) ∧
  -- NOTICE in order
  (∀ (s : State) (l : SLink) (x : CtlPfx) (kind : Byte) (body : List Byte) (t : Nat),
    (s.at t).forMe 32 x = true →
    (s.at t).met 1 x.src.toNat x.serial.toNat = false →
    NMap.get? s.fab.ntcNext x.src.toNat = some x.serial.toNat →
    exec (.notice l x kind body t) s = .next (
        let u := (s.at t).see 1 x.src.toNat x.serial.toNat
        ((u.postNotice x.src.toNat x.serial.toNat kind.toNat body).mapFab fun f => { f with
          ntcNext := NMap.set f.ntcNext x.src.toNat ((x.serial.toNat + 1) % 65536) }).drainNotices x.src.toNat s.fab.ntcHeld.length)) ∧
  -- NOTICE that comes early
  (∀ (s : State) (l : SLink) (x : CtlPfx) (kind : Byte) (body : List Byte) (t : Nat) (e : Nat),
    (s.at t).forMe 32 x = true →
    (s.at t).met 1 x.src.toNat x.serial.toNat = false →
    NMap.get? s.fab.ntcNext x.src.toNat = some e →
    x.serial.toNat ≠ e →
    (x.serial.toNat + 65536 - e) % 65536 < 32768 →
    exec (.notice l x kind body t) s = .next (
        ((s.at t).see 1 x.src.toNat x.serial.toNat).mapFab fun f => { f with
          ntcHeld := f.ntcHeld ++ [(x.src.toNat, x.serial.toNat, (s.at t).now, kind.toNat, body)] }))

/-- Outside FAULT a HELLO goes out on every up link each interval, and a MEMBER record is flooded. A neighbour silent for 50
us is lost from its link, and a member silent for 400 us leaves the live list. After 200 us without a change a quorum
without a Ridge and a standby Ridge takes the one of R375. At the instant of a handover the successor becomes Ridge. The
Ridge hands over to a lower key that has been eligible for 100 ms. Marks and DELAY_REQ go out on every up link; 1 ms of
holdover clears LOCKED; RESTARTING ends after 2 s. -/
def Obligations.MembershipAndTimeTimersComplete : Prop :=
  -- HELLO_INTERVAL
  (∀ (s : State) (t : Nat),
    s.fab.fid.isSome = true →
    s.flt.st ≠ .fault →
    exec (.helloInterval t) s = .next (
        (s.at t).upLinks.foldl (fun a l => a.ctlOn l 1 (some 0) s.fab.memSerial (recBody s.recFields s.fab.memSerial)) (s.at t))) ∧
  -- HELLO_TIMEOUT
  (∀ (s : State) (l : SLink) (t id hops last : Nat),
    NMap.get? s.fab.neigh l.toNat = some (id, hops, last) →
    last + 50000 ≤ (s.at t).now →
    exec (.helloTimeout l t) s = .next ((s.at t).neighLost l.toNat)) ∧
  -- MEMBER_INTERVAL
  (∀ (s : State) (t : Nat),
    s.fab.fid.isSome = true →
    s.flt.st ≠ .fault →
    exec (.memberInterval t) s = .next (
        ((s.at t).flood 2 s.fab.memSerial (recBody s.recFields s.fab.memSerial)).mapFab fun f => { f with
          memSerial := (f.memSerial + 1) % 65536, lastRec := some s.recFields })) ∧
  -- MEMBER_TIMEOUT
  (∀ (s : State) (id : Fid) (t : Nat) (m : Member),
    NMap.get? s.fab.members id.toNat = some m →
    m.last + 400000 ≤ (s.at t).now →
    exec (.memberTimeout id t) s = .next (((s.at t).dropMember id.toNat).fabSettle)) ∧
  -- ELECTION_TIMER, this switch
  (∀ (s : State) (t : Nat),
    s.fab.ridge = none →
    s.fab.standby = none →
    s.quorum = true →
    s.fab.quiet + 200000 ≤ (s.at t).now →
    s.firstKey = some s.me →
    exec (.electionTimer t) s = .next ((s.at t).becomeRidge.fabSettle)) ∧
  -- ELECTION_TIMER, another switch
  (∀ (s : State) (t r : Nat),
    s.fab.ridge = none →
    s.fab.standby = none →
    s.quorum = true →
    s.fab.quiet + 200000 ≤ (s.at t).now →
    s.firstKey = some r →
    r ≠ s.me →
    exec (.electionTimer t) s = .next (((s.at t).adoptRidge r (s.nextKey r) ((s.fab.epoch + 1) % 4294967296)).fabSettle)) ∧
  -- HANDOVER_INSTANT at the successor
  (∀ (s : State) (t : Nat) (i : Instant),
    s.fab.handover = some i →
    i.t ≤ (s.at t).now →
    s.pendOf (· == Work.ridgeYield) = none →
    i.value = s.me →
    exec (.handoverInstant t) s = .next ((((s.at t).becomeRidge).notice ntcHandover (leBytes 2 i.value)).fabSettle)) ∧
  -- HANDOVER_INSTANT elsewhere, no Hearth waiting to restart
  (∀ (s : State) (t : Nat) (i : Instant),
    s.fab.handover = some i →
    i.t ≤ (s.at t).now →
    s.pendOf (· == Work.ridgeYield) = none →
    i.value ≠ s.me →
    State.busyWith (State.fabSettle ((s.at t).mapFab fun f => { f with
          ridge := some i.value, standby := s.nextKey i.value, epoch := (f.epoch + 1) % 4294967296, handover := none, todo := []
          staging := none })) (· == Work.fwActivate) = false →
    exec (.handoverInstant t) s = .next (((s.at t).mapFab fun f => { f with
          ridge := some i.value, standby := s.nextKey i.value, epoch := (f.epoch + 1) % 4294967296, handover := none, todo := []
          staging := none }).fabSettle)) ∧
  -- LOWER_KEY_ELIGIBLE at the Ridge
  (∀ (s : State) (id : Fid) (t : Nat) (m : Member),
    NMap.get? s.fab.members id.toNat = some m →
    s.isRidge = true →
    m.longEligible (s.at t).now = true →
    keyLt (m.rank, id.toNat) (s.fab.rank, s.me) = true →
    s.firstKey = some id.toNat →
    s.handoverGoes = false →
    exec (.lowerKeyEligible id t) s = .next ((s.at t).replicateTo id.toNat (.handover id.toNat))) ∧
  -- TIME_MARK_INTERVAL
  (∀ (s : State) (t : Nat),
    s.fab.fid.isSome = true →
    s.fab.everLocked = true →
    exec (.timeMarkInterval t) s = .next ((s.at t).upLinks.foldl (fun a l => a.emit (.mark l (s.at t).now)) (s.at t))) ∧
  -- DELAY_INTERVAL
  (∀ (s : State) (t : Nat),
    s.fab.fid.isSome = true →
    exec (.delayInterval t) s = .next ((s.at t).upLinks.foldl (fun a l => a.ctlOn l 7 (some 0) s.fab.serial (leBytes 8 (s.at t).now)) (s.at t))) ∧
  -- HOLDOVER_EXPIRY
  (∀ (s : State) (t t0 : Nat),
    s.fab.holdover = some t0 →
    t0 + 1000000 ≤ (s.at t).now →
    exec (.holdoverExpiry t) s = .next (((s.at t).mapFab fun f => { f with locked := false, marks := 0 }).fabSettle)) ∧
  -- RESTARTING_LIMIT
  (∀ (s : State) (t t0 : Nat),
    s.fab.restarting = some t0 →
    t0 + 2000000000 ≤ (s.at t).now →
    exec (.restartingLimit t) s = .next (((s.at t).mapFab fun f => { f with restarting := none }).fabSettle))

/-- At its instant the staged routing table is active and no longer staged, and messages queued at fabric ports go by it;
and at its instant the new schema is in use; the completion of ROUTE_SET or SCHEMA_SET that waits is posted. A packet
whose segments have not come within 1 ms is discarded and counted. A packet not acknowledged within 2 ms is sent again.
Targets of a relay silent for 100 ms end with TIMEOUT; a relayed command held for 100 ms runs. A gap of notices held for
10 ms is posted as event 41h. -/
def Obligations.InstantsAndPacketTimersComplete : Prop :=
  -- ROUTE_ACTIVATION, no ROUTE_SET waiting
  (∀ (s u : State) (t : Nat) (i : Instant) (m : NMap (Nat × Bool)),
    s.fab.routeT = some i →
    s.ports.staged = some (i.value, m) →
    i.t ≤ (s.at t).now →
    s.timeLocked = true →
    u = ((((s.at t).mapPorts fun p => { p with route := m, routeVer := i.value, staged := none }).mapFab fun f => { f with
        routeT := none }).reroute) →
    u.pendOf (· == Work.routeSet) = none →
    exec (.routeActivation t) s = .next u.fabSettle) ∧
  -- ROUTE_ACTIVATION at the Ridge that ROUTE_SET asked
  (∀ (s u : State) (t : Nat) (i : Instant) (m : NMap (Nat × Bool)) (p : Pend),
    s.fab.routeT = some i →
    s.ports.staged = some (i.value, m) →
    i.t ≤ (s.at t).now →
    s.timeLocked = true →
    u = ((((s.at t).mapPorts fun p => { p with route := m, routeVer := i.value, staged := none }).mapFab fun f => { f with
        routeT := none }).reroute) →
    u.pendOf (· == Work.routeSet) = some p →
    exec (.routeActivation t) s = .next (u.complete p ⟨.ok, 0, leBytes 2 i.value⟩).fabSettle) ∧
  -- SCHEMA_SWITCH_OVER to a version that the switch supports, no SCHEMA_SET waiting, away from the Ridge
  (∀ (s : State) (t : Nat) (i : Instant),
    s.fab.schemaPend = some i →
    i.t ≤ (s.at t).now →
    s.fab.ownMin ≤ i.value ∧ i.value ≤ s.fab.ownMax →
    s.timeLocked = true →
    s.pendOf (· == Work.schemaSet) = none →
    s.isRidge = false →
    exec (.schemaSwitchOver t) s = .next (
        ((s.at t).mapFab fun f => { f with
          schemaOld := some (f.schema, (s.at t).now), schema := i.value, schemaPend := none, cause := if f.cause = 1 then 0 else f.cause }).fabSettle)) ∧
  -- REASSEMBLY_TIMEOUT
  (∀ (s : State) (src : Fid) (serial : B16) (t : Nat) (old : List (Nat × Nat × Nat × Nat × List Nat)),
    (s.fab.reasm.filter fun r => r.1 == src.toNat && r.2.1 == serial.toNat && r.2.2.2.1 + 1000000 ≤ (s.at t).now) = old →
    old ≠ [] →
    exec (.reassemblyTimeout src serial t) s = .next (
        ((s.at t).mapFab fun f => { f with reasm := f.reasm.filter fun r => !old.contains r }).bumpBy STW_RELAY_STAT_fDISC_CNT old.length)) ∧
  -- ACK_RESEND_TIMEOUT of one packet
  (∀ (s : State) (serial : B16) (t : Nat) (a : AckWait),
    (s.fab.acks.filter fun a => a.serial == serial.toNat && a.t + 2000000 ≤ (s.at t).now) = [a] →
    exec (.ackResendTimeout serial t) s = .next (
        ((s.at t).mapFab fun f => { f with
          acks := f.acks.map fun b => if b = a then { b with t := (s.at t).now } else b }).unicast a.type a.dst a.serial a.body)) ∧
  -- RELAY_TIMEOUT of one target
  (∀ (s : State) (seq : Word) (t i : Nat) (r : Relay) (t0 : Option Nat),
    (s.fab.relays.find? fun r => r.n == seq.toNat) = some r →
    r.late (s.at t).now = [(i, t0)] →
    exec (.relayTimeout seq t) s = .next ((s.at t).relayTmo r i)) ∧
  -- RELAY_HOLD_EXPIRY of one command
  (∀ (s : State) (t : Nat) (h : Nat × Nat × Nat × Nat × List Byte),
    (s.fab.heldRelay.filter fun h => h.2.2.2.1 + 100000000 ≤ (s.at t).now) = [h] →
    exec (.relayHoldExpiry t) s = .next (
        ((s.at t).mapFab fun f => { f with expect := NMap.set f.expect h.1 h.2.1 }).drainRelay h.1 s.fab.heldRelay.length)) ∧
  -- NOTICE_GAP
  (∀ (s : State) (origin : Fid) (t e gap : Nat) (y : Nat × Nat × Nat × Nat × List Byte),
    (s.fab.ntcHeld.find? fun h => h.1 == origin.toNat && h.2.2.1 + 10000000 ≤ (s.at t).now) = some y →
    NMap.get? s.fab.ntcNext origin.toNat = some e →
    (s.fab.ntcHeld.filter fun h => h.1 == origin.toNat).foldl (fun g h => Nat.min g ((h.2.1 + 65536 - e) % 65536)) 65535 = gap →
    exec (.noticeGap origin t) s = .next (
        (((s.at t).post 0x41 (leBytes 2 origin.toNat ++ leBytes 2 e ++ leBytes 2 gap)).mapFab fun f => { f with
          ntcNext := NMap.set f.ntcNext origin.toNat ((e + gap) % 65536) }).drainNotices origin.toNat s.fab.ntcHeld.length))

/-- A low PRSNT_N starts the count of T_INS, and once T_INS has passed presence is recognised, PRS_EDGE set, the insertion
posted and notified. A removal acts on the channel, tears down what the slot was bound to and is posted and notified.
FAST trips the channel with code 1. A GPIO level and a write of DWY_CH_CTL.EN bring channels to their effective enable.
While module 48 is down DWY_STAT.LINK is 0; at its return every channel is taken over. -/
def Obligations.DoorwayPresenceAndPinsComplete : Prop :=
  -- PRSNT_N_LOW
  (∀ (s : State) (ch : Dch) (t : Nat),
    exec (.prsntNLow ch t) s = .next (
        ((s.at t).mapDch ch.toNat fun c => { c with prsHigh := false, prsT := (s.at t).now, cntT := some (s.at t).now }).dwySettle ch.toNat)) ∧
  -- PRESENCE_RECOGNISED of a board that was not present
  (∀ (s : State) (ch : Dch) (t x : Nat),
    (s.dch ch.toNat).cntT = some x →
    (s.dch ch.toNat).prsHigh = false →
    x + dwNat (s.dch ch.toNat).par 14 * 1000000 ≤ (s.at t).now →
    (s.dch ch.toNat).present = false →
    exec (.presenceRecognised ch t) s = .next (
        let u := (s.at t).mapDch ch.toNat fun y => { y with present := true, cntT := none }
        let v := (u.setFld (DWY_CH_STAT_fPRS_EDGE ch.toNat) 1).dwyEvent ch.toNat dwInsert 0
        (v.notice ntcInsert (leBytes 1 ch.toNat)).dwySettle ch.toNat)) ∧
  -- PRESENCE_RECOGNISED again
  (∀ (s : State) (ch : Dch) (t x : Nat),
    (s.dch ch.toNat).cntT = some x →
    (s.dch ch.toNat).prsHigh = false →
    x + dwNat (s.dch ch.toNat).par 14 * 1000000 ≤ (s.at t).now →
    (s.dch ch.toNat).present = true →
    exec (.presenceRecognised ch t) s = .next (
        ((s.at t).mapDch ch.toNat fun y => { y with present := true, cntT := none }).dwySettle ch.toNat)) ∧
  -- REMOVAL of a board that was present
  (∀ (s : State) (ch : Dch) (t : Nat),
    (s.dch ch.toNat).prsHigh = false →
    (s.dch ch.toNat).present = true →
    s.mod48Up = true →
    exec (.removal ch t) s = .next (
        let u := ((s.at t).mapDch ch.toNat fun y => { y with prsHigh := true, prsT := (s.at t).now, present := false, cntT := none }).setFld
          (DWY_CH_STAT_fPRS_EDGE ch.toNat) 1
        let v := ((u.removed ch.toNat).slotTeardown ch.toNat).dwyEvent ch.toNat dwRemove 0
        (v.notice ntcRemove (leBytes 1 ch.toNat)).pumpRamps)) ∧
  -- FAST
  (∀ (s : State) (ch : Dch) (t : Nat),
    exec (.fast ch t) s = .next (((s.at t).trip ch.toNat 1).pumpRamps)) ∧
  -- GPIO_ENABLE
  (∀ (s : State) (n : BitVec 3) (high : Bool) (t : Nat),
    exec (.gpioEnable n high t) s = .next (
        let rest := s.pwr.gpio - (if bitOf s.pwr.gpio n.toNat then 2 ^ n.toNat else 0)
        let u := { s.at t with pwr := { s.pwr with gpio := if high then rest + 2 ^ n.toNat else rest } }
        (List.range 32).foldl (fun a k => if dwVal (a.dch k).par 26 == (n.toNat : Int) then a.dwySettle k else a) u)) ∧
  -- DWY_CH_EN
  (∀ (s : State) (path : Path) (ch : Dch) (on : Bool) (t : Nat),
    PathWrites (s.at t) path →
    exec (.dwyChEn path ch on t) s = .next (((s.at t).setDwyEn ch.toNat on).pathAnswers path)) ∧
  -- MODULE48_DOWN
  (∀ (s : State) (t : Nat),
    exec (.module48Down t) s = .next (((s.at t).setFld DWY_STAT_fLINK 0).setFld (OPF_MOD_STAT_fSTATE 48) 0)) ∧
  -- MODULE48_UP
  (∀ (s : State) (t : Nat),
    s.mod48Up = false →
    exec (.module48Up t) s = .next (
        (s.dwy.map (·.1)).foldl (fun a n => a.takeChannel n) (((s.at t).setFld DWY_STAT_fLINK 1).setFld (OPF_MOD_STAT_fSTATE 48) 1)))

/-- Each step of the model samples the channels given, advances their ladders and trips those that meet a condition. A fault
timer at its limit trips with code 3 and a ramp beyond VIN / DVDT + T_ENH with code 7. With the link to the Doorway up,
after 1 ms at VGS_ON without limiting a channel is in PGOOD, and after T_PERST in ON with PERST_DN_N released. The end
of the off-timer starts a full debounce of a board that is present. -/
def Obligations.DoorwayTimersAndModelComplete : Prop :=
  -- MODEL_STEP
  (∀ (s : State) (samples : List DwSample) (t : Nat),
    exec (.modelStep samples t) s = .next ((samples.foldl (fun a x => a.modelOne x) (s.at t)).pumpRamps)) ∧
  -- FAULT_TMR in RAMP and ENHANCE
  (∀ (s : State) (ch : Dch) (t : Nat),
    (s.dch ch.toNat).st = 3 ∨ (s.dch ch.toNat).st = 4 →
    dwNat (s.dch ch.toNat).par 12 * 1000000 ≤ (s.dch ch.toNat).faultNs (s.at t).now →
    exec (.faultTmr ch t) s = .next (((s.at t).trip ch.toNat 3).pumpRamps)) ∧
  -- FAULT_TMR in PGOOD and ON
  (∀ (s : State) (ch : Dch) (t : Nat),
    (s.dch ch.toNat).st = 5 ∨ (s.dch ch.toNat).st = 6 →
    dwNat (s.dch ch.toNat).par 13 * 100000 ≤ (s.dch ch.toNat).faultNs (s.at t).now →
    exec (.faultTmr ch t) s = .next (((s.at t).trip ch.toNat 3).pumpRamps)) ∧
  -- ENH_TMO
  (∀ (s : State) (ch : Dch) (t : Nat),
    (s.dch ch.toNat).st = 3 ∨ (s.dch ch.toNat).st = 4 →
    (s.dch ch.toNat).rampT + ((s.dch ch.toNat).rampV * 100000 / dwNat (s.dch ch.toNat).par 4 + dwNat (s.dch ch.toNat).par 9 * 1000000) ≤ (s.at t).now →
    exec (.enhTmo ch t) s = .next (((s.at t).trip ch.toNat 7).pumpRamps)) ∧
  -- PGOOD
  (∀ (s : State) (ch : Dch) (t x : Nat),
    (s.dch ch.toNat).st = 4 →
    (s.dch ch.toNat).vgsT = some x →
    x + 1000000 ≤ (s.at t).now →
    (s.dch ch.toNat).ilim = false →
    s.mod48Up = true →
    exec (.pgood ch t) s = .next (((s.at t).mapDch ch.toNat fun y => { y with st := 5, pgT := (s.at t).now }).pumpRamps)) ∧
  -- PERST_RELEASE
  (∀ (s : State) (ch : Dch) (t : Nat),
    (s.dch ch.toNat).st = 5 →
    s.mod48Up = true →
    (s.dch ch.toNat).pgT + dwNat (s.dch ch.toNat).par 11 * 1000000 ≤ (s.at t).now →
    exec (.perstRelease ch t) s = .next (
        ((s.at t).mapDch ch.toNat fun y => { y with st := 6, perst := true }).emit (.pin (.perstDn ch.toNat) true))) ∧
  -- OFF_TIMER_EXPIRY
  (∀ (s : State) (ch : Dch) (t e : Nat),
    (s.dch ch.toNat).off = some e →
    e ≤ (s.at t).now →
    exec (.offTimerExpiry ch t) s = .next (
        ((s.at t).mapDch ch.toNat fun y => { y with off := none, cntT := if y.present then some (s.at t).now else y.cntT }).pumpRamps))

/-- A doorbell within the ring moves TAIL and shows its new slots to an enabled ring; a value at or beyond the ring size
stops the ring. The Hearth's turn takes the packet that comes next, runs it and answers; a ring slot that cannot be read
stops its ring. A read of EVT_POP takes the oldest word and EVT_CTL.FLUSH discards every word of FIFO and backlog. A
register write on a path that is open has its effect; a read answers the register's value, and one that R12 does not
permit is aborted and recorded. -/
def Obligations.TransportsAndRegisterAccessesComplete : Prop :=
  -- DOORBELL of an enabled ring
  (∀ (s : State) (ring : BitVec 2) (value : Word) (pkts : List (List Byte)),
    s.ep.mse = true ∧ s.ep.d3 = false →
    value.toNat < 2 ^ s.fld (CMD_RNG_CFG_fSIZE ring.toNat) →
    s.flag (CMD_RNG_CFG_fEN ring.toNat) = true →
    exec (.doorbell ring value pkts) s = .next (
        let size := 2 ^ s.fld (CMD_RNG_CFG_fSIZE ring.toNat)
        let k := (value.toNat + size - (s.ring ring.toNat).tail % size) % size
        s.mapRing ring.toNat fun x => { x with tail := value.toNat, slots := x.slots ++ newSlots k pkts })) ∧
  -- DOORBELL of a ring that is not enabled
  (∀ (s : State) (ring : BitVec 2) (value : Word) (pkts : List (List Byte)),
    s.ep.mse = true ∧ s.ep.d3 = false →
    value.toNat < 2 ^ s.fld (CMD_RNG_CFG_fSIZE ring.toNat) →
    s.flag (CMD_RNG_CFG_fEN ring.toNat) = false →
    exec (.doorbell ring value pkts) s = .next (s.mapRing ring.toNat fun x => { x with tail := value.toNat })) ∧
  -- DOORBELL with a value at or beyond the ring size
  (∀ (s : State) (ring : BitVec 2) (value : Word) (pkts : List (List Byte)),
    s.ep.mse = true ∧ s.ep.d3 = false →
    2 ^ s.fld (CMD_RNG_CFG_fSIZE ring.toNat) ≤ value.toNat →
    exec (.doorbell ring value pkts) s = .next (
        (s.setFld (CMD_RNG_STAT_fSTOPPED ring.toNat) 1).setFld (CMD_RNG_STAT_fTAIL_ERR ring.toNat) 1)) ∧
  -- RING_ENABLE
  (∀ (s : State) (path : Path) (ring : BitVec 2) (on : Bool),
    PathWrites s path →
    s.flag (CMD_RNG_CFG_fEN ring.toNat) ≠ on →
    exec (.ringEnable path ring on) s = .next ((if on then s.ringOn ring.toNat else s.ringOff ring.toNat).pathAnswers path)) ∧
  -- HEARTH_TURN
  (∀ (s : State) (i : Nat) (p : Packet),
    s.hearthCheck = (false, s) →
    s.nextTransport = some (i, p) →
    4 ≤ i ∨ p.bytes ≠ [] →
    exec .hearthTurn s = .next (
        ((((s.mapCmds fun c => { c with turn := (i + 1) % 8 }).takePacket (transport i)).runPacket (transport i) p).afterReply (transport i)))) ∧
  -- HEARTH_TURN at a ring slot that cannot be read
  (∀ (s : State) (i : Nat) (p : Packet),
    s.hearthCheck = (false, s) →
    s.nextTransport = some (i, p) →
    i < 4 ∧ p.bytes = [] →
    exec .hearthTurn s = .next (((s.mapCmds fun c => { c with turn := (i + 1) % 8 }).setFld (CMD_RNG_STAT_fSTOPPED i) 1).setFld
        (CMD_RNG_STAT_fDMA_ERR i) 1)) ∧
  -- EVT_POP of a whole word
  (∀ (s : State) (w : B64) (ws : List B64),
    s.ep.mse = true ∧ s.ep.d3 = false →
    s.evtReady ≠ 0 →
    s.cmds.fifo = w :: ws →
    s.checkOnce { checker := 0x1500 } = (false, s) →
    exec (.evtPop 8 0x1000) s = .next (
        ((s.mapCmds fun c => { c with fifo := ws }).pumpFifo).emit (.value .endpoint [w.setWidth 32, (w >>> 32).setWidth 32]))) ∧
  -- EVT_FLUSH
  (∀ (s : State) (value : Word),
    s.ep.mse = true ∧ s.ep.d3 = false →
    value.getLsbD 0 = true →
    exec (.evtFlush value) s = .next s.flushEvents) ∧
  -- EVENT_POSTED
  (∀ (s : State),
    exec .eventPosted s = .next s.pumpFifo) ∧
  -- REGISTER_WRITE
  (∀ (s : State) (path : Path) (off size : Nat) (value : Word),
    PathWrites s path →
    size = 4 ∧ off % 4 = 0 →
    exec (.registerWrite path off size value) s = .next ((s.writeReg off value).pathAnswers path)) ∧
  -- REGISTER_WRITE that R12 does not permit
  (∀ (s : State) (path : Path) (off size : Nat) (value : Word),
    PathWrites s path →
    size ≠ 4 ∨ off % 4 ≠ 0 →
    exec (.registerWrite path off size value) s = .next ((s.badAccess path off).pathAnswers path)) ∧
  -- LO_READ_LATCH
  (∀ (s : State) (path : Path) (off : Nat),
    path ≠ .endpoint ∨ s.ep.mse = true ∧ s.ep.d3 = false →
    off % 4 = 0 →
    exec (.loReadLatch path off 4) s = .next ((s.regRead path off).2.emit (.value path [(s.regRead path off).1]))) ∧
  -- ENDPOINT_CONFIG_WRITE
  (∀ (s : State) (mse bme d3hot : Bool),
    exec (.endpointConfigWrite mse bme d3hot) s = .next (
        let ep := { s.ep with mse := mse, bme := bme, d3 := d3hot }
        State.sendMsix { s with ep := ep }))

/-- The tick takes new parameters and computes the budget; where nothing holds grants back they are decided, and in any case
all are removed where the dirty lines exceed the budget without its reserve. A sample becomes the last one. In NORMAL
PFW_N begins the flush of every dirty line; in DRAIN or FAULT without HBM_KEEP it asserts FLUSH_DONE at once with a
record that is not complete, and after the drain of a warm reset with one that is; it ends the cleanings that run. The
flush ends when no write of it is left, or when the wait below Vstop is over; after a stop below Vstop its record is not
complete. The release lowers FLUSH_DONE and holds grants back for 100 ms. -/
def Obligations.HoldUpCommandsComplete : Prop :=
  -- BUDGET_TICK, grants held back
  (∀ (s : State) (t : Nat),
    (s.at t).newBudget.grantsHeld = true →
    (s.at t).newBudget.allDirty ≤ (s.at t).rawBudget (s.at t).newBudget.pan.par →
    exec (.budgetTick t) s = .next ((s.at t).newBudget.sweepCleans)) ∧
  -- BUDGET_TICK, short of energy
  (∀ (s : State) (t : Nat),
    (s.at t).rawBudget (s.at t).newBudget.pan.par < (s.at t).newBudget.allDirty →
    exec (.budgetTick t) s = .next ((s.at t).newBudget.shortOfEnergy.sweepCleans)) ∧
  -- BUDGET_TICK
  (∀ (s : State) (t : Nat),
    (s.at t).newBudget.grantsHeld = false →
    (s.at t).newBudget.allDirty ≤ (s.at t).rawBudget (s.at t).newBudget.pan.par →
    exec (.budgetTick t) s = .next ((s.at t).newBudget.decideGrants.sweepCleans)) ∧
  -- HU_SENSE_SAMPLE outside a power-fail flush
  (∀ (s : State) (mv10 : B16) (t : Nat),
    s.pan.flush = none →
    exec (.huSenseSample mv10 t) s = .next (
        ((s.at t).mapPan fun p => { p with
          sample := some mv10.toNat, sampleT := (s.at t).now, tickMin := some (Nat.min (p.tickMin.getD mv10.toNat) mv10.toNat) }).setFld
          PAN_HU_V_fV_LAST mv10.toNat)) ∧
  -- HU_SENSE_SAMPLE below Vstop in a power-fail flush
  (∀ (s : State) (mv10 : B16) (t : Nat) (f : Flush),
    s.pan.flush = some f →
    f.vstop = none →
    mv10.toNat * 10 < (hpOf s.pan.par 2).getD 0 →
    exec (.huSenseSample mv10 t) s = .next (
        let u := ((s.at t).mapPan fun p => { p with
          sample := some mv10.toNat, sampleT := (s.at t).now, tickMin := some (Nat.min (p.tickMin.getD mv10.toNat) mv10.toNat) }).setFld
          PAN_HU_V_fV_LAST mv10.toNat
        (u.mapPan fun p => { p with flush := some { f with vstop := some ((s.at t).now + 10000) } }).mapHome fun h =>
          { h with memq := h.memq.filter fun r => r.sent || r.use != .clean true })) ∧
  -- SENSE_FAULT
  (∀ (s : State) (t : Nat),
    (s.at t).senseFault = true →
    exec (.senseFault t) s = .next ((s.at t).mapPan fun p => { p with budget := 0 })) ∧
  -- PFW_N in NORMAL, or with HBM_KEEP
  (∀ (s : State) (t : Nat),
    s.pwr.st ≠ .reset ∧ s.pwr.st ≠ .warmBoot →
    s.pan.flushDone = false ∧ s.pan.flush = none →
    s.flt.st = .normal ∨ s.hbmKeep = true →
    exec (.pfwN t) s = .next (s.at t).startFlush) ∧
  -- PFW_N in DRAIN or FAULT without HBM_KEEP
  (∀ (s : State) (t : Nat),
    s.pwr.st ≠ .reset ∧ s.pwr.st ≠ .warmBoot →
    s.pan.flushDone = false ∧ s.pan.flush = none →
    s.flt.st ≠ .normal ∧ s.hbmKeep = false →
    exec (.pfwN t) s = .next (
        let f : Flush := { t0 := (s.at t).now, dirtyStart := s.allDirty, flushed := 0, failed := 0, vCheck := s.pan.sample.getD 0, short := false,
                             sense := (s.at t).senseFault, vstop := none, todo := [] }
        ((s.at t).endCleans.mapPan fun p => { p with pfw := true }).endFlush f false)) ∧
  -- PFW_N while FLUSH_DONE is high or a flush runs
  (∀ (s : State) (t : Nat),
    s.pwr.st ≠ .reset →
    s.pan.flushDone = true ∨ s.pan.flush.isSome = true →
    exec (.pfwN t) s = .next ((s.at t).endCleans.mapPan fun p => { p with pfw := true })) ∧
  -- PFW_N after the drain of a warm reset
  (∀ (s : State) (t : Nat),
    s.pwr.st = .warmBoot →
    s.pan.flushDone = false ∧ s.pan.flush = none →
    exec (.pfwN t) s = .next (
        let f : Flush := { t0 := (s.at t).now, dirtyStart := s.allDirty, flushed := 0, failed := 0, vCheck := s.pan.sample.getD 0, short := false,
                             sense := (s.at t).senseFault, vstop := none, todo := [] }
        ((s.at t).endCleans.mapPan fun p => { p with pfw := true }).endFlush f true)) ∧
  -- FLUSH_DONE
  (∀ (s : State) (t : Nat) (f : Flush),
    s.pan.flush = some f →
    (s.home.memq.any fun r => r.use == .clean true) = false →
    exec (.flushDone t) s = .next ((s.at t).endFlush f f.vstop.isNone)) ∧
  -- VSTOP_WAIT_EXPIRY
  (∀ (s : State) (t d : Nat) (f : Flush),
    s.pan.flush = some f →
    f.vstop = some d →
    d ≤ (s.at t).now →
    exec (.vstopWaitExpiry t) s = .next ((s.at t).endFlush f false)) ∧
  -- PFW_RELEASE after a flush
  (∀ (s : State) (t : Nat),
    s.pan.flushDone = true →
    exec (.pfwRelease t) s = .next (((s.at t).mapPan fun p => { p with
          pfw := false, flushDone := false, grantsFrom := (s.at t).now + 100000000 }).emit (.pin .flushDone false)))

/-- A fatal fault enters DRAIN through the collector; the loss of a stack sets LOST and is fatal. Arming writes CHECKER and
ARM where the lifecycle state permits and the checker takes injection; disarming clears ARM. Temperatures are read into
their registers, and each sensor that crosses its fatal threshold raises its fault. A DRAIN whose work is over, or whose
limit has expired, ends in FAULT, a warm reset's in its reset. A cold reset and the loss of VDD_AON clear what they
clear. -/
def Obligations.FaultAndResetCommandsComplete : Prop :=
  -- FATAL_FAULT
  (∀ (s : State) (checker : B16) (addr : B64) (t : Nat),
    exec (.fatalFault checker addr t) s = .next ((s.at t).fatal { checker := checker.toNat, addr := addr.toNat })) ∧
  -- STACK_LOSS
  (∀ (s : State) (k : Stack) (t : Nat),
    exec (.stackLoss k t) s = .next (
        ((s.at t).setFld (HBM_STK_STAT_fLOST k.toNat) 1).fatal { checker := 0x0e00 + k.toNat, source := 12, unit := k.toNat })) ∧
  -- ARM_ONCE
  (∀ (s : State) (path : Path) (checker : B16),
    PathWrites s path →
    s.mayArm checker.toNat 1 = true →
    canInject checker.toNat = true →
    exec (.armOnce path checker) s = .next (
        ((s.setFld FLT_INJ_CTL_fCHECKER checker.toNat).setFld FLT_INJ_CTL_fARM 1).pathAnswers path)) ∧
  -- ARM_CONTINUOUS
  (∀ (s : State) (path : Path) (checker : B16),
    PathWrites s path →
    s.mayArm checker.toNat 2 = true →
    canInject checker.toNat = true →
    exec (.armContinuous path checker) s = .next (
        ((s.setFld FLT_INJ_CTL_fCHECKER checker.toNat).setFld FLT_INJ_CTL_fARM 2).pathAnswers path)) ∧
  -- DISARM
  (∀ (s : State) (path : Path) (checker : B16),
    PathWrites s path →
    s.lifecycle ≠ 2 →
    exec (.disarm path checker) s = .next (
        ((s.setFld FLT_INJ_CTL_fCHECKER checker.toNat).setFld FLT_INJ_CTL_fARM 0).pathAnswers path)) ∧
  -- TEMP_READING
  (∀ (s : State) (readings : List (BitVec 12)) (t : Nat),
    exec (.tempReading readings t) s = .next (
        let rs := (List.range 16).zip (readings.take 16)
        let hot := rs.filter fun r => maxTj + 20 ≤ signed 12 r.2.toNat && signed 12 (s.fld (CKP_TEMP_n_fTEMP r.1)) < maxTj + 20
        hot.foldl (fun a r => a.fatal { checker := 0x1900 + r.1 }) (rs.foldl (fun a r => a.readTemp r.1 r.2.toNat) (s.at t)))) ∧
  -- HEARTH_WATCHDOG
  (∀ (s : State) (t : Nat),
    s.pwr.st = .run →
    exec (.hearthWatchdog t) s = .next ((s.at t).hearthFault 0x1a00)) ∧
  -- DRAIN_END of a fault
  (∀ (s : State) (t : Nat),
    (s.at t).sweepCleans.drainOver = true →
    s.pwr.st ≠ .warmDrain →
    s.flt.st = .drain →
    exec (.drainEnd t) s = .next (s.at t).sweepCleans.enterFault) ∧
  -- DRAIN_END of a warm reset
  (∀ (s : State) (t : Nat),
    (s.at t).sweepCleans.drainOver = true →
    s.pwr.st = .warmDrain →
    exec (.drainEnd t) s = .next (s.at t).sweepCleans.warmInternal) ∧
  -- DRAIN_LIMIT of a fault
  (∀ (s : State) (t : Nat),
    s.pwr.st ≠ .warmDrain →
    s.flt.st = .drain →
    s.flt.drainT + s.fld FLT_CFG_fDRAIN_TMO * 1000000 ≤ (s.at t).now →
    exec (.drainLimit t) s = .next (s.at t).drainLimit.enterFault) ∧
  -- DRAIN_LIMIT of a warm reset
  (∀ (s : State) (t : Nat),
    s.pwr.st = .warmDrain →
    s.flt.st = .normal ∧ s.flt.limit = false →
    s.pwr.t0 + s.fld FLT_CFG_fDRAIN_TMO * 1000000 ≤ (s.at t).now →
    (s.at t).drainLimit.pan.flush = none →
    exec (.drainLimit t) s = .next (s.at t).drainLimit.warmInternal) ∧
  -- COLD_RESET
  (∀ (s : State) (rail aonLost : Bool),
    exec (.coldReset rail aonLost) s = .next (s.coldReset aonLost)) ∧
  -- VDD_AON_LOSS
  (∀ (s : State),
    exec .vddAonLoss s = .next ((s.mapFlt fun f => { f with ring := [], ringNext := 0, first := none }).mapPwr fun p =>
          { p with aonLost := true, flag83 := false, flag159 := false, prefer := false })) ∧
  -- WARM_N
  (∀ (s : State) (t : Nat),
    exec (.warmN t) s = .next ((s.at t).startWarm 2)) ∧
  -- WARM
  (∀ (s : State) (path : Path) (value : Word) (t : Nat),
    PathWrites (s.at t) path →
    value.getLsbD 0 = true ∧ bitsOf value.toNat 8 8 = 0xA5 →
    exec (.warm path value t) s = .next (((s.at t).startWarm 3).pathAnswers path))

/-- RESET_RELEASE starts the boot where a reference is valid. HEARTH_UP brings the switch to RUN, announces the RESET event
and starts its links. The loss of the selected input fails over to the other if that is valid, counted and recorded; a
switch-over by register goes to the other input if it is valid. A lost root PLL is fatal; a SerDes PLL takes down the
ports of its lane group. Levels, hours, the voltage request, the I3C address, a late boot image and the two limits of an
adoption act as given. -/
def Obligations.StartUpClocksAndRailsComplete : Prop :=
  -- RESET_RELEASE with a valid reference
  (∀ (s : State) (ehrec : List Byte) (slotOk : Bool × Bool) (strap : BitVec 2),
    s.pwr.st = .reset ∧ s.pwr.released = false →
    s.flag CKP_CLK_STAT_fA_OK = true ∨ s.flag CKP_CLK_STAT_fB_OK = true →
    exec (.resetRelease ehrec slotOk strap) s = .next (
        let u := s.mapPwr fun p => { p with
          released := true, smb := 0x64 + strap.toNat, ehrec := ehrec
          slot0 := { p.slot0 with valid := slotOk.1 || p.slot0.verified }, slot1 := { p.slot1 with valid := slotOk.2 || p.slot1.verified } }
        let v := u.setFld CKP_RAIL_STAT_fIN_RANGE 0x1FF
        let dwy := s.dwy.map fun c => (c.1, { c.2 with cntT := if c.2.prsHigh then none else some s.now })
        State.bootCold { v with dwy := dwy })) ∧
  -- HEARTH_UP of a cold start
  (∀ (s : State) (t : Nat) (version : Word) (ownMin ownMax : Byte),
    s.pwr.st = .cold →
    exec (.hearthUp t version ownMin ownMax) s = .next (
        ((((s.at t).wakeStacks.enterRun false version ownMin ownMax).announceReset false).startDoorway).startLinks.fabSettle)) ∧
  -- HEARTH_UP of a warm reset
  (∀ (s : State) (t : Nat) (version : Word) (ownMin ownMax : Byte),
    s.pwr.st = .warmBoot →
    exec (.hearthUp t version ownMin ownMax) s = .next (
        let u := if s.pwr.keep then (s.at t).wakeStacks.checkKept.settleWarm else (s.at t).wakeStacks
        ((u.enterRun true version ownMin ownMax).announceReset true).startLinks.fabSettle)) ∧
  -- REFCLK_LOST, the other input valid
  (∀ (s : State) (b : Bool) (t : Nat),
    s.pwr.st ≠ .reset →
    ((s.at t).setFld (clkOk b) 0).flag CKP_CLK_STAT_fSEL = b →
    s.flag (clkOk b) = true →
    ((s.at t).setFld (clkOk b) 0).flag (clkOk !b) = true →
    exec (.refclkLost b t) s = .next (
        (((((s.at t).setFld (clkOk b) 0).takeClock !b).setFld CKP_CLK_STAT_fFAIL_SEEN 1).bump CKP_CLK_STAT_fFAIL_CNT).corrected
          (0x1700 + b2n b) 0 (b2n b))) ∧
  -- REFCLK_LOST, no other input, while the Hearth is up
  (∀ (s : State) (b : Bool) (t : Nat),
    s.pwr.st ≠ .reset →
    ((s.at t).setFld (clkOk b) 0).flag CKP_CLK_STAT_fSEL = b →
    s.flag (clkOk b) = true →
    ((s.at t).setFld (clkOk b) 0).flag (clkOk !b) = false →
    s.cmds.hearthUp = true →
    exec (.refclkLost b t) s = .next (((s.at t).setFld (clkOk b) 0).fatal { checker := 0x1700 + b2n b, unit := b2n b })) ∧
  -- REFCLK_VALID in a switch that runs
  (∀ (s : State) (b : Bool),
    s.pwr.st ≠ .reset →
    exec (.refclkValid b) s = .next (s.setFld (clkOk b) 1)) ∧
  -- REFCLK_VALID that a switch has waited for
  (∀ (s : State) (b : Bool),
    s.pwr.st = .reset ∧ s.pwr.released = true →
    exec (.refclkValid b) s = .next (s.setFld (clkOk b) 1).bootCold) ∧
  -- CKP_SWITCH
  (∀ (s : State) (path : Path),
    PathWrites s path →
    s.flag (clkOk !s.flag CKP_CLK_STAT_fSEL) = true →
    exec (.ckpSwitch path) s = .next ((s.takeClock !s.flag CKP_CLK_STAT_fSEL).pathAnswers path)) ∧
  -- PLL_LOCK_LOSS of the root PLL
  (∀ (s : State) (t : Nat),
    exec (.pllLockLoss none t) s = .next (((s.at t).setFld CKP_CLK_STAT_fROOT_LOCK 0).fatal { checker := 0x1800 })) ∧
  -- PLL_LOCK_LOSS of a lane group's PLL, and of the management link's
  (∀ (s : State) (x : BitVec 6) (t : Nat),
    x.toNat ≤ 32 →
    exec (.pllLockLoss (some x) t) s = .next (
        let u := (s.at t).record { checker := 0x1801 + x.toNat, source := if x.toNat < 32 then 2 else 0, unit := x.toNat % 32 }
        if x.toNat = 32 then (List.range 4).foldl (fun a i => a.ringEnable i false) u
        else (u.portsIn x.toNat).foldl (fun a p => a.linkDown p 1) u)) ∧
  -- RAIL_OUT_OF_RANGE
  (∀ (s : State) (inRange : BitVec 9),
    s.pwr.released = true →
    (List.range 9).any (fun i => bitOf (s.fld CKP_RAIL_STAT_fIN_RANGE) i && !inRange.getLsbD i) = true →
    exec (.railOutOfRange inRange) s = .next ((s.setFld CKP_RAIL_STAT_fIN_RANGE inRange.toNat).setFld CKP_RAIL_STAT_fOUT_SEEN 1)) ∧
  -- AVS_UPDATE acknowledged, no failure before
  (∀ (s : State) (measured : BitVec 10),
    s.flag CKP_AVS_fEN = true →
    s.pwr.st = .run →
    s.pwr.avsFail = false →
    exec (.avsUpdate true measured false) s = .next (
        let mv := avsToward (s.fld CKP_AVS_STAT_fREQ_MV) (avsTarget Config.fuseMv.toNat (Config.hours + s.pwr.hours))
        ((s.setFld CKP_AVS_STAT_fMEAS_MV measured.toNat).setFld CKP_AVS_STAT_fREQ_MV mv).emit (.avs mv))) ∧
  -- AVS_UPDATE that fails: 800 mV
  (∀ (s : State) (acked differs : Bool) (measured : BitVec 10),
    s.flag CKP_AVS_fEN = true →
    s.pwr.st = .run →
    s.pwr.avsFail = false →
    acked = false ∨ differs = true →
    exec (.avsUpdate acked measured differs) s = .next (
        let u := (((s.setFld CKP_AVS_STAT_fMEAS_MV measured.toNat).setFld CKP_AVS_STAT_fBUS_ERR 1).mapPwr fun p => { p with avsFail := true }).record
          { checker := 0x4f00 }
        (u.setFld CKP_AVS_STAT_fREQ_MV 800).emit (.avs 800))) ∧
  -- POWERED_HOUR
  (∀ (s : State),
    exec .poweredHour s = .next ((s.mapPwr fun p => { p with hours := p.hours + 1 }).mapPan fun p => { p with calHours := p.calHours + 1 })) ∧
  -- I3C_DYNAMIC_ADDRESS
  (∀ (s : State) (addr : BitVec 7),
    exec (.i3cDynamicAddress addr) s = .next (s.mapPwr fun p => { p with i3c := some addr.toNat })) ∧
  -- FIRMWARE_FALLBACK
  (∀ (s : State) (t : Nat) (b : Bool),
    s.pwr.st = .restart →
    s.pwr.previous = some b →
    s.pwr.t0 + 2000000000 ≤ (s.at t).now →
    exec (.firmwareFallback t) s = .next (((s.at t).mapPwr fun p => { p with slot := b, preferred := b, previous := none, t0 := (s.at t).now }).finishWork
          .fwActivate .faulted [])) ∧
  -- HEARTH_RETURN
  (∀ (s : State) (t : Nat),
    s.pwr.st = .restart →
    exec (.hearthReturn t) s = .next (
        let u := if s.flt.st == .fault then (s.at t).endPends (fun _ => true) .faulted
          else if s.restartedByFw then (s.at t).endPends (· == Work.fwActivate) .ok else (s.at t).endPends (fun _ => true) .aborted
        let v := (u.mapPwr fun p => { p with st := .run, previous := none }).mapCmds fun c => { c with hearthUp := true }
        ((v.adoptRange.payRecord.emit .monRestart).fabSettle).resumeWarm.pumpLines)) ∧
  -- MEMORY_ACTIVE_TIMEOUT
  (∀ (s : State) (port : Port),
    exec (.memoryActiveTimeout port) s = .next (s.finish (fun c => c.work == .poolAdopt port.toNat) ⟨.faulted, 1, []⟩)) ∧
  -- CXL_IO_COMPLETION_TIMEOUT
  (∀ (s : State) (port : Port),
    s.busyWith (· == .poolAdopt port.toNat) = true →
    exec (.cxlIoCompletionTimeout port) s = .next (
        s.free.2.finish (fun c => c.work == .poolAdopt port.toNat) ⟨.faulted, s.free.1.toNat % 65536, []⟩))

/-- For every command c and state s with c at the front of its queue, step of s is exec of c on s with the queue's rest. On
an empty queue the step goes on with fabric time 1 ns later, which is the model's choice (log 1). -/
def Obligations.StepRunsTheFrontCommand : Prop :=
  -- a command in front
  (∀ (s : State) (c : Instr) (rest : List Instr),
    s.pending = c :: rest →
    step s = exec c { s with pending := rest }) ∧
  -- an empty queue (log 1)
  (∀ (s : State),
    s.pending = [] →
    step s = .next { s with now := s.now + 1 })

/-- From every state every step answers a next state: no command of the table ends in a fault or a refusal of the model,
whatever its operands and whatever the state. -/
def Obligations.EveryStepGoesOn : Prop :=
  (∀ (s : State),
    Goes s)

/-- From every state, reached or not, whose bytes of HBM and flash are held in the canonical form (addresses strictly
rising, no byte listed with the value that an unlisted one reads as), a step that goes on leaves them in that form. -/
def Obligations.EveryStepKeepsMemoryCanonical : Prop :=
  (∀ (s t : State),
    MemInv s →
    step s = .next t →
    MemInv t)

/-- For every well-formed command of the opcode tables, with every operand and every header field at every value, the packet
that the tables of its encoding give (header, CRC, parameters) is parsed into that command with that header, with
nothing dropped. -/
def Obligations.PacketDecodesToItsRow : Prop :=
  (∀ (i : Instr) (h : Hdr) (c : Cmd),
    rowCmd i = some (h, c) →
    i.wf = true →
    packetInstr h.src (packetOf h i) = some i)

/-- The packet of a well-formed command whose parameters fill whole words passes checks 1 to 3 of R426. When it comes next
among the transports, the turn takes it out of its transport, checks, executes and answers the command of its row on it,
and the next turn begins after that transport. -/
def Obligations.HearthTurnRunsThePacketOfARow : Prop :=
  (∀ (i : Instr) (h : Hdr) (c : Cmd),
    rowCmd i = some (h, c) →
    i.wf = true →
    (rowParams i).length % 4 = 0 →
    badPacket (packetOf h i) = none) ∧
  (∀ (s : State) (i : Instr) (h : Hdr) (c : Cmd) (k : Nat),
    rowCmd i = some (h, c) →
    i.wf = true →
    (rowParams i).length % 4 = 0 →
    h.src = transport k →
    s.hearthCheck = (false, s) →
    s.nextTransport = some (k, ⟨packetOf h i, none⟩) →
    ∃ b : State → Option Nat, exec .hearthTurn s = .next (
        (((s.mapCmds fun x => { x with turn := (k + 1) % 8 }).takePacket h.src).runCmd h none { c with bad := b }).afterReply h.src))

/-- While the Hearth cannot take a command nothing changes. A command that fails one of the checks 4 to 9, or that its own
rules refuse, makes its reply with that status and DETAIL and changes nothing else. Whatever a command that is taken
does, its last output is its reply, on its transport, with its tag and its opcode. -/
def Obligations.DermelCommandsAreAnswered : Prop :=
  -- not taken
  (∀ (s : State) (i : Instr) (h : Hdr) (c : Cmd),
    rowCmd i = some (h, c) →
    s.takes h = false →
    exec i s = .next s) ∧
  -- refused by a check
  (∀ (s : State) (i : Instr) (h : Hdr) (c : Cmd) (st : Status) (d : Nat),
    rowCmd i = some (h, c) →
    s.takes h = true →
    s.checkCmd h c = some (st, d) →
    exec i s = .next (s.says h c.opcode st d [])) ∧
  -- refused by its own rules
  (∀ (s : State) (i : Instr) (h : Hdr) (c : Cmd) (st : Status) (d : Nat),
    rowCmd i = some (h, c) →
    s.accepts h c = true →
    c.run s = .refuse st d →
    exec i s = .next (s.says h c.opcode st d [])) ∧
  -- taken
  (∀ (s : State) (i : Instr) (h : Hdr) (c : Cmd),
    rowCmd i = some (h, c) →
    s.takes h = true →
    ∃ (t : State) (outs : List Out) (r : Reply), exec i s = .next t ∧ t.out = outs ++ [.reply h.src r] ∧ r.tag = h.tag ∧
        r.opcode = BitVec.ofNat 16 c.opcode)

/-- Every query and read of the opcode tables, except the two reads of the Attic that mark what they read, and ATTIC_READ
where a fault is to be injected into the ring that it reads (R463), leaves every register, every byte of memory, every
table, queue, counter and mode as it is: the next state differs from the state in its outputs, and in the model's own
count of free values taken. -/
def Obligations.QueriesChangeNothing : Prop :=
  (∀ (s : State) (i : Instr) (h : Hdr) (c : Cmd),
    rowCmd i = some (h, c) →
    c.opcode ∈ [0x0101, 0x0102, 0x0205, 0x0207, 0x0210, 0x0307, 0x0312, 0x0403, 0x0412, 0x0440, 0x0452, 0x0460, 0x0502, 0x0505, 0x0602, 0x0611, 0x0613, 0x0704,
          0x0711, 0x0803, 0x0901, 0x0906, 0x0a01, 0x0a02, 0x0a03, 0x0a07, 0x0b01, 0x0b06, 0x0c02, 0x0c11, 0x0c21] →
    (c.opcode = 0x0901 → s.fld FLT_INJ_CTL_fCHECKER ≠ 0x1500) →
    ∃ t : State, exec i s = .next t ∧ t = { s with out := t.out, fresh := t.fresh })

/-- BANK_V must be 1 for RULE_WRITE, RULE_READ, GATE_WRITE, GATE_READ, FW_WRITE, FW_VERIFY and FW_ACTIVATE and 0 for every
other opcode. FORCE has a use for WINDOW_UNBIND and DC_RELEASE alone, INVALIDATE for PANTRY_FLUSH alone. A command that
passes the checks before, and that has BANK_V, FORCE or INVALIDATE otherwise, is refused with BAD_PARAM for the header. -/
def Obligations.HeaderFlagsFollowTheTable : Prop :=
  -- what each opcode asks
  (∀ (i : Instr) (h : Hdr) (c : Cmd),
    rowCmd i = some (h, c) →
    (c.bank = true ↔ c.opcode ∈ [0x0501, 0x0502, 0x0610, 0x0611, 0x0b02, 0x0b03, 0x0b04]) ∧
        (c.forceOk = true ↔ c.opcode ∈ [0x0421, 0x0431]) ∧ (c.invalOk = true ↔ c.opcode = 0x0c12)) ∧
  -- BANK_V, FORCE or INVALIDATE misused
  (∀ (s : State) (i : Instr) (h : Hdr) (c : Cmd),
    rowCmd i = some (h, c) →
    s.takes h = true →
    s.checkFirst c.opcode h.schema.toNat = none →
    s.lockOk h.src h.room.toNat = true ∧ (h.room = 0 ∨ c.room s h.room.toNat = true) →
    (s.cmds.pend.any fun p => p.src == h.src && p.tag == h.tag) = false →
    h.bankV ≠ decide (c.opcode ∈ [0x0501, 0x0502, 0x0610, 0x0611, 0x0b02, 0x0b03, 0x0b04]) ∨
        h.force = true ∧ c.opcode ∉ [0x0421, 0x0431] ∨ h.invalidate = true ∧ c.opcode ≠ 0x0c12 →
    exec i s = .next (s.says h c.opcode .badParam 0xFFFF []))

/-- For every physical address PA below 2^48 the directory set index is PA[29:11], the tag PA[47:30] followed by PA[10:6],
the cache set index PA[23:11] and the cache tag PA[47:24] followed by PA[10:6], within 19, 23, 13 and 29 bits, and lines
of one directory set have one cache set. The Pantry set of a line is the CRC-32C of the line address as an 8-byte
little-endian value modulo P x 57,344, and a way found for a line has that line's whole address in its tag. -/
def Obligations.IndexesOfDirectoryAndPantry : Prop :=
  -- R78
  (∀ (pa : Nat),
    pa < 2 ^ 48 →
    dirSet (pa / 64) = pa / 2 ^ 11 % 2 ^ 19 ∧ dirTag (pa / 64) = pa / 2 ^ 30 % 2 ^ 18 * 32 + pa / 64 % 32 ∧
        cacheSet (pa / 64) = pa / 2 ^ 11 % 2 ^ 13 ∧ cacheTag (pa / 64) = pa / 2 ^ 24 % 2 ^ 24 * 32 + pa / 64 % 32 ∧
        dirSet (pa / 64) < 512 * 1024 ∧ dirTag (pa / 64) < 2 ^ 23 ∧ cacheSet (pa / 64) < 8 * 1024 ∧ cacheTag (pa / 64) < 2 ^ 29) ∧
  -- R78: lines of one directory set fall in one cache set
  (∀ (a b : Nat),
    dirSet (a / 64) = dirSet (b / 64) →
    cacheSet (a / 64) = cacheSet (b / 64)) ∧
  -- R139
  (∀ (s : State) (line : Nat),
    s.panSet line = crc32c (leBytes 8 line) % (s.panUnits * 57344)) ∧
  -- R139: the tag holds the whole line address
  (∀ (s : State) (line key : Nat),
    s.panFind line = some key →
    ∃ (w : Nat) (g : PTag), w < 16 ∧ key = panKey (lineHu line) (s.panSet line) w ∧ NMap.get? s.pan.tags key = some g ∧ g.line = line)

/-- WARM_N, once it has been low for 1 us, starts a warm reset, and a write of CKP_RESET_CTL with WARM 1 and KEY A5h starts
the same one, each with its own cause. A write with any other KEY is ignored. While a warm reset runs, in its drain or
its boot, further requests are ignored. -/
def Obligations.WarmResetRequests : Prop :=
  -- WARM_N
  (∀ (s : State) (t : Nat),
    exec (.warmN t) s = .next ((s.at t).startWarm 2)) ∧
  -- WARM 1 with KEY A5h
  (∀ (s : State) (path : Path) (value : Word) (t : Nat),
    PathWrites (s.at t) path →
    value.getLsbD 0 = true →
    value.toNat / 256 % 256 = 0xA5 →
    exec (.warm path value t) s = .next (((s.at t).startWarm 3).pathAnswers path)) ∧
  -- another KEY
  (∀ (s : State) (path : Path) (value : Word) (t : Nat),
    PathWrites (s.at t) path →
    value.toNat / 256 % 256 ≠ 0xA5 →
    exec (.warm path value t) s = .next ((s.at t).pathAnswers path)) ∧
  -- what a request starts in NORMAL
  (∀ (s : State) (cause : Nat),
    s.pwr.st = .run ∨ s.pwr.st = .recovery →
    s.warmWaits = false →
    s.flt.st = .normal →
    s.startWarm cause = (
        let u := (s.mapPwr fun p => { p with st := .warmDrain, t0 := s.now, warmCause := cause, warmWait := none }).mapPool fun p =>
          { p with wins := p.wins.map fun w => if w.2.grant then (w.1, { w.2 with grant := false, fit := 0 }) else w }
        let v := (u.mapFlt fun f => { f with limit := false, done := 0, failed := 0, refused := 0 }).stopWork
        if v.flag FLT_CFG_fDRAIN_CLEAN then v.drainClean else v)) ∧
  -- while one runs
  (∀ (s : State) (cause : Nat),
    s.pwr.st = .warmDrain ∨ s.pwr.st = .warmBoot →
    s.startWarm cause = s)

/-- At RESET_RELEASE the SMBus target address and static I3C address becomes 64h + 2 x SMB_ADDR1 + SMB_ADDR0, so 64h to 67h,
and the dynamic address stays as the reset left it (none): the switch runs as an SMBus target. The assignment of a
dynamic address makes it an I3C target at that address, changing nothing else. A cold reset and the internal reset of a
warm reset end that. -/
def Obligations.TargetAddress : Prop :=
  -- RESET_RELEASE
  (∀ (s : State) (ehrec : List Byte) (slotOk : Bool × Bool) (strap : BitVec 2),
    s.pwr.st = .reset ∧ s.pwr.released = false →
    ∃ t : State, exec (.resetRelease ehrec slotOk strap) s = .next t ∧ t.pwr.i3c = s.pwr.i3c ∧
        t.pwr.smb = 0x64 + 2 * (strap.getLsbD 1).toNat + (strap.getLsbD 0).toNat ∧ 0x64 ≤ t.pwr.smb ∧ t.pwr.smb ≤ 0x67) ∧
  -- I3C_DYNAMIC_ADDRESS
  (∀ (s : State) (addr : BitVec 7),
    exec (.i3cDynamicAddress addr) s = .next { s with pwr := { s.pwr with i3c := some addr.toNat } }) ∧
  -- a cold reset
  (∀ (s : State) (rail aonLost : Bool),
    ∃ t : State, exec (.coldReset rail aonLost) s = .next t ∧ t.pwr.i3c = none) ∧
  -- step 4 of a warm reset
  (∀ (s : State),
    s.warmInternal.pwr.i3c = none)

/-- After a cold reset every register holds the value of its Reset column, every extent entry is 0, there are no windows,
slices or bindings and no Room but Room 0, nothing is queued or pending, the FIFO and the Attic are empty, no fault is
active, the Hearth is not up, and HBM and flash are in the canonical form. (The values that the spec does not give stand
in the logs.) -/
def Obligations.ResetState : Prop :=
  -- registers
  (∀ (off : Nat),
    State.reset.reg off = regReset off) ∧
  -- extents
  (∀ (x : Nat),
    State.reset.ext x = Ext.zero) ∧
  -- the rest
  (State.reset.pool.wins = [] ∧ State.reset.pool.rooms.map (·.1) = [0] ∧ State.reset.pool.slices = [] ∧ State.reset.pool.devs = [] ∧
        State.reset.pending = [] ∧ State.reset.cmds.pend = [] ∧ State.reset.cmds.fifo = [] ∧ State.reset.cmds.backlog = [] ∧
        State.reset.cmds.hearthUp = false ∧ State.reset.flt.st = .normal ∧ State.reset.flt.ring = [] ∧ State.reset.flt.first = none ∧
        State.reset.home.trk = [] ∧ State.reset.pan.tags = [] ∧ State.reset.dwy = [] ∧ State.reset.pwr.st = .reset ∧ State.reset.mem = [] ∧
        MemInv State.reset)

/-- Every word of an event has VALID, its last word alone has END, and it has as many words as NWORDS says: three at least,
one for each four payload bytes beyond the first two. Posting an event and serving the backlog keep the FIFO at 4,096
words at most. A report keeps the history ring at 32 entries at most and takes the next sequence number. -/
def Obligations.EventsAndReportsAreKept : Prop :=
  -- words of an event
  (∀ (type tag status source time : Nat) (payload : List Byte),
    let ws := eventWords type tag status source time payload;
        ws.length = 2 + Nat.max 1 ((payload.length + 3) / 4) ∧ (∀ w ∈ ws, w.getLsbD 63 = true) ∧
        (∀ (k : Nat) (hk : k < ws.length), (ws[k]).getLsbD 62 = decide (k + 1 = ws.length)) ∧
        (ws.length < 1024 → ∀ w, ws.head? = some w → w.toNat / 2 ^ 48 % 1024 = ws.length)) ∧
  -- the FIFO
  (∀ (s : State) (ws : List B64) (completion : Bool),
    s.cmds.fifo.length ≤ 4096 →
    (s.postWords ws completion).cmds.fifo.length ≤ 4096 ∧ s.pumpFifo.cmds.fifo.length ≤ 4096) ∧
  -- the history ring
  (∀ (s : State) (r : Report),
    s.flt.ring.length ≤ 32 →
    (s.record r).flt.ring.length ≤ 32 ∧ (s.record r).flt.seq = (s.flt.seq + 1) % 4294967296)

/-- An accepted FW_WRITE of a slot that is not running stores its data at its offset in that slot, and an accepted
EHREC_WRITE at its offset in the Ehrec copy that is not active: each stored byte reads back, and every byte of HBM and
flash outside them reads as before. No register changes. -/
def Obligations.FlashWritesStoreTheirBytes : Prop :=
  -- FW_WRITE
  (∀ (s : State) (h : Hdr) (off : Word) (data : List Byte),
    MemInv s →
    s.accepts h (cmdFwWrite h.bank off.toNat data) = true →
    s.running h.bank = false →
    ∃ t : State, exec (.fwWrite h off data) s = .next t ∧ t.regs = s.regs ∧
        (∀ a : Nat, a < slotBase h.bank + off.toNat ∨ slotBase h.bank + off.toNat + data.length ≤ a → Memory.read t.mem a = Memory.read s.mem a) ∧
        ∀ (k : Nat) (hk : k < data.length), Memory.read t.mem (slotBase h.bank + off.toNat + k) = data[k]) ∧
  -- EHREC_WRITE
  (∀ (s : State) (h : Hdr) (off : Word) (data : List Byte),
    MemInv s →
    s.accepts h (cmdEhrecWrite off.toNat data) = true →
    ∃ t : State, exec (.ehrecWrite h off data) s = .next t ∧ t.regs = s.regs ∧
        (∀ a : Nat, a < copyBase (!s.pwr.copy) + off.toNat ∨ copyBase (!s.pwr.copy) + off.toNat + data.length ≤ a → Memory.read t.mem a = Memory.read s.mem a) ∧
        ∀ (k : Nat) (hk : k < data.length), Memory.read t.mem (copyBase (!s.pwr.copy) + off.toNat + k) = data[k])

/-- The key that the election takes is one of those given, and none of them is lower: the lower rank first, then the lower
fabric ID. The order in which grants are decided names each window once, in descending rank, and leaves windows of one
rank in the order of their IDs. -/
def Obligations.OrdersFollowTheirKeys : Prop :=
  -- the lowest key
  (∀ (ks : List (Nat × Nat)) (k : Nat × Nat),
    minKey ks = some k →
    k ∈ ks ∧ ∀ j ∈ ks, keyLt j k = false) ∧
  -- a key is found
  (∀ (ks : List (Nat × Nat)),
    ks ≠ [] →
    ∃ k, minKey ks = some k) ∧
  -- the order of grants
  (∀ (ws : List (Nat × Window)),
    (byRank ws).Perm ws ∧ (byRank ws).Pairwise (fun a b => b.2.rank ≤ a.2.rank) ∧
        ∀ r : Nat, (byRank ws).filter (fun x => x.2.rank == r) = ws.filter (fun x => x.2.rank == r))
end

