-- ==== Sys2Proof/Laws/Access.lean ====
section
/-! SUPPORT. What a register write does on each path, said once: accepted, or turned away without its effect. -/

namespace Sys2Proof.Machine

/-- An accepted write has its effect, and the monitor answers its line. -/
theorem regWrite_accepted {s : State} {path : Path} (off : Nat) (f : State → State) (h : PathWrites s path) :
    s.regWrite path off f = (f s).pathAnswers path := by
  cases path <;> simp_all [PathWrites, State.regWrite, State.pathAnswers]

/-- A write through the endpoint without Memory Space Enable or in D3hot is an unsupported request. -/
theorem regWrite_unsupported {s : State} (off : Nat) (f : State → State) (h : ¬ PathWrites s .endpoint) :
    s.regWrite .endpoint off f = s.emit (.unsupported .endpoint) := by
  have : (s.ep.mse && !s.ep.d3) = false := by
    simp only [PathWrites] at h
    cases hm : s.ep.mse <;> cases hd : s.ep.d3 <;> simp_all
  simp [State.regWrite, this]

end Sys2Proof.Machine
end

