-- ==== Sys2Proof/Laws/Atomic.lean ====
section
/-! SUPPORT. What the grant of an AtomicOp or an extended operation does when every check passes. -/

namespace Sys2Proof.Machine

theorem atomRow_passes {s u : State} {hu : Nat} {plane : Bool} {t : Nat} {v : VMsg} {op : AtomOp} {w : Nat} {x : Window}
    {b : Binding} (h : AtomPasses (s.at t) u hu plane v op w x b) :
    s.atomRow hu plane t op =
      (u.atomChecked hu v w x).opens hu x.room (x.lineAt v.off) w false (v.atomReq op)
        ((u.atomChecked hu v w x).bankOf x.room) none := by
  obtain ⟨h1, h2, h3, h4, h5, h6, h7, h8, h9, h10, h11, h12, h13, h14, h15, h16, h17⟩ := h
  have h18 : ¬ x.bytes ≤ v.off := by omega
  unfold State.atomRow
  simp only [h1, h2, beq_self_eq_true, if_true]
  unfold State.grantAtom
  rw [← h4]
  unfold State.opens State.atomChecked State.bankOf
  rw [if_neg (by simp [h3])]
  simp [Option.isSome_iff_ne_none] at h17
  simp [h5, h6, h7, h8, h9, h10, h18, h12, h13, h14, h15, h16, h17]
  rfl

theorem grantXop_passes {s : State} {slice slot op : Nat} {x : Slice} {w : Window} {y : XSlot} {b : Binding}
    {target size opnd : Nat} {notify : Bool} (h : XopPasses s slice slot op x w y b target size opnd notify) :
    s.grantXop slice slot op = s.grantsXop slice slot op x w target size opnd := by
  obtain ⟨h1, h2, h3, h4, h5, h6, h7, h19, h20, h21, h8, h9, h10, h11, h12, h13, h14, h15, h16, h17⟩ := h
  have h18 : ¬ w.bytes < target + xopBytes size := by omega
  have h22 : ¬ s.ageLimit ≤ s.now - y.t0 := by omega
  have h23 : ¬ 64 ≤ s.scqLevel (lineHu (w.lineAt target)) := by omega
  unfold State.grantXop
  simp only [h1, h2, h3, h4]
  unfold State.grantsXop State.bankOf
  dsimp only
  generalize s.ruleCheck (lineHu (w.lineAt target)) w.room (w.lineAt target * 64) (.host x.host x.pasid)
    { r := true, w := true, a := true } = p at *
  generalize p.2.checkExt x.window (w.lineAt target) = q at *
  simp [Option.isSome_iff_ne_none] at h16
  simp [h5, h6, h7, h8, h18, h10, h11, h12, h13, h14, h15, h16, h17, h20, h22, h23]

theorem accLines_ne_nil {pa len : Nat} (h : 1 ≤ len) : accLines pa len ≠ [] := by
  simp only [accLines, ne_eq, List.map_eq_nil_iff, List.range_eq_nil]
  omega

/-- A CXL.io access that its arbiter grants now, not aged, leaves its queue and is served. -/
theorem ioAccess_serves {s : State} {w host tag off len : Nat} {pasid : Option Nat} {data : Option (List Byte)} {x : Window}
    {b : Binding} (h1 : s.win? w = some x) (h2 : s.ioBind w host tag data.isSome x = some b)
    (h3 : s.ioWaits w host tag data.isSome = false) (h4 : s.ioStale w host tag data.isSome = none) :
    s.ioAccess w host tag pasid off len data =
      (s.takeIo w host tag data.isSome).ioServe w host tag pasid off len data x b := by
  simp [State.ioAccess, h1, h2, h3, h4]

/-- A CXL.io access inside a window that is permitted and served opens its lines. -/
theorem ioServe_opens {u a c : State} {w host tag off len : Nat} {pasid : Option Nat} {data : Option (List Byte)}
    {x : Window} {b : Binding} {pages go : List Nat} (h4 : off + len ≤ x.bytes ∧ 1 ≤ len ∧ len ≤ 4096) (h5 : u.draining = false)
    (h6 : x.failed = false) (hw : data.isSome = true → b.rw = true)
    (h8 : u.ioPages x host tag pasid (x.base + off) len data.isSome = (pages, a))
    (hp : data.isSome = false → pages.length = (accPages (x.base + off) len).length)
    (h9 : a.ioLines w tag data.isSome ((accLines (x.base + off) len).filter fun l => pages.contains (l / 64)) = (go, c))
    (hg : go ≠ []) (hn : data.isSome = false → go.length = (accLines (x.base + off) len).length) :
    u.ioServe w host tag pasid off len data x b =
      c.ioOpen w host tag b.port x (x.base + off) len data go (go.length != (accLines (x.base + off) len).length) := by
  obtain ⟨h10, h11, h12⟩ := h4
  have e1 : ioOut x.bytes off len = false := by
    simp only [ioOut, Bool.or_eq_false_iff, decide_eq_false_iff_not]; omega
  have e2 : (u.draining || x.failed || (data.isSome && !b.rw)) = false := by
    rw [h5, h6]; cases hd : data.isSome <;> simp_all
  have e3 : (pages.length != (accPages (x.base + off) len).length && !data.isSome) = false := by
    cases hd : data.isSome <;> simp_all
  have e4 : (go.isEmpty || (!data.isSome && go.length != (accLines (x.base + off) len).length)) = false := by
    cases hd : data.isSome <;> simp_all
  rw [State.ioServe, e1, e2, h8]
  simp only [Bool.false_eq_true, if_false, ioPermitted, e3]
  rw [h9]
  simp only [ioGo, e4, Bool.false_eq_true, if_false]

end Sys2Proof.Machine
end

