-- ==== Sys2Proof/Laws/Command.lean ====
section
/-! SUPPORT. What the row of a Dermel command can do, said once: not taken, refused by a check, refused by its own rules,
answered at once, left pending, or without room to be pending. -/

namespace Sys2Proof.Machine

theorem accepts_iff (s : State) (h : Hdr) (c : Cmd) :
    s.accepts h c = true ↔ s.takes h = true ∧ s.checkCmd h c = none := by
  simp [State.accepts, Option.isNone_iff_eq_none]

theorem canPend_iff (s : State) (c : Cmd) :
    s.canPend c = true ↔
      s.cmds.pend.length < 512 ∧ s.cmds.backlogWords + s.cmds.reserved + compWords c.most ≤ 65536 := by
  simp [State.canPend]

/-- A command of a header that the Hearth serves is accepted if its own parameters and the lifecycle state permit it. -/
theorem serves_accepts {s : State} {h : Hdr} {room bank force : Bool} {c : Cmd} (hs : s.serves h c.opcode room bank force)
    (hr : room = true → c.room s h.room.toNat = true) (hb : c.bank = bank) (hf : force = true → c.forceOk = true)
    (hn : ∀ f ∈ c.names, s.fidClosing f = false) (hbad : c.bad s = none) (hl : c.life s = true) : s.accepts h c = true := by
  obtain ⟨h1, h3, h4, h5, h6, h7, h8, ⟨h9, h10, h11⟩, h12⟩ := hs
  have e0 : (s.cmds.hearthUp || (s.pwr.st == .recovery && servesRecovery h.src)) = true := by
    rcases h1 with ⟨a, -⟩ | ⟨a, b, -⟩ <;> simp [*]
  have e1 : s.takes h = true := by
    cases hfe : h.fence
    · simpa [State.takes, hfe] using e0
    · have := h4 hfe
      simp only [State.takes, e0, hfe]
      simp
      exact fun p hp e => this p hp e
  have e2 : s.checkFirst c.opcode h.schema.toNat = none := by
    have : s.schemaOk c.opcode h.schema.toNat = true := by
      rcases h5 with e | e
      · simp [e, State.schemaOk]
      · exact e
    have e7 : (s.pwr.st == .recovery && !inRecovery c.opcode) = false := by
      rcases h1 with ⟨-, a⟩ | ⟨-, -, a⟩ <;> simp [a]
    have e8 : (s.faulted && !onlyReads c.opcode) = false := by
      rcases h3 with a | a <;> simp [a]
    simp [State.checkFirst, e7, e8, this]
  have e3 : (s.cmds.pend.any fun p => p.src == h.src && p.tag == h.tag) = false := by
    simp; exact fun p hp a b => h8 p hp ⟨a, b⟩
  have e4 : (h.room != 0 && !c.room s h.room.toNat) = false := by
    rcases h7 with e | e
    · simp [e]
    · simp [hr e]
  have e5 : (h.force && !c.forceOk) = false := by
    cases hfo : h.force
    · rfl
    · simp [hf (h10 hfo)]
  have e6 : (c.opcode != 0x0307 && (h.room.toNat :: c.names).any s.fidClosing) = false := by
    by_cases e : c.opcode = 0x0307
    · simp [e]
    · simp [h12 e]; exact fun _ f hf => hn f hf
  rw [accepts_iff]
  refine ⟨e1, ?_⟩
  simp only [State.checkCmd, e2, e3, e4, e5, e6, h6, h9, hb, h11, hbad, hl]
  simp

/-- Room for a pending command, by its size. -/
theorem pendRoom_canPend {s : State} {c : Cmd} (hp : s.pendRoom c.most) : s.canPend c = true := (canPend_iff s c).2 hp

/-- A pending command by its opcode and size. -/
theorem pends_waits (s : State) (h : Hdr) (c : Cmd) (w : Work) : s.pends h c w = s.waits h c.opcode c.most w := rfl

/-- The first of a list of conditions that no condition meets. -/
theorem firstBad_none {l : List (Bool × Nat)} : firstBad l = none ↔ ∀ p ∈ l, p.1 = false := by
  induction l with
  | nil => simp [firstBad]
  | cons x xs ih =>
    obtain ⟨b, o⟩ := x
    cases b <;> simp [firstBad, ih]

/-- R197's ranges are what check 8 asks of the allotments. -/
theorem badAllot_none {s : State} {a : Allot} {n : Nat} : s.badAllot a n = none ↔ s.allotOk a := by
  simp [State.badAllot, State.allotOk, firstBad_none]
  omega

/-- R198's conditions are what check 8 asks of the rates. -/
theorem badRate_none {s : State} {rs : List RateEntry} (h : s.ratesOk rs) : s.badRate rs = none := by
  simp only [State.badRate, List.findSome?_eq_none_iff]
  intro i _
  cases e : rs[i]? with
  | none => rfl
  | some x =>
    obtain ⟨a, b, c⟩ := h x (List.mem_of_getElem? e)
    simp [a, Nat.not_lt.2 b, Nat.not_lt.2 c]

/-- R48's and R144's conditions are what check 8 asks of a window. -/
theorem badWin_none {s : State} {p : WinParams} {prep : Bool} (h : s.winOk p prep) : s.badWin p prep = none := by
  obtain ⟨h1, h2, h3, h4, h5, h6, h7, h8, h9, h10, h11, h12, h13, h14⟩ := h
  have e : firstBad [(2 < p.type.toNat, 0), (!prep && s.noRoom p.froom.toNat, 1),
      (2 < p.pmode.toNat || (wfHouse p && p.pmode != 0), 2),
      (7 < p.flags.toNat || (p.type.toNat == 2 && wfAlias p) || (prep && wfBase p), 3),
      (p.extents.toNat = 0 || 262144 < p.extents.toNat, 4),
      (wfBase p && (p.poolBase.toNat % 2 ^ 28 != 0 || 2 ^ 48 < p.poolBase.toNat + p.extents.toNat * 2 ^ 28), 8),
      (64 < p.handles.length || (wfHouse p && !p.handles.isEmpty) || (!wfHouse p && p.handles.isEmpty), 16)] = none := by
    rw [firstBad_none]
    simp only [List.forall_mem_cons, h12]
    refine ⟨by simp; omega, ?_, ?_, ?_, by simp; omega, ?_, ?_, by simp⟩
    · cases prep <;> simp_all
    · cases e : wfHouse p <;> simp_all
    · cases prep <;> simp_all
    · cases e : wfBase p <;> simp_all
    · cases e : wfHouse p <;> simp_all
  have e2 : s.badHandle p.handles = none := by
    simp only [State.badHandle, Option.map_eq_none_iff, List.find?_eq_none, List.mem_range]
    intro i hi
    have g : p.handles.getD i 0 = p.handles[i] := by simp [List.getD, hi]
    rw [g]
    have := h14 _ (List.getElem_mem hi)
    simp only [Bool.or_eq_true, not_or]
    refine ⟨by simpa [Option.isSome_iff_ne_none] using this, ?_⟩
    simp only [List.contains_eq_mem, decide_eq_true_eq]
    intro hm
    obtain ⟨j, hj, he⟩ := List.mem_take_iff_getElem.1 hm
    exact absurd ((List.Nodup.getElem_inj_iff h13).1 he) (by omega)
  rw [State.badWin, e, e2]

/-- The meaning of a Dermel row is its command, checked, executed and answered. -/
theorem exec_rowCmd {i : Instr} {h : Hdr} {c : Cmd} (e : rowCmd i = some (h, c)) (s : State) : exec i s = s.dermel h c := by
  cases i <;> first | (cases e; rfl) | cases e

/-- The opcode of a Dermel row is its command's. -/
theorem opcode_rowCmd {i : Instr} {h : Hdr} {c : Cmd} (e : rowCmd i = some (h, c)) : rowOpcode i = some c.opcode := by
  cases i <;> first | (cases e; rfl) | cases e

/-- The Hearth does not take the command: nothing changes. -/
theorem dermel_not_taken {s : State} {h : Hdr} (c : Cmd) (ht : s.takes h = false) : s.dermel h c = .next s := by
  simp [State.dermel, ht]

/-- A check of R426 fails: only the reply is made. -/
theorem dermel_checked {s : State} {h : Hdr} {c : Cmd} {st : Status} {d : Nat} (ht : s.takes h = true)
    (hc : s.checkCmd h c = some (st, d)) : s.dermel h c = .next (s.says h c.opcode st d []) := by
  simp [State.dermel, ht, State.runCmd, hc, State.reply, State.sendReply, State.says]

/-- The command's own rules refuse it: only the reply is made. -/
theorem dermel_refuse {s : State} {h : Hdr} {c : Cmd} {st : Status} {d : Nat} (ha : s.accepts h c = true)
    (hr : c.run s = .refuse st d) : s.dermel h c = .next (s.says h c.opcode st d []) := by
  obtain ⟨ht, hc⟩ := (accepts_iff s h c).1 ha
  simp [State.dermel, ht, State.runCmd, hc, hr, State.reply, State.sendReply, State.says]

/-- The command is done at once. -/
theorem dermel_ok {s s1 : State} {h : Hdr} {c : Cmd} {data : List Byte} (ha : s.accepts h c = true)
    (hr : c.run s = .ok data s1) : s.dermel h c = .next (s1.answers h c.opcode data) := by
  obtain ⟨ht, hc⟩ := (accepts_iff s h c).1 ha
  simp [State.dermel, ht, State.runCmd, hc, hr, State.reply, State.sendReply, State.answers, State.says]

/-- The command is left pending. -/
theorem dermel_pending {s s1 : State} {h : Hdr} {c : Cmd} {w : Work} (ha : s.accepts h c = true)
    (hp : s.canPend c = true) (hr : c.run s = .pending w [] s1) : s.dermel h c = .next (s1.pends h c w) := by
  obtain ⟨ht, hc⟩ := (accepts_iff s h c).1 ha
  obtain ⟨h1, h2⟩ := (canPend_iff s c).1 hp
  have h3 : ¬ 512 ≤ s.cmds.pend.length := by omega
  have h4 : ¬ 65536 < s.cmds.backlogWords + s.cmds.reserved + compWords c.most := by omega
  simp [State.dermel, ht, State.runCmd, hc, hr, h3, h4, State.reply, State.sendReply, State.pends, State.says]

/-- There is no room for one more pending command: only the reply NO_RESOURCE is made. -/
theorem dermel_no_room {s s1 : State} {h : Hdr} {c : Cmd} {w : Work} {data : List Byte} (ha : s.accepts h c = true)
    (hp : s.canPend c = false) (hr : c.run s = .pending w data s1) :
    s.dermel h c = .next (s.says h c.opcode .noResource 0 []) := by
  obtain ⟨ht, hc⟩ := (accepts_iff s h c).1 ha
  have h1 : 512 ≤ s.cmds.pend.length ∨ 65536 < s.cmds.backlogWords + s.cmds.reserved + compWords c.most := by
    simp only [State.canPend, Bool.and_eq_false_iff, decide_eq_false_iff_not] at hp
    omega
  simp [State.dermel, ht, State.runCmd, hc, hr, h1, State.reply, State.sendReply, State.says]

end Sys2Proof.Machine
end

