-- ==== Sys2Proof/Laws/Grant.lean ====
section
/-! SUPPORT. What a grant at a home unit's input arbiter does, case by case. -/

namespace Sys2Proof.Machine

/-- The row acts on the arbiter's choice when it is of the row's kind. -/
theorem grantRow_pick {s : State} {hu : Nat} {plane : Bool} {t : Nat} {k : MKind → Bool} {v : VMsg}
    (hp : (s.at t).pick hu plane = some v) (hk : k v.m.kind = true) :
    s.grantRow hu plane t k = ((s.at t).countsGrant hu plane v).grantMsg v hu := by
  simp [State.grantRow, hp, hk, State.countsGrant]

/-- A snoop answer's row acts on the arbiter's choice when it is of the row's kind and the tracker entry that it reads is sound. -/
theorem answerRow_pick {s : State} {hu : Nat} {plane : Bool} {t : Nat} {k : MKind → Bool} {v : VMsg}
    (hp : (s.at t).pick hu plane = some v) (hk : k v.m.kind = true) (hc : (s.at t).trkCheck hu = (false, s.at t)) :
    s.answerRow hu plane t k = (((s.at t).countsGrant hu plane v).grantMsg v hu).removeFailed := by
  simp [State.answerRow, hp, hk, hc]

/-- A request or write for a window at its home goes on to its checks. -/
theorem grantMsg_letIn {c : State} {v : VMsg} {hu w : Nat} {x : Window} (ha : c.aged v = false)
    (hd : c.draining = false) (hw : v.win = some w) (hx : c.win? w = some x)
    (hk : v.m.kind ∈ [MKind.memRd, .memRdData, .memInv, .memInvNT, .memSpecRd, .memWr, .memWrPtl]) :
    c.grantMsg v hu = c.letIn v hu w x := by
  simp only [List.mem_cons, List.not_mem_nil, or_false] at hk
  rcases hk with h | h | h | h | h | h | h <;> simp [State.grantMsg, ha, hd, hw, hx, h]

/-- A snoop answer goes to its snoop. -/
theorem grantMsg_answer {c : State} {v : VMsg} {hu w : Nat} {x : Window} (ha : c.aged v = false)
    (hd : c.draining = false) (hw : v.win = some w) (hx : c.win? w = some x)
    (hk : v.m.kind ∈ [MKind.biRspI, .biRspS, .biRspE]) (hs : x.type = .shared) :
    c.grantMsg v hu =
      (c.leave v).snoopAnswer hu w (x.lineAt v.off) v.m.host.toNat v.m.tag.toNat v.m.kind v.m.block := by
  simp only [List.mem_cons, List.not_mem_nil, or_false] at hk
  rcases hk with h | h | h <;> simp [State.grantMsg, ha, hd, hw, hx, h, hs]

theorem opens_eq (s : State) (hu room line w : Nat) (rwd : Bool) (req : Req) (bank : Option Bool)
    (viol : Option (Nat × Nat × Nat)) :
    s.opens hu room line w rwd req bank viol =
      (let n := (s.abandonSpec line).fresh1
       let a := match viol with
         | some (kind, host, tag) => n.2.homeViol hu kind host w line tag
         | none => n.2
       (a.addTrk (a.mkTrk n.1 hu room line w rwd req bank)).run) := rfl

/-- A read that passes its checks opens its line. -/
theorem letIn_read {c u : State} {v : VMsg} {hu w : Nat} {x : Window} {b : Binding} (hu' : u = c.leave v)
    (he : ExtentServes u v w x b) (hr : RulesPermit u v hu w x b)
    (hk : v.m.kind ∈ [MKind.memRd, .memRdData, .memInv, .memInvNT]) (hc : v.cls = .req) :
    c.letIn v hu w x =
      (u.checked v hu w x b).opens hu x.room (x.lineAt v.off) w false
        (.rd v.m.kind (b.rw && (v.m.mval == .a || v.m.kind != .memRd))
          (!(b.rw && (v.m.mval == .a || v.m.kind != .memRd)) && (v.m.mval == .s || v.m.mval == .a || v.m.kind != .memRd))
          v.m.host.toNat v.m.tag.toNat v.port) ((u.checked v hu w x b).bankOf x.room)
        (if v.m.mval == .reserved && x.type == .shared then some (8, v.m.host.toNat, v.m.tag.toNat) else none) := by
  obtain ⟨er, e1, e2, e3, e4, e5, e6⟩ := he
  obtain ⟨r1, r2⟩ := hr
  have hm : (v.m.kind == .memSpecRd) = false ∧ expectsData v.m.kind = true ∨
      (v.m.kind == .memSpecRd) = false ∧ expectsData v.m.kind = false := by
    simp only [List.mem_cons, List.not_mem_nil, or_false] at hk
    rcases hk with h | h | h | h <;> rw [h] <;> decide
  unfold State.letIn
  rw [← hu']
  clear hu'
  unfold State.opens State.checked State.bankOf
  unfold State.asks at *
  simp only [er, e1, e2, Bool.false_and, Bool.false_eq_true, if_false]
  generalize u.checkExt w (x.lineAt v.off) = p at *
  generalize p.2.ruleCheck hu x.room (x.lineAt v.off * 64) (.host v.m.host.toNat none)
    (if b.rw then p.2.memNeeds v (x.lineAt v.off) else { r := true }) = q at *
  have e7 : (if expectsData v.m.kind then ((p.2.ext (x.lineAt v.off / 4194304)).read? (x.lineAt v.off)).isNone
      else ((p.2.ext (x.lineAt v.off / 4194304)).write? (x.lineAt v.off)).isNone) = false := by
    rcases hm with ⟨h1, h2⟩ | ⟨h1, h2⟩ <;> simpa [h1, h2, Option.isSome_iff_ne_none] using e6
  have hn : v.m.kind ≠ .memSpecRd := by rcases hm with ⟨h, -⟩ | ⟨h, -⟩ <;> simpa using h
  have r3 : ¬ (b.rw = false ∧ (v.m.kind = .memInv ∨ v.m.kind = .memInvNT)) := by
    rintro ⟨h1, h2⟩
    rcases h2 with h2 | h2 <;> simp [h1, h2] at r1
  rcases hm with ⟨h1, h2⟩ | ⟨h1, h2⟩ <;>
  · simp only [h2] at e7
    simp [Option.isSome_iff_ne_none] at e7
    simp [e3, e4, e5, e7, h2, hn, hc, r2, r3]
    split <;> rfl

/-- A MemSpecRd that passes its checks starts its fill or is discarded. -/
theorem letIn_spec {c u : State} {v : VMsg} {hu w : Nat} {x : Window} {b : Binding} (hu' : u = c.leave v)
    (he : ExtentServes u v w x b) (hr : RulesPermit u v hu w x b) (hk : v.m.kind = .memSpecRd) (hc : v.cls = .req) :
    c.letIn v hu w x = (u.checked v hu w x b).specRead w (x.lineAt v.off) x := by
  obtain ⟨er, e1, e2, e3, e4, e5, e6⟩ := he
  obtain ⟨r1, r2⟩ := hr
  unfold State.letIn
  rw [← hu']
  clear hu'
  unfold State.checked
  unfold State.asks at *
  simp only [er, e1, e2, Bool.false_and, Bool.false_eq_true, if_false]
  generalize u.checkExt w (x.lineAt v.off) = p at *
  generalize p.2.ruleCheck hu x.room (x.lineAt v.off * 64) (.host v.m.host.toNat none)
    (if b.rw then p.2.memNeeds v (x.lineAt v.off) else { r := true }) = q at *
  simp [hk, expectsData, Option.isSome_iff_ne_none] at e6
  simp [e3, e4, e5, e6, r2, hk, hc, expectsData]

/-- A write that is no writeback and passes its checks opens its line. -/
theorem letIn_write {c u : State} {v : VMsg} {hu w : Nat} {x : Window} {b : Binding} (hu' : u = c.leave v)
    (he : ExtentServes u v w x b) (hr : RulesPermit u v hu w x b) (hk : v.m.kind ∈ [MKind.memWr, .memWrPtl])
    (hc : v.cls = .rwd) (hw : (u.checkExt w (x.lineAt v.off)).2.isWbk v.m x (x.lineAt v.off) = false) :
    c.letIn v hu w x =
      (u.checked v hu w x b).opens hu x.room (x.lineAt v.off) w true
        (.wr v.m.host.toNat v.m.tag.toNat v.port v.m.data (if v.m.kind = .memWr then allBe else v.m.be) v.m.poison)
        ((u.checked v hu w x b).bankOf x.room)
        (if x.type == .shared && v.m.snp != .snpInv then
          some (if v.m.snp == .noOp then 5 else 6, v.m.host.toNat, v.m.tag.toNat) else none) := by
  obtain ⟨er, e1, e2, e3, e4, e5, e6⟩ := he
  obtain ⟨r1, r2⟩ := hr
  unfold State.letIn
  rw [← hu']
  clear hu'
  unfold State.opens State.checked State.bankOf
  unfold State.asks at *
  simp only [er, e1, e2, Bool.false_and, Bool.false_eq_true, if_false]
  generalize u.checkExt w (x.lineAt v.off) = p at *
  generalize p.2.ruleCheck hu x.room (x.lineAt v.off * 64) (.host v.m.host.toNat none)
    (if b.rw then p.2.memNeeds v (x.lineAt v.off) else { r := true }) = q at *
  have h2 : expectsData v.m.kind = false ∧ v.m.kind ≠ .memSpecRd := by
    simp only [List.mem_cons, List.not_mem_nil, or_false] at hk
    rcases hk with h | h <;> rw [h] <;> decide
  obtain ⟨h2, hn⟩ := h2
  simp [h2, hn, Option.isSome_iff_ne_none] at e6
  simp [hc] at r1
  simp [e3, e4, e5, e6, h2, hn, hc, r1, r2, hw]
  by_cases ht : x.type = .shared
  · by_cases h5 : v.m.snp = .noOp
    · simp [ht, h5]; rfl
    · by_cases h6 : v.m.snp = .snpInv
      · simp [ht, h6]; rfl
      · simp [ht, h5, h6]; rfl
  · simp [ht]; rfl

/-- A writeback needs no rule. A line that nothing has open opens with it; an open line keeps its data, the writeback
beside the chain. -/
theorem letIn_writeback {c u : State} {v : VMsg} {hu w : Nat} {x : Window} {b : Binding} (hu' : u = c.leave v)
    (he : ExtentServes u v w x b) (hb : b.rw = true) (hk : v.m.kind ∈ [MKind.memWr, .memWrPtl])
    (hc : v.cls = .rwd) (hw : (u.checkExt w (x.lineAt v.off)).2.isWbk v.m x (x.lineAt v.off) = true) :
    c.letIn v hu w x =
      (let p := ((u.checkExt w (x.lineAt v.off)).2.abandonSpec (x.lineAt v.off)).fresh1
       p.2.writesBack p.1 v hu w x) := by
  obtain ⟨er, e1, e2, e3, e4, e5, e6⟩ := he
  unfold State.letIn
  rw [← hu']
  clear hu'
  unfold State.writesBack
  simp only [er, e1, e2, Bool.false_and, Bool.false_eq_true, if_false]
  generalize u.checkExt w (x.lineAt v.off) = p at *
  have h2 : expectsData v.m.kind = false ∧ v.m.kind ≠ .memSpecRd ∧ v.m.kind ≠ .memInv ∧ v.m.kind ≠ .memInvNT := by
    simp only [List.mem_cons, List.not_mem_nil, or_false] at hk
    rcases hk with h | h <;> rw [h] <;> decide
  obtain ⟨h2, hn, hn1, hn2⟩ := h2
  simp [h2, hn, Option.isSome_iff_ne_none] at e6
  simp [e3, e4, e5, e6, h2, hn, hc, hb, hw]
  all_goals rfl

/-- An expected snoop answer without BLOCK is taken. -/
theorem snoopAnswer_taken {s : State} {hu w line host tag n : Nat} {m : MKind} {k : Trk} {y : Snoop}
    (h : AwaitsSnoop s line host k y)
    (hm : (m = .biRspI ∧ n = 1) ∨ (m = .biRspS ∧ n = 2 ∧ (y.kind = .snpData ∨ y.kind = .snpCur)) ∨ (m = .biRspE ∧ n = 3 ∧ y.kind = .snpCur)) :
    s.snoopAnswer hu w line host tag m false = s.takesAnswer k host n := by
  obtain ⟨h1, h2⟩ := h
  unfold State.snoopAnswer
  rw [h1]
  rcases hm with ⟨rfl, rfl⟩ | ⟨rfl, rfl, h3⟩ | ⟨rfl, rfl, h3⟩
  · simp -zeta only [h2]
    cases hk : k.req <;> cases hy : y.kind <;> (unfold State.takesAnswer; rw [hk]; rfl)
  · simp -zeta only [h2]
    rcases h3 with h3 | h3 <;> rw [h3] <;> cases hk : k.req <;> (unfold State.takesAnswer; rw [hk]; rfl)
  · simp -zeta only [h2, h3]
    cases hk : k.req <;> (unfold State.takesAnswer; rw [hk]; rfl)

/-- A BIConflict goes to its snoop. -/
theorem grantMsg_conflict {c : State} {v : VMsg} {hu w : Nat} {x : Window} (ha : c.aged v = false)
    (hd : c.draining = false) (hw : v.win = some w) (hx : c.win? w = some x) (hk : v.m.kind = .biConflict) :
    c.grantMsg v hu = (c.leave v).conflict hu w (x.lineAt v.off) v.m.host.toNat v.m.tag.toNat v.port := by
  simp [State.grantMsg, ha, hd, hw, hx, hk]

/-- Noting a conflict leaves what is owed as it was. -/
theorem owed_noted (u : State) (line host : Nat) (k : Trk) :
    ((u.conflictNoted k host).home.trk.filter fun z =>
      z.line == line && z.q == host && z.id != k.id && z.st != .done && (z.par || (z.id < k.id && z.st != .chained))).map (·.id) = u.owed line host k := by
  have e : ∀ z : Trk,
      (if z.id == k.id then
        { z with snoops := z.snoops.map fun y => if y.host == host then { y with cfl := y.cfl + 1 } else y } else z).id = z.id := by
    intro z; split <;> rfl
  simp only [State.conflictNoted, State.mapTrk, State.mapHome, State.owed, List.filter_map, List.map_map]
  congr 1
  · funext z; exact e z
  · congr 1
    funext z
    simp only [Function.comp]
    split <;> rfl

/-- The first conflict of an expected snoop: acknowledged at once, or after the completions owed. -/
theorem conflict_first {u : State} {hu w line host tag port : Nat} {k : Trk} {y : Snoop} (h : AwaitsSnoop u line host k y)
    (hc : (k.snoops.any fun z => z.host == host && z.cfl != 0) = false) :
    u.conflict hu w line host tag port =
      if (u.owed line host k).isEmpty then (u.conflictNoted k host).pushHome port hu .cmp (.biConflictAck host line)
      else ((u.conflictNoted k host).mapHome fun h => { h with cfl := h.cfl ++
        [{ hu := hu, host := host, line := line, port := port, owed := u.owed line host k }] }).bump (HSL_CFL_STAT_fDEFER_CNT hu) := by
  have e := owed_noted u line host k
  unfold State.conflict
  rw [h.1]
  simp -zeta only [hc]
  unfold State.conflictNoted at e ⊢
  simp only [Bool.false_eq_true, if_false]
  simp only [e]

end Sys2Proof.Machine
end

