-- ==== Sys2Proof/Laws/Keyed.lean ====
section
/-! SUPPORT. Keyed lists: what reading a key gives after a write, an adjustment or an erasure. -/

namespace Sys2Proof.Machine

variable {α : Type}

@[simp] theorem NMap.get?_nil (k : Nat) : NMap.get? ([] : NMap α) k = none := rfl

theorem NMap.get?_cons (p : Nat × α) (m : NMap α) (k : Nat) :
    NMap.get? (p :: m) k = if p.1 = k then some p.2 else NMap.get? m k := by
  by_cases h : p.1 = k <;> simp [NMap.get?, h]

@[simp] theorem NMap.get?_set_self (m : NMap α) (k : Nat) (v : α) : NMap.get? (NMap.set m k v) k = some v := by
  induction m with
  | nil => simp [NMap.set, NMap.get?_cons]
  | cons p m ih =>
    obtain ⟨a, b⟩ := p
    simp only [NMap.set]
    split
    · simp [NMap.get?_cons]
    · split
      · simp [NMap.get?_cons]
      · rename_i h
        rw [NMap.get?_cons, if_neg (fun e => h e.symm), ih]

theorem NMap.get?_set_other (m : NMap α) {k j : Nat} (v : α) (h : j ≠ k) :
    NMap.get? (NMap.set m k v) j = NMap.get? m j := by
  induction m with
  | nil => simp [NMap.set, NMap.get?_cons, Ne.symm h]
  | cons p m ih =>
    obtain ⟨a, b⟩ := p
    simp only [NMap.set]
    split
    · simp [NMap.get?_cons, Ne.symm h]
    · split
      · rename_i e
        subst e
        simp [NMap.get?_cons, Ne.symm h]
      · simp [NMap.get?_cons, ih]

theorem NMap.get?_adjust (m : NMap α) (k j : Nat) (f : α → α) :
    NMap.get? (NMap.adjust m k f) j = if j = k then (NMap.get? m j).map f else NMap.get? m j := by
  induction m with
  | nil => simp [NMap.adjust]
  | cons p m ih =>
    obtain ⟨a, b⟩ := p
    simp only [NMap.adjust, List.map_cons] at ih ⊢
    by_cases h : a = k <;> by_cases hj : j = k <;> by_cases ha : a = j <;>
      simp_all [NMap.get?_cons]

@[simp] theorem NMap.get?_erase_self (m : NMap α) (k : Nat) : NMap.get? (NMap.erase m k) k = none := by
  induction m with
  | nil => rfl
  | cons p m ih =>
    simp only [NMap.erase, List.filter_cons] at ih ⊢
    by_cases h : p.1 = k <;> simp [h, ih, NMap.get?_cons]

end Sys2Proof.Machine
end

