-- ==== Sys2Proof/Laws/State.lean ====
section
/-! SUPPORT. What each update of the state leaves as it is: one lemma for each field. -/

namespace Sys2Proof.Machine

/-! ## at -/

@[simp] theorem State.at_regs (s : State) (t : Nat) : (s.at t).regs = s.regs := rfl
@[simp] theorem State.at_latch (s : State) (t : Nat) : (s.at t).latch = s.latch := rfl
@[simp] theorem State.at_mem (s : State) (t : Nat) : (s.at t).mem = s.mem := rfl
@[simp] theorem State.at_poison (s : State) (t : Nat) : (s.at t).poison = s.poison := rfl
@[simp] theorem State.at_cmds (s : State) (t : Nat) : (s.at t).cmds = s.cmds := rfl
@[simp] theorem State.at_flt (s : State) (t : Nat) : (s.at t).flt = s.flt := rfl
@[simp] theorem State.at_pool (s : State) (t : Nat) : (s.at t).pool = s.pool := rfl
@[simp] theorem State.at_home (s : State) (t : Nat) : (s.at t).home = s.home := rfl
@[simp] theorem State.at_pan (s : State) (t : Nat) : (s.at t).pan = s.pan := rfl
@[simp] theorem State.at_ep (s : State) (t : Nat) : (s.at t).ep = s.ep := rfl
@[simp] theorem State.at_ports (s : State) (t : Nat) : (s.at t).ports = s.ports := rfl
@[simp] theorem State.at_mov (s : State) (t : Nat) : (s.at t).mov = s.mov := rfl
@[simp] theorem State.at_links (s : State) (t : Nat) : (s.at t).links = s.links := rfl
@[simp] theorem State.at_fab (s : State) (t : Nat) : (s.at t).fab = s.fab := rfl
@[simp] theorem State.at_dwy (s : State) (t : Nat) : (s.at t).dwy = s.dwy := rfl
@[simp] theorem State.at_dbg (s : State) (t : Nat) : (s.at t).dbg = s.dbg := rfl
@[simp] theorem State.at_pwr (s : State) (t : Nat) : (s.at t).pwr = s.pwr := rfl
@[simp] theorem State.at_mail (s : State) (t : Nat) : (s.at t).mail = s.mail := rfl
@[simp] theorem State.at_fresh (s : State) (t : Nat) : (s.at t).fresh = s.fresh := rfl
@[simp] theorem State.at_out (s : State) (t : Nat) : (s.at t).out = s.out := rfl
@[simp] theorem State.at_pending (s : State) (t : Nat) : (s.at t).pending = s.pending := rfl

/-! ## setReg -/

@[simp] theorem State.setReg_now (s : State) (off : Nat) (v : Word) : (s.setReg off v).now = s.now := rfl
@[simp] theorem State.setReg_latch (s : State) (off : Nat) (v : Word) : (s.setReg off v).latch = s.latch := rfl
@[simp] theorem State.setReg_mem (s : State) (off : Nat) (v : Word) : (s.setReg off v).mem = s.mem := rfl
@[simp] theorem State.setReg_poison (s : State) (off : Nat) (v : Word) : (s.setReg off v).poison = s.poison := rfl
@[simp] theorem State.setReg_cmds (s : State) (off : Nat) (v : Word) : (s.setReg off v).cmds = s.cmds := rfl
@[simp] theorem State.setReg_flt (s : State) (off : Nat) (v : Word) : (s.setReg off v).flt = s.flt := rfl
@[simp] theorem State.setReg_pool (s : State) (off : Nat) (v : Word) : (s.setReg off v).pool = s.pool := rfl
@[simp] theorem State.setReg_home (s : State) (off : Nat) (v : Word) : (s.setReg off v).home = s.home := rfl
@[simp] theorem State.setReg_pan (s : State) (off : Nat) (v : Word) : (s.setReg off v).pan = s.pan := rfl
@[simp] theorem State.setReg_ep (s : State) (off : Nat) (v : Word) : (s.setReg off v).ep = s.ep := rfl
@[simp] theorem State.setReg_ports (s : State) (off : Nat) (v : Word) : (s.setReg off v).ports = s.ports := rfl
@[simp] theorem State.setReg_mov (s : State) (off : Nat) (v : Word) : (s.setReg off v).mov = s.mov := rfl
@[simp] theorem State.setReg_links (s : State) (off : Nat) (v : Word) : (s.setReg off v).links = s.links := rfl
@[simp] theorem State.setReg_fab (s : State) (off : Nat) (v : Word) : (s.setReg off v).fab = s.fab := rfl
@[simp] theorem State.setReg_dwy (s : State) (off : Nat) (v : Word) : (s.setReg off v).dwy = s.dwy := rfl
@[simp] theorem State.setReg_dbg (s : State) (off : Nat) (v : Word) : (s.setReg off v).dbg = s.dbg := rfl
@[simp] theorem State.setReg_pwr (s : State) (off : Nat) (v : Word) : (s.setReg off v).pwr = s.pwr := rfl
@[simp] theorem State.setReg_mail (s : State) (off : Nat) (v : Word) : (s.setReg off v).mail = s.mail := rfl
@[simp] theorem State.setReg_fresh (s : State) (off : Nat) (v : Word) : (s.setReg off v).fresh = s.fresh := rfl
@[simp] theorem State.setReg_out (s : State) (off : Nat) (v : Word) : (s.setReg off v).out = s.out := rfl
@[simp] theorem State.setReg_pending (s : State) (off : Nat) (v : Word) : (s.setReg off v).pending = s.pending := rfl

/-! ## setFld -/

@[simp] theorem State.setFld_now (s : State) (f : RegF) (v : Nat) : (s.setFld f v).now = s.now := rfl
@[simp] theorem State.setFld_latch (s : State) (f : RegF) (v : Nat) : (s.setFld f v).latch = s.latch := rfl
@[simp] theorem State.setFld_mem (s : State) (f : RegF) (v : Nat) : (s.setFld f v).mem = s.mem := rfl
@[simp] theorem State.setFld_poison (s : State) (f : RegF) (v : Nat) : (s.setFld f v).poison = s.poison := rfl
@[simp] theorem State.setFld_cmds (s : State) (f : RegF) (v : Nat) : (s.setFld f v).cmds = s.cmds := rfl
@[simp] theorem State.setFld_flt (s : State) (f : RegF) (v : Nat) : (s.setFld f v).flt = s.flt := rfl
@[simp] theorem State.setFld_pool (s : State) (f : RegF) (v : Nat) : (s.setFld f v).pool = s.pool := rfl
@[simp] theorem State.setFld_home (s : State) (f : RegF) (v : Nat) : (s.setFld f v).home = s.home := rfl
@[simp] theorem State.setFld_pan (s : State) (f : RegF) (v : Nat) : (s.setFld f v).pan = s.pan := rfl
@[simp] theorem State.setFld_ep (s : State) (f : RegF) (v : Nat) : (s.setFld f v).ep = s.ep := rfl
@[simp] theorem State.setFld_ports (s : State) (f : RegF) (v : Nat) : (s.setFld f v).ports = s.ports := rfl
@[simp] theorem State.setFld_mov (s : State) (f : RegF) (v : Nat) : (s.setFld f v).mov = s.mov := rfl
@[simp] theorem State.setFld_links (s : State) (f : RegF) (v : Nat) : (s.setFld f v).links = s.links := rfl
@[simp] theorem State.setFld_fab (s : State) (f : RegF) (v : Nat) : (s.setFld f v).fab = s.fab := rfl
@[simp] theorem State.setFld_dwy (s : State) (f : RegF) (v : Nat) : (s.setFld f v).dwy = s.dwy := rfl
@[simp] theorem State.setFld_dbg (s : State) (f : RegF) (v : Nat) : (s.setFld f v).dbg = s.dbg := rfl
@[simp] theorem State.setFld_pwr (s : State) (f : RegF) (v : Nat) : (s.setFld f v).pwr = s.pwr := rfl
@[simp] theorem State.setFld_mail (s : State) (f : RegF) (v : Nat) : (s.setFld f v).mail = s.mail := rfl
@[simp] theorem State.setFld_fresh (s : State) (f : RegF) (v : Nat) : (s.setFld f v).fresh = s.fresh := rfl
@[simp] theorem State.setFld_out (s : State) (f : RegF) (v : Nat) : (s.setFld f v).out = s.out := rfl
@[simp] theorem State.setFld_pending (s : State) (f : RegF) (v : Nat) : (s.setFld f v).pending = s.pending := rfl

/-! ## bumpBy -/

@[simp] theorem State.bumpBy_now (s : State) (f : RegF) (n : Nat) : (s.bumpBy f n).now = s.now := rfl
@[simp] theorem State.bumpBy_latch (s : State) (f : RegF) (n : Nat) : (s.bumpBy f n).latch = s.latch := rfl
@[simp] theorem State.bumpBy_mem (s : State) (f : RegF) (n : Nat) : (s.bumpBy f n).mem = s.mem := rfl
@[simp] theorem State.bumpBy_poison (s : State) (f : RegF) (n : Nat) : (s.bumpBy f n).poison = s.poison := rfl
@[simp] theorem State.bumpBy_cmds (s : State) (f : RegF) (n : Nat) : (s.bumpBy f n).cmds = s.cmds := rfl
@[simp] theorem State.bumpBy_flt (s : State) (f : RegF) (n : Nat) : (s.bumpBy f n).flt = s.flt := rfl
@[simp] theorem State.bumpBy_pool (s : State) (f : RegF) (n : Nat) : (s.bumpBy f n).pool = s.pool := rfl
@[simp] theorem State.bumpBy_home (s : State) (f : RegF) (n : Nat) : (s.bumpBy f n).home = s.home := rfl
@[simp] theorem State.bumpBy_pan (s : State) (f : RegF) (n : Nat) : (s.bumpBy f n).pan = s.pan := rfl
@[simp] theorem State.bumpBy_ep (s : State) (f : RegF) (n : Nat) : (s.bumpBy f n).ep = s.ep := rfl
@[simp] theorem State.bumpBy_ports (s : State) (f : RegF) (n : Nat) : (s.bumpBy f n).ports = s.ports := rfl
@[simp] theorem State.bumpBy_mov (s : State) (f : RegF) (n : Nat) : (s.bumpBy f n).mov = s.mov := rfl
@[simp] theorem State.bumpBy_links (s : State) (f : RegF) (n : Nat) : (s.bumpBy f n).links = s.links := rfl
@[simp] theorem State.bumpBy_fab (s : State) (f : RegF) (n : Nat) : (s.bumpBy f n).fab = s.fab := rfl
@[simp] theorem State.bumpBy_dwy (s : State) (f : RegF) (n : Nat) : (s.bumpBy f n).dwy = s.dwy := rfl
@[simp] theorem State.bumpBy_dbg (s : State) (f : RegF) (n : Nat) : (s.bumpBy f n).dbg = s.dbg := rfl
@[simp] theorem State.bumpBy_pwr (s : State) (f : RegF) (n : Nat) : (s.bumpBy f n).pwr = s.pwr := rfl
@[simp] theorem State.bumpBy_mail (s : State) (f : RegF) (n : Nat) : (s.bumpBy f n).mail = s.mail := rfl
@[simp] theorem State.bumpBy_fresh (s : State) (f : RegF) (n : Nat) : (s.bumpBy f n).fresh = s.fresh := rfl
@[simp] theorem State.bumpBy_out (s : State) (f : RegF) (n : Nat) : (s.bumpBy f n).out = s.out := rfl
@[simp] theorem State.bumpBy_pending (s : State) (f : RegF) (n : Nat) : (s.bumpBy f n).pending = s.pending := rfl

/-! ## bump -/

@[simp] theorem State.bump_now (s : State) (f : RegF) : (s.bump f).now = s.now := rfl
@[simp] theorem State.bump_latch (s : State) (f : RegF) : (s.bump f).latch = s.latch := rfl
@[simp] theorem State.bump_mem (s : State) (f : RegF) : (s.bump f).mem = s.mem := rfl
@[simp] theorem State.bump_poison (s : State) (f : RegF) : (s.bump f).poison = s.poison := rfl
@[simp] theorem State.bump_cmds (s : State) (f : RegF) : (s.bump f).cmds = s.cmds := rfl
@[simp] theorem State.bump_flt (s : State) (f : RegF) : (s.bump f).flt = s.flt := rfl
@[simp] theorem State.bump_pool (s : State) (f : RegF) : (s.bump f).pool = s.pool := rfl
@[simp] theorem State.bump_home (s : State) (f : RegF) : (s.bump f).home = s.home := rfl
@[simp] theorem State.bump_pan (s : State) (f : RegF) : (s.bump f).pan = s.pan := rfl
@[simp] theorem State.bump_ep (s : State) (f : RegF) : (s.bump f).ep = s.ep := rfl
@[simp] theorem State.bump_ports (s : State) (f : RegF) : (s.bump f).ports = s.ports := rfl
@[simp] theorem State.bump_mov (s : State) (f : RegF) : (s.bump f).mov = s.mov := rfl
@[simp] theorem State.bump_links (s : State) (f : RegF) : (s.bump f).links = s.links := rfl
@[simp] theorem State.bump_fab (s : State) (f : RegF) : (s.bump f).fab = s.fab := rfl
@[simp] theorem State.bump_dwy (s : State) (f : RegF) : (s.bump f).dwy = s.dwy := rfl
@[simp] theorem State.bump_dbg (s : State) (f : RegF) : (s.bump f).dbg = s.dbg := rfl
@[simp] theorem State.bump_pwr (s : State) (f : RegF) : (s.bump f).pwr = s.pwr := rfl
@[simp] theorem State.bump_mail (s : State) (f : RegF) : (s.bump f).mail = s.mail := rfl
@[simp] theorem State.bump_fresh (s : State) (f : RegF) : (s.bump f).fresh = s.fresh := rfl
@[simp] theorem State.bump_out (s : State) (f : RegF) : (s.bump f).out = s.out := rfl
@[simp] theorem State.bump_pending (s : State) (f : RegF) : (s.bump f).pending = s.pending := rfl

/-! ## setPair -/

@[simp] theorem State.setPair_now (s : State) (lo v : Nat) : (s.setPair lo v).now = s.now := rfl
@[simp] theorem State.setPair_latch (s : State) (lo v : Nat) : (s.setPair lo v).latch = s.latch := rfl
@[simp] theorem State.setPair_mem (s : State) (lo v : Nat) : (s.setPair lo v).mem = s.mem := rfl
@[simp] theorem State.setPair_poison (s : State) (lo v : Nat) : (s.setPair lo v).poison = s.poison := rfl
@[simp] theorem State.setPair_cmds (s : State) (lo v : Nat) : (s.setPair lo v).cmds = s.cmds := rfl
@[simp] theorem State.setPair_flt (s : State) (lo v : Nat) : (s.setPair lo v).flt = s.flt := rfl
@[simp] theorem State.setPair_pool (s : State) (lo v : Nat) : (s.setPair lo v).pool = s.pool := rfl
@[simp] theorem State.setPair_home (s : State) (lo v : Nat) : (s.setPair lo v).home = s.home := rfl
@[simp] theorem State.setPair_pan (s : State) (lo v : Nat) : (s.setPair lo v).pan = s.pan := rfl
@[simp] theorem State.setPair_ep (s : State) (lo v : Nat) : (s.setPair lo v).ep = s.ep := rfl
@[simp] theorem State.setPair_ports (s : State) (lo v : Nat) : (s.setPair lo v).ports = s.ports := rfl
@[simp] theorem State.setPair_mov (s : State) (lo v : Nat) : (s.setPair lo v).mov = s.mov := rfl
@[simp] theorem State.setPair_links (s : State) (lo v : Nat) : (s.setPair lo v).links = s.links := rfl
@[simp] theorem State.setPair_fab (s : State) (lo v : Nat) : (s.setPair lo v).fab = s.fab := rfl
@[simp] theorem State.setPair_dwy (s : State) (lo v : Nat) : (s.setPair lo v).dwy = s.dwy := rfl
@[simp] theorem State.setPair_dbg (s : State) (lo v : Nat) : (s.setPair lo v).dbg = s.dbg := rfl
@[simp] theorem State.setPair_pwr (s : State) (lo v : Nat) : (s.setPair lo v).pwr = s.pwr := rfl
@[simp] theorem State.setPair_mail (s : State) (lo v : Nat) : (s.setPair lo v).mail = s.mail := rfl
@[simp] theorem State.setPair_fresh (s : State) (lo v : Nat) : (s.setPair lo v).fresh = s.fresh := rfl
@[simp] theorem State.setPair_out (s : State) (lo v : Nat) : (s.setPair lo v).out = s.out := rfl
@[simp] theorem State.setPair_pending (s : State) (lo v : Nat) : (s.setPair lo v).pending = s.pending := rfl

/-! ## bumpPair -/

@[simp] theorem State.bumpPair_now (s : State) (lo n : Nat) : (s.bumpPair lo n).now = s.now := rfl
@[simp] theorem State.bumpPair_latch (s : State) (lo n : Nat) : (s.bumpPair lo n).latch = s.latch := rfl
@[simp] theorem State.bumpPair_mem (s : State) (lo n : Nat) : (s.bumpPair lo n).mem = s.mem := rfl
@[simp] theorem State.bumpPair_poison (s : State) (lo n : Nat) : (s.bumpPair lo n).poison = s.poison := rfl
@[simp] theorem State.bumpPair_cmds (s : State) (lo n : Nat) : (s.bumpPair lo n).cmds = s.cmds := rfl
@[simp] theorem State.bumpPair_flt (s : State) (lo n : Nat) : (s.bumpPair lo n).flt = s.flt := rfl
@[simp] theorem State.bumpPair_pool (s : State) (lo n : Nat) : (s.bumpPair lo n).pool = s.pool := rfl
@[simp] theorem State.bumpPair_home (s : State) (lo n : Nat) : (s.bumpPair lo n).home = s.home := rfl
@[simp] theorem State.bumpPair_pan (s : State) (lo n : Nat) : (s.bumpPair lo n).pan = s.pan := rfl
@[simp] theorem State.bumpPair_ep (s : State) (lo n : Nat) : (s.bumpPair lo n).ep = s.ep := rfl
@[simp] theorem State.bumpPair_ports (s : State) (lo n : Nat) : (s.bumpPair lo n).ports = s.ports := rfl
@[simp] theorem State.bumpPair_mov (s : State) (lo n : Nat) : (s.bumpPair lo n).mov = s.mov := rfl
@[simp] theorem State.bumpPair_links (s : State) (lo n : Nat) : (s.bumpPair lo n).links = s.links := rfl
@[simp] theorem State.bumpPair_fab (s : State) (lo n : Nat) : (s.bumpPair lo n).fab = s.fab := rfl
@[simp] theorem State.bumpPair_dwy (s : State) (lo n : Nat) : (s.bumpPair lo n).dwy = s.dwy := rfl
@[simp] theorem State.bumpPair_dbg (s : State) (lo n : Nat) : (s.bumpPair lo n).dbg = s.dbg := rfl
@[simp] theorem State.bumpPair_pwr (s : State) (lo n : Nat) : (s.bumpPair lo n).pwr = s.pwr := rfl
@[simp] theorem State.bumpPair_mail (s : State) (lo n : Nat) : (s.bumpPair lo n).mail = s.mail := rfl
@[simp] theorem State.bumpPair_fresh (s : State) (lo n : Nat) : (s.bumpPair lo n).fresh = s.fresh := rfl
@[simp] theorem State.bumpPair_out (s : State) (lo n : Nat) : (s.bumpPair lo n).out = s.out := rfl
@[simp] theorem State.bumpPair_pending (s : State) (lo n : Nat) : (s.bumpPair lo n).pending = s.pending := rfl

/-! ## writeLine -/

@[simp] theorem State.writeLine_now (s : State) (a : Nat) (l : Line) (be : B64) (p : Bool) : (s.writeLine a l be p).now = s.now := rfl
@[simp] theorem State.writeLine_regs (s : State) (a : Nat) (l : Line) (be : B64) (p : Bool) : (s.writeLine a l be p).regs = s.regs := rfl
@[simp] theorem State.writeLine_latch (s : State) (a : Nat) (l : Line) (be : B64) (p : Bool) : (s.writeLine a l be p).latch = s.latch := rfl
@[simp] theorem State.writeLine_cmds (s : State) (a : Nat) (l : Line) (be : B64) (p : Bool) : (s.writeLine a l be p).cmds = s.cmds := rfl
@[simp] theorem State.writeLine_flt (s : State) (a : Nat) (l : Line) (be : B64) (p : Bool) : (s.writeLine a l be p).flt = s.flt := rfl
@[simp] theorem State.writeLine_pool (s : State) (a : Nat) (l : Line) (be : B64) (p : Bool) : (s.writeLine a l be p).pool = s.pool := rfl
@[simp] theorem State.writeLine_home (s : State) (a : Nat) (l : Line) (be : B64) (p : Bool) : (s.writeLine a l be p).home = s.home := rfl
@[simp] theorem State.writeLine_pan (s : State) (a : Nat) (l : Line) (be : B64) (p : Bool) : (s.writeLine a l be p).pan = s.pan := rfl
@[simp] theorem State.writeLine_ep (s : State) (a : Nat) (l : Line) (be : B64) (p : Bool) : (s.writeLine a l be p).ep = s.ep := rfl
@[simp] theorem State.writeLine_ports (s : State) (a : Nat) (l : Line) (be : B64) (p : Bool) : (s.writeLine a l be p).ports = s.ports := rfl
@[simp] theorem State.writeLine_mov (s : State) (a : Nat) (l : Line) (be : B64) (p : Bool) : (s.writeLine a l be p).mov = s.mov := rfl
@[simp] theorem State.writeLine_links (s : State) (a : Nat) (l : Line) (be : B64) (p : Bool) : (s.writeLine a l be p).links = s.links := rfl
@[simp] theorem State.writeLine_fab (s : State) (a : Nat) (l : Line) (be : B64) (p : Bool) : (s.writeLine a l be p).fab = s.fab := rfl
@[simp] theorem State.writeLine_dwy (s : State) (a : Nat) (l : Line) (be : B64) (p : Bool) : (s.writeLine a l be p).dwy = s.dwy := rfl
@[simp] theorem State.writeLine_dbg (s : State) (a : Nat) (l : Line) (be : B64) (p : Bool) : (s.writeLine a l be p).dbg = s.dbg := rfl
@[simp] theorem State.writeLine_pwr (s : State) (a : Nat) (l : Line) (be : B64) (p : Bool) : (s.writeLine a l be p).pwr = s.pwr := rfl
@[simp] theorem State.writeLine_mail (s : State) (a : Nat) (l : Line) (be : B64) (p : Bool) : (s.writeLine a l be p).mail = s.mail := rfl
@[simp] theorem State.writeLine_fresh (s : State) (a : Nat) (l : Line) (be : B64) (p : Bool) : (s.writeLine a l be p).fresh = s.fresh := rfl
@[simp] theorem State.writeLine_out (s : State) (a : Nat) (l : Line) (be : B64) (p : Bool) : (s.writeLine a l be p).out = s.out := rfl
@[simp] theorem State.writeLine_pending (s : State) (a : Nat) (l : Line) (be : B64) (p : Bool) : (s.writeLine a l be p).pending = s.pending := rfl

/-! ## emit -/

@[simp] theorem State.emit_now (s : State) (o : Out) : (s.emit o).now = s.now := rfl
@[simp] theorem State.emit_regs (s : State) (o : Out) : (s.emit o).regs = s.regs := rfl
@[simp] theorem State.emit_latch (s : State) (o : Out) : (s.emit o).latch = s.latch := rfl
@[simp] theorem State.emit_mem (s : State) (o : Out) : (s.emit o).mem = s.mem := rfl
@[simp] theorem State.emit_poison (s : State) (o : Out) : (s.emit o).poison = s.poison := rfl
@[simp] theorem State.emit_cmds (s : State) (o : Out) : (s.emit o).cmds = s.cmds := rfl
@[simp] theorem State.emit_flt (s : State) (o : Out) : (s.emit o).flt = s.flt := rfl
@[simp] theorem State.emit_pool (s : State) (o : Out) : (s.emit o).pool = s.pool := rfl
@[simp] theorem State.emit_home (s : State) (o : Out) : (s.emit o).home = s.home := rfl
@[simp] theorem State.emit_pan (s : State) (o : Out) : (s.emit o).pan = s.pan := rfl
@[simp] theorem State.emit_ep (s : State) (o : Out) : (s.emit o).ep = s.ep := rfl
@[simp] theorem State.emit_ports (s : State) (o : Out) : (s.emit o).ports = s.ports := rfl
@[simp] theorem State.emit_mov (s : State) (o : Out) : (s.emit o).mov = s.mov := rfl
@[simp] theorem State.emit_links (s : State) (o : Out) : (s.emit o).links = s.links := rfl
@[simp] theorem State.emit_fab (s : State) (o : Out) : (s.emit o).fab = s.fab := rfl
@[simp] theorem State.emit_dwy (s : State) (o : Out) : (s.emit o).dwy = s.dwy := rfl
@[simp] theorem State.emit_dbg (s : State) (o : Out) : (s.emit o).dbg = s.dbg := rfl
@[simp] theorem State.emit_pwr (s : State) (o : Out) : (s.emit o).pwr = s.pwr := rfl
@[simp] theorem State.emit_mail (s : State) (o : Out) : (s.emit o).mail = s.mail := rfl
@[simp] theorem State.emit_fresh (s : State) (o : Out) : (s.emit o).fresh = s.fresh := rfl
@[simp] theorem State.emit_pending (s : State) (o : Out) : (s.emit o).pending = s.pending := rfl

/-! ## finish -/

@[simp] theorem State.finish_now (s : State) (p : Pend → Bool) (r : WorkRes) : (s.finish p r).now = s.now := rfl
@[simp] theorem State.finish_regs (s : State) (p : Pend → Bool) (r : WorkRes) : (s.finish p r).regs = s.regs := rfl
@[simp] theorem State.finish_latch (s : State) (p : Pend → Bool) (r : WorkRes) : (s.finish p r).latch = s.latch := rfl
@[simp] theorem State.finish_mem (s : State) (p : Pend → Bool) (r : WorkRes) : (s.finish p r).mem = s.mem := rfl
@[simp] theorem State.finish_poison (s : State) (p : Pend → Bool) (r : WorkRes) : (s.finish p r).poison = s.poison := rfl
@[simp] theorem State.finish_flt (s : State) (p : Pend → Bool) (r : WorkRes) : (s.finish p r).flt = s.flt := rfl
@[simp] theorem State.finish_pool (s : State) (p : Pend → Bool) (r : WorkRes) : (s.finish p r).pool = s.pool := rfl
@[simp] theorem State.finish_home (s : State) (p : Pend → Bool) (r : WorkRes) : (s.finish p r).home = s.home := rfl
@[simp] theorem State.finish_pan (s : State) (p : Pend → Bool) (r : WorkRes) : (s.finish p r).pan = s.pan := rfl
@[simp] theorem State.finish_ep (s : State) (p : Pend → Bool) (r : WorkRes) : (s.finish p r).ep = s.ep := rfl
@[simp] theorem State.finish_ports (s : State) (p : Pend → Bool) (r : WorkRes) : (s.finish p r).ports = s.ports := rfl
@[simp] theorem State.finish_mov (s : State) (p : Pend → Bool) (r : WorkRes) : (s.finish p r).mov = s.mov := rfl
@[simp] theorem State.finish_links (s : State) (p : Pend → Bool) (r : WorkRes) : (s.finish p r).links = s.links := rfl
@[simp] theorem State.finish_fab (s : State) (p : Pend → Bool) (r : WorkRes) : (s.finish p r).fab = s.fab := rfl
@[simp] theorem State.finish_dwy (s : State) (p : Pend → Bool) (r : WorkRes) : (s.finish p r).dwy = s.dwy := rfl
@[simp] theorem State.finish_dbg (s : State) (p : Pend → Bool) (r : WorkRes) : (s.finish p r).dbg = s.dbg := rfl
@[simp] theorem State.finish_pwr (s : State) (p : Pend → Bool) (r : WorkRes) : (s.finish p r).pwr = s.pwr := rfl
@[simp] theorem State.finish_mail (s : State) (p : Pend → Bool) (r : WorkRes) : (s.finish p r).mail = s.mail := rfl
@[simp] theorem State.finish_fresh (s : State) (p : Pend → Bool) (r : WorkRes) : (s.finish p r).fresh = s.fresh := rfl
@[simp] theorem State.finish_out (s : State) (p : Pend → Bool) (r : WorkRes) : (s.finish p r).out = s.out := rfl
@[simp] theorem State.finish_pending (s : State) (p : Pend → Bool) (r : WorkRes) : (s.finish p r).pending = s.pending := rfl

/-! ## finishWork -/

@[simp] theorem State.finishWork_now (s : State) (w : Work) (st : Status) (data : List Byte) : (s.finishWork w st data).now = s.now := rfl
@[simp] theorem State.finishWork_regs (s : State) (w : Work) (st : Status) (data : List Byte) : (s.finishWork w st data).regs = s.regs := rfl
@[simp] theorem State.finishWork_latch (s : State) (w : Work) (st : Status) (data : List Byte) : (s.finishWork w st data).latch = s.latch := rfl
@[simp] theorem State.finishWork_mem (s : State) (w : Work) (st : Status) (data : List Byte) : (s.finishWork w st data).mem = s.mem := rfl
@[simp] theorem State.finishWork_poison (s : State) (w : Work) (st : Status) (data : List Byte) : (s.finishWork w st data).poison = s.poison := rfl
@[simp] theorem State.finishWork_flt (s : State) (w : Work) (st : Status) (data : List Byte) : (s.finishWork w st data).flt = s.flt := rfl
@[simp] theorem State.finishWork_pool (s : State) (w : Work) (st : Status) (data : List Byte) : (s.finishWork w st data).pool = s.pool := rfl
@[simp] theorem State.finishWork_home (s : State) (w : Work) (st : Status) (data : List Byte) : (s.finishWork w st data).home = s.home := rfl
@[simp] theorem State.finishWork_pan (s : State) (w : Work) (st : Status) (data : List Byte) : (s.finishWork w st data).pan = s.pan := rfl
@[simp] theorem State.finishWork_ep (s : State) (w : Work) (st : Status) (data : List Byte) : (s.finishWork w st data).ep = s.ep := rfl
@[simp] theorem State.finishWork_ports (s : State) (w : Work) (st : Status) (data : List Byte) : (s.finishWork w st data).ports = s.ports := rfl
@[simp] theorem State.finishWork_mov (s : State) (w : Work) (st : Status) (data : List Byte) : (s.finishWork w st data).mov = s.mov := rfl
@[simp] theorem State.finishWork_links (s : State) (w : Work) (st : Status) (data : List Byte) : (s.finishWork w st data).links = s.links := rfl
@[simp] theorem State.finishWork_fab (s : State) (w : Work) (st : Status) (data : List Byte) : (s.finishWork w st data).fab = s.fab := rfl
@[simp] theorem State.finishWork_dwy (s : State) (w : Work) (st : Status) (data : List Byte) : (s.finishWork w st data).dwy = s.dwy := rfl
@[simp] theorem State.finishWork_dbg (s : State) (w : Work) (st : Status) (data : List Byte) : (s.finishWork w st data).dbg = s.dbg := rfl
@[simp] theorem State.finishWork_pwr (s : State) (w : Work) (st : Status) (data : List Byte) : (s.finishWork w st data).pwr = s.pwr := rfl
@[simp] theorem State.finishWork_mail (s : State) (w : Work) (st : Status) (data : List Byte) : (s.finishWork w st data).mail = s.mail := rfl
@[simp] theorem State.finishWork_fresh (s : State) (w : Work) (st : Status) (data : List Byte) : (s.finishWork w st data).fresh = s.fresh := rfl
@[simp] theorem State.finishWork_out (s : State) (w : Work) (st : Status) (data : List Byte) : (s.finishWork w st data).out = s.out := rfl
@[simp] theorem State.finishWork_pending (s : State) (w : Work) (st : Status) (data : List Byte) : (s.finishWork w st data).pending = s.pending := rfl

/-! ## mapCmds -/

@[simp] theorem State.mapCmds_now (s : State) (f : Cmds → Cmds) : (s.mapCmds f).now = s.now := rfl
@[simp] theorem State.mapCmds_regs (s : State) (f : Cmds → Cmds) : (s.mapCmds f).regs = s.regs := rfl
@[simp] theorem State.mapCmds_latch (s : State) (f : Cmds → Cmds) : (s.mapCmds f).latch = s.latch := rfl
@[simp] theorem State.mapCmds_mem (s : State) (f : Cmds → Cmds) : (s.mapCmds f).mem = s.mem := rfl
@[simp] theorem State.mapCmds_poison (s : State) (f : Cmds → Cmds) : (s.mapCmds f).poison = s.poison := rfl
@[simp] theorem State.mapCmds_flt (s : State) (f : Cmds → Cmds) : (s.mapCmds f).flt = s.flt := rfl
@[simp] theorem State.mapCmds_pool (s : State) (f : Cmds → Cmds) : (s.mapCmds f).pool = s.pool := rfl
@[simp] theorem State.mapCmds_home (s : State) (f : Cmds → Cmds) : (s.mapCmds f).home = s.home := rfl
@[simp] theorem State.mapCmds_pan (s : State) (f : Cmds → Cmds) : (s.mapCmds f).pan = s.pan := rfl
@[simp] theorem State.mapCmds_ep (s : State) (f : Cmds → Cmds) : (s.mapCmds f).ep = s.ep := rfl
@[simp] theorem State.mapCmds_ports (s : State) (f : Cmds → Cmds) : (s.mapCmds f).ports = s.ports := rfl
@[simp] theorem State.mapCmds_mov (s : State) (f : Cmds → Cmds) : (s.mapCmds f).mov = s.mov := rfl
@[simp] theorem State.mapCmds_links (s : State) (f : Cmds → Cmds) : (s.mapCmds f).links = s.links := rfl
@[simp] theorem State.mapCmds_fab (s : State) (f : Cmds → Cmds) : (s.mapCmds f).fab = s.fab := rfl
@[simp] theorem State.mapCmds_dwy (s : State) (f : Cmds → Cmds) : (s.mapCmds f).dwy = s.dwy := rfl
@[simp] theorem State.mapCmds_dbg (s : State) (f : Cmds → Cmds) : (s.mapCmds f).dbg = s.dbg := rfl
@[simp] theorem State.mapCmds_pwr (s : State) (f : Cmds → Cmds) : (s.mapCmds f).pwr = s.pwr := rfl
@[simp] theorem State.mapCmds_mail (s : State) (f : Cmds → Cmds) : (s.mapCmds f).mail = s.mail := rfl
@[simp] theorem State.mapCmds_fresh (s : State) (f : Cmds → Cmds) : (s.mapCmds f).fresh = s.fresh := rfl
@[simp] theorem State.mapCmds_out (s : State) (f : Cmds → Cmds) : (s.mapCmds f).out = s.out := rfl
@[simp] theorem State.mapCmds_pending (s : State) (f : Cmds → Cmds) : (s.mapCmds f).pending = s.pending := rfl

/-! ## mapFlt -/

@[simp] theorem State.mapFlt_now (s : State) (f : Faults → Faults) : (s.mapFlt f).now = s.now := rfl
@[simp] theorem State.mapFlt_regs (s : State) (f : Faults → Faults) : (s.mapFlt f).regs = s.regs := rfl
@[simp] theorem State.mapFlt_latch (s : State) (f : Faults → Faults) : (s.mapFlt f).latch = s.latch := rfl
@[simp] theorem State.mapFlt_mem (s : State) (f : Faults → Faults) : (s.mapFlt f).mem = s.mem := rfl
@[simp] theorem State.mapFlt_poison (s : State) (f : Faults → Faults) : (s.mapFlt f).poison = s.poison := rfl
@[simp] theorem State.mapFlt_cmds (s : State) (f : Faults → Faults) : (s.mapFlt f).cmds = s.cmds := rfl
@[simp] theorem State.mapFlt_pool (s : State) (f : Faults → Faults) : (s.mapFlt f).pool = s.pool := rfl
@[simp] theorem State.mapFlt_home (s : State) (f : Faults → Faults) : (s.mapFlt f).home = s.home := rfl
@[simp] theorem State.mapFlt_pan (s : State) (f : Faults → Faults) : (s.mapFlt f).pan = s.pan := rfl
@[simp] theorem State.mapFlt_ep (s : State) (f : Faults → Faults) : (s.mapFlt f).ep = s.ep := rfl
@[simp] theorem State.mapFlt_ports (s : State) (f : Faults → Faults) : (s.mapFlt f).ports = s.ports := rfl
@[simp] theorem State.mapFlt_mov (s : State) (f : Faults → Faults) : (s.mapFlt f).mov = s.mov := rfl
@[simp] theorem State.mapFlt_links (s : State) (f : Faults → Faults) : (s.mapFlt f).links = s.links := rfl
@[simp] theorem State.mapFlt_fab (s : State) (f : Faults → Faults) : (s.mapFlt f).fab = s.fab := rfl
@[simp] theorem State.mapFlt_dwy (s : State) (f : Faults → Faults) : (s.mapFlt f).dwy = s.dwy := rfl
@[simp] theorem State.mapFlt_dbg (s : State) (f : Faults → Faults) : (s.mapFlt f).dbg = s.dbg := rfl
@[simp] theorem State.mapFlt_pwr (s : State) (f : Faults → Faults) : (s.mapFlt f).pwr = s.pwr := rfl
@[simp] theorem State.mapFlt_mail (s : State) (f : Faults → Faults) : (s.mapFlt f).mail = s.mail := rfl
@[simp] theorem State.mapFlt_fresh (s : State) (f : Faults → Faults) : (s.mapFlt f).fresh = s.fresh := rfl
@[simp] theorem State.mapFlt_out (s : State) (f : Faults → Faults) : (s.mapFlt f).out = s.out := rfl
@[simp] theorem State.mapFlt_pending (s : State) (f : Faults → Faults) : (s.mapFlt f).pending = s.pending := rfl

/-! ## mapPool -/

@[simp] theorem State.mapPool_now (s : State) (f : Pool → Pool) : (s.mapPool f).now = s.now := rfl
@[simp] theorem State.mapPool_regs (s : State) (f : Pool → Pool) : (s.mapPool f).regs = s.regs := rfl
@[simp] theorem State.mapPool_latch (s : State) (f : Pool → Pool) : (s.mapPool f).latch = s.latch := rfl
@[simp] theorem State.mapPool_mem (s : State) (f : Pool → Pool) : (s.mapPool f).mem = s.mem := rfl
@[simp] theorem State.mapPool_poison (s : State) (f : Pool → Pool) : (s.mapPool f).poison = s.poison := rfl
@[simp] theorem State.mapPool_cmds (s : State) (f : Pool → Pool) : (s.mapPool f).cmds = s.cmds := rfl
@[simp] theorem State.mapPool_flt (s : State) (f : Pool → Pool) : (s.mapPool f).flt = s.flt := rfl
@[simp] theorem State.mapPool_home (s : State) (f : Pool → Pool) : (s.mapPool f).home = s.home := rfl
@[simp] theorem State.mapPool_pan (s : State) (f : Pool → Pool) : (s.mapPool f).pan = s.pan := rfl
@[simp] theorem State.mapPool_ep (s : State) (f : Pool → Pool) : (s.mapPool f).ep = s.ep := rfl
@[simp] theorem State.mapPool_ports (s : State) (f : Pool → Pool) : (s.mapPool f).ports = s.ports := rfl
@[simp] theorem State.mapPool_mov (s : State) (f : Pool → Pool) : (s.mapPool f).mov = s.mov := rfl
@[simp] theorem State.mapPool_links (s : State) (f : Pool → Pool) : (s.mapPool f).links = s.links := rfl
@[simp] theorem State.mapPool_fab (s : State) (f : Pool → Pool) : (s.mapPool f).fab = s.fab := rfl
@[simp] theorem State.mapPool_dwy (s : State) (f : Pool → Pool) : (s.mapPool f).dwy = s.dwy := rfl
@[simp] theorem State.mapPool_dbg (s : State) (f : Pool → Pool) : (s.mapPool f).dbg = s.dbg := rfl
@[simp] theorem State.mapPool_pwr (s : State) (f : Pool → Pool) : (s.mapPool f).pwr = s.pwr := rfl
@[simp] theorem State.mapPool_mail (s : State) (f : Pool → Pool) : (s.mapPool f).mail = s.mail := rfl
@[simp] theorem State.mapPool_fresh (s : State) (f : Pool → Pool) : (s.mapPool f).fresh = s.fresh := rfl
@[simp] theorem State.mapPool_out (s : State) (f : Pool → Pool) : (s.mapPool f).out = s.out := rfl
@[simp] theorem State.mapPool_pending (s : State) (f : Pool → Pool) : (s.mapPool f).pending = s.pending := rfl

/-! ## mapHome -/

@[simp] theorem State.mapHome_now (s : State) (f : Home → Home) : (s.mapHome f).now = s.now := rfl
@[simp] theorem State.mapHome_regs (s : State) (f : Home → Home) : (s.mapHome f).regs = s.regs := rfl
@[simp] theorem State.mapHome_latch (s : State) (f : Home → Home) : (s.mapHome f).latch = s.latch := rfl
@[simp] theorem State.mapHome_mem (s : State) (f : Home → Home) : (s.mapHome f).mem = s.mem := rfl
@[simp] theorem State.mapHome_poison (s : State) (f : Home → Home) : (s.mapHome f).poison = s.poison := rfl
@[simp] theorem State.mapHome_cmds (s : State) (f : Home → Home) : (s.mapHome f).cmds = s.cmds := rfl
@[simp] theorem State.mapHome_flt (s : State) (f : Home → Home) : (s.mapHome f).flt = s.flt := rfl
@[simp] theorem State.mapHome_pool (s : State) (f : Home → Home) : (s.mapHome f).pool = s.pool := rfl
@[simp] theorem State.mapHome_pan (s : State) (f : Home → Home) : (s.mapHome f).pan = s.pan := rfl
@[simp] theorem State.mapHome_ep (s : State) (f : Home → Home) : (s.mapHome f).ep = s.ep := rfl
@[simp] theorem State.mapHome_ports (s : State) (f : Home → Home) : (s.mapHome f).ports = s.ports := rfl
@[simp] theorem State.mapHome_mov (s : State) (f : Home → Home) : (s.mapHome f).mov = s.mov := rfl
@[simp] theorem State.mapHome_links (s : State) (f : Home → Home) : (s.mapHome f).links = s.links := rfl
@[simp] theorem State.mapHome_fab (s : State) (f : Home → Home) : (s.mapHome f).fab = s.fab := rfl
@[simp] theorem State.mapHome_dwy (s : State) (f : Home → Home) : (s.mapHome f).dwy = s.dwy := rfl
@[simp] theorem State.mapHome_dbg (s : State) (f : Home → Home) : (s.mapHome f).dbg = s.dbg := rfl
@[simp] theorem State.mapHome_pwr (s : State) (f : Home → Home) : (s.mapHome f).pwr = s.pwr := rfl
@[simp] theorem State.mapHome_mail (s : State) (f : Home → Home) : (s.mapHome f).mail = s.mail := rfl
@[simp] theorem State.mapHome_fresh (s : State) (f : Home → Home) : (s.mapHome f).fresh = s.fresh := rfl
@[simp] theorem State.mapHome_out (s : State) (f : Home → Home) : (s.mapHome f).out = s.out := rfl
@[simp] theorem State.mapHome_pending (s : State) (f : Home → Home) : (s.mapHome f).pending = s.pending := rfl

/-! ## mapPan -/

@[simp] theorem State.mapPan_now (s : State) (f : Pantry → Pantry) : (s.mapPan f).now = s.now := rfl
@[simp] theorem State.mapPan_regs (s : State) (f : Pantry → Pantry) : (s.mapPan f).regs = s.regs := rfl
@[simp] theorem State.mapPan_latch (s : State) (f : Pantry → Pantry) : (s.mapPan f).latch = s.latch := rfl
@[simp] theorem State.mapPan_mem (s : State) (f : Pantry → Pantry) : (s.mapPan f).mem = s.mem := rfl
@[simp] theorem State.mapPan_poison (s : State) (f : Pantry → Pantry) : (s.mapPan f).poison = s.poison := rfl
@[simp] theorem State.mapPan_cmds (s : State) (f : Pantry → Pantry) : (s.mapPan f).cmds = s.cmds := rfl
@[simp] theorem State.mapPan_flt (s : State) (f : Pantry → Pantry) : (s.mapPan f).flt = s.flt := rfl
@[simp] theorem State.mapPan_pool (s : State) (f : Pantry → Pantry) : (s.mapPan f).pool = s.pool := rfl
@[simp] theorem State.mapPan_home (s : State) (f : Pantry → Pantry) : (s.mapPan f).home = s.home := rfl
@[simp] theorem State.mapPan_ep (s : State) (f : Pantry → Pantry) : (s.mapPan f).ep = s.ep := rfl
@[simp] theorem State.mapPan_ports (s : State) (f : Pantry → Pantry) : (s.mapPan f).ports = s.ports := rfl
@[simp] theorem State.mapPan_mov (s : State) (f : Pantry → Pantry) : (s.mapPan f).mov = s.mov := rfl
@[simp] theorem State.mapPan_links (s : State) (f : Pantry → Pantry) : (s.mapPan f).links = s.links := rfl
@[simp] theorem State.mapPan_fab (s : State) (f : Pantry → Pantry) : (s.mapPan f).fab = s.fab := rfl
@[simp] theorem State.mapPan_dwy (s : State) (f : Pantry → Pantry) : (s.mapPan f).dwy = s.dwy := rfl
@[simp] theorem State.mapPan_dbg (s : State) (f : Pantry → Pantry) : (s.mapPan f).dbg = s.dbg := rfl
@[simp] theorem State.mapPan_pwr (s : State) (f : Pantry → Pantry) : (s.mapPan f).pwr = s.pwr := rfl
@[simp] theorem State.mapPan_mail (s : State) (f : Pantry → Pantry) : (s.mapPan f).mail = s.mail := rfl
@[simp] theorem State.mapPan_fresh (s : State) (f : Pantry → Pantry) : (s.mapPan f).fresh = s.fresh := rfl
@[simp] theorem State.mapPan_out (s : State) (f : Pantry → Pantry) : (s.mapPan f).out = s.out := rfl
@[simp] theorem State.mapPan_pending (s : State) (f : Pantry → Pantry) : (s.mapPan f).pending = s.pending := rfl

/-! ## mapPorts -/

@[simp] theorem State.mapPorts_now (s : State) (f : Ports → Ports) : (s.mapPorts f).now = s.now := rfl
@[simp] theorem State.mapPorts_regs (s : State) (f : Ports → Ports) : (s.mapPorts f).regs = s.regs := rfl
@[simp] theorem State.mapPorts_latch (s : State) (f : Ports → Ports) : (s.mapPorts f).latch = s.latch := rfl
@[simp] theorem State.mapPorts_mem (s : State) (f : Ports → Ports) : (s.mapPorts f).mem = s.mem := rfl
@[simp] theorem State.mapPorts_poison (s : State) (f : Ports → Ports) : (s.mapPorts f).poison = s.poison := rfl
@[simp] theorem State.mapPorts_cmds (s : State) (f : Ports → Ports) : (s.mapPorts f).cmds = s.cmds := rfl
@[simp] theorem State.mapPorts_flt (s : State) (f : Ports → Ports) : (s.mapPorts f).flt = s.flt := rfl
@[simp] theorem State.mapPorts_pool (s : State) (f : Ports → Ports) : (s.mapPorts f).pool = s.pool := rfl
@[simp] theorem State.mapPorts_home (s : State) (f : Ports → Ports) : (s.mapPorts f).home = s.home := rfl
@[simp] theorem State.mapPorts_pan (s : State) (f : Ports → Ports) : (s.mapPorts f).pan = s.pan := rfl
@[simp] theorem State.mapPorts_ep (s : State) (f : Ports → Ports) : (s.mapPorts f).ep = s.ep := rfl
@[simp] theorem State.mapPorts_mov (s : State) (f : Ports → Ports) : (s.mapPorts f).mov = s.mov := rfl
@[simp] theorem State.mapPorts_links (s : State) (f : Ports → Ports) : (s.mapPorts f).links = s.links := rfl
@[simp] theorem State.mapPorts_fab (s : State) (f : Ports → Ports) : (s.mapPorts f).fab = s.fab := rfl
@[simp] theorem State.mapPorts_dwy (s : State) (f : Ports → Ports) : (s.mapPorts f).dwy = s.dwy := rfl
@[simp] theorem State.mapPorts_dbg (s : State) (f : Ports → Ports) : (s.mapPorts f).dbg = s.dbg := rfl
@[simp] theorem State.mapPorts_pwr (s : State) (f : Ports → Ports) : (s.mapPorts f).pwr = s.pwr := rfl
@[simp] theorem State.mapPorts_mail (s : State) (f : Ports → Ports) : (s.mapPorts f).mail = s.mail := rfl
@[simp] theorem State.mapPorts_fresh (s : State) (f : Ports → Ports) : (s.mapPorts f).fresh = s.fresh := rfl
@[simp] theorem State.mapPorts_out (s : State) (f : Ports → Ports) : (s.mapPorts f).out = s.out := rfl
@[simp] theorem State.mapPorts_pending (s : State) (f : Ports → Ports) : (s.mapPorts f).pending = s.pending := rfl

/-! ## mapMov -/

@[simp] theorem State.mapMov_now (s : State) (f : Mover → Mover) : (s.mapMov f).now = s.now := rfl
@[simp] theorem State.mapMov_regs (s : State) (f : Mover → Mover) : (s.mapMov f).regs = s.regs := rfl
@[simp] theorem State.mapMov_latch (s : State) (f : Mover → Mover) : (s.mapMov f).latch = s.latch := rfl
@[simp] theorem State.mapMov_mem (s : State) (f : Mover → Mover) : (s.mapMov f).mem = s.mem := rfl
@[simp] theorem State.mapMov_poison (s : State) (f : Mover → Mover) : (s.mapMov f).poison = s.poison := rfl
@[simp] theorem State.mapMov_cmds (s : State) (f : Mover → Mover) : (s.mapMov f).cmds = s.cmds := rfl
@[simp] theorem State.mapMov_flt (s : State) (f : Mover → Mover) : (s.mapMov f).flt = s.flt := rfl
@[simp] theorem State.mapMov_pool (s : State) (f : Mover → Mover) : (s.mapMov f).pool = s.pool := rfl
@[simp] theorem State.mapMov_home (s : State) (f : Mover → Mover) : (s.mapMov f).home = s.home := rfl
@[simp] theorem State.mapMov_pan (s : State) (f : Mover → Mover) : (s.mapMov f).pan = s.pan := rfl
@[simp] theorem State.mapMov_ep (s : State) (f : Mover → Mover) : (s.mapMov f).ep = s.ep := rfl
@[simp] theorem State.mapMov_ports (s : State) (f : Mover → Mover) : (s.mapMov f).ports = s.ports := rfl
@[simp] theorem State.mapMov_links (s : State) (f : Mover → Mover) : (s.mapMov f).links = s.links := rfl
@[simp] theorem State.mapMov_fab (s : State) (f : Mover → Mover) : (s.mapMov f).fab = s.fab := rfl
@[simp] theorem State.mapMov_dwy (s : State) (f : Mover → Mover) : (s.mapMov f).dwy = s.dwy := rfl
@[simp] theorem State.mapMov_dbg (s : State) (f : Mover → Mover) : (s.mapMov f).dbg = s.dbg := rfl
@[simp] theorem State.mapMov_pwr (s : State) (f : Mover → Mover) : (s.mapMov f).pwr = s.pwr := rfl
@[simp] theorem State.mapMov_mail (s : State) (f : Mover → Mover) : (s.mapMov f).mail = s.mail := rfl
@[simp] theorem State.mapMov_fresh (s : State) (f : Mover → Mover) : (s.mapMov f).fresh = s.fresh := rfl
@[simp] theorem State.mapMov_out (s : State) (f : Mover → Mover) : (s.mapMov f).out = s.out := rfl
@[simp] theorem State.mapMov_pending (s : State) (f : Mover → Mover) : (s.mapMov f).pending = s.pending := rfl

/-! ## mapLinks -/

@[simp] theorem State.mapLinks_now (s : State) (f : Links → Links) : (s.mapLinks f).now = s.now := rfl
@[simp] theorem State.mapLinks_regs (s : State) (f : Links → Links) : (s.mapLinks f).regs = s.regs := rfl
@[simp] theorem State.mapLinks_latch (s : State) (f : Links → Links) : (s.mapLinks f).latch = s.latch := rfl
@[simp] theorem State.mapLinks_mem (s : State) (f : Links → Links) : (s.mapLinks f).mem = s.mem := rfl
@[simp] theorem State.mapLinks_poison (s : State) (f : Links → Links) : (s.mapLinks f).poison = s.poison := rfl
@[simp] theorem State.mapLinks_cmds (s : State) (f : Links → Links) : (s.mapLinks f).cmds = s.cmds := rfl
@[simp] theorem State.mapLinks_flt (s : State) (f : Links → Links) : (s.mapLinks f).flt = s.flt := rfl
@[simp] theorem State.mapLinks_pool (s : State) (f : Links → Links) : (s.mapLinks f).pool = s.pool := rfl
@[simp] theorem State.mapLinks_home (s : State) (f : Links → Links) : (s.mapLinks f).home = s.home := rfl
@[simp] theorem State.mapLinks_pan (s : State) (f : Links → Links) : (s.mapLinks f).pan = s.pan := rfl
@[simp] theorem State.mapLinks_ep (s : State) (f : Links → Links) : (s.mapLinks f).ep = s.ep := rfl
@[simp] theorem State.mapLinks_ports (s : State) (f : Links → Links) : (s.mapLinks f).ports = s.ports := rfl
@[simp] theorem State.mapLinks_mov (s : State) (f : Links → Links) : (s.mapLinks f).mov = s.mov := rfl
@[simp] theorem State.mapLinks_fab (s : State) (f : Links → Links) : (s.mapLinks f).fab = s.fab := rfl
@[simp] theorem State.mapLinks_dwy (s : State) (f : Links → Links) : (s.mapLinks f).dwy = s.dwy := rfl
@[simp] theorem State.mapLinks_dbg (s : State) (f : Links → Links) : (s.mapLinks f).dbg = s.dbg := rfl
@[simp] theorem State.mapLinks_pwr (s : State) (f : Links → Links) : (s.mapLinks f).pwr = s.pwr := rfl
@[simp] theorem State.mapLinks_mail (s : State) (f : Links → Links) : (s.mapLinks f).mail = s.mail := rfl
@[simp] theorem State.mapLinks_fresh (s : State) (f : Links → Links) : (s.mapLinks f).fresh = s.fresh := rfl
@[simp] theorem State.mapLinks_out (s : State) (f : Links → Links) : (s.mapLinks f).out = s.out := rfl
@[simp] theorem State.mapLinks_pending (s : State) (f : Links → Links) : (s.mapLinks f).pending = s.pending := rfl

/-! ## mapFab -/

@[simp] theorem State.mapFab_now (s : State) (f : Fabric → Fabric) : (s.mapFab f).now = s.now := rfl
@[simp] theorem State.mapFab_regs (s : State) (f : Fabric → Fabric) : (s.mapFab f).regs = s.regs := rfl
@[simp] theorem State.mapFab_latch (s : State) (f : Fabric → Fabric) : (s.mapFab f).latch = s.latch := rfl
@[simp] theorem State.mapFab_mem (s : State) (f : Fabric → Fabric) : (s.mapFab f).mem = s.mem := rfl
@[simp] theorem State.mapFab_poison (s : State) (f : Fabric → Fabric) : (s.mapFab f).poison = s.poison := rfl
@[simp] theorem State.mapFab_cmds (s : State) (f : Fabric → Fabric) : (s.mapFab f).cmds = s.cmds := rfl
@[simp] theorem State.mapFab_flt (s : State) (f : Fabric → Fabric) : (s.mapFab f).flt = s.flt := rfl
@[simp] theorem State.mapFab_pool (s : State) (f : Fabric → Fabric) : (s.mapFab f).pool = s.pool := rfl
@[simp] theorem State.mapFab_home (s : State) (f : Fabric → Fabric) : (s.mapFab f).home = s.home := rfl
@[simp] theorem State.mapFab_pan (s : State) (f : Fabric → Fabric) : (s.mapFab f).pan = s.pan := rfl
@[simp] theorem State.mapFab_ep (s : State) (f : Fabric → Fabric) : (s.mapFab f).ep = s.ep := rfl
@[simp] theorem State.mapFab_ports (s : State) (f : Fabric → Fabric) : (s.mapFab f).ports = s.ports := rfl
@[simp] theorem State.mapFab_mov (s : State) (f : Fabric → Fabric) : (s.mapFab f).mov = s.mov := rfl
@[simp] theorem State.mapFab_links (s : State) (f : Fabric → Fabric) : (s.mapFab f).links = s.links := rfl
@[simp] theorem State.mapFab_dwy (s : State) (f : Fabric → Fabric) : (s.mapFab f).dwy = s.dwy := rfl
@[simp] theorem State.mapFab_dbg (s : State) (f : Fabric → Fabric) : (s.mapFab f).dbg = s.dbg := rfl
@[simp] theorem State.mapFab_pwr (s : State) (f : Fabric → Fabric) : (s.mapFab f).pwr = s.pwr := rfl
@[simp] theorem State.mapFab_mail (s : State) (f : Fabric → Fabric) : (s.mapFab f).mail = s.mail := rfl
@[simp] theorem State.mapFab_fresh (s : State) (f : Fabric → Fabric) : (s.mapFab f).fresh = s.fresh := rfl
@[simp] theorem State.mapFab_out (s : State) (f : Fabric → Fabric) : (s.mapFab f).out = s.out := rfl
@[simp] theorem State.mapFab_pending (s : State) (f : Fabric → Fabric) : (s.mapFab f).pending = s.pending := rfl

/-! ## mapDbg -/

@[simp] theorem State.mapDbg_now (s : State) (f : Debug → Debug) : (s.mapDbg f).now = s.now := rfl
@[simp] theorem State.mapDbg_regs (s : State) (f : Debug → Debug) : (s.mapDbg f).regs = s.regs := rfl
@[simp] theorem State.mapDbg_latch (s : State) (f : Debug → Debug) : (s.mapDbg f).latch = s.latch := rfl
@[simp] theorem State.mapDbg_mem (s : State) (f : Debug → Debug) : (s.mapDbg f).mem = s.mem := rfl
@[simp] theorem State.mapDbg_poison (s : State) (f : Debug → Debug) : (s.mapDbg f).poison = s.poison := rfl
@[simp] theorem State.mapDbg_cmds (s : State) (f : Debug → Debug) : (s.mapDbg f).cmds = s.cmds := rfl
@[simp] theorem State.mapDbg_flt (s : State) (f : Debug → Debug) : (s.mapDbg f).flt = s.flt := rfl
@[simp] theorem State.mapDbg_pool (s : State) (f : Debug → Debug) : (s.mapDbg f).pool = s.pool := rfl
@[simp] theorem State.mapDbg_home (s : State) (f : Debug → Debug) : (s.mapDbg f).home = s.home := rfl
@[simp] theorem State.mapDbg_pan (s : State) (f : Debug → Debug) : (s.mapDbg f).pan = s.pan := rfl
@[simp] theorem State.mapDbg_ep (s : State) (f : Debug → Debug) : (s.mapDbg f).ep = s.ep := rfl
@[simp] theorem State.mapDbg_ports (s : State) (f : Debug → Debug) : (s.mapDbg f).ports = s.ports := rfl
@[simp] theorem State.mapDbg_mov (s : State) (f : Debug → Debug) : (s.mapDbg f).mov = s.mov := rfl
@[simp] theorem State.mapDbg_links (s : State) (f : Debug → Debug) : (s.mapDbg f).links = s.links := rfl
@[simp] theorem State.mapDbg_fab (s : State) (f : Debug → Debug) : (s.mapDbg f).fab = s.fab := rfl
@[simp] theorem State.mapDbg_dwy (s : State) (f : Debug → Debug) : (s.mapDbg f).dwy = s.dwy := rfl
@[simp] theorem State.mapDbg_pwr (s : State) (f : Debug → Debug) : (s.mapDbg f).pwr = s.pwr := rfl
@[simp] theorem State.mapDbg_mail (s : State) (f : Debug → Debug) : (s.mapDbg f).mail = s.mail := rfl
@[simp] theorem State.mapDbg_fresh (s : State) (f : Debug → Debug) : (s.mapDbg f).fresh = s.fresh := rfl
@[simp] theorem State.mapDbg_out (s : State) (f : Debug → Debug) : (s.mapDbg f).out = s.out := rfl
@[simp] theorem State.mapDbg_pending (s : State) (f : Debug → Debug) : (s.mapDbg f).pending = s.pending := rfl

/-! ## mapPwr -/

@[simp] theorem State.mapPwr_now (s : State) (f : Power → Power) : (s.mapPwr f).now = s.now := rfl
@[simp] theorem State.mapPwr_regs (s : State) (f : Power → Power) : (s.mapPwr f).regs = s.regs := rfl
@[simp] theorem State.mapPwr_latch (s : State) (f : Power → Power) : (s.mapPwr f).latch = s.latch := rfl
@[simp] theorem State.mapPwr_mem (s : State) (f : Power → Power) : (s.mapPwr f).mem = s.mem := rfl
@[simp] theorem State.mapPwr_poison (s : State) (f : Power → Power) : (s.mapPwr f).poison = s.poison := rfl
@[simp] theorem State.mapPwr_cmds (s : State) (f : Power → Power) : (s.mapPwr f).cmds = s.cmds := rfl
@[simp] theorem State.mapPwr_flt (s : State) (f : Power → Power) : (s.mapPwr f).flt = s.flt := rfl
@[simp] theorem State.mapPwr_pool (s : State) (f : Power → Power) : (s.mapPwr f).pool = s.pool := rfl
@[simp] theorem State.mapPwr_home (s : State) (f : Power → Power) : (s.mapPwr f).home = s.home := rfl
@[simp] theorem State.mapPwr_pan (s : State) (f : Power → Power) : (s.mapPwr f).pan = s.pan := rfl
@[simp] theorem State.mapPwr_ep (s : State) (f : Power → Power) : (s.mapPwr f).ep = s.ep := rfl
@[simp] theorem State.mapPwr_ports (s : State) (f : Power → Power) : (s.mapPwr f).ports = s.ports := rfl
@[simp] theorem State.mapPwr_mov (s : State) (f : Power → Power) : (s.mapPwr f).mov = s.mov := rfl
@[simp] theorem State.mapPwr_links (s : State) (f : Power → Power) : (s.mapPwr f).links = s.links := rfl
@[simp] theorem State.mapPwr_fab (s : State) (f : Power → Power) : (s.mapPwr f).fab = s.fab := rfl
@[simp] theorem State.mapPwr_dwy (s : State) (f : Power → Power) : (s.mapPwr f).dwy = s.dwy := rfl
@[simp] theorem State.mapPwr_dbg (s : State) (f : Power → Power) : (s.mapPwr f).dbg = s.dbg := rfl
@[simp] theorem State.mapPwr_mail (s : State) (f : Power → Power) : (s.mapPwr f).mail = s.mail := rfl
@[simp] theorem State.mapPwr_fresh (s : State) (f : Power → Power) : (s.mapPwr f).fresh = s.fresh := rfl
@[simp] theorem State.mapPwr_out (s : State) (f : Power → Power) : (s.mapPwr f).out = s.out := rfl
@[simp] theorem State.mapPwr_pending (s : State) (f : Power → Power) : (s.mapPwr f).pending = s.pending := rfl

/-! ## mapDch -/

@[simp] theorem State.mapDch_now (s : State) (n : Nat) (f : DwCh → DwCh) : (s.mapDch n f).now = s.now := rfl
@[simp] theorem State.mapDch_regs (s : State) (n : Nat) (f : DwCh → DwCh) : (s.mapDch n f).regs = s.regs := rfl
@[simp] theorem State.mapDch_latch (s : State) (n : Nat) (f : DwCh → DwCh) : (s.mapDch n f).latch = s.latch := rfl
@[simp] theorem State.mapDch_mem (s : State) (n : Nat) (f : DwCh → DwCh) : (s.mapDch n f).mem = s.mem := rfl
@[simp] theorem State.mapDch_poison (s : State) (n : Nat) (f : DwCh → DwCh) : (s.mapDch n f).poison = s.poison := rfl
@[simp] theorem State.mapDch_cmds (s : State) (n : Nat) (f : DwCh → DwCh) : (s.mapDch n f).cmds = s.cmds := rfl
@[simp] theorem State.mapDch_flt (s : State) (n : Nat) (f : DwCh → DwCh) : (s.mapDch n f).flt = s.flt := rfl
@[simp] theorem State.mapDch_pool (s : State) (n : Nat) (f : DwCh → DwCh) : (s.mapDch n f).pool = s.pool := rfl
@[simp] theorem State.mapDch_home (s : State) (n : Nat) (f : DwCh → DwCh) : (s.mapDch n f).home = s.home := rfl
@[simp] theorem State.mapDch_pan (s : State) (n : Nat) (f : DwCh → DwCh) : (s.mapDch n f).pan = s.pan := rfl
@[simp] theorem State.mapDch_ep (s : State) (n : Nat) (f : DwCh → DwCh) : (s.mapDch n f).ep = s.ep := rfl
@[simp] theorem State.mapDch_ports (s : State) (n : Nat) (f : DwCh → DwCh) : (s.mapDch n f).ports = s.ports := rfl
@[simp] theorem State.mapDch_mov (s : State) (n : Nat) (f : DwCh → DwCh) : (s.mapDch n f).mov = s.mov := rfl
@[simp] theorem State.mapDch_links (s : State) (n : Nat) (f : DwCh → DwCh) : (s.mapDch n f).links = s.links := rfl
@[simp] theorem State.mapDch_fab (s : State) (n : Nat) (f : DwCh → DwCh) : (s.mapDch n f).fab = s.fab := rfl
@[simp] theorem State.mapDch_dbg (s : State) (n : Nat) (f : DwCh → DwCh) : (s.mapDch n f).dbg = s.dbg := rfl
@[simp] theorem State.mapDch_pwr (s : State) (n : Nat) (f : DwCh → DwCh) : (s.mapDch n f).pwr = s.pwr := rfl
@[simp] theorem State.mapDch_mail (s : State) (n : Nat) (f : DwCh → DwCh) : (s.mapDch n f).mail = s.mail := rfl
@[simp] theorem State.mapDch_fresh (s : State) (n : Nat) (f : DwCh → DwCh) : (s.mapDch n f).fresh = s.fresh := rfl
@[simp] theorem State.mapDch_out (s : State) (n : Nat) (f : DwCh → DwCh) : (s.mapDch n f).out = s.out := rfl
@[simp] theorem State.mapDch_pending (s : State) (n : Nat) (f : DwCh → DwCh) : (s.mapDch n f).pending = s.pending := rfl

/-! ## mapPort -/

@[simp] theorem State.mapPort_now (s : State) (p : Nat) (f : PortSt → PortSt) : (s.mapPort p f).now = s.now := rfl
@[simp] theorem State.mapPort_regs (s : State) (p : Nat) (f : PortSt → PortSt) : (s.mapPort p f).regs = s.regs := rfl
@[simp] theorem State.mapPort_latch (s : State) (p : Nat) (f : PortSt → PortSt) : (s.mapPort p f).latch = s.latch := rfl
@[simp] theorem State.mapPort_mem (s : State) (p : Nat) (f : PortSt → PortSt) : (s.mapPort p f).mem = s.mem := rfl
@[simp] theorem State.mapPort_poison (s : State) (p : Nat) (f : PortSt → PortSt) : (s.mapPort p f).poison = s.poison := rfl
@[simp] theorem State.mapPort_cmds (s : State) (p : Nat) (f : PortSt → PortSt) : (s.mapPort p f).cmds = s.cmds := rfl
@[simp] theorem State.mapPort_flt (s : State) (p : Nat) (f : PortSt → PortSt) : (s.mapPort p f).flt = s.flt := rfl
@[simp] theorem State.mapPort_pool (s : State) (p : Nat) (f : PortSt → PortSt) : (s.mapPort p f).pool = s.pool := rfl
@[simp] theorem State.mapPort_home (s : State) (p : Nat) (f : PortSt → PortSt) : (s.mapPort p f).home = s.home := rfl
@[simp] theorem State.mapPort_pan (s : State) (p : Nat) (f : PortSt → PortSt) : (s.mapPort p f).pan = s.pan := rfl
@[simp] theorem State.mapPort_ep (s : State) (p : Nat) (f : PortSt → PortSt) : (s.mapPort p f).ep = s.ep := rfl
@[simp] theorem State.mapPort_mov (s : State) (p : Nat) (f : PortSt → PortSt) : (s.mapPort p f).mov = s.mov := rfl
@[simp] theorem State.mapPort_links (s : State) (p : Nat) (f : PortSt → PortSt) : (s.mapPort p f).links = s.links := rfl
@[simp] theorem State.mapPort_fab (s : State) (p : Nat) (f : PortSt → PortSt) : (s.mapPort p f).fab = s.fab := rfl
@[simp] theorem State.mapPort_dwy (s : State) (p : Nat) (f : PortSt → PortSt) : (s.mapPort p f).dwy = s.dwy := rfl
@[simp] theorem State.mapPort_dbg (s : State) (p : Nat) (f : PortSt → PortSt) : (s.mapPort p f).dbg = s.dbg := rfl
@[simp] theorem State.mapPort_pwr (s : State) (p : Nat) (f : PortSt → PortSt) : (s.mapPort p f).pwr = s.pwr := rfl
@[simp] theorem State.mapPort_mail (s : State) (p : Nat) (f : PortSt → PortSt) : (s.mapPort p f).mail = s.mail := rfl
@[simp] theorem State.mapPort_fresh (s : State) (p : Nat) (f : PortSt → PortSt) : (s.mapPort p f).fresh = s.fresh := rfl
@[simp] theorem State.mapPort_out (s : State) (p : Nat) (f : PortSt → PortSt) : (s.mapPort p f).out = s.out := rfl
@[simp] theorem State.mapPort_pending (s : State) (p : Nat) (f : PortSt → PortSt) : (s.mapPort p f).pending = s.pending := rfl

/-! ## mapWin -/

@[simp] theorem State.mapWin_now (s : State) (w : Nat) (f : Window → Window) : (s.mapWin w f).now = s.now := rfl
@[simp] theorem State.mapWin_regs (s : State) (w : Nat) (f : Window → Window) : (s.mapWin w f).regs = s.regs := rfl
@[simp] theorem State.mapWin_latch (s : State) (w : Nat) (f : Window → Window) : (s.mapWin w f).latch = s.latch := rfl
@[simp] theorem State.mapWin_mem (s : State) (w : Nat) (f : Window → Window) : (s.mapWin w f).mem = s.mem := rfl
@[simp] theorem State.mapWin_poison (s : State) (w : Nat) (f : Window → Window) : (s.mapWin w f).poison = s.poison := rfl
@[simp] theorem State.mapWin_cmds (s : State) (w : Nat) (f : Window → Window) : (s.mapWin w f).cmds = s.cmds := rfl
@[simp] theorem State.mapWin_flt (s : State) (w : Nat) (f : Window → Window) : (s.mapWin w f).flt = s.flt := rfl
@[simp] theorem State.mapWin_home (s : State) (w : Nat) (f : Window → Window) : (s.mapWin w f).home = s.home := rfl
@[simp] theorem State.mapWin_pan (s : State) (w : Nat) (f : Window → Window) : (s.mapWin w f).pan = s.pan := rfl
@[simp] theorem State.mapWin_ep (s : State) (w : Nat) (f : Window → Window) : (s.mapWin w f).ep = s.ep := rfl
@[simp] theorem State.mapWin_ports (s : State) (w : Nat) (f : Window → Window) : (s.mapWin w f).ports = s.ports := rfl
@[simp] theorem State.mapWin_mov (s : State) (w : Nat) (f : Window → Window) : (s.mapWin w f).mov = s.mov := rfl
@[simp] theorem State.mapWin_links (s : State) (w : Nat) (f : Window → Window) : (s.mapWin w f).links = s.links := rfl
@[simp] theorem State.mapWin_fab (s : State) (w : Nat) (f : Window → Window) : (s.mapWin w f).fab = s.fab := rfl
@[simp] theorem State.mapWin_dwy (s : State) (w : Nat) (f : Window → Window) : (s.mapWin w f).dwy = s.dwy := rfl
@[simp] theorem State.mapWin_dbg (s : State) (w : Nat) (f : Window → Window) : (s.mapWin w f).dbg = s.dbg := rfl
@[simp] theorem State.mapWin_pwr (s : State) (w : Nat) (f : Window → Window) : (s.mapWin w f).pwr = s.pwr := rfl
@[simp] theorem State.mapWin_mail (s : State) (w : Nat) (f : Window → Window) : (s.mapWin w f).mail = s.mail := rfl
@[simp] theorem State.mapWin_fresh (s : State) (w : Nat) (f : Window → Window) : (s.mapWin w f).fresh = s.fresh := rfl
@[simp] theorem State.mapWin_out (s : State) (w : Nat) (f : Window → Window) : (s.mapWin w f).out = s.out := rfl
@[simp] theorem State.mapWin_pending (s : State) (w : Nat) (f : Window → Window) : (s.mapWin w f).pending = s.pending := rfl

/-! ## mapBind -/

@[simp] theorem State.mapBind_now (s : State) (w host : Nat) (f : Binding → Binding) : (s.mapBind w host f).now = s.now := rfl
@[simp] theorem State.mapBind_regs (s : State) (w host : Nat) (f : Binding → Binding) : (s.mapBind w host f).regs = s.regs := rfl
@[simp] theorem State.mapBind_latch (s : State) (w host : Nat) (f : Binding → Binding) : (s.mapBind w host f).latch = s.latch := rfl
@[simp] theorem State.mapBind_mem (s : State) (w host : Nat) (f : Binding → Binding) : (s.mapBind w host f).mem = s.mem := rfl
@[simp] theorem State.mapBind_poison (s : State) (w host : Nat) (f : Binding → Binding) : (s.mapBind w host f).poison = s.poison := rfl
@[simp] theorem State.mapBind_cmds (s : State) (w host : Nat) (f : Binding → Binding) : (s.mapBind w host f).cmds = s.cmds := rfl
@[simp] theorem State.mapBind_flt (s : State) (w host : Nat) (f : Binding → Binding) : (s.mapBind w host f).flt = s.flt := rfl
@[simp] theorem State.mapBind_home (s : State) (w host : Nat) (f : Binding → Binding) : (s.mapBind w host f).home = s.home := rfl
@[simp] theorem State.mapBind_pan (s : State) (w host : Nat) (f : Binding → Binding) : (s.mapBind w host f).pan = s.pan := rfl
@[simp] theorem State.mapBind_ep (s : State) (w host : Nat) (f : Binding → Binding) : (s.mapBind w host f).ep = s.ep := rfl
@[simp] theorem State.mapBind_ports (s : State) (w host : Nat) (f : Binding → Binding) : (s.mapBind w host f).ports = s.ports := rfl
@[simp] theorem State.mapBind_mov (s : State) (w host : Nat) (f : Binding → Binding) : (s.mapBind w host f).mov = s.mov := rfl
@[simp] theorem State.mapBind_links (s : State) (w host : Nat) (f : Binding → Binding) : (s.mapBind w host f).links = s.links := rfl
@[simp] theorem State.mapBind_fab (s : State) (w host : Nat) (f : Binding → Binding) : (s.mapBind w host f).fab = s.fab := rfl
@[simp] theorem State.mapBind_dwy (s : State) (w host : Nat) (f : Binding → Binding) : (s.mapBind w host f).dwy = s.dwy := rfl
@[simp] theorem State.mapBind_dbg (s : State) (w host : Nat) (f : Binding → Binding) : (s.mapBind w host f).dbg = s.dbg := rfl
@[simp] theorem State.mapBind_pwr (s : State) (w host : Nat) (f : Binding → Binding) : (s.mapBind w host f).pwr = s.pwr := rfl
@[simp] theorem State.mapBind_mail (s : State) (w host : Nat) (f : Binding → Binding) : (s.mapBind w host f).mail = s.mail := rfl
@[simp] theorem State.mapBind_fresh (s : State) (w host : Nat) (f : Binding → Binding) : (s.mapBind w host f).fresh = s.fresh := rfl
@[simp] theorem State.mapBind_out (s : State) (w host : Nat) (f : Binding → Binding) : (s.mapBind w host f).out = s.out := rfl
@[simp] theorem State.mapBind_pending (s : State) (w host : Nat) (f : Binding → Binding) : (s.mapBind w host f).pending = s.pending := rfl

/-! ## mapRoom -/

@[simp] theorem State.mapRoom_now (s : State) (r : Nat) (f : Room → Room) : (s.mapRoom r f).now = s.now := rfl
@[simp] theorem State.mapRoom_regs (s : State) (r : Nat) (f : Room → Room) : (s.mapRoom r f).regs = s.regs := rfl
@[simp] theorem State.mapRoom_latch (s : State) (r : Nat) (f : Room → Room) : (s.mapRoom r f).latch = s.latch := rfl
@[simp] theorem State.mapRoom_mem (s : State) (r : Nat) (f : Room → Room) : (s.mapRoom r f).mem = s.mem := rfl
@[simp] theorem State.mapRoom_poison (s : State) (r : Nat) (f : Room → Room) : (s.mapRoom r f).poison = s.poison := rfl
@[simp] theorem State.mapRoom_cmds (s : State) (r : Nat) (f : Room → Room) : (s.mapRoom r f).cmds = s.cmds := rfl
@[simp] theorem State.mapRoom_flt (s : State) (r : Nat) (f : Room → Room) : (s.mapRoom r f).flt = s.flt := rfl
@[simp] theorem State.mapRoom_home (s : State) (r : Nat) (f : Room → Room) : (s.mapRoom r f).home = s.home := rfl
@[simp] theorem State.mapRoom_pan (s : State) (r : Nat) (f : Room → Room) : (s.mapRoom r f).pan = s.pan := rfl
@[simp] theorem State.mapRoom_ep (s : State) (r : Nat) (f : Room → Room) : (s.mapRoom r f).ep = s.ep := rfl
@[simp] theorem State.mapRoom_ports (s : State) (r : Nat) (f : Room → Room) : (s.mapRoom r f).ports = s.ports := rfl
@[simp] theorem State.mapRoom_mov (s : State) (r : Nat) (f : Room → Room) : (s.mapRoom r f).mov = s.mov := rfl
@[simp] theorem State.mapRoom_links (s : State) (r : Nat) (f : Room → Room) : (s.mapRoom r f).links = s.links := rfl
@[simp] theorem State.mapRoom_fab (s : State) (r : Nat) (f : Room → Room) : (s.mapRoom r f).fab = s.fab := rfl
@[simp] theorem State.mapRoom_dwy (s : State) (r : Nat) (f : Room → Room) : (s.mapRoom r f).dwy = s.dwy := rfl
@[simp] theorem State.mapRoom_dbg (s : State) (r : Nat) (f : Room → Room) : (s.mapRoom r f).dbg = s.dbg := rfl
@[simp] theorem State.mapRoom_pwr (s : State) (r : Nat) (f : Room → Room) : (s.mapRoom r f).pwr = s.pwr := rfl
@[simp] theorem State.mapRoom_mail (s : State) (r : Nat) (f : Room → Room) : (s.mapRoom r f).mail = s.mail := rfl
@[simp] theorem State.mapRoom_fresh (s : State) (r : Nat) (f : Room → Room) : (s.mapRoom r f).fresh = s.fresh := rfl
@[simp] theorem State.mapRoom_out (s : State) (r : Nat) (f : Room → Room) : (s.mapRoom r f).out = s.out := rfl
@[simp] theorem State.mapRoom_pending (s : State) (r : Nat) (f : Room → Room) : (s.mapRoom r f).pending = s.pending := rfl

/-! ## mapDev -/

@[simp] theorem State.mapDev_now (s : State) (h : Nat) (f : PoolDev → PoolDev) : (s.mapDev h f).now = s.now := rfl
@[simp] theorem State.mapDev_regs (s : State) (h : Nat) (f : PoolDev → PoolDev) : (s.mapDev h f).regs = s.regs := rfl
@[simp] theorem State.mapDev_latch (s : State) (h : Nat) (f : PoolDev → PoolDev) : (s.mapDev h f).latch = s.latch := rfl
@[simp] theorem State.mapDev_mem (s : State) (h : Nat) (f : PoolDev → PoolDev) : (s.mapDev h f).mem = s.mem := rfl
@[simp] theorem State.mapDev_poison (s : State) (h : Nat) (f : PoolDev → PoolDev) : (s.mapDev h f).poison = s.poison := rfl
@[simp] theorem State.mapDev_cmds (s : State) (h : Nat) (f : PoolDev → PoolDev) : (s.mapDev h f).cmds = s.cmds := rfl
@[simp] theorem State.mapDev_flt (s : State) (h : Nat) (f : PoolDev → PoolDev) : (s.mapDev h f).flt = s.flt := rfl
@[simp] theorem State.mapDev_home (s : State) (h : Nat) (f : PoolDev → PoolDev) : (s.mapDev h f).home = s.home := rfl
@[simp] theorem State.mapDev_pan (s : State) (h : Nat) (f : PoolDev → PoolDev) : (s.mapDev h f).pan = s.pan := rfl
@[simp] theorem State.mapDev_ep (s : State) (h : Nat) (f : PoolDev → PoolDev) : (s.mapDev h f).ep = s.ep := rfl
@[simp] theorem State.mapDev_ports (s : State) (h : Nat) (f : PoolDev → PoolDev) : (s.mapDev h f).ports = s.ports := rfl
@[simp] theorem State.mapDev_mov (s : State) (h : Nat) (f : PoolDev → PoolDev) : (s.mapDev h f).mov = s.mov := rfl
@[simp] theorem State.mapDev_links (s : State) (h : Nat) (f : PoolDev → PoolDev) : (s.mapDev h f).links = s.links := rfl
@[simp] theorem State.mapDev_fab (s : State) (h : Nat) (f : PoolDev → PoolDev) : (s.mapDev h f).fab = s.fab := rfl
@[simp] theorem State.mapDev_dwy (s : State) (h : Nat) (f : PoolDev → PoolDev) : (s.mapDev h f).dwy = s.dwy := rfl
@[simp] theorem State.mapDev_dbg (s : State) (h : Nat) (f : PoolDev → PoolDev) : (s.mapDev h f).dbg = s.dbg := rfl
@[simp] theorem State.mapDev_pwr (s : State) (h : Nat) (f : PoolDev → PoolDev) : (s.mapDev h f).pwr = s.pwr := rfl
@[simp] theorem State.mapDev_mail (s : State) (h : Nat) (f : PoolDev → PoolDev) : (s.mapDev h f).mail = s.mail := rfl
@[simp] theorem State.mapDev_fresh (s : State) (h : Nat) (f : PoolDev → PoolDev) : (s.mapDev h f).fresh = s.fresh := rfl
@[simp] theorem State.mapDev_out (s : State) (h : Nat) (f : PoolDev → PoolDev) : (s.mapDev h f).out = s.out := rfl
@[simp] theorem State.mapDev_pending (s : State) (h : Nat) (f : PoolDev → PoolDev) : (s.mapDev h f).pending = s.pending := rfl

/-! ## mapTrk -/

@[simp] theorem State.mapTrk_now (s : State) (id : Nat) (f : Trk → Trk) : (s.mapTrk id f).now = s.now := rfl
@[simp] theorem State.mapTrk_regs (s : State) (id : Nat) (f : Trk → Trk) : (s.mapTrk id f).regs = s.regs := rfl
@[simp] theorem State.mapTrk_latch (s : State) (id : Nat) (f : Trk → Trk) : (s.mapTrk id f).latch = s.latch := rfl
@[simp] theorem State.mapTrk_mem (s : State) (id : Nat) (f : Trk → Trk) : (s.mapTrk id f).mem = s.mem := rfl
@[simp] theorem State.mapTrk_poison (s : State) (id : Nat) (f : Trk → Trk) : (s.mapTrk id f).poison = s.poison := rfl
@[simp] theorem State.mapTrk_cmds (s : State) (id : Nat) (f : Trk → Trk) : (s.mapTrk id f).cmds = s.cmds := rfl
@[simp] theorem State.mapTrk_flt (s : State) (id : Nat) (f : Trk → Trk) : (s.mapTrk id f).flt = s.flt := rfl
@[simp] theorem State.mapTrk_pool (s : State) (id : Nat) (f : Trk → Trk) : (s.mapTrk id f).pool = s.pool := rfl
@[simp] theorem State.mapTrk_pan (s : State) (id : Nat) (f : Trk → Trk) : (s.mapTrk id f).pan = s.pan := rfl
@[simp] theorem State.mapTrk_ep (s : State) (id : Nat) (f : Trk → Trk) : (s.mapTrk id f).ep = s.ep := rfl
@[simp] theorem State.mapTrk_ports (s : State) (id : Nat) (f : Trk → Trk) : (s.mapTrk id f).ports = s.ports := rfl
@[simp] theorem State.mapTrk_mov (s : State) (id : Nat) (f : Trk → Trk) : (s.mapTrk id f).mov = s.mov := rfl
@[simp] theorem State.mapTrk_links (s : State) (id : Nat) (f : Trk → Trk) : (s.mapTrk id f).links = s.links := rfl
@[simp] theorem State.mapTrk_fab (s : State) (id : Nat) (f : Trk → Trk) : (s.mapTrk id f).fab = s.fab := rfl
@[simp] theorem State.mapTrk_dwy (s : State) (id : Nat) (f : Trk → Trk) : (s.mapTrk id f).dwy = s.dwy := rfl
@[simp] theorem State.mapTrk_dbg (s : State) (id : Nat) (f : Trk → Trk) : (s.mapTrk id f).dbg = s.dbg := rfl
@[simp] theorem State.mapTrk_pwr (s : State) (id : Nat) (f : Trk → Trk) : (s.mapTrk id f).pwr = s.pwr := rfl
@[simp] theorem State.mapTrk_mail (s : State) (id : Nat) (f : Trk → Trk) : (s.mapTrk id f).mail = s.mail := rfl
@[simp] theorem State.mapTrk_fresh (s : State) (id : Nat) (f : Trk → Trk) : (s.mapTrk id f).fresh = s.fresh := rfl
@[simp] theorem State.mapTrk_out (s : State) (id : Nat) (f : Trk → Trk) : (s.mapTrk id f).out = s.out := rfl
@[simp] theorem State.mapTrk_pending (s : State) (id : Nat) (f : Trk → Trk) : (s.mapTrk id f).pending = s.pending := rfl

/-! ## mapLend -/

@[simp] theorem State.mapLend_now (s : State) (k : Nat) (f : LinkEnd → LinkEnd) : (s.mapLend k f).now = s.now := rfl
@[simp] theorem State.mapLend_regs (s : State) (k : Nat) (f : LinkEnd → LinkEnd) : (s.mapLend k f).regs = s.regs := rfl
@[simp] theorem State.mapLend_latch (s : State) (k : Nat) (f : LinkEnd → LinkEnd) : (s.mapLend k f).latch = s.latch := rfl
@[simp] theorem State.mapLend_mem (s : State) (k : Nat) (f : LinkEnd → LinkEnd) : (s.mapLend k f).mem = s.mem := rfl
@[simp] theorem State.mapLend_poison (s : State) (k : Nat) (f : LinkEnd → LinkEnd) : (s.mapLend k f).poison = s.poison := rfl
@[simp] theorem State.mapLend_cmds (s : State) (k : Nat) (f : LinkEnd → LinkEnd) : (s.mapLend k f).cmds = s.cmds := rfl
@[simp] theorem State.mapLend_flt (s : State) (k : Nat) (f : LinkEnd → LinkEnd) : (s.mapLend k f).flt = s.flt := rfl
@[simp] theorem State.mapLend_pool (s : State) (k : Nat) (f : LinkEnd → LinkEnd) : (s.mapLend k f).pool = s.pool := rfl
@[simp] theorem State.mapLend_home (s : State) (k : Nat) (f : LinkEnd → LinkEnd) : (s.mapLend k f).home = s.home := rfl
@[simp] theorem State.mapLend_pan (s : State) (k : Nat) (f : LinkEnd → LinkEnd) : (s.mapLend k f).pan = s.pan := rfl
@[simp] theorem State.mapLend_ep (s : State) (k : Nat) (f : LinkEnd → LinkEnd) : (s.mapLend k f).ep = s.ep := rfl
@[simp] theorem State.mapLend_ports (s : State) (k : Nat) (f : LinkEnd → LinkEnd) : (s.mapLend k f).ports = s.ports := rfl
@[simp] theorem State.mapLend_mov (s : State) (k : Nat) (f : LinkEnd → LinkEnd) : (s.mapLend k f).mov = s.mov := rfl
@[simp] theorem State.mapLend_fab (s : State) (k : Nat) (f : LinkEnd → LinkEnd) : (s.mapLend k f).fab = s.fab := rfl
@[simp] theorem State.mapLend_dwy (s : State) (k : Nat) (f : LinkEnd → LinkEnd) : (s.mapLend k f).dwy = s.dwy := rfl
@[simp] theorem State.mapLend_dbg (s : State) (k : Nat) (f : LinkEnd → LinkEnd) : (s.mapLend k f).dbg = s.dbg := rfl
@[simp] theorem State.mapLend_pwr (s : State) (k : Nat) (f : LinkEnd → LinkEnd) : (s.mapLend k f).pwr = s.pwr := rfl
@[simp] theorem State.mapLend_mail (s : State) (k : Nat) (f : LinkEnd → LinkEnd) : (s.mapLend k f).mail = s.mail := rfl
@[simp] theorem State.mapLend_fresh (s : State) (k : Nat) (f : LinkEnd → LinkEnd) : (s.mapLend k f).fresh = s.fresh := rfl
@[simp] theorem State.mapLend_out (s : State) (k : Nat) (f : LinkEnd → LinkEnd) : (s.mapLend k f).out = s.out := rfl
@[simp] theorem State.mapLend_pending (s : State) (k : Nat) (f : LinkEnd → LinkEnd) : (s.mapLend k f).pending = s.pending := rfl

/-! ## setChan -/

@[simp] theorem State.setChan_now (s : State) (n : Nat) (c : MChan) : (s.setChan n c).now = s.now := rfl
@[simp] theorem State.setChan_regs (s : State) (n : Nat) (c : MChan) : (s.setChan n c).regs = s.regs := rfl
@[simp] theorem State.setChan_latch (s : State) (n : Nat) (c : MChan) : (s.setChan n c).latch = s.latch := rfl
@[simp] theorem State.setChan_mem (s : State) (n : Nat) (c : MChan) : (s.setChan n c).mem = s.mem := rfl
@[simp] theorem State.setChan_poison (s : State) (n : Nat) (c : MChan) : (s.setChan n c).poison = s.poison := rfl
@[simp] theorem State.setChan_cmds (s : State) (n : Nat) (c : MChan) : (s.setChan n c).cmds = s.cmds := rfl
@[simp] theorem State.setChan_flt (s : State) (n : Nat) (c : MChan) : (s.setChan n c).flt = s.flt := rfl
@[simp] theorem State.setChan_pool (s : State) (n : Nat) (c : MChan) : (s.setChan n c).pool = s.pool := rfl
@[simp] theorem State.setChan_home (s : State) (n : Nat) (c : MChan) : (s.setChan n c).home = s.home := rfl
@[simp] theorem State.setChan_pan (s : State) (n : Nat) (c : MChan) : (s.setChan n c).pan = s.pan := rfl
@[simp] theorem State.setChan_ep (s : State) (n : Nat) (c : MChan) : (s.setChan n c).ep = s.ep := rfl
@[simp] theorem State.setChan_ports (s : State) (n : Nat) (c : MChan) : (s.setChan n c).ports = s.ports := rfl
@[simp] theorem State.setChan_links (s : State) (n : Nat) (c : MChan) : (s.setChan n c).links = s.links := rfl
@[simp] theorem State.setChan_fab (s : State) (n : Nat) (c : MChan) : (s.setChan n c).fab = s.fab := rfl
@[simp] theorem State.setChan_dwy (s : State) (n : Nat) (c : MChan) : (s.setChan n c).dwy = s.dwy := rfl
@[simp] theorem State.setChan_dbg (s : State) (n : Nat) (c : MChan) : (s.setChan n c).dbg = s.dbg := rfl
@[simp] theorem State.setChan_pwr (s : State) (n : Nat) (c : MChan) : (s.setChan n c).pwr = s.pwr := rfl
@[simp] theorem State.setChan_mail (s : State) (n : Nat) (c : MChan) : (s.setChan n c).mail = s.mail := rfl
@[simp] theorem State.setChan_fresh (s : State) (n : Nat) (c : MChan) : (s.setChan n c).fresh = s.fresh := rfl
@[simp] theorem State.setChan_out (s : State) (n : Nat) (c : MChan) : (s.setChan n c).out = s.out := rfl
@[simp] theorem State.setChan_pending (s : State) (n : Nat) (c : MChan) : (s.setChan n c).pending = s.pending := rfl

/-! ## mapMig -/

@[simp] theorem State.mapMig_now (s : State) (x : Nat) (f : Mig → Mig) : (s.mapMig x f).now = s.now := rfl
@[simp] theorem State.mapMig_regs (s : State) (x : Nat) (f : Mig → Mig) : (s.mapMig x f).regs = s.regs := rfl
@[simp] theorem State.mapMig_latch (s : State) (x : Nat) (f : Mig → Mig) : (s.mapMig x f).latch = s.latch := rfl
@[simp] theorem State.mapMig_mem (s : State) (x : Nat) (f : Mig → Mig) : (s.mapMig x f).mem = s.mem := rfl
@[simp] theorem State.mapMig_poison (s : State) (x : Nat) (f : Mig → Mig) : (s.mapMig x f).poison = s.poison := rfl
@[simp] theorem State.mapMig_cmds (s : State) (x : Nat) (f : Mig → Mig) : (s.mapMig x f).cmds = s.cmds := rfl
@[simp] theorem State.mapMig_flt (s : State) (x : Nat) (f : Mig → Mig) : (s.mapMig x f).flt = s.flt := rfl
@[simp] theorem State.mapMig_pool (s : State) (x : Nat) (f : Mig → Mig) : (s.mapMig x f).pool = s.pool := rfl
@[simp] theorem State.mapMig_home (s : State) (x : Nat) (f : Mig → Mig) : (s.mapMig x f).home = s.home := rfl
@[simp] theorem State.mapMig_pan (s : State) (x : Nat) (f : Mig → Mig) : (s.mapMig x f).pan = s.pan := rfl
@[simp] theorem State.mapMig_ep (s : State) (x : Nat) (f : Mig → Mig) : (s.mapMig x f).ep = s.ep := rfl
@[simp] theorem State.mapMig_ports (s : State) (x : Nat) (f : Mig → Mig) : (s.mapMig x f).ports = s.ports := rfl
@[simp] theorem State.mapMig_links (s : State) (x : Nat) (f : Mig → Mig) : (s.mapMig x f).links = s.links := rfl
@[simp] theorem State.mapMig_fab (s : State) (x : Nat) (f : Mig → Mig) : (s.mapMig x f).fab = s.fab := rfl
@[simp] theorem State.mapMig_dwy (s : State) (x : Nat) (f : Mig → Mig) : (s.mapMig x f).dwy = s.dwy := rfl
@[simp] theorem State.mapMig_dbg (s : State) (x : Nat) (f : Mig → Mig) : (s.mapMig x f).dbg = s.dbg := rfl
@[simp] theorem State.mapMig_pwr (s : State) (x : Nat) (f : Mig → Mig) : (s.mapMig x f).pwr = s.pwr := rfl
@[simp] theorem State.mapMig_mail (s : State) (x : Nat) (f : Mig → Mig) : (s.mapMig x f).mail = s.mail := rfl
@[simp] theorem State.mapMig_fresh (s : State) (x : Nat) (f : Mig → Mig) : (s.mapMig x f).fresh = s.fresh := rfl
@[simp] theorem State.mapMig_out (s : State) (x : Nat) (f : Mig → Mig) : (s.mapMig x f).out = s.out := rfl
@[simp] theorem State.mapMig_pending (s : State) (x : Nat) (f : Mig → Mig) : (s.mapMig x f).pending = s.pending := rfl

/-! ## mapRing -/

@[simp] theorem State.mapRing_now (s : State) (n : Nat) (f : Ring → Ring) : (s.mapRing n f).now = s.now := rfl
@[simp] theorem State.mapRing_regs (s : State) (n : Nat) (f : Ring → Ring) : (s.mapRing n f).regs = s.regs := rfl
@[simp] theorem State.mapRing_latch (s : State) (n : Nat) (f : Ring → Ring) : (s.mapRing n f).latch = s.latch := rfl
@[simp] theorem State.mapRing_mem (s : State) (n : Nat) (f : Ring → Ring) : (s.mapRing n f).mem = s.mem := rfl
@[simp] theorem State.mapRing_poison (s : State) (n : Nat) (f : Ring → Ring) : (s.mapRing n f).poison = s.poison := rfl
@[simp] theorem State.mapRing_flt (s : State) (n : Nat) (f : Ring → Ring) : (s.mapRing n f).flt = s.flt := rfl
@[simp] theorem State.mapRing_pool (s : State) (n : Nat) (f : Ring → Ring) : (s.mapRing n f).pool = s.pool := rfl
@[simp] theorem State.mapRing_home (s : State) (n : Nat) (f : Ring → Ring) : (s.mapRing n f).home = s.home := rfl
@[simp] theorem State.mapRing_pan (s : State) (n : Nat) (f : Ring → Ring) : (s.mapRing n f).pan = s.pan := rfl
@[simp] theorem State.mapRing_ep (s : State) (n : Nat) (f : Ring → Ring) : (s.mapRing n f).ep = s.ep := rfl
@[simp] theorem State.mapRing_ports (s : State) (n : Nat) (f : Ring → Ring) : (s.mapRing n f).ports = s.ports := rfl
@[simp] theorem State.mapRing_mov (s : State) (n : Nat) (f : Ring → Ring) : (s.mapRing n f).mov = s.mov := rfl
@[simp] theorem State.mapRing_links (s : State) (n : Nat) (f : Ring → Ring) : (s.mapRing n f).links = s.links := rfl
@[simp] theorem State.mapRing_fab (s : State) (n : Nat) (f : Ring → Ring) : (s.mapRing n f).fab = s.fab := rfl
@[simp] theorem State.mapRing_dwy (s : State) (n : Nat) (f : Ring → Ring) : (s.mapRing n f).dwy = s.dwy := rfl
@[simp] theorem State.mapRing_dbg (s : State) (n : Nat) (f : Ring → Ring) : (s.mapRing n f).dbg = s.dbg := rfl
@[simp] theorem State.mapRing_pwr (s : State) (n : Nat) (f : Ring → Ring) : (s.mapRing n f).pwr = s.pwr := rfl
@[simp] theorem State.mapRing_mail (s : State) (n : Nat) (f : Ring → Ring) : (s.mapRing n f).mail = s.mail := rfl
@[simp] theorem State.mapRing_fresh (s : State) (n : Nat) (f : Ring → Ring) : (s.mapRing n f).fresh = s.fresh := rfl
@[simp] theorem State.mapRing_out (s : State) (n : Nat) (f : Ring → Ring) : (s.mapRing n f).out = s.out := rfl
@[simp] theorem State.mapRing_pending (s : State) (n : Nat) (f : Ring → Ring) : (s.mapRing n f).pending = s.pending := rfl

/-! ## fresh1 -/

@[simp] theorem State.fresh1_now (s : State) : s.fresh1.2.now = s.now := rfl
@[simp] theorem State.fresh1_regs (s : State) : s.fresh1.2.regs = s.regs := rfl
@[simp] theorem State.fresh1_latch (s : State) : s.fresh1.2.latch = s.latch := rfl
@[simp] theorem State.fresh1_mem (s : State) : s.fresh1.2.mem = s.mem := rfl
@[simp] theorem State.fresh1_poison (s : State) : s.fresh1.2.poison = s.poison := rfl
@[simp] theorem State.fresh1_cmds (s : State) : s.fresh1.2.cmds = s.cmds := rfl
@[simp] theorem State.fresh1_flt (s : State) : s.fresh1.2.flt = s.flt := rfl
@[simp] theorem State.fresh1_pool (s : State) : s.fresh1.2.pool = s.pool := rfl
@[simp] theorem State.fresh1_pan (s : State) : s.fresh1.2.pan = s.pan := rfl
@[simp] theorem State.fresh1_ep (s : State) : s.fresh1.2.ep = s.ep := rfl
@[simp] theorem State.fresh1_ports (s : State) : s.fresh1.2.ports = s.ports := rfl
@[simp] theorem State.fresh1_mov (s : State) : s.fresh1.2.mov = s.mov := rfl
@[simp] theorem State.fresh1_links (s : State) : s.fresh1.2.links = s.links := rfl
@[simp] theorem State.fresh1_fab (s : State) : s.fresh1.2.fab = s.fab := rfl
@[simp] theorem State.fresh1_dwy (s : State) : s.fresh1.2.dwy = s.dwy := rfl
@[simp] theorem State.fresh1_dbg (s : State) : s.fresh1.2.dbg = s.dbg := rfl
@[simp] theorem State.fresh1_pwr (s : State) : s.fresh1.2.pwr = s.pwr := rfl
@[simp] theorem State.fresh1_mail (s : State) : s.fresh1.2.mail = s.mail := rfl
@[simp] theorem State.fresh1_fresh (s : State) : s.fresh1.2.fresh = s.fresh := rfl
@[simp] theorem State.fresh1_out (s : State) : s.fresh1.2.out = s.out := rfl
@[simp] theorem State.fresh1_pending (s : State) : s.fresh1.2.pending = s.pending := rfl

/-! ## free -/

@[simp] theorem State.free_now (s : State) : s.free.2.now = s.now := rfl
@[simp] theorem State.free_regs (s : State) : s.free.2.regs = s.regs := rfl
@[simp] theorem State.free_latch (s : State) : s.free.2.latch = s.latch := rfl
@[simp] theorem State.free_mem (s : State) : s.free.2.mem = s.mem := rfl
@[simp] theorem State.free_poison (s : State) : s.free.2.poison = s.poison := rfl
@[simp] theorem State.free_cmds (s : State) : s.free.2.cmds = s.cmds := rfl
@[simp] theorem State.free_flt (s : State) : s.free.2.flt = s.flt := rfl
@[simp] theorem State.free_pool (s : State) : s.free.2.pool = s.pool := rfl
@[simp] theorem State.free_home (s : State) : s.free.2.home = s.home := rfl
@[simp] theorem State.free_pan (s : State) : s.free.2.pan = s.pan := rfl
@[simp] theorem State.free_ep (s : State) : s.free.2.ep = s.ep := rfl
@[simp] theorem State.free_ports (s : State) : s.free.2.ports = s.ports := rfl
@[simp] theorem State.free_mov (s : State) : s.free.2.mov = s.mov := rfl
@[simp] theorem State.free_links (s : State) : s.free.2.links = s.links := rfl
@[simp] theorem State.free_fab (s : State) : s.free.2.fab = s.fab := rfl
@[simp] theorem State.free_dwy (s : State) : s.free.2.dwy = s.dwy := rfl
@[simp] theorem State.free_dbg (s : State) : s.free.2.dbg = s.dbg := rfl
@[simp] theorem State.free_pwr (s : State) : s.free.2.pwr = s.pwr := rfl
@[simp] theorem State.free_mail (s : State) : s.free.2.mail = s.mail := rfl
@[simp] theorem State.free_out (s : State) : s.free.2.out = s.out := rfl
@[simp] theorem State.free_pending (s : State) : s.free.2.pending = s.pending := rfl

/-! ## What each update sets -/

@[simp] theorem State.mapCmds_sets (s : State) (f : Cmds → Cmds) : (s.mapCmds f).cmds = f s.cmds := rfl
@[simp] theorem State.mapFlt_sets (s : State) (f : Faults → Faults) : (s.mapFlt f).flt = f s.flt := rfl
@[simp] theorem State.mapPool_sets (s : State) (f : Pool → Pool) : (s.mapPool f).pool = f s.pool := rfl
@[simp] theorem State.mapHome_sets (s : State) (f : Home → Home) : (s.mapHome f).home = f s.home := rfl
@[simp] theorem State.mapPan_sets (s : State) (f : Pantry → Pantry) : (s.mapPan f).pan = f s.pan := rfl
@[simp] theorem State.mapPorts_sets (s : State) (f : Ports → Ports) : (s.mapPorts f).ports = f s.ports := rfl
@[simp] theorem State.mapMov_sets (s : State) (f : Mover → Mover) : (s.mapMov f).mov = f s.mov := rfl
@[simp] theorem State.mapLinks_sets (s : State) (f : Links → Links) : (s.mapLinks f).links = f s.links := rfl
@[simp] theorem State.mapFab_sets (s : State) (f : Fabric → Fabric) : (s.mapFab f).fab = f s.fab := rfl
@[simp] theorem State.mapDbg_sets (s : State) (f : Debug → Debug) : (s.mapDbg f).dbg = f s.dbg := rfl
@[simp] theorem State.mapPwr_sets (s : State) (f : Power → Power) : (s.mapPwr f).pwr = f s.pwr := rfl
theorem State.at_sets (s : State) (t : Nat) : (s.at t).now = Nat.max s.now t := rfl
@[simp] theorem State.emit_sets (s : State) (o : Out) : (s.emit o).out = s.out ++ [o] := rfl
@[simp] theorem State.setReg_sets (s : State) (off : Nat) (v : Word) : (s.setReg off v).regs = NMap.set s.regs off v := rfl

end Sys2Proof.Machine
end

