-- ==== Sys2Proof/Laws/Memory.lean ====
section
/-! SUPPORT. HBM and flash bytes: a read after a write, and every operation of memory keeps the canonical form. -/

namespace Sys2Proof.Machine

@[simp] theorem Memory.read_nil (x : Nat) : Memory.read [] x = Memory.unlisted := rfl

/-- The tail of a list in canonical form is in canonical form. -/
theorem Memory.wf_tail {c : Host.Cell} {m : List Host.Cell} (h : Memory.wf (c :: m) = true) : Memory.wf m = true := by
  obtain ⟨a, b⟩ := c
  cases m with
  | nil => rfl
  | cons d m => obtain ⟨a', b'⟩ := d; simp only [Memory.wf, Bool.and_eq_true] at h; exact h.2

/-- No byte is listed with the unlisted value. -/
theorem Memory.wf_head {a : Nat} {b : BitVec 8} {m : List Host.Cell} (h : Memory.wf ((a, b) :: m) = true) : b ≠ Memory.unlisted := by
  cases m with
  | nil => simpa [Memory.wf] using h
  | cons d m => obtain ⟨a', b'⟩ := d; simp only [Memory.wf, Bool.and_eq_true, bne_iff_ne] at h; exact h.1.1

/-- Every later address of a canonical list is above the first. -/
theorem Memory.wf_above {a : Nat} {b : BitVec 8} {m : List Host.Cell} (h : Memory.wf ((a, b) :: m) = true) :
    ∀ c ∈ m, a < c.1 := by
  induction m generalizing a b with
  | nil => simp
  | cons d m ih =>
    obtain ⟨a', b'⟩ := d
    simp only [Memory.wf, Bool.and_eq_true, decide_eq_true_eq] at h
    intro c hc
    rcases List.mem_cons.1 hc with rfl | hc
    · exact h.1.2
    · exact Nat.lt_trans h.1.2 (ih h.2 c hc)

/-- A list is canonical with a byte before it that is listed rightly and below. -/
theorem Memory.wf_cons {a : Nat} {b : BitVec 8} {m : List Host.Cell} (hb : b ≠ Memory.unlisted) (ha : ∀ c ∈ m, a < c.1)
    (h : Memory.wf m = true) : Memory.wf ((a, b) :: m) = true := by
  cases m with
  | nil => simp [Memory.wf, hb]
  | cons d m =>
    obtain ⟨a', b'⟩ := d
    simp [Memory.wf, hb, h, ha (a', b') (List.mem_cons_self ..)]

/-- A byte below every listed address reads as unlisted. -/
theorem Memory.read_below {m : List Host.Cell} {x : Nat} (h : ∀ c ∈ m, x < c.1) : Memory.read m x = Memory.unlisted := by
  induction m with
  | nil => rfl
  | cons d m ih =>
    obtain ⟨a, b⟩ := d
    have h1 : x < a := h (a, b) (List.mem_cons_self ..)
    simp only [Memory.read]
    rw [if_neg (by omega)]
    exact ih fun c hc => h c (List.mem_cons_of_mem _ hc)

/-- The addresses after a write are the old ones and perhaps the one written. -/
theorem Memory.mem_write {m : List Host.Cell} {x : Nat} {v : BitVec 8} {c : Host.Cell} (h : c ∈ Memory.write m x v) :
    c = (x, v) ∨ c ∈ m := by
  induction m with
  | nil =>
    simp only [Memory.write] at h
    split at h <;> simp_all
  | cons d m ih =>
    obtain ⟨a, b⟩ := d
    simp only [Memory.write] at h
    split at h
    · split at h <;> simp_all
    · split at h
      · split at h <;> first | (simp_all; done) | (simp_all; tauto)
      · rcases List.mem_cons.1 h with h | h
        · exact .inr (h ▸ List.mem_cons_self ..)
        · exact (ih h).imp id (List.mem_cons_of_mem _)

/-- A write keeps the canonical form. -/
theorem Memory.write_wf {m : List Host.Cell} (h : Memory.wf m = true) (x : Nat) (v : BitVec 8) : Memory.wf (Memory.write m x v) = true := by
  induction m with
  | nil => simp only [Memory.write]; split <;> simp_all [Memory.wf]
  | cons d m ih =>
    obtain ⟨a, b⟩ := d
    have hb := Memory.wf_head h
    have ha := Memory.wf_above h
    have ht := Memory.wf_tail h
    simp only [Memory.write]
    split
    · split
      · exact h
      · rename_i hx hv
        refine Memory.wf_cons hv (fun c hc => ?_) h
        rcases List.mem_cons.1 hc with rfl | hc
        · exact hx
        · exact Nat.lt_trans hx (ha c hc)
    · split
      · split
        · exact ht
        · rename_i hx hv
          subst hx
          exact Memory.wf_cons hv ha ht
      · rename_i h1 h2
        refine Memory.wf_cons hb (fun c hc => ?_) (ih ht)
        rcases Memory.mem_write hc with rfl | hc
        · simp only; omega
        · exact ha c hc

/-- A byte written reads back. -/
theorem Memory.read_write_same {m : List Host.Cell} (h : Memory.wf m = true) (x : Nat) (v : BitVec 8) :
    Memory.read (Memory.write m x v) x = v := by
  induction m with
  | nil => simp only [Memory.write]; split <;> simp_all [Memory.read]
  | cons d m ih =>
    obtain ⟨a, b⟩ := d
    have ha := Memory.wf_above h
    simp only [Memory.write]
    split
    · rename_i hx
      split
      · rename_i hv
        have : ∀ c ∈ (a, b) :: m, x < c.1 := by
          intro c hc
          rcases List.mem_cons.1 hc with rfl | hc
          · exact hx
          · exact Nat.lt_trans hx (ha c hc)
        rw [Memory.read_below this, hv]
      · simp [Memory.read]
    · split
      · rename_i hx
        subst hx
        split
        · rename_i hv
          rw [Memory.read_below ha, hv]
        · simp [Memory.read]
      · rename_i h1 h2
        simp only [Memory.read, if_neg h2]
        exact ih (Memory.wf_tail h)

/-- A write leaves every other byte alone. -/
theorem Memory.read_write_other (m : List Host.Cell) {x y : Nat} (v : BitVec 8) (h : y ≠ x) :
    Memory.read (Memory.write m x v) y = Memory.read m y := by
  induction m with
  | nil => simp only [Memory.write]; split <;> simp [Memory.read, h]
  | cons d m ih =>
    obtain ⟨a, b⟩ := d
    simp only [Memory.write]
    split
    · split
      · rfl
      · simp [Memory.read, h]
    · split
      · rename_i hx
        subst hx
        split <;> simp [Memory.read, h]
      · simp only [Memory.read, ih]

/-- Byte writes keep the canonical form. -/
theorem Memory.writeBytes_wf {m : List Host.Cell} (h : Memory.wf m = true) (x : Nat) (bs : List Byte) :
    Memory.wf (Memory.writeBytes m x bs) = true := by
  induction bs generalizing m x with
  | nil => exact h
  | cons b bs ih => exact ih (Memory.write_wf h x b) (x + 1)

/-- Writes under byte enables keep the canonical form. -/
theorem Memory.writeEn_wf {m : List Host.Cell} (h : Memory.wf m = true) (a : Nat) (l : Line) (be : B64) (n : Nat) :
    Memory.wf (Memory.writeEn m a l be n) = true := by
  induction n with
  | zero => exact h
  | succ n ih => simp only [Memory.writeEn]; split <;> [exact Memory.write_wf ih _ _; exact ih]

/-- A part of a canonical list is canonical. -/
theorem Memory.filter_wf {m : List Host.Cell} (h : Memory.wf m = true) (p : Host.Cell → Bool) : Memory.wf (m.filter p) = true := by
  induction m with
  | nil => rfl
  | cons d m ih =>
    obtain ⟨a, b⟩ := d
    simp only [List.filter_cons]
    split
    · exact Memory.wf_cons (Memory.wf_head h) (fun c hc => Memory.wf_above h c (List.mem_filter.1 hc).1) (ih (Memory.wf_tail h))
    · exact ih (Memory.wf_tail h)

/-- A line write keeps the canonical form. -/
theorem State.writeLine_wf {s : State} (h : Memory.wf s.mem = true) (a : Nat) (l : Line) (be : B64) (p : Bool) :
    Memory.wf (s.writeLine a l be p).mem = true := Memory.writeEn_wf h a l be 64

/-- A line write leaves every byte outside the line alone. -/
theorem Memory.read_writeEn_other (m : List Host.Cell) (a : Nat) (l : Line) (be : B64) (n : Nat) {y : Nat}
    (h : y < a ∨ a + n ≤ y) : Memory.read (Memory.writeEn m a l be n) y = Memory.read m y := by
  induction n with
  | zero => rfl
  | succ n ih =>
    have ih' := ih (by omega)
    simp only [Memory.writeEn]
    split
    · rw [Memory.read_write_other _ _ (by omega), ih']
    · exact ih'

/-- A byte of the line reads as written where it is enabled, and as before where it is not. -/
theorem Memory.read_writeEn {m : List Host.Cell} (hm : Memory.wf m = true) (a : Nat) (l : Line) (be : B64) (n : Nat) {i : Nat} (h : i < n) :
    Memory.read (Memory.writeEn m a l be n) (a + i) =
      if be.getLsbD i then BitVec.ofNat 8 (l.toNat / 256 ^ i) else Memory.read m (a + i) := by
  induction n with
  | zero => omega
  | succ n ih =>
    simp only [Memory.writeEn]
    by_cases hi : i = n
    · subst hi
      split
      · rw [Memory.read_write_same (Memory.writeEn_wf hm a l be i)]
      · rw [Memory.read_writeEn_other _ _ _ _ _ (by omega)]
    · split
      · rw [Memory.read_write_other _ _ (by omega), ih (by omega)]
      · exact ih (by omega)

end Sys2Proof.Machine
end

