-- ==== Sys2Proof/Laws/Mover.lean ====
section
/-! SUPPORT. What the row of a Mover channel does with a descriptor or a migration step that the channel has. -/

namespace Sys2Proof.Machine

theorem descRow_runs {s u : State} {n : Nat} {dev dev1 : List DevRsp} {j : Job} {head type : Nat} {d : Desc}
    (h : RunsDesc s u n dev dev1 j head d) (ht : d.type = type) (h5 : type < 5) :
    s.descRow n type 0 dev =
      (let r := State.runDesc (2 * (d.len / 64) + 4) u n j d dev1
       r.2.goesOn n j r.1) := by
  obtain ⟨h1, h2, h3, h4, h6⟩ := h
  have h7 : ¬ type = 5 := by omega
  subst ht
  simp [State.descRow, h1, h2, h3, h4, h6, h7, State.goesOn]

theorem descRow_mig {s u : State} {n : Nat} {dev dev1 : List DevRsp} {j : Job} {x k : Nat} {m : Mig}
    (h : RunsMig s u n dev dev1 j x k m) : s.descRow n 5 k dev = u.migRow n x k dev1 := by
  obtain ⟨h1, h2, h3, h4, -, -⟩ := h
  simp [State.descRow, h1, h2, h3, h4]

end Sys2Proof.Machine
end

