-- ==== Sys2Proof/Laws/Ops.lean ====
section
/-! SUPPORT. What the shared operations over registers, events and the Attic can do. -/

namespace Sys2Proof.Machine

/-! ## Vectors, events, reports: what they leave as it is -/

@[simp] theorem State.raise_now (s : State) (v : Nat) : (s.raise v).now = s.now := by
  unfold State.raise; split <;> rfl
@[simp] theorem State.raise_regs (s : State) (v : Nat) : (s.raise v).regs = s.regs := by
  unfold State.raise; split <;> rfl
@[simp] theorem State.raise_latch (s : State) (v : Nat) : (s.raise v).latch = s.latch := by
  unfold State.raise; split <;> rfl
@[simp] theorem State.raise_mem (s : State) (v : Nat) : (s.raise v).mem = s.mem := by
  unfold State.raise; split <;> rfl
@[simp] theorem State.raise_poison (s : State) (v : Nat) : (s.raise v).poison = s.poison := by
  unfold State.raise; split <;> rfl
@[simp] theorem State.raise_cmds (s : State) (v : Nat) : (s.raise v).cmds = s.cmds := by
  unfold State.raise; split <;> rfl
@[simp] theorem State.raise_flt (s : State) (v : Nat) : (s.raise v).flt = s.flt := by
  unfold State.raise; split <;> rfl
@[simp] theorem State.raise_pool (s : State) (v : Nat) : (s.raise v).pool = s.pool := by
  unfold State.raise; split <;> rfl
@[simp] theorem State.raise_home (s : State) (v : Nat) : (s.raise v).home = s.home := by
  unfold State.raise; split <;> rfl
@[simp] theorem State.raise_pan (s : State) (v : Nat) : (s.raise v).pan = s.pan := by
  unfold State.raise; split <;> rfl
@[simp] theorem State.raise_ports (s : State) (v : Nat) : (s.raise v).ports = s.ports := by
  unfold State.raise; split <;> rfl
@[simp] theorem State.raise_mov (s : State) (v : Nat) : (s.raise v).mov = s.mov := by
  unfold State.raise; split <;> rfl
@[simp] theorem State.raise_links (s : State) (v : Nat) : (s.raise v).links = s.links := by
  unfold State.raise; split <;> rfl
@[simp] theorem State.raise_fab (s : State) (v : Nat) : (s.raise v).fab = s.fab := by
  unfold State.raise; split <;> rfl
@[simp] theorem State.raise_dwy (s : State) (v : Nat) : (s.raise v).dwy = s.dwy := by
  unfold State.raise; split <;> rfl
@[simp] theorem State.raise_dbg (s : State) (v : Nat) : (s.raise v).dbg = s.dbg := by
  unfold State.raise; split <;> rfl
@[simp] theorem State.raise_pwr (s : State) (v : Nat) : (s.raise v).pwr = s.pwr := by
  unfold State.raise; split <;> rfl
@[simp] theorem State.raise_mail (s : State) (v : Nat) : (s.raise v).mail = s.mail := by
  unfold State.raise; split <;> rfl
@[simp] theorem State.raise_fresh (s : State) (v : Nat) : (s.raise v).fresh = s.fresh := by
  unfold State.raise; split <;> rfl
@[simp] theorem State.raise_pending (s : State) (v : Nat) : (s.raise v).pending = s.pending := by
  unfold State.raise; split <;> rfl

@[simp] theorem State.postWords_now (s : State) (ws : List B64) (c : Bool) : (s.postWords ws c).now = s.now := by
  unfold State.postWords; dsimp only; split
  · exact (State.raise_now _ _).trans rfl
  · split <;> rfl
@[simp] theorem State.postWords_latch (s : State) (ws : List B64) (c : Bool) : (s.postWords ws c).latch = s.latch := by
  unfold State.postWords; dsimp only; split
  · exact (State.raise_latch _ _).trans rfl
  · split <;> rfl
@[simp] theorem State.postWords_mem (s : State) (ws : List B64) (c : Bool) : (s.postWords ws c).mem = s.mem := by
  unfold State.postWords; dsimp only; split
  · exact (State.raise_mem _ _).trans rfl
  · split <;> rfl
@[simp] theorem State.postWords_poison (s : State) (ws : List B64) (c : Bool) : (s.postWords ws c).poison = s.poison := by
  unfold State.postWords; dsimp only; split
  · exact (State.raise_poison _ _).trans rfl
  · split <;> rfl
@[simp] theorem State.postWords_flt (s : State) (ws : List B64) (c : Bool) : (s.postWords ws c).flt = s.flt := by
  unfold State.postWords; dsimp only; split
  · exact (State.raise_flt _ _).trans rfl
  · split <;> rfl
@[simp] theorem State.postWords_pool (s : State) (ws : List B64) (c : Bool) : (s.postWords ws c).pool = s.pool := by
  unfold State.postWords; dsimp only; split
  · exact (State.raise_pool _ _).trans rfl
  · split <;> rfl
@[simp] theorem State.postWords_home (s : State) (ws : List B64) (c : Bool) : (s.postWords ws c).home = s.home := by
  unfold State.postWords; dsimp only; split
  · exact (State.raise_home _ _).trans rfl
  · split <;> rfl
@[simp] theorem State.postWords_pan (s : State) (ws : List B64) (c : Bool) : (s.postWords ws c).pan = s.pan := by
  unfold State.postWords; dsimp only; split
  · exact (State.raise_pan _ _).trans rfl
  · split <;> rfl
@[simp] theorem State.postWords_ports (s : State) (ws : List B64) (c : Bool) : (s.postWords ws c).ports = s.ports := by
  unfold State.postWords; dsimp only; split
  · exact (State.raise_ports _ _).trans rfl
  · split <;> rfl
@[simp] theorem State.postWords_mov (s : State) (ws : List B64) (c : Bool) : (s.postWords ws c).mov = s.mov := by
  unfold State.postWords; dsimp only; split
  · exact (State.raise_mov _ _).trans rfl
  · split <;> rfl
@[simp] theorem State.postWords_links (s : State) (ws : List B64) (c : Bool) : (s.postWords ws c).links = s.links := by
  unfold State.postWords; dsimp only; split
  · exact (State.raise_links _ _).trans rfl
  · split <;> rfl
@[simp] theorem State.postWords_fab (s : State) (ws : List B64) (c : Bool) : (s.postWords ws c).fab = s.fab := by
  unfold State.postWords; dsimp only; split
  · exact (State.raise_fab _ _).trans rfl
  · split <;> rfl
@[simp] theorem State.postWords_dwy (s : State) (ws : List B64) (c : Bool) : (s.postWords ws c).dwy = s.dwy := by
  unfold State.postWords; dsimp only; split
  · exact (State.raise_dwy _ _).trans rfl
  · split <;> rfl
@[simp] theorem State.postWords_dbg (s : State) (ws : List B64) (c : Bool) : (s.postWords ws c).dbg = s.dbg := by
  unfold State.postWords; dsimp only; split
  · exact (State.raise_dbg _ _).trans rfl
  · split <;> rfl
@[simp] theorem State.postWords_pwr (s : State) (ws : List B64) (c : Bool) : (s.postWords ws c).pwr = s.pwr := by
  unfold State.postWords; dsimp only; split
  · exact (State.raise_pwr _ _).trans rfl
  · split <;> rfl
@[simp] theorem State.postWords_mail (s : State) (ws : List B64) (c : Bool) : (s.postWords ws c).mail = s.mail := by
  unfold State.postWords; dsimp only; split
  · exact (State.raise_mail _ _).trans rfl
  · split <;> rfl
@[simp] theorem State.postWords_fresh (s : State) (ws : List B64) (c : Bool) : (s.postWords ws c).fresh = s.fresh := by
  unfold State.postWords; dsimp only; split
  · exact (State.raise_fresh _ _).trans rfl
  · split <;> rfl
@[simp] theorem State.postWords_pending (s : State) (ws : List B64) (c : Bool) : (s.postWords ws c).pending = s.pending := by
  unfold State.postWords; dsimp only; split
  · exact (State.raise_pending _ _).trans rfl
  · split <;> rfl

@[simp] theorem State.post_now (s : State) (type : Nat) (payload : List Byte) : (s.post type payload).now = s.now := by
  exact State.postWords_now _ _ _
@[simp] theorem State.post_latch (s : State) (type : Nat) (payload : List Byte) : (s.post type payload).latch = s.latch := by
  exact State.postWords_latch _ _ _
@[simp] theorem State.post_mem (s : State) (type : Nat) (payload : List Byte) : (s.post type payload).mem = s.mem := by
  exact State.postWords_mem _ _ _
@[simp] theorem State.post_poison (s : State) (type : Nat) (payload : List Byte) : (s.post type payload).poison = s.poison := by
  exact State.postWords_poison _ _ _
@[simp] theorem State.post_flt (s : State) (type : Nat) (payload : List Byte) : (s.post type payload).flt = s.flt := by
  exact State.postWords_flt _ _ _
@[simp] theorem State.post_pool (s : State) (type : Nat) (payload : List Byte) : (s.post type payload).pool = s.pool := by
  exact State.postWords_pool _ _ _
@[simp] theorem State.post_home (s : State) (type : Nat) (payload : List Byte) : (s.post type payload).home = s.home := by
  exact State.postWords_home _ _ _
@[simp] theorem State.post_pan (s : State) (type : Nat) (payload : List Byte) : (s.post type payload).pan = s.pan := by
  exact State.postWords_pan _ _ _
@[simp] theorem State.post_ports (s : State) (type : Nat) (payload : List Byte) : (s.post type payload).ports = s.ports := by
  exact State.postWords_ports _ _ _
@[simp] theorem State.post_mov (s : State) (type : Nat) (payload : List Byte) : (s.post type payload).mov = s.mov := by
  exact State.postWords_mov _ _ _
@[simp] theorem State.post_links (s : State) (type : Nat) (payload : List Byte) : (s.post type payload).links = s.links := by
  exact State.postWords_links _ _ _
@[simp] theorem State.post_fab (s : State) (type : Nat) (payload : List Byte) : (s.post type payload).fab = s.fab := by
  exact State.postWords_fab _ _ _
@[simp] theorem State.post_dwy (s : State) (type : Nat) (payload : List Byte) : (s.post type payload).dwy = s.dwy := by
  exact State.postWords_dwy _ _ _
@[simp] theorem State.post_dbg (s : State) (type : Nat) (payload : List Byte) : (s.post type payload).dbg = s.dbg := by
  exact State.postWords_dbg _ _ _
@[simp] theorem State.post_pwr (s : State) (type : Nat) (payload : List Byte) : (s.post type payload).pwr = s.pwr := by
  exact State.postWords_pwr _ _ _
@[simp] theorem State.post_mail (s : State) (type : Nat) (payload : List Byte) : (s.post type payload).mail = s.mail := by
  exact State.postWords_mail _ _ _
@[simp] theorem State.post_fresh (s : State) (type : Nat) (payload : List Byte) : (s.post type payload).fresh = s.fresh := by
  exact State.postWords_fresh _ _ _
@[simp] theorem State.post_pending (s : State) (type : Nat) (payload : List Byte) : (s.post type payload).pending = s.pending := by
  exact State.postWords_pending _ _ _

@[simp] theorem State.logRecord_now (s : State) (e : Event) : (s.logRecord e).now = s.now := by
  unfold State.logRecord; dsimp only; repeat' split
  all_goals rfl
@[simp] theorem State.logRecord_latch (s : State) (e : Event) : (s.logRecord e).latch = s.latch := by
  unfold State.logRecord; dsimp only; repeat' split
  all_goals rfl
@[simp] theorem State.logRecord_mem (s : State) (e : Event) : (s.logRecord e).mem = s.mem := by
  unfold State.logRecord; dsimp only; repeat' split
  all_goals rfl
@[simp] theorem State.logRecord_poison (s : State) (e : Event) : (s.logRecord e).poison = s.poison := by
  unfold State.logRecord; dsimp only; repeat' split
  all_goals rfl
@[simp] theorem State.logRecord_cmds (s : State) (e : Event) : (s.logRecord e).cmds = s.cmds := by
  unfold State.logRecord; dsimp only; repeat' split
  all_goals rfl
@[simp] theorem State.logRecord_pool (s : State) (e : Event) : (s.logRecord e).pool = s.pool := by
  unfold State.logRecord; dsimp only; repeat' split
  all_goals rfl
@[simp] theorem State.logRecord_home (s : State) (e : Event) : (s.logRecord e).home = s.home := by
  unfold State.logRecord; dsimp only; repeat' split
  all_goals rfl
@[simp] theorem State.logRecord_pan (s : State) (e : Event) : (s.logRecord e).pan = s.pan := by
  unfold State.logRecord; dsimp only; repeat' split
  all_goals rfl
@[simp] theorem State.logRecord_ep (s : State) (e : Event) : (s.logRecord e).ep = s.ep := by
  unfold State.logRecord; dsimp only; repeat' split
  all_goals rfl
@[simp] theorem State.logRecord_ports (s : State) (e : Event) : (s.logRecord e).ports = s.ports := by
  unfold State.logRecord; dsimp only; repeat' split
  all_goals rfl
@[simp] theorem State.logRecord_mov (s : State) (e : Event) : (s.logRecord e).mov = s.mov := by
  unfold State.logRecord; dsimp only; repeat' split
  all_goals rfl
@[simp] theorem State.logRecord_links (s : State) (e : Event) : (s.logRecord e).links = s.links := by
  unfold State.logRecord; dsimp only; repeat' split
  all_goals rfl
@[simp] theorem State.logRecord_fab (s : State) (e : Event) : (s.logRecord e).fab = s.fab := by
  unfold State.logRecord; dsimp only; repeat' split
  all_goals rfl
@[simp] theorem State.logRecord_dwy (s : State) (e : Event) : (s.logRecord e).dwy = s.dwy := by
  unfold State.logRecord; dsimp only; repeat' split
  all_goals rfl
@[simp] theorem State.logRecord_dbg (s : State) (e : Event) : (s.logRecord e).dbg = s.dbg := by
  unfold State.logRecord; dsimp only; repeat' split
  all_goals rfl
@[simp] theorem State.logRecord_pwr (s : State) (e : Event) : (s.logRecord e).pwr = s.pwr := by
  unfold State.logRecord; dsimp only; repeat' split
  all_goals rfl
@[simp] theorem State.logRecord_mail (s : State) (e : Event) : (s.logRecord e).mail = s.mail := by
  unfold State.logRecord; dsimp only; repeat' split
  all_goals rfl
@[simp] theorem State.logRecord_fresh (s : State) (e : Event) : (s.logRecord e).fresh = s.fresh := by
  unfold State.logRecord; dsimp only; repeat' split
  all_goals rfl
@[simp] theorem State.logRecord_out (s : State) (e : Event) : (s.logRecord e).out = s.out := by
  unfold State.logRecord; dsimp only; repeat' split
  all_goals rfl
@[simp] theorem State.logRecord_pending (s : State) (e : Event) : (s.logRecord e).pending = s.pending := by
  unfold State.logRecord; dsimp only; repeat' split
  all_goals rfl

@[simp] theorem State.record_now (s : State) (r : Report) : (s.record r).now = s.now := by
  unfold State.record; dsimp only
  generalize hs : (s.logRecord _).bump _ = u
  have hu : u.now = s.now := by rw [← hs]; exact State.logRecord_now s _
  split
  · split
    · exact hu
    · exact (State.post_now _ _ _).trans hu
  · exact (State.post_now _ _ _).trans hu
@[simp] theorem State.record_latch (s : State) (r : Report) : (s.record r).latch = s.latch := by
  unfold State.record; dsimp only
  generalize hs : (s.logRecord _).bump _ = u
  have hu : u.latch = s.latch := by rw [← hs]; exact State.logRecord_latch s _
  split
  · split
    · exact hu
    · exact (State.post_latch _ _ _).trans hu
  · exact (State.post_latch _ _ _).trans hu
@[simp] theorem State.record_mem (s : State) (r : Report) : (s.record r).mem = s.mem := by
  unfold State.record; dsimp only
  generalize hs : (s.logRecord _).bump _ = u
  have hu : u.mem = s.mem := by rw [← hs]; exact State.logRecord_mem s _
  split
  · split
    · exact hu
    · exact (State.post_mem _ _ _).trans hu
  · exact (State.post_mem _ _ _).trans hu
@[simp] theorem State.record_poison (s : State) (r : Report) : (s.record r).poison = s.poison := by
  unfold State.record; dsimp only
  generalize hs : (s.logRecord _).bump _ = u
  have hu : u.poison = s.poison := by rw [← hs]; exact State.logRecord_poison s _
  split
  · split
    · exact hu
    · exact (State.post_poison _ _ _).trans hu
  · exact (State.post_poison _ _ _).trans hu
@[simp] theorem State.record_pool (s : State) (r : Report) : (s.record r).pool = s.pool := by
  unfold State.record; dsimp only
  generalize hs : (s.logRecord _).bump _ = u
  have hu : u.pool = s.pool := by rw [← hs]; exact State.logRecord_pool s _
  split
  · split
    · exact hu
    · exact (State.post_pool _ _ _).trans hu
  · exact (State.post_pool _ _ _).trans hu
@[simp] theorem State.record_home (s : State) (r : Report) : (s.record r).home = s.home := by
  unfold State.record; dsimp only
  generalize hs : (s.logRecord _).bump _ = u
  have hu : u.home = s.home := by rw [← hs]; exact State.logRecord_home s _
  split
  · split
    · exact hu
    · exact (State.post_home _ _ _).trans hu
  · exact (State.post_home _ _ _).trans hu
@[simp] theorem State.record_pan (s : State) (r : Report) : (s.record r).pan = s.pan := by
  unfold State.record; dsimp only
  generalize hs : (s.logRecord _).bump _ = u
  have hu : u.pan = s.pan := by rw [← hs]; exact State.logRecord_pan s _
  split
  · split
    · exact hu
    · exact (State.post_pan _ _ _).trans hu
  · exact (State.post_pan _ _ _).trans hu
@[simp] theorem State.record_ports (s : State) (r : Report) : (s.record r).ports = s.ports := by
  unfold State.record; dsimp only
  generalize hs : (s.logRecord _).bump _ = u
  have hu : u.ports = s.ports := by rw [← hs]; exact State.logRecord_ports s _
  split
  · split
    · exact hu
    · exact (State.post_ports _ _ _).trans hu
  · exact (State.post_ports _ _ _).trans hu
@[simp] theorem State.record_mov (s : State) (r : Report) : (s.record r).mov = s.mov := by
  unfold State.record; dsimp only
  generalize hs : (s.logRecord _).bump _ = u
  have hu : u.mov = s.mov := by rw [← hs]; exact State.logRecord_mov s _
  split
  · split
    · exact hu
    · exact (State.post_mov _ _ _).trans hu
  · exact (State.post_mov _ _ _).trans hu
@[simp] theorem State.record_links (s : State) (r : Report) : (s.record r).links = s.links := by
  unfold State.record; dsimp only
  generalize hs : (s.logRecord _).bump _ = u
  have hu : u.links = s.links := by rw [← hs]; exact State.logRecord_links s _
  split
  · split
    · exact hu
    · exact (State.post_links _ _ _).trans hu
  · exact (State.post_links _ _ _).trans hu
@[simp] theorem State.record_fab (s : State) (r : Report) : (s.record r).fab = s.fab := by
  unfold State.record; dsimp only
  generalize hs : (s.logRecord _).bump _ = u
  have hu : u.fab = s.fab := by rw [← hs]; exact State.logRecord_fab s _
  split
  · split
    · exact hu
    · exact (State.post_fab _ _ _).trans hu
  · exact (State.post_fab _ _ _).trans hu
@[simp] theorem State.record_dwy (s : State) (r : Report) : (s.record r).dwy = s.dwy := by
  unfold State.record; dsimp only
  generalize hs : (s.logRecord _).bump _ = u
  have hu : u.dwy = s.dwy := by rw [← hs]; exact State.logRecord_dwy s _
  split
  · split
    · exact hu
    · exact (State.post_dwy _ _ _).trans hu
  · exact (State.post_dwy _ _ _).trans hu
@[simp] theorem State.record_dbg (s : State) (r : Report) : (s.record r).dbg = s.dbg := by
  unfold State.record; dsimp only
  generalize hs : (s.logRecord _).bump _ = u
  have hu : u.dbg = s.dbg := by rw [← hs]; exact State.logRecord_dbg s _
  split
  · split
    · exact hu
    · exact (State.post_dbg _ _ _).trans hu
  · exact (State.post_dbg _ _ _).trans hu
@[simp] theorem State.record_pwr (s : State) (r : Report) : (s.record r).pwr = s.pwr := by
  unfold State.record; dsimp only
  generalize hs : (s.logRecord _).bump _ = u
  have hu : u.pwr = s.pwr := by rw [← hs]; exact State.logRecord_pwr s _
  split
  · split
    · exact hu
    · exact (State.post_pwr _ _ _).trans hu
  · exact (State.post_pwr _ _ _).trans hu
@[simp] theorem State.record_mail (s : State) (r : Report) : (s.record r).mail = s.mail := by
  unfold State.record; dsimp only
  generalize hs : (s.logRecord _).bump _ = u
  have hu : u.mail = s.mail := by rw [← hs]; exact State.logRecord_mail s _
  split
  · split
    · exact hu
    · exact (State.post_mail _ _ _).trans hu
  · exact (State.post_mail _ _ _).trans hu
@[simp] theorem State.record_fresh (s : State) (r : Report) : (s.record r).fresh = s.fresh := by
  unfold State.record; dsimp only
  generalize hs : (s.logRecord _).bump _ = u
  have hu : u.fresh = s.fresh := by rw [← hs]; exact State.logRecord_fresh s _
  split
  · split
    · exact hu
    · exact (State.post_fresh _ _ _).trans hu
  · exact (State.post_fresh _ _ _).trans hu
@[simp] theorem State.record_pending (s : State) (r : Report) : (s.record r).pending = s.pending := by
  unfold State.record; dsimp only
  generalize hs : (s.logRecord _).bump _ = u
  have hu : u.pending = s.pending := by rw [← hs]; exact State.logRecord_pending s _
  split
  · split
    · exact hu
    · exact (State.post_pending _ _ _).trans hu
  · exact (State.post_pending _ _ _).trans hu

@[simp] theorem State.corrected_now (s : State) (c source unit : Nat) : (s.corrected c source unit).now = s.now := by
  exact State.record_now _ _
@[simp] theorem State.corrected_latch (s : State) (c source unit : Nat) : (s.corrected c source unit).latch = s.latch := by
  exact State.record_latch _ _
@[simp] theorem State.corrected_mem (s : State) (c source unit : Nat) : (s.corrected c source unit).mem = s.mem := by
  exact State.record_mem _ _
@[simp] theorem State.corrected_poison (s : State) (c source unit : Nat) : (s.corrected c source unit).poison = s.poison := by
  exact State.record_poison _ _
@[simp] theorem State.corrected_pool (s : State) (c source unit : Nat) : (s.corrected c source unit).pool = s.pool := by
  exact State.record_pool _ _
@[simp] theorem State.corrected_home (s : State) (c source unit : Nat) : (s.corrected c source unit).home = s.home := by
  exact State.record_home _ _
@[simp] theorem State.corrected_pan (s : State) (c source unit : Nat) : (s.corrected c source unit).pan = s.pan := by
  exact State.record_pan _ _
@[simp] theorem State.corrected_ports (s : State) (c source unit : Nat) : (s.corrected c source unit).ports = s.ports := by
  exact State.record_ports _ _
@[simp] theorem State.corrected_mov (s : State) (c source unit : Nat) : (s.corrected c source unit).mov = s.mov := by
  exact State.record_mov _ _
@[simp] theorem State.corrected_links (s : State) (c source unit : Nat) : (s.corrected c source unit).links = s.links := by
  exact State.record_links _ _
@[simp] theorem State.corrected_fab (s : State) (c source unit : Nat) : (s.corrected c source unit).fab = s.fab := by
  exact State.record_fab _ _
@[simp] theorem State.corrected_dwy (s : State) (c source unit : Nat) : (s.corrected c source unit).dwy = s.dwy := by
  exact State.record_dwy _ _
@[simp] theorem State.corrected_dbg (s : State) (c source unit : Nat) : (s.corrected c source unit).dbg = s.dbg := by
  exact State.record_dbg _ _
@[simp] theorem State.corrected_pwr (s : State) (c source unit : Nat) : (s.corrected c source unit).pwr = s.pwr := by
  exact State.record_pwr _ _
@[simp] theorem State.corrected_mail (s : State) (c source unit : Nat) : (s.corrected c source unit).mail = s.mail := by
  exact State.record_mail _ _
@[simp] theorem State.corrected_fresh (s : State) (c source unit : Nat) : (s.corrected c source unit).fresh = s.fresh := by
  exact State.record_fresh _ _
@[simp] theorem State.corrected_pending (s : State) (c source unit : Nat) : (s.corrected c source unit).pending = s.pending := by
  exact State.record_pending _ _

/-! ## Registers -/

/-- A register reads as it was set. -/
@[simp] theorem State.reg_setReg_self (s : State) (off : Nat) (v : Word) : (s.setReg off v).reg off = v := by
  simp [State.reg, State.setReg]

/-- A register set leaves every other one as it is. -/
theorem State.reg_setReg_other (s : State) {off o : Nat} (v : Word) (h : o ≠ off) : (s.setReg off v).reg o = s.reg o := by
  simp [State.reg, State.setReg, NMap.get?_set_other _ _ h]

/-- A field of another register stands. -/
theorem State.fld_setFld_other (s : State) {f g : RegF} (v : Nat) (h : g.off ≠ f.off) : (s.setFld f v).fld g = s.fld g := by
  simp [State.fld, State.setFld, State.reg_setReg_other _ _ h]

/-! ## Events -/

/-- A posted event lies whole in the FIFO, in the backlog, or is counted as dropped (R443). -/
theorem State.postWords_goes (s : State) (ws : List B64) (c : Bool) :
    (s.postWords ws c).cmds.fifo = s.cmds.fifo ++ ws ∨ (s.postWords ws c).cmds.backlog = s.cmds.backlog ++ [ws] ∨
      (s.postWords ws c).cmds.dropped = Nat.min 0xFFFFFFFF (s.cmds.dropped + 1) := by
  unfold State.postWords
  dsimp only
  split
  · exact .inl (by simp)
  · split
    · exact .inr (.inl rfl)
    · exact .inr (.inr (by simp))

end Sys2Proof.Machine
end

