-- ==== Sys2Proof/Laws/PerInstr.lean ====
section
/-! SUPPORT. The family `Timed`, per command: what well-formedness says of the time a command happens at. -/

namespace Sys2Proof.Laws.Timed

/-- A well-formed command that happens at a time happens at a 64-bit count of ns (R10). -/
def Statement (i : Instr) : Prop := i.wf = true → ∀ t, i.time? = some t → t < 2 ^ 64

/-- The check of times is one part of well-formedness. -/
theorem of_wf (i : Instr) : Statement i := by
  intro h t ht
  unfold Instr.wf at h
  simp only [Bool.and_eq_true] at h
  have h1 : i.timeOk = true := by
    obtain ⟨⟨⟨⟨⟨⟨⟨⟨h, -⟩, -⟩, -⟩, -⟩, -⟩, -⟩, -⟩, -⟩ := h
    exact h
  unfold Instr.timeOk at h1
  rw [ht] at h1
  simpa using h1

theorem identify (h : Hdr) : Statement (.identify h) := of_wf _
theorem statusQuery (h : Hdr) : Statement (.statusQuery h) := of_wf _
theorem laneConfig (h : Hdr) (group : Byte) (mode : Byte) (pa : Byte) (pb : Byte) (pc : Byte) (pd : Byte) :
    Statement (.laneConfig h group mode pa pb pc pd) := of_wf _
theorem portRole (h : Hdr) (port : Byte) (role : Byte) : Statement (.portRole h port role) := of_wf _
theorem portLinkSet (h : Hdr) (port : Byte) (rate : Byte) (width : Byte) : Statement (.portLinkSet h port rate width) := of_wf _
theorem portEnable (h : Hdr) (port : Byte) (en : Byte) : Statement (.portEnable h port en) := of_wf _
theorem portQuery (h : Hdr) (port : Byte) : Statement (.portQuery h port) := of_wf _
theorem laneMargin (h : Hdr) (port : Byte) (target : Byte) (mask : B16) (dir : Byte) (steps : Byte) (errLimit : Byte) (dwell : Word) :
    Statement (.laneMargin h port target mask dir steps errLimit dwell) := of_wf _
theorem laneStats (h : Hdr) (port : Byte) : Statement (.laneStats h port) := of_wf _
theorem opfQuery (h : Hdr) (module : Byte) : Statement (.opfQuery h module) := of_wf _
theorem opfRetrain (h : Hdr) (module : Byte) : Statement (.opfRetrain h module) := of_wf _
theorem roomCreate (h : Hdr) (froom : Byte) (hmax : B16) (a : Allot) (rates : List RateEntry) :
    Statement (.roomCreate h froom hmax a rates) := of_wf _
theorem roomResize (h : Hdr) (froom : Byte) (valid : B16) (a : Allot) (rates : List RateEntry) :
    Statement (.roomResize h froom valid a rates) := of_wf _
theorem roomHostAdd (h : Hdr) (froom : Byte) (host : B16) : Statement (.roomHostAdd h froom host) := of_wf _
theorem roomHostRemove (h : Hdr) (froom : Byte) (host : B16) : Statement (.roomHostRemove h froom host) := of_wf _
theorem roomPortAssign (h : Hdr) (froom : Byte) (port : Byte) (add : Byte) : Statement (.roomPortAssign h froom port add) := of_wf _
theorem roomDestroy (h : Hdr) (froom : Byte) : Statement (.roomDestroy h froom) := of_wf _
theorem roomQuery (h : Hdr) (froom : Byte) (first : B16) (n : B16) : Statement (.roomQuery h froom first n) := of_wf _
theorem sliceCreate (h : Hdr) (window : B16) (host : B16) (pasid : Word) : Statement (.sliceCreate h window host pasid) := of_wf _
theorem sliceDestroy (h : Hdr) (slice : B16) : Statement (.sliceDestroy h slice) := of_wf _
theorem sliceQuery (h : Hdr) (slice : B16) : Statement (.sliceQuery h slice) := of_wf _
theorem poolAdopt (h : Hdr) (port : Byte) : Statement (.poolAdopt h port) := of_wf _
theorem poolRelease (h : Hdr) (handle : Byte) : Statement (.poolRelease h handle) := of_wf _
theorem poolList (h : Hdr) : Statement (.poolList h) := of_wf _
theorem windowCreate (h : Hdr) (p : WinParams) : Statement (.windowCreate h p) := of_wf _
theorem windowDestroy (h : Hdr) (window : B16) : Statement (.windowDestroy h window) := of_wf _
theorem windowQuery (h : Hdr) (window : B16) (first : B16) (n : B16) : Statement (.windowQuery h window first n) := of_wf _
theorem windowBind (h : Hdr) (window : B16) (host : B16) (port : Byte) (access : Byte) (hpa : B64) :
    Statement (.windowBind h window host port access hpa) := of_wf _
theorem windowUnbind (h : Hdr) (window : B16) (host : B16) (timeout : Word) : Statement (.windowUnbind h window host timeout) := of_wf _
theorem dcAdd (h : Hdr) (window : B16) (xs : List Word) : Statement (.dcAdd h window xs) := of_wf _
theorem dcRelease (h : Hdr) (window : B16) (xs : List Word) : Statement (.dcRelease h window xs) := of_wf _
theorem extentRead (h : Hdr) (x : Word) (n : Byte) : Statement (.extentRead h x n) := of_wf _
theorem rehomePrepare (h : Hdr) (p : WinParams) : Statement (.rehomePrepare h p) := of_wf _
theorem rehomeStart (h : Hdr) (window : B16) (bid : B16) (bwin : B16) (age : Word) : Statement (.rehomeStart h window bid bwin age) := of_wf _
theorem rehomeStatus (h : Hdr) (window : B16) : Statement (.rehomeStatus h window) := of_wf _
theorem dirRead (h : Hdr) (pa : B64) : Statement (.dirRead h pa) := of_wf _
theorem ruleWrite (h : Hdr) (froom : Byte) (index : Byte) (entry : BitVec 128) : Statement (.ruleWrite h froom index entry) := of_wf _
theorem ruleRead (h : Hdr) (froom : Byte) (first : Byte) (n : Byte) : Statement (.ruleRead h froom first n) := of_wf _
theorem ruleCopy (h : Hdr) (froom : Byte) : Statement (.ruleCopy h froom) := of_wf _
theorem ruleCommit (h : Hdr) (froom : Byte) : Statement (.ruleCommit h froom) := of_wf _
theorem ruleStatus (h : Hdr) (froom : Byte) : Statement (.ruleStatus h froom) := of_wf _
theorem qosPortSet (h : Hdr) (port : Byte) (valid : Byte) (qmap : Word) (quanta : List B16) (cbs : Word) (pbs : Word) (en : Byte) :
    Statement (.qosPortSet h port valid qmap quanta cbs pbs en) := of_wf _
theorem qosPortQuery (h : Hdr) (port : Byte) : Statement (.qosPortQuery h port) := of_wf _
theorem gateWrite (h : Hdr) (port : Byte) (cycle : Word) (base : B64) (entries : List B64) :
    Statement (.gateWrite h port cycle base entries) := of_wf _
theorem gateRead (h : Hdr) (port : Byte) : Statement (.gateRead h port) := of_wf _
theorem gateCommit (h : Hdr) (instant : B64) (mask : B64) : Statement (.gateCommit h instant mask) := of_wf _
theorem gateStatus (h : Hdr) (port : Byte) : Statement (.gateStatus h port) := of_wf _
theorem moverJob (h : Hdr) (head : B64) : Statement (.moverJob h head) := of_wf _
theorem moverChResume (h : Hdr) (ch : Byte) (action : Byte) : Statement (.moverChResume h ch action) := of_wf _
theorem moverChEnable (h : Hdr) (ch : Byte) (en : Byte) : Statement (.moverChEnable h ch en) := of_wf _
theorem moverQuery (h : Hdr) : Statement (.moverQuery h) := of_wf _
theorem extentMigrate (h : Hdr) (window : B16) (x : Word) (dstDev : Byte) (house : Byte) :
    Statement (.extentMigrate h window x dstDev house) := of_wf _
theorem migrateStatus (h : Hdr) (window : B16) (x : Word) : Statement (.migrateStatus h window x) := of_wf _
theorem migrateAbort (h : Hdr) (window : B16) (x : Word) : Statement (.migrateAbort h window x) := of_wf _
theorem doorwayEnable (h : Hdr) (mask : Word) (en : Byte) : Statement (.doorwayEnable h mask en) := of_wf _
theorem doorwaySet (h : Hdr) (ch : Byte) (valid : Word) (vals : List Word) : Statement (.doorwaySet h ch valid vals) := of_wf _
theorem doorwayQuery (h : Hdr) (ch : Byte) : Statement (.doorwayQuery h ch) := of_wf _
theorem doorwayPolicy (h : Hdr) (froom : Byte) (rebind : Byte) : Statement (.doorwayPolicy h froom rebind) := of_wf _
theorem atticRead (h : Hdr) (first : Byte) (n : Byte) : Statement (.atticRead h first n) := of_wf _
theorem atticFatalRead (h : Hdr) : Statement (.atticFatalRead h) := of_wf _
theorem atticClear (h : Hdr) (what : Byte) : Statement (.atticClear h what) := of_wf _
theorem atticLogRead (h : Hdr) (off : Word) (len : Word) : Statement (.atticLogRead h off len) := of_wf _
theorem faultInject (h : Hdr) (checker : B16) (arm : Byte) : Statement (.faultInject h checker arm) := of_wf _
theorem faultQuery (h : Hdr) : Statement (.faultQuery h) := of_wf _
theorem fabricQuery (h : Hdr) : Statement (.fabricQuery h) := of_wf _
theorem timeQuery (h : Hdr) : Statement (.timeQuery h) := of_wf _
theorem schemaQuery (h : Hdr) : Statement (.schemaQuery h) := of_wf _
theorem schemaSet (h : Hdr) (ceiling : Byte) : Statement (.schemaSet h ceiling) := of_wf _
theorem ridgeYield (h : Hdr) : Statement (.ridgeYield h) := of_wf _
theorem routeSet (h : Hdr) (fid : B16) (sw : B16) (port : Byte) (set : Byte) : Statement (.routeSet h fid sw port set) := of_wf _
theorem routeQuery (h : Hdr) (first : B16) (n : B16) : Statement (.routeQuery h first n) := of_wf _
theorem noticeMask (h : Hdr) (mask : Word) : Statement (.noticeMask h mask) := of_wf _
theorem fabricRelay (h : Hdr) (target : B16) (pkt : List Byte) : Statement (.fabricRelay h target pkt) := of_wf _
theorem fwQuery (h : Hdr) : Statement (.fwQuery h) := of_wf _
theorem fwWrite (h : Hdr) (off : Word) (data : List Byte) : Statement (.fwWrite h off data) := of_wf _
theorem fwVerify (h : Hdr) : Statement (.fwVerify h) := of_wf _
theorem fwActivate (h : Hdr) : Statement (.fwActivate h) := of_wf _
theorem ehrecWrite (h : Hdr) (off : Word) (data : List Byte) : Statement (.ehrecWrite h off data) := of_wf _
theorem ehrecRead (h : Hdr) (off : Word) (len : Word) : Statement (.ehrecRead h off len) := of_wf _
theorem hbmLayout (h : Hdr) (units : Byte) : Statement (.hbmLayout h units) := of_wf _
theorem hbmLayoutQuery (h : Hdr) : Statement (.hbmLayoutQuery h) := of_wf _
theorem pantryMode (h : Hdr) (window : B16) (mode : Byte) (rank : Byte) (quota : Word) : Statement (.pantryMode h window mode rank quota) := of_wf _
theorem pantryQuery (h : Hdr) (window : B16) : Statement (.pantryQuery h window) := of_wf _
theorem pantryFlush (h : Hdr) (window : B16) : Statement (.pantryFlush h window) := of_wf _
theorem holdupSet (h : Hdr) (valid : B16) (vals : List Word) : Statement (.holdupSet h valid vals) := of_wf _
theorem holdupQuery (h : Hdr) : Statement (.holdupQuery h) := of_wf _
theorem holdupCal (h : Hdr) (c0 : Word) : Statement (.holdupCal h c0) := of_wf _
theorem commandCompletion (id : Nat) (r : WorkEnd) : Statement (.commandCompletion id r) := of_wf _
theorem mbIdentify (at_ : MbAt) : Statement (.mbIdentify at_) := of_wf _
theorem mbBackgroundOperationStatus (at_ : MbAt) : Statement (.mbBackgroundOperationStatus at_) := of_wf _
theorem mbGetEventRecords (at_ : MbAt) (log : Byte) : Statement (.mbGetEventRecords at_ log) := of_wf _
theorem mbClearEventRecords (at_ : MbAt) (log : Byte) (all : Bool) (handles : List B16) :
    Statement (.mbClearEventRecords at_ log all handles) := of_wf _
theorem getEventInterruptPolicy (at_ : MbAt) : Statement (.getEventInterruptPolicy at_) := of_wf _
theorem setEventInterruptPolicy (at_ : MbAt) (policy : Word) : Statement (.setEventInterruptPolicy at_ policy) := of_wf _
theorem mbGetTimestamp (at_ : MbAt) : Statement (.mbGetTimestamp at_) := of_wf _
theorem setTimestamp (at_ : MbAt) (time : B64) : Statement (.setTimestamp at_ time) := of_wf _
theorem getSupportedLogs (at_ : MbAt) : Statement (.getSupportedLogs at_) := of_wf _
theorem getLog (at_ : MbAt) : Statement (.getLog at_) := of_wf _
theorem identifyMemoryDevice (at_ : MbAt) : Statement (.identifyMemoryDevice at_) := of_wf _
theorem getHealthInfo (at_ : MbAt) : Statement (.getHealthInfo at_) := of_wf _
theorem getPoisonList (at_ : MbAt) : Statement (.getPoisonList at_) := of_wf _
theorem getDynamicCapacityConfiguration (at_ : MbAt) : Statement (.getDynamicCapacityConfiguration at_) := of_wf _
theorem getDynamicCapacityExtentList (at_ : MbAt) : Statement (.getDynamicCapacityExtentList at_) := of_wf _
theorem addDynamicCapacityResponse (at_ : MbAt) (extents : List Nat) : Statement (.addDynamicCapacityResponse at_ extents) := of_wf _
theorem releaseDynamicCapacity (at_ : MbAt) (extents : List Nat) : Statement (.releaseDynamicCapacity at_ extents) := of_wf _
theorem fmIdentify (src : FmSrc) : Statement (.fmIdentify src) := of_wf _
theorem fmBackgroundOperationStatus (src : FmSrc) : Statement (.fmBackgroundOperationStatus src) := of_wf _
theorem fmGetEventRecords (src : FmSrc) : Statement (.fmGetEventRecords src) := of_wf _
theorem fmClearEventRecords (src : FmSrc) (all : Bool) (handles : List B16) : Statement (.fmClearEventRecords src all handles) := of_wf _
theorem fmGetTimestamp (src : FmSrc) : Statement (.fmGetTimestamp src) := of_wf _
theorem identifySwitchDevice (src : FmSrc) : Statement (.identifySwitchDevice src) := of_wf _
theorem getPhysicalPortState (src : FmSrc) (ports : List Byte) : Statement (.getPhysicalPortState src ports) := of_wf _
theorem physicalPortControl (src : FmSrc) (port : Byte) (op : PortCtl) : Statement (.physicalPortControl src port op) := of_wf _
theorem sendPpbCxlIoConfigurationRequest (src : FmSrc) (port : Byte) (write : Bool) (reg : BitVec 12) (value : Word) :
    Statement (.sendPpbCxlIoConfigurationRequest src port write reg value) := of_wf _
theorem getVirtualCxlSwitchInfo (src : FmSrc) (vcs : Byte) : Statement (.getVirtualCxlSwitchInfo src vcs) := of_wf _
theorem bindVppb (src : FmSrc) (vcs : Byte) (vppb : Byte) (port : Byte) : Statement (.bindVppb src vcs vppb port) := of_wf _
theorem unbindVppb (src : FmSrc) (vcs : Byte) (vppb : Byte) (wait : Bool) : Statement (.unbindVppb src vcs vppb wait) := of_wf _
theorem generateAerEvent (src : FmSrc) (vcs : Byte) (vppb : Byte) (err : Word) : Statement (.generateAerEvent src vcs vppb err) := of_wf _
theorem krarinVendorCommand (src : FmSrc) (opcode : B16) (pkt : List Byte) : Statement (.krarinVendorCommand src opcode pkt) := of_wf _
theorem peek (sp : Space) (addr : B64) (n : Nat) (dev : DevData) : Statement (.peek sp addr n dev) := of_wf _
theorem poke (sp : Space) (addr : B64) (value : Word) (dev : DevData) : Statement (.poke sp addr value dev) := of_wf _
theorem atticRing :
    Statement .atticRing := of_wf _
theorem atticFatal :
    Statement .atticFatal := of_wf _
theorem atticLog (off : Word) (len : Word) : Statement (.atticLog off len) := of_wf _
theorem statsPort (p : Byte) : Statement (.statsPort p) := of_wf _
theorem statsLane (n : Byte) : Statement (.statsLane n) := of_wf _
theorem statsOpf (m : Byte) : Statement (.statsOpf m) := of_wf _
theorem statsStw (n : Byte) : Statement (.statsStw n) := of_wf _
theorem inject (checker : B16) (arm : Byte) (mask : Option Word) : Statement (.inject checker arm mask) := of_wf _
theorem dermel (pkt : List Byte) : Statement (.dermel pkt) := of_wf _
theorem baud (rate : Nat) : Statement (.baud rate) := of_wf _
theorem lifecycle :
    Statement .lifecycle := of_wf _
theorem lifecycleAdvance (t : Nat) : Statement (.lifecycleAdvance t) := of_wf _
theorem lifecycleConfirm (t : Nat) (code : B16) : Statement (.lifecycleConfirm t code) := of_wf _
theorem monitorLine (line : List Byte) : Statement (.monitorLine line) := of_wf _
theorem baudChange :
    Statement .baudChange := of_wf _
theorem bypass :
    Statement .bypass := of_wf _
theorem idcode :
    Statement .idcode := of_wf _
theorem samplePreload :
    Statement .samplePreload := of_wf _
theorem extest :
    Statement .extest := of_wf _
theorem clamp :
    Statement .clamp := of_wf _
theorem highz :
    Statement .highz := of_wf _
theorem dbgAccess (write : Bool) (sp : Space) (addr : B64) (value : Word) (dev : DevData) : Statement (.dbgAccess write sp addr value dev) := of_wf _
theorem lcAdvance (t : Nat) : Statement (.lcAdvance t) := of_wf _
theorem lcAdvanceUpdate (t : Nat) (v : Word) : Statement (.lcAdvanceUpdate t v) := of_wf _
theorem mbist :
    Statement .mbist := of_wf _
theorem fuseProg (floor : Word) : Statement (.fuseProg floor) := of_wf _
theorem tapReset :
    Statement .tapReset := of_wf _
theorem challengeExpiry (t : Nat) : Statement (.challengeExpiry t) := of_wf _
theorem flitReceived (port : Port) (t : Nat) (fecOk : Bool) (crcOk : Bool) (msgs : List MsgIn) (ret : FlitRet) :
    Statement (.flitReceived port t fecOk crcOk msgs ret) := of_wf _
theorem memrd (hu : Hu) (plane : Bool) (t : Nat) : Statement (.memrd hu plane t) := of_wf _
theorem memrddata (hu : Hu) (plane : Bool) (t : Nat) : Statement (.memrddata hu plane t) := of_wf _
theorem meminv (hu : Hu) (plane : Bool) (t : Nat) : Statement (.meminv hu plane t) := of_wf _
theorem meminvnt (hu : Hu) (plane : Bool) (t : Nat) : Statement (.meminvnt hu plane t) := of_wf _
theorem memspecrd (hu : Hu) (plane : Bool) (t : Nat) : Statement (.memspecrd hu plane t) := of_wf _
theorem memwr (hu : Hu) (plane : Bool) (t : Nat) : Statement (.memwr hu plane t) := of_wf _
theorem memwrptl (hu : Hu) (plane : Bool) (t : Nat) : Statement (.memwrptl hu plane t) := of_wf _
theorem birspi (hu : Hu) (plane : Bool) (t : Nat) : Statement (.birspi hu plane t) := of_wf _
theorem birsps (hu : Hu) (plane : Bool) (t : Nat) : Statement (.birsps hu plane t) := of_wf _
theorem birspe (hu : Hu) (plane : Bool) (t : Nat) : Statement (.birspe hu plane t) := of_wf _
theorem biconflict (hu : Hu) (plane : Bool) (t : Nat) : Statement (.biconflict hu plane t) := of_wf _
theorem fetchadd (hu : Hu) (plane : Bool) (t : Nat) : Statement (.fetchadd hu plane t) := of_wf _
theorem swap (hu : Hu) (plane : Bool) (t : Nat) : Statement (.swap hu plane t) := of_wf _
theorem cas (hu : Hu) (plane : Bool) (t : Nat) : Statement (.cas hu plane t) := of_wf _
theorem umin (slice : SliceId) (slot : BitVec 5) (t : Nat) : Statement (.umin slice slot t) := of_wf _
theorem umax (slice : SliceId) (slot : BitVec 5) (t : Nat) : Statement (.umax slice slot t) := of_wf _
theorem smin (slice : SliceId) (slot : BitVec 5) (t : Nat) : Statement (.smin slice slot t) := of_wf _
theorem smax (slice : SliceId) (slot : BitVec 5) (t : Nat) : Statement (.smax slice slot t) := of_wf _
theorem and (slice : SliceId) (slot : BitVec 5) (t : Nat) : Statement (.and slice slot t) := of_wf _
theorem or (slice : SliceId) (slot : BitVec 5) (t : Nat) : Statement (.or slice slot t) := of_wf _
theorem xor (slice : SliceId) (slot : BitVec 5) (t : Nat) : Statement (.xor slice slot t) := of_wf _
theorem add128 (slice : SliceId) (slot : BitVec 5) (t : Nat) : Statement (.add128 slice slot t) := of_wf _
theorem binc (slice : SliceId) (slot : BitVec 5) (t : Nat) : Statement (.binc slice slot t) := of_wf _
theorem mjSubmit (slice : SliceId) (value : Word) : Statement (.mjSubmit slice value) := of_wf _
theorem cxlIoMemoryRead (window : Win) (host : Fid) (pasid : Option (BitVec 20)) (tag : B16) (off : Nat) (len : Nat) :
    Statement (.cxlIoMemoryRead window host pasid tag off len) := of_wf _
theorem cxlIoMemoryWrite (window : Win) (host : Fid) (pasid : Option (BitVec 20)) (tag : B16) (off : Nat) (data : List Byte) :
    Statement (.cxlIoMemoryWrite window host pasid tag off data) := of_wf _
theorem doorbellPageAccess (window : Win) (host : Fid) (pasid : Option (BitVec 20)) (tag : B16) (off : Nat) (write : Bool) (size : Nat) (value : B64) :
    Statement (.doorbellPageAccess window host pasid tag off write size value) := of_wf _
theorem cxlCacheD2hReq (port : Port) (tag : B16) (cacheId : BitVec 4) (expectsData : Bool) :
    Statement (.cxlCacheD2hReq port tag cacheId expectsData) := of_wf _
theorem cxlCacheH2dReq (port : Port) (tag : B16) (cacheId : BitVec 4) : Statement (.cxlCacheH2dReq port tag cacheId) := of_wf _
theorem secondaryBusReset (vcs : Port) (bridge : BitVec 7) : Statement (.secondaryBusReset vcs bridge) := of_wf _
theorem slotPowerOff (window : Win) (host : Fid) : Statement (.slotPowerOff window host) := of_wf _
theorem memoryResponse (req : Nat) (rsp : DevRsp) (t : Nat) : Statement (.memoryResponse req rsp t) := of_wf _
theorem snoopTimeout (hu : Hu) (trk : Nat) (host : Fid) (t : Nat) : Statement (.snoopTimeout hu trk host t) := of_wf _
theorem internalRetry (req : Nat) (t : Nat) : Statement (.internalRetry req t) := of_wf _
theorem directoryScrub (hu : Hu) (e : Option (BitVec 4 × Bool × Bool)) : Statement (.directoryScrub hu e) := of_wf _
theorem ageingSweep (t : Nat) : Statement (.ageingSweep t) := of_wf _
theorem unbindTimeout (window : Win) (host : Fid) (t : Nat) : Statement (.unbindTimeout window host t) := of_wf _
theorem capacityResponseTimeout (window : Win) (t : Nat) : Statement (.capacityResponseTimeout window t) := of_wf _
theorem purgeEnd (port : Port) : Statement (.purgeEnd port) := of_wf _
theorem handoffStart (window : Win) : Statement (.handoffStart window) := of_wf _
theorem handoffReady (window : Win) (t : Nat) : Statement (.handoffReady window t) := of_wf _
theorem handoffAgeDiscard (window : Win) (t : Nat) : Statement (.handoffAgeDiscard window t) := of_wf _
theorem rehomeAbandon (window : Win) : Statement (.rehomeAbandon window) := of_wf _
theorem egressDequeue (port : Port) (t : Nat) : Statement (.egressDequeue port t) := of_wf _
theorem bucketTick (t : Nat) : Statement (.bucketTick t) := of_wf _
theorem gateSwap (port : Port) (t : Nat) : Statement (.gateSwap port t) := of_wf _
theorem groupDrainExpiry (neighbour : Fid) (t : Nat) : Statement (.groupDrainExpiry neighbour t) := of_wf _
theorem hbmRefresh (stack : Stack) (channel : BitVec 4) (start : Bool) : Statement (.hbmRefresh stack channel start) := of_wf _
theorem lockOverrun (kind : BitVec 2) (inst : Byte) (hu : Hu) : Statement (.lockOverrun kind inst hu) := of_wf _
theorem arbCounterClear (value : Word) : Statement (.arbCounterClear value) := of_wf _
theorem jobStart (room : LRoom) (dev : DevData) : Statement (.jobStart room dev) := of_wf _
theorem copy (ch : Chan) (dev : DevData) : Statement (.copy ch dev) := of_wf _
theorem fill (ch : Chan) (dev : DevData) : Statement (.fill ch dev) := of_wf _
theorem zero (ch : Chan) (dev : DevData) : Statement (.zero ch dev) := of_wf _
theorem compare (ch : Chan) (dev : DevData) : Statement (.compare ch dev) := of_wf _
theorem flush (ch : Chan) (dev : DevData) : Statement (.flush ch dev) := of_wf _
theorem prepare (ch : Chan) (dev : DevData) : Statement (.prepare ch dev) := of_wf _
theorem migstepCopy (ch : Chan) (dev : DevData) : Statement (.migstepCopy ch dev) := of_wf _
theorem switch (ch : Chan) : Statement (.switch ch) := of_wf _
theorem release (ch : Chan) : Statement (.release ch) := of_wf _
theorem abandon (ch : Chan) : Statement (.abandon ch) := of_wf _
theorem bystanderResume (t : Nat) : Statement (.bystanderResume t) := of_wf _
theorem retry (path : Path) (ch : Chan) : Statement (.retry path ch) := of_wf _
theorem skip (path : Path) (ch : Chan) : Statement (.skip path ch) := of_wf _
theorem abort (path : Path) (ch : Chan) : Statement (.abort path ch) := of_wf _
theorem channelDisable (path : Path) (ch : Chan) : Statement (.channelDisable path ch) := of_wf _
theorem linkUp (port : Port) (t : Nat) (info : LinkInfo) : Statement (.linkUp port t info) := of_wf _
theorem linkDown (port : Port) (t : Nat) : Statement (.linkDown port t) := of_wf _
theorem widthRetry (port : Port) (t : Nat) : Statement (.widthRetry port t) := of_wf _
theorem partnerChange (port : Port) (rw : RateWidth) (belowCommon : Bool) : Statement (.partnerChange port rw belowCommon) := of_wf _
theorem partnerMarginRequest (lane : Lane) : Statement (.partnerMarginRequest lane) := of_wf _
theorem marginDwellEnd (port : Port) (errors : List (BitVec 6)) : Statement (.marginDwellEnd port errors) := of_wf _
theorem adaptationStep (lane : Lane) (up : Option Bool) : Statement (.adaptationStep lane up) := of_wf _
theorem retrain (path : Path) (port : Port) : Statement (.retrain path port) := of_wf _
theorem hotReset (path : Path) (port : Port) : Statement (.hotReset path port) := of_wf _
theorem disable (path : Path) (port : Port) (on : Bool) (t : Nat) : Statement (.disable path port on t) := of_wf _
theorem freeze (path : Path) (group : Group) (on : Bool) : Statement (.freeze path group on) := of_wf _
theorem hotResetReceived (port : Port) (t : Nat) : Statement (.hotResetReceived port t) := of_wf _
theorem perstUpN (n : BitVec 5) (high : Bool) (t : Nat) : Statement (.perstUpN n high t) := of_wf _
theorem poolDeviceTimeout (req : Nat) (t : Nat) : Statement (.poolDeviceTimeout req t) := of_wf _
theorem poolLinkWaitExpiry (port : Port) (t : Nat) : Statement (.poolLinkWaitExpiry port t) := of_wf _
theorem opfFlit (e : OpfEnd) (f : OpfFlit) (t : Nat) : Statement (.opfFlit e f t) := of_wf _
theorem ackFlit (e : OpfEnd) (f : OpfNull) (t : Nat) : Statement (.ackFlit e f t) := of_wf _
theorem auditFlit (e : OpfEnd) (f : OpfNull) (freed : List B16) (t : Nat) : Statement (.auditFlit e f freed t) := of_wf _
theorem rtrqFlit (e : OpfEnd) (f : OpfNull) (reason : Byte) (die : Byte) (wordsA : List B64) (wordsB : List B64) (verifyA : Bool) (verifyB : Bool) (t : Nat) :
    Statement (.rtrqFlit e f reason die wordsA wordsB verifyA verifyB t) := of_wf _
theorem syncFlit (e : OpfEnd) (f : OpfNull) (next : BitVec 12) (free : List B16) (t : Nat) : Statement (.syncFlit e f next free t) := of_wf _
theorem stairwellPacket (l : SwLink) (p : StwPkt) (t : Nat) : Statement (.stairwellPacket l p t) := of_wf _
theorem ctlAck (c : CtlSet) (ack : BitVec 12) (crVc : BitVec 2) (crCnt : BitVec 4) (t : Nat) :
    Statement (.ctlAck c ack crVc crCnt t) := of_wf _
theorem ctlAudit (c : CtlSet) (freed : List B16) (t : Nat) :
    Statement (.ctlAudit c freed t) := of_wf _
theorem ctlRtrq (c : CtlSet) (rank : B16) (id : Fid) (reason : Byte) (t : Nat) :
    Statement (.ctlRtrq c rank id reason t) := of_wf _
theorem trn (c : CtlSet) (rank : B16) (id : Fid) (reason : Byte) (t : Nat) :
    Statement (.trn c rank id reason t) := of_wf _
theorem ctlSync (c : CtlSet) (next : BitVec 12) (free : List Byte) (peerEven : Bool) (t : Nat) :
    Statement (.ctlSync c next free peerEven t) := of_wf _
theorem timeMark (c : MarkSet) (mark : B64) (localTime : B64) :
    Statement (.timeMark c mark localTime) := of_wf _
theorem replayTimeout (l : SwLink ⊕ OpfEnd) (t : Nat) : Statement (.replayTimeout l t) := of_wf _
theorem standaloneAck (l : SwLink ⊕ OpfEnd) (t : Nat) : Statement (.standaloneAck l t) := of_wf _
theorem auditInterval (l : SwLink ⊕ OpfEnd) (t : Nat) : Statement (.auditInterval l t) := of_wf _
theorem retrainLimit (l : SwLink ⊕ Module) (t : Nat) : Statement (.retrainLimit l t) := of_wf _
theorem stairwellTrainingRetry (l : SwLink) (t : Nat) : Statement (.stairwellTrainingRetry l t) := of_wf _
theorem stwRetrain (path : Path) (l : SLink) : Statement (.stwRetrain path l) := of_wf _
theorem stwDisable (path : Path) (l : SLink) (on : Bool) : Statement (.stwDisable path l on) := of_wf _
theorem hello (l : SLink) (m : MemberRec) (t : Nat) : Statement (.hello l m t) := of_wf _
theorem member (l : SLink) (x : CtlPfx) (m : MemberRec) (t : Nat) : Statement (.member l x m t) := of_wf _
theorem lost (l : SLink) (x : CtlPfx) (id : Fid) (serial : B16) (t : Nat) : Statement (.lost l x id serial t) := of_wf _
theorem ridge (l : SLink) (x : CtlPfx) (ridge : Fid) (standby : Option Fid) (epoch : Word) (t : Nat) :
    Statement (.ridge l x ridge standby epoch t) := of_wf _
theorem state (l : SLink) (x : CtlPfx) (ceiling : Byte) (routes : List (Fid × Fid × Byte)) (seq : RidgeSeq) (t : Nat) :
    Statement (.state l x ceiling routes seq t) := of_wf _
theorem handover (l : SLink) (x : CtlPfx) (successor : Fid) (instant : B64) (t : Nat) : Statement (.handover l x successor instant t) := of_wf _
theorem delayReq (l : SLink) (t1 : B64) (t : Nat) : Statement (.delayReq l t1 t) := of_wf _
theorem delayRsp (l : SLink) (t1 : B64) (t2 : B64) (t3 : B64) (t4 : B64) : Statement (.delayRsp l t1 t2 t3 t4) := of_wf _
theorem routeStage (l : SLink) (x : CtlPfx) (version : B16) (entries : List (Fid × Byte × Bool)) (t : Nat) :
    Statement (.routeStage l x version entries t) := of_wf _
theorem routeAct (l : SLink) (x : CtlPfx) (version : B16) (instant : B64) (t : Nat) : Statement (.routeAct l x version instant t) := of_wf _
theorem homeMove (l : SLink) (x : CtlPfx) (window : Win) (oldHome : Fid) (newHome : Fid) (newWin : Win) (t : Nat) :
    Statement (.homeMove l x window oldHome newHome newWin t) := of_wf _
theorem schemaSwitch (l : SLink) (x : CtlPfx) (next : Byte) (instant : B64) (t : Nat) : Statement (.schemaSwitch l x next instant t) := of_wf _
theorem ack (l : SLink) (x : CtlPfx) (type : Byte) (serial : B16) (t : Nat) : Statement (.ack l x type serial t) := of_wf _
theorem relay (l : SLink) (x : CtlPfx) (all : Bool) (seq : Word) (pkt : List Byte) (t : Nat) : Statement (.relay l x all seq pkt t) := of_wf _
theorem relayReply (l : SLink) (x : CtlPfx) (seq : Word) (completion : Bool) (status : B16) (bytes : List Byte) (t : Nat) :
    Statement (.relayReply l x seq completion status bytes t) := of_wf _
theorem notice (l : SLink) (x : CtlPfx) (kind : Byte) (body : List Byte) (t : Nat) : Statement (.notice l x kind body t) := of_wf _
theorem helloInterval (t : Nat) : Statement (.helloInterval t) := of_wf _
theorem helloTimeout (l : SLink) (t : Nat) : Statement (.helloTimeout l t) := of_wf _
theorem memberInterval (t : Nat) : Statement (.memberInterval t) := of_wf _
theorem memberTimeout (id : Fid) (t : Nat) : Statement (.memberTimeout id t) := of_wf _
theorem electionTimer (t : Nat) : Statement (.electionTimer t) := of_wf _
theorem handoverInstant (t : Nat) : Statement (.handoverInstant t) := of_wf _
theorem routeActivation (t : Nat) : Statement (.routeActivation t) := of_wf _
theorem schemaSwitchOver (t : Nat) : Statement (.schemaSwitchOver t) := of_wf _
theorem timeMarkInterval (t : Nat) : Statement (.timeMarkInterval t) := of_wf _
theorem delayInterval (t : Nat) : Statement (.delayInterval t) := of_wf _
theorem holdoverExpiry (t : Nat) : Statement (.holdoverExpiry t) := of_wf _
theorem lowerKeyEligible (id : Fid) (t : Nat) : Statement (.lowerKeyEligible id t) := of_wf _
theorem reassemblyTimeout (src : Fid) (serial : B16) (t : Nat) : Statement (.reassemblyTimeout src serial t) := of_wf _
theorem ackResendTimeout (serial : B16) (t : Nat) : Statement (.ackResendTimeout serial t) := of_wf _
theorem relayTimeout (seq : Word) (t : Nat) : Statement (.relayTimeout seq t) := of_wf _
theorem relayHoldExpiry (t : Nat) : Statement (.relayHoldExpiry t) := of_wf _
theorem noticeGap (origin : Fid) (t : Nat) : Statement (.noticeGap origin t) := of_wf _
theorem restartingLimit (t : Nat) : Statement (.restartingLimit t) := of_wf _
theorem presenceRecognised (ch : Dch) (t : Nat) : Statement (.presenceRecognised ch t) := of_wf _
theorem removal (ch : Dch) (t : Nat) : Statement (.removal ch t) := of_wf _
theorem modelStep (samples : List DwSample) (t : Nat) : Statement (.modelStep samples t) := of_wf _
theorem fast (ch : Dch) (t : Nat) : Statement (.fast ch t) := of_wf _
theorem faultTmr (ch : Dch) (t : Nat) : Statement (.faultTmr ch t) := of_wf _
theorem enhTmo (ch : Dch) (t : Nat) : Statement (.enhTmo ch t) := of_wf _
theorem pgood (ch : Dch) (t : Nat) : Statement (.pgood ch t) := of_wf _
theorem perstRelease (ch : Dch) (t : Nat) : Statement (.perstRelease ch t) := of_wf _
theorem offTimerExpiry (ch : Dch) (t : Nat) : Statement (.offTimerExpiry ch t) := of_wf _
theorem gpioEnable (n : BitVec 3) (high : Bool) (t : Nat) : Statement (.gpioEnable n high t) := of_wf _
theorem dwyChEn (path : Path) (ch : Dch) (on : Bool) (t : Nat) : Statement (.dwyChEn path ch on t) := of_wf _
theorem module48Down (t : Nat) : Statement (.module48Down t) := of_wf _
theorem module48Up (t : Nat) : Statement (.module48Up t) := of_wf _
theorem doorbell (ring : BitVec 2) (value : Word) (pkts : List (List Byte)) : Statement (.doorbell ring value pkts) := of_wf _
theorem ringEnable (path : Path) (ring : BitVec 2) (on : Bool) : Statement (.ringEnable path ring on) := of_wf _
theorem hearthTurn :
    Statement .hearthTurn := of_wf _
theorem evtPop (size : Nat) (off : Nat) : Statement (.evtPop size off) := of_wf _
theorem evtFlush (value : Word) : Statement (.evtFlush value) := of_wf _
theorem eventPosted :
    Statement .eventPosted := of_wf _
theorem loReadLatch (path : Path) (off : Nat) (size : Nat) : Statement (.loReadLatch path off size) := of_wf _
theorem registerWrite (path : Path) (off : Nat) (size : Nat) (value : Word) : Statement (.registerWrite path off size value) := of_wf _
theorem budgetTick (t : Nat) : Statement (.budgetTick t) := of_wf _
theorem huSenseSample (mv10 : B16) (t : Nat) : Statement (.huSenseSample mv10 t) := of_wf _
theorem senseFault (t : Nat) : Statement (.senseFault t) := of_wf _
theorem pfwN (t : Nat) : Statement (.pfwN t) := of_wf _
theorem vstopWaitExpiry (t : Nat) : Statement (.vstopWaitExpiry t) := of_wf _
theorem flushDone (t : Nat) : Statement (.flushDone t) := of_wf _
theorem pfwRelease (t : Nat) : Statement (.pfwRelease t) := of_wf _
theorem fatalFault (checker : B16) (addr : B64) (t : Nat) : Statement (.fatalFault checker addr t) := of_wf _
theorem drainEnd (t : Nat) : Statement (.drainEnd t) := of_wf _
theorem drainLimit (t : Nat) : Statement (.drainLimit t) := of_wf _
theorem disarm (path : Path) (checker : B16) : Statement (.disarm path checker) := of_wf _
theorem armOnce (path : Path) (checker : B16) : Statement (.armOnce path checker) := of_wf _
theorem armContinuous (path : Path) (checker : B16) : Statement (.armContinuous path checker) := of_wf _
theorem stackLoss (s : Stack) (t : Nat) : Statement (.stackLoss s t) := of_wf _
theorem hearthWatchdog (t : Nat) : Statement (.hearthWatchdog t) := of_wf _
theorem tempReading (readings : List (BitVec 12)) (t : Nat) : Statement (.tempReading readings t) := of_wf _
theorem refclkLost (b : Bool) (t : Nat) : Statement (.refclkLost b t) := of_wf _
theorem ckpSwitch (path : Path) : Statement (.ckpSwitch path) := of_wf _
theorem pllLockLoss (pll : Option (BitVec 6)) (t : Nat) : Statement (.pllLockLoss pll t) := of_wf _
theorem coldReset (rail : Bool) (aonLost : Bool) : Statement (.coldReset rail aonLost) := of_wf _
theorem resetRelease (ehrec : List Byte) (slotOk : Bool × Bool) (strap : BitVec 2) : Statement (.resetRelease ehrec slotOk strap) := of_wf _
theorem warmN (t : Nat) : Statement (.warmN t) := of_wf _
theorem warm (path : Path) (value : Word) (t : Nat) : Statement (.warm path value t) := of_wf _
theorem vddAonLoss :
    Statement .vddAonLoss := of_wf _
theorem hearthUp (t : Nat) (version : Word) (ownMin : Byte) (ownMax : Byte) : Statement (.hearthUp t version ownMin ownMax) := of_wf _
theorem firmwareFallback (t : Nat) : Statement (.firmwareFallback t) := of_wf _
theorem avsUpdate (acked : Bool) (measured : BitVec 10) (differs10ms : Bool) : Statement (.avsUpdate acked measured differs10ms) := of_wf _
theorem railOutOfRange (inRange : BitVec 9) : Statement (.railOutOfRange inRange) := of_wf _
theorem memoryActiveTimeout (port : Port) : Statement (.memoryActiveTimeout port) := of_wf _
theorem cxlIoCompletionTimeout (port : Port) : Statement (.cxlIoCompletionTimeout port) := of_wf _
theorem linkRecovery (port : Port) (lockLost : Bool) (retry : Bool) : Statement (.linkRecovery port lockLost retry) := of_wf _
theorem endpointConfigWrite (mse : Bool) (bme : Bool) (d3hot : Bool) : Statement (.endpointConfigWrite mse bme d3hot) := of_wf _
theorem refclkValid (b : Bool) : Statement (.refclkValid b) := of_wf _
theorem i3cDynamicAddress (addr : BitVec 7) : Statement (.i3cDynamicAddress addr) := of_wf _
theorem prsntNLow (ch : Dch) (t : Nat) : Statement (.prsntNLow ch t) := of_wf _
theorem poweredHour :
    Statement .poweredHour := of_wf _
theorem hearthReturn (t : Nat) : Statement (.hearthReturn t) := of_wf _

end Sys2Proof.Laws.Timed
end

