-- ==== Sys2Proof/Tests/Slice0.lean ====
section
/-! SUPPORT. The model's own tests: an ill-formed command for each check of well-formedness, worked examples of the spec, and
for every statement with hypotheses a state and operands that meet them. -/

open Sys2Proof Sys2Proof.Machine

namespace Sys2Proof.Tests

set_option maxRecDepth 8000
set_option Elab.async false
set_option linter.unusedTactic false
set_option linter.unreachableTactic false

/-! ## States of the tests and witnesses -/

/-- A switch that runs alone in lifecycle state MANUFACTURE, its Hearth up. -/
def tUp : State :=
  { State.reset with
    pwr := { State.reset.pwr with st := .run, released := true }
    dbg := { State.reset.dbg with lc := some 0 }
    cmds := { State.reset.cmds with hearthUp := true }
    fab := { State.reset.fab with ownMin := 1, ownMax := 3, schema := 3 } }

/-- A header from ring 0 with ROOM 00h. -/
def tH : Hdr := { src := .ring 0, tag := 7, room := 0, force := false, invalidate := false, fence := false, bankV := false,
                  bank := false, schema := 0 }

/-- Port 0 an upstream port and port 3 a pool-device port, both in L0 at 16 GT/s and eight lanes; port 1 unused but for its
role, pass-through. -/
def tLink : State :=
  ((((((tUp.setReg (PRT_CFG 0) 0x0531).setReg (PRT_LINK_STAT 0) 0x1334).setReg (PRT_CFG 3) 0x0533).setReg (PRT_LINK_STAT 3)
    0x1334).setReg (PRT_CFG 1) 0x0532).mapPort 0 fun x => { x with room := some 1 }).mapPort 5 fun x => x

/-- Room 1 with fabric Room ID 5 and host 123h. -/
def tR : Room := { fid := 5, share := { tracker := 1024, dir := 65536, pan := 0, vst := 4096, mover := 2, slices := 4, rules := 16 },
                   hmax := 8, hosts := [(0, 0x123)] }

/-- The BOUND binding of host 123h through port 0. -/
def tBd : Binding := { host := 0x123, port := 0, st := .bound, rw := true, hpa := 0x10000000, bridge := 0 }

/-- A private window of one extent on device 0, with nothing bound. -/
def tPriv : Window := { type := .priv, st := .active, room := 1, pmode := .off, house := false, devs := [0], atomic := false,
                        extents := 1, baseX := 0, serial := 0, subsys := 0, home := 0 }

/-- A dynamic capacity window of four extents, bound by host 123h; extent 1 of it is LIVE. -/
def tDyn : Window := { type := .dynamic, st := .active, room := 1, pmode := .off, house := false, devs := [0], atomic := false,
                       extents := 4, baseX := 16, serial := 1, subsys := 1, home := 0, binds := [tBd] }

def tSl : Slice := { room := 1, window := 1, host := 0x123, pasid := none, page := 0 }

/-- An allotment within every pool. -/
def tA : Allot := { tracker := 32, dir := 16, pan := 0, vst := 16, mover := 1, slices := 1, rules := 8 }

/-- A switch with a Room, a pool device, two windows and a slice. -/
def tW : State :=
  { tLink with pool := { tLink.pool with
      rooms := [(0, { fid := 0, share := { tracker := 2048, mover := 4 } }), (1, tR)]
      devs := [(0, { port := 3, capacity := 0x100000000, serial := some 1, used := [0, 1] })]
      ext := [(0, { window := 0, room := 1, srcExt := 0 }), (17, { window := 1, room := 1, srcExt := 1 })]
      wins := [(0, tPriv), (1, tDyn)], slices := [(0, tSl)] } }

/-- The same Room with nothing that uses its host or its port. -/
def tRm : State := { tW with pool := { tW.pool with wins := [(0, tPriv)], slices := [] } }

/-- OPF modules 5 and 48 UP, SW0 UP. -/
def tLines : State := (((tUp.setFld (OPF_MOD_STAT_fSTATE 5) 1).setFld (OPF_MOD_STAT_fSTATE 48) 1).setFld (STW_LNK_STAT_fSTATE 0) 2).setFld DWY_STAT_fLINK 1

/-- A device with nothing in use. -/
def tDv : State := { tW with pool := { tW.pool with devs := [(2, { port := 3, capacity := 0x10000000, serial := none })] } }

/-- The device's extent 2 clean. -/
def tCl : State := tW.mapPool fun p => { p with devs := p.devs.map fun d => (d.1, { d.2 with clean := [2] }) }

/-- Room 1 with a rule that covers extents 0 to 15. -/
def tRl : Room :=
  { tR with rules0 := [(0, { base := 0, limit := 0xFFFFF, host := 0, pasid := 0, mat := 1, engine := 0, r := true, w := true
                             a := false, sealed := false })] }

def tRu : State := tW.mapRoom 1 fun _ => tRl

/-- A migration of extent 17. -/
def tMg : Mig := { x := 17, win := 1, dstHouse := false, dstDev := 0, oldHouse := false, oldDev := 0 }

/-- The migration without its job in the queue, and with it. -/
def tMig0 : State := { tW with mov := { tW.mov with migs := [tMg] } }
def tMig : State := { tMig0 with mov := { tMig0.mov with queue := [{ id := 0, room := 0, kind := .mig 17 }] } }

/-- The Ridge of a fabric of three switches, with switch 020h its standby; schemas 1 to 3, 3 in use. -/
def tRidge : State :=
  let m : Member := { rank := 1, ownMin := 1, ownMax := 3, held := false, restarting := false, locked := true, hops := 1, serial := 1
                      first := 0, last := 0, link := 0, links := [0] }
  { tLines with fab := { tLines.fab with
      fid := some 0x010, rank := 0, nCfg := 3, members := [(0x020, m), (0x030, { m with rank := 2 })], ridge := some 0x010
      standby := some 0x020, epoch := 1, apart := false, stdReady := true, everLocked := true, locked := true, joined := true } }

/-- Slot 1 verified; an Ehrec of four bytes in force. -/
def tSlot : State :=
  tUp.mapPwr fun p => { p with slot1 := { valid := true, verified := true, version := 2, ownMin := 1, ownMax := 3 }, ehrec := [1, 2, 3, 4] }

/-- A 32-byte packet, and the state that its relay to switch 123h leaves. -/
def tPkt : List Byte := List.replicate 32 0

def tRel : State :=
  tUp.mapFab fun f => { f with
    relays := [{ n := 0, all := false, seq := some 0, open_ := [(0x123, some 0)], pkt := tPkt }], relayN := 1, relayNext := [(0x123, 1)] }

/-- A PENDING RULE_COMMIT with its result, a POOL_ADOPT and a FW_VERIFY at work, and the states that hold them. -/
def tP : Pend := { id := 0, src := .ring 0, tag := 7, opcode := 0x0504, room := 0, work := .ruleCommit 1, words := 4, relay := none
                   res := some ⟨.ok, 0, []⟩ }
def tPd : State := tUp.mapCmds fun c => { c with pend := [tP], nextId := 1 }
def tPz : Pend := { tP with opcode := 0x0401, work := .poolAdopt 3, res := none }
def tPa : State := tUp.mapCmds fun c => { c with pend := [tPz], nextId := 1 }
def tPw : Pend := { tP with opcode := 0x0b03, work := .fwVerify true, res := none }
def tPv : State := tUp.mapCmds fun c => { c with pend := [tPw], nextId := 1 }

/-- The mailbox of window 1 for host 123h; an offer of its extent 2. -/
def tMb : MbAt := { window := 1, host := 0x123 }
def tOf : Offer := { id := 0, xs := [2], deadline := 5 }

/-- A pass-through binding of port 1 at bridge 64 of the virtual switch of port 0. -/
def tV : Vppb := { vcs := 0, bridge := 64, port := 1 }
def tVp : State := tW.mapPorts fun x => { x with vppb := [tV] }

/-- The packet of IDENTIFY with tag 7. -/
def tIdent : List Byte := packetOf tH (.identify tH)

/-- A shared window of one extent on device 0, bound by host 123h, with a rule that permits everything. -/
def tWs : Window :=
  { tPriv with type := .shared, extents := 1, baseX := 0, atomic := true, binds := [tBd] }

/-- Room 1 with a rule over extents 0 to 15 that permits all three accesses. -/
def tRl3 : Room :=
  { tR with fid := 5, rules0 := [(0, { base := 0, limit := 0xFFFFFF, host := 0x123, pasid := 0xFFFFF, mat := 1, engine := 0, r := true, w := true
                                       a := true, sealed := false })] }

/-- Window 1 is that window; port 0's partner holds all its credits. -/
def tH0 : State :=
  { tLink.mapHome (fun h => { h with credits := [(0, 256), (1, 64), (2, 64)] }) with pool := { tLink.pool with
      rooms := [(0, { fid := 0, share := { tracker := 2048, mover := 4 } }), (1, tRl3)]
      devs := [(0, { port := 3, capacity := 0x100000000, serial := some 1, used := [0] })]
      ext := [(0, { window := 1, room := 1, srcExt := 0 })]
      wins := [(1, tWs)] } }

/-- A message for that window at home unit 0. -/
def tGv (k : MKind) (c : Cls) (mv : Meta) (sn : SnpType) : VMsg :=
  { id := 1, port := 0, cls := c, room := some 1, t0 := 0, dst := .home 0, plane := false, win := some 1, off := 0, cells := 1, shared := 0
    yellow := false, bytes := 0
    m := { kind := k, host := 0x123, dpid := 0, tag := 9, addr := 0x10000000, mval := mv, snp := sn, block := false, data := 7
           be := 0xFF, len := 4, pasid := none, poison := false } }

def tG (k : MKind) (c : Cls) (mv : Meta) (sn : SnpType) : State :=
  tH0.mapHome fun h => { h with vst := [tGv k c mv sn], next := 2 }

def tGu (k : MKind) (c : Cls) (mv : Meta) (sn : SnpType) : State :=
  (((tG k c mv sn).at 5).countsGrant 0 false (tGv k c mv sn)).leave (tGv k c mv sn)

/-- The line's owner is host 123h (directory entry in E), so that its write is a writeback. -/
def tTrk : Trk :=
  { id := 0, hu := 0, pool := .general, room := 1, line := 0, win := 1, st := .ei, opened := stE, owner := 0x123
    req := .rd .memRd true false 0x124 3 0 }
def tGb (k : MKind) (c : Cls) (mv : Meta) (sn : SnpType) : State := (tG k c mv sn).mapHome fun h => { h with trk := [tTrk] }
def tGbu (k : MKind) (c : Cls) (mv : Meta) (sn : SnpType) : State :=
  (((tGb k c mv sn).at 5).countsGrant 0 false (tGv k c mv sn)).leave (tGv k c mv sn)

/-- An entry that waits for a snoop of host 123h; with one whose completion is owed to that host before. -/
def tY (k : SnpType) : Snoop := { host := 0x123, kind := k, t0 := 0 }
def tK (k : SnpType) : Trk := { tTrk with id := 1, skind := k, snoops := [tY k] }
def tS (k : MKind) (sk : SnpType) : State := (tG k .srsp .i .noOp).mapHome fun h => { h with trk := [tK sk] }
def tSu (k : MKind) (sk : SnpType) : State :=
  (((tS k sk).at 5).countsGrant 0 false (tGv k .srsp .i .noOp)).leave (tGv k .srsp .i .noOp)
def tS2 : State := (tG .biConflict .srsp .i .noOp).mapHome fun h =>
  { h with trk := [{ tTrk with id := 0, req := .rd .memRd true false 0x123 3 0 }, tK .snpInv] }
def tSu2 : State :=
  ((tS2.at 5).countsGrant 0 false (tGv .biConflict .srsp .i .noOp)).leave (tGv .biConflict .srsp .i .noOp)

/-- Slot 3 of slice 0 with an operation in flight at offset 16 of window 1. -/
def tXy (op size : Nat) : XSlot :=
  { target := 16, op := op, size := size, operand := 7, flight := some (16, op, size, false, 7) }
def tXs (op size : Nat) : Slice := { room := 1, window := 1, host := 0x123, pasid := none, page := 0, slots := [(3, tXy op size)] }
def tX (op size : Nat) : State := tH0.mapPool fun p => { p with slices := [(0, tXs op size)] }

/-- A pass-through binding with CXL.cache; both ports in L0. -/
def tCv : Vppb := { vcs := 0, bridge := 64, port := 1, cache := true, cacheId := 2 }
def tCa : State := (tW.setReg (PRT_LINK_STAT 1) 0x1334).mapPorts fun x => { x with vppb := [tCv] }

/-- A binding that is UNBINDING. -/
def tUb : Binding := { tBd with st := .unbinding, deadline := some 5 }
def tUw : Window := { tWs with binds := [tUb] }
def tUn : State := tH0.mapPool fun p => { p with wins := [(1, tUw)] }

/-- Memory request 4, a read of device 0; the same request in quarantine on the pool port. -/
def tMr : MemReq := { id := 4, hu := 0, line := 0, win := 1, use := .fill 0, wr := none, tgt := .dev 0 0, t0 := 0 }
def tMq : State := tH0.mapHome fun h => { h with memq := [tMr], trk := [{ tTrk with id := 0, st := .f }] }
def tQu : State := { tLink with ports := { tLink.ports with st := NMap.set [] 3 { (tLink.port 3) with quar := [4] } } }

/-- An internal request that was NAKed, with a tracker entry to have and without. -/
def tIr : IntReq := { id := 5, room := 1, line := 0, win := 1, wr := none, next := 8, since := 2 }
def tIq : State := tH0.mapHome fun h => { h with intq := [tIr] }
def tIqn : State := tIq.mapHome fun h => { h with trk := [{ tTrk with st := .f }] }

/-- Scrubbing of home unit 0, set 7 next, and after that set. -/
def tSc : State := (tUp.setFld (HSL_SCRUB_CFG_fEN 0) 1).mapHome fun h => { h with scrub := [(0, 7)] }
def tScu : State := tSc.mapHome fun h => { h with scrub := [(0, 8)] }

def tPg : State := tH0.mapPort 0 fun x => { x with purge := true }

/-- The binding of `tUn` as a snoop timeout leaves it. -/
def tUfb : Binding := { tBd with st := .failed, r96 := true }
def tUfw : Window := { tWs with binds := [tUfb] }
def tUf : State := tH0.mapPool fun p => { p with wins := [(1, tUfw)] }

/-- Window 1 with dynamic capacity and an offer. -/
def tDow : Window := { tDyn with offers := [tOf] }
def tDo : State := tW.mapPool fun p => { p with wins := [(1, tDow)] }

/-- Window 1 at its old home: copied and DUAL, and in handoff. -/
def tHr : Rehome := { old := true, peer := 0x020, peerWin := 4, age := 20000, mode := .off }
def tHw : Window := { tPriv with st := .copying, rehome := some tHr }
def tHs : State :=
  { tH0 with
    pool := { tH0.pool with wins := [(1, tHw)], ext := [(0, { window := 1, room := 1, srcExt := 0, st := .dual })] }
    mov := { tH0.mov with migs := [{ tMg with x := 0, step := 5, remote := some (0x020, 0) }] } }
def tHsu : State := tHs.mapWin 1 fun y => { y with st := .handoffOut }
def tHow : Window := { tHw with st := .handoffOut }
def tHo : State := tH0.mapPool fun p => { p with wins := [(1, tHow)] }

/-- Window 1 at its new home, with a request held. -/
def tHnr : Rehome := { tHr with old := false }
def tHnw : Window := { tWs with st := .incoming, rehome := some tHnr }
def tHn : State :=
  (tH0.mapPool fun p => { p with wins := [(1, tHnw)] }).mapHome fun h => { h with hold := [{ win := 1, t0 := 0, v := tGv .memRd .req .i .noOp }] }
def tHnu : State :=
  ((tHn.at 5).mapWin 1 fun y => { y with st := .active, rehome := none }).mapHome fun h => { h with hold := [] }

/-- A gate swap due at 5 ns; a drain that ends then; a bystander resume due then. -/
def tGt : State := { tLink with ports := { tLink.ports with st := [(0, { (tLink.port 0) with gateT := some 5 })] } }
def tDr : State := tUp.mapHome fun h => { h with drains := [(0x020, 5)] }
def tMb1 : State := tUp.mapMov fun m => { m with byst := some 5 }

/-- A job of Room 1 that is queued, and that channel 0 runs with a descriptor of a type. -/
def tJob : Job := { id := 0, room := 1, kind := .list 64 }
def tDe (type : Nat) : Desc :=
  { next := 0, type := type, last := true, fence := false, irq := false, recl := false, step := 0, len := 64, src := 0, dst := 128
    pattern := 5, user := 0, rsvd := false }
def tMo0 : State := tH0.mapMov fun m => { m with queue := [tJob], chans := [(0, { en := true, room := some 1, st := .idle })] }
def tMo (type : Nat) : State :=
  tH0.mapMov fun m => { m with chans := [(0, { en := true, room := some 1, st := .running, job := some tJob, cur := some (tDe type) })] }

/-- A migration of extent 17 that channel 60 runs, at a step, with lines copied. -/
def tMj : Job := { id := 0, room := 0, kind := .mig 17 }
def tMm (k c : Nat) : State :=
  let e : Ext := { window := 1, room := 1, srcExt := 1 }
  { tW with
    pool := { tW.pool with ext := [(17, if k = 1 ∨ k = 2 then { e with st := .dual, dstExt := 3 } else if k = 3 then { e with st := .retire, dstExt := 3 } else e)] }
    mov := { tW.mov with
      migs := [{ tMg with step := k, copied := c }]
      chans := [(60, { en := true, room := some 0, st := .running, job := some tMj })] } }

/-- Channel 0 halted by a fault. -/
def tMh : State :=
  tH0.mapMov fun m => { m with chans := [(0, { en := true, room := some 1, st := .haltFault, job := some tJob, cur := some (tDe 0) })] }

/-- Port 0 in Detect, what its training finds, and the same port with a larger MIN_WIDTH. -/
def tInfo : LinkInfo :=
  { rate := 4, width := 3, failedLanes := 0, flitMode := true, reversed := false, polInv := 0, retimers := 0, cxl := true, flit := 2
    pbr := false, cache := false, eqFail := false, rateLow := false, neighbour := none, serial := none, decoder := none
    unfit := false, capacity := 0, lanes := [] }
def tTw : State := (tLink.setFld (PRT_CFG_fMIN_WIDTH 0) 1).setFld (PRT_CFG_fMAX_RATE 0) 5
def tTr : State := tTw.setReg (PRT_LINK_STAT 0) 1
def tTrn : State := tTr.setFld (PRT_CFG_fMIN_WIDTH 0) 4
def tRw : RateWidth := { rate := 3, width := 3 }
def tWr : State := tTr.mapPort 0 fun x => { x with retryAt := some 5 }

/-- Lane 3 active; the switch margins lane 0 of port 0. -/
def tLa : State := tLink.setFld (LNG_LANE_STAT_fACTIVE 0 3) 1
def tLm : State := tLa.mapPort 0 fun x => { x with margin := [(8, 4)] }

/-- The pool device of port 3 awaits its link. -/
def tPl : State :=
  { tW with
    pool := { tW.pool with devs := [(0, { port := 3, capacity := 0x100000000, serial := some 1, used := [0], awaitLink := true })] }
    pwr := { tW.pwr with poolWait := some 5 } }

/-- Flits and packets. -/
def tFl (n : Nat) : OpfFlit := { good := true, seq := n, vc := 0, ack := 4095, crVc := 0, crCnt := 0, payload := [] }
def tNu : OpfNull := { good := true, ack := 4095, crVc := 0, crCnt := 0 }
def tSp : StwPkt := { good := true, seq := 0, vc := 0, ack := 4095, crVc := 0, crCnt := 0, words := [] }

/-- Module 5 in RETRAIN, its tests not listed, listed, and listed with the other end in step. -/
def tLr : State := (tLines.setFld (OPF_MOD_STAT_fSTATE 5) 2).mapLinks fun x => { x with since := [(5, 0)] }
def tLt : State := tLr.mapLinks fun x => { x with listed := [5] }
def tLs : State := tLt.mapLend 11 fun e => { e with sync := true }

/-- SW0 in TRAINING and down; module 48 in RETRAIN; sixteen TRN sets received. -/
def tLtr : State :=
  ((tRidge.setFld (STW_LNK_STAT_fSTATE 0) 1).mapLinks fun x => { x with since := [(64, 0)] }).mapLend 100 fun e => { e with trn := 16 }
def tLd : State := tLtr.setFld (STW_LNK_STAT_fSTATE 0) 0
def tLm8 : State := (tLines.setFld (OPF_MOD_STAT_fSTATE 48) 2).mapLend 96 fun e => { e with trn := 16 }

/-- A sender that awaits an acknowledgement, a receiver that owes one, and links that audit. -/
def tLrp : State := tLines.mapLend 10 fun e => { e with timer := some 0 }
def tLak : State := tLines.mapLend 10 fun e => { e with ackDue := true }
def tLau : State := (tLines.setFld OPF_GCFG_fAUDIT_EN 1).setFld (STW_LNK_CFG_fAUDIT_EN 0) 1

/-- Switch 030h in the fabric of `tRidge`, its neighbour the Ridge; a prefix and a record of other switches. -/
def tMe : Member :=
  { rank := 1, ownMin := 1, ownMax := 3, held := false, restarting := false, locked := true, hops := 1, serial := 1
    first := 0, last := 0, link := 0 }
def tMem : State :=
  { tRidge with fab := { tRidge.fab with
      fid := some 0x030, rank := 2, ridge := some 0x010, stdReady := false, members := [(0x010, { tMe with rank := 0, hops := 0 }), (0x020, tMe)]
      neigh := [(0, (0x010, 0, 0))], delay := [(0, 10)] } }
def tPfx (src dst : Fid) (bcast : Bool) : CtlPfx :=
  { schema := 3, src := src, dst := dst, bcast := bcast, hops := 3, serial := 7, epoch := 1 }
def tRec : MemberRec :=
  { id := 0x123, rank := 5, ownMin := 1, ownMax := 3, held := false, restarting := false, locked := true, schemaCur := 3, hops := 2
    epoch := 1, serial := 1 }

/-- A staged table due at 5 ns; a packet of two segments of which one has come; a packet that waits for its ACK. -/
def tAct : State :=
  { tRidge with
    fab := { tRidge.fab with routeT := some ⟨5, 1, 0x010⟩ }, ports := { tRidge.ports with staged := some (1, [(0x100, (3, false))]) } }
def tRe : Nat × Nat × Nat × Nat × List Nat := (0x020, 3, 9, 0, [0])
def tAw : AckWait := { serial := 3, type := 5, dst := 0x020, t := 0, body := [] }

/-- Doorway channel 3 whose count of T_INS runs; the channel with a board present in a state; the same limiting. -/
def tCnt : State := (tUp.setFld DWY_STAT_fLINK 1).mapDch 3 fun c => { c with prsHigh := false, cntT := some 0 }
def tDw (st : Nat) : State :=
  (tUp.setFld DWY_STAT_fLINK 1).mapDch 3 fun c => { c with prsHigh := false, present := true, en := true, st := st }
def tFt (st : Nat) : State := (tDw st).mapDch 3 fun c => { c with ilim := true, ilimT := 0 }

/-- The management endpoint open; ring 0 enabled; a packet in the mailbox transport; a FIFO of one event. -/
def tEp : State := { tUp with ep := { tUp.ep with mse := true, bme := true, d3 := false } }
def tRng : State := tEp.setFld (CMD_RNG_CFG_fEN 0) 1
def tMbx : State := tUp.mapCmds fun c => { c with mailbox := [⟨tPkt, none⟩] }
def tEvt (w : B64) (ws : List B64) : State := tEp.mapCmds fun c => { c with fifo := w :: ws }

/-- A dirty Pantry line; a power-fail flush with nothing left; a warm reset in its drain; both reference inputs valid. -/
def tDty : State := tUp.mapPan fun p => { p with tags := [(0, { line := 0, d := true, room := 1, repl := 0 })] }
def tFf : Flush :=
  { t0 := 0, dirtyStart := 0, flushed := 0, failed := 0, vCheck := 0, short := false, sense := false, vstop := none, todo := [] }
def tFlu : State := tUp.mapPan fun p => { p with flush := some tFf }
def tWd : State := tUp.mapPwr fun p => { p with st := .warmDrain }
def tClk : State := (tUp.setFld CKP_CLK_STAT_fA_OK 1).setFld CKP_CLK_STAT_fB_OK 1

/-- A header of a command on the mailbox; the mailbox with the packet of a command; a Pantry way that caches line 5. -/
def tHm : Hdr := { tH with src := .mailbox }
def tMbr : State := tUp.mapCmds fun c => { c with mailbox := [⟨packetOf tHm (.portRole tHm 3 1), none⟩] }
def tPk : State :=
  tUp.mapPan fun p => { p with tags := [(panKey (lineHu 5) (tUp.panSet 5) 3, { line := 5, d := false, room := 1, repl := 0 })] }
def tIqw : State := (tS .biRspI .snpInv).mapHome fun h => { h with intq := [tIr] }
def tLk : State := tUp.mapHome fun h => { h with hbm := [(9, { cur := some { req := 3, lock := some 0 } })] }
def tCrc (c : Nat) (d : List Byte) : Byte := BitVec.ofNat 8 (crc8 (leBytes 1 c ++ (d ++ leBytes 6 0).take 6))
def tWords : List B64 := List.replicate 66 0xffffffff00000000
def tMarkCrc (m : Nat) : Byte := BitVec.ofNat 8 (crc8 (leBytes 8 m))
def tRngE : State := { (tRng.mapRing 0 fun x => { x with tail := 1, slots := [[]] }) with ep := { tRng.ep with bme := true } }

/-! ## Well-formedness -/

/-- A PORT_ROLE that asks for nothing beyond its fields is well formed (R422). -/
theorem test_wf_accepts : (Instr.portRole tH 3 1).wf = true := by decide

/-- A time beyond 64 bits (R10). -/
theorem test_wf_time : (Instr.pfwN (2 ^ 64)).wf = false := by decide

/-- Parameters beyond 4,064 bytes (R422). -/
theorem test_wf_params : (Instr.ehrecWrite tH 0 (List.replicate 4100 0)).paramsOk = false := by decide +kernel

/-- Eight hold-up words in place of nine (R438). -/
theorem test_wf_counts : (Instr.holdupSet tH 0 (List.replicate 8 0)).wf = false := by decide

/-- A failing-wire word on each of 67 wires of an OPF module (R356). -/
theorem test_wf_wires : (Instr.rtrqFlit { m := 0, high := false } { good := true, ack := 4095, crVc := 0, crCnt := 0 } 1 0 (List.replicate 67 0) [] true true 5).wf = false := by decide

/-- A channel sampled twice in one step (R404). -/
theorem test_wf_samples : (Instr.modelStep [⟨3, 0, 0, 0, 0, false⟩, ⟨3, 0, 0, 0, 0, false⟩] 5).wf = false := by decide

/-- Margin counts of seventeen lanes (R299). -/
theorem test_wf_lanes : (Instr.marginDwellEnd 3 (List.replicate 17 0)).wf = false := by decide

/-- A packet of 4,097 bytes in a slot (R433). -/
theorem test_wf_slots : (Instr.doorbell 0 1 [List.replicate 4097 0]).slotsOk = false := by decide +kernel

/-- An access of 3 bytes (R12). -/
theorem test_wf_size : (Instr.evtPop 3 0x1000).wf = false := by decide

/-- An AtomicOp of 2 bytes (R120). -/
theorem test_wf_atomics : (Instr.flitReceived 3 5 true true [{ kind := .ioAtomic .fetchAdd, host := 0x0A3, dpid := 0, tag := 1, addr := 0, mval := .i, snp := .noOp, block := false, data := 0, be := 0, len := 2, pasid := none, poison := false }] {}).wf = false := by decide

/-! ## Worked examples of the spec -/

/-- Chapter 15: the completion of a binding on virtual bridge 2 is these four words. -/
theorem test_binding_event : eventWords 1 0x0031 0 0 0x0A1B2C3D4E5F (compPayload 0x0420 0 (leBytes 4 2)) =
    [0x8004000000310001, 0x80000A1B2C3D4E5F, 0x8000000000000420, 0xC000000000000002] := by decide

/-- Chapter 15: the packet of that WINDOW_BIND begins with these dwords, and its parameters are these. -/
theorem test_binding_packet :
    let h : Hdr := { tH with tag := 0x0031, room := 0x15 }
    let p := packetOf h (.windowBind h 0x011 0x0A3 10 1 0x4000000000)
    (List.range 7).map (fun k => fieldAt p (4 * k) 4) = [0x00310420, 0x00100015, 0, 0, 0, 0, 0] ∧
      (List.range 4).map (fun k => fieldAt p (32 + 4 * k) 4) = [0x00A30011, 0x0000010A, 0, 0x40] := by decide

/-- Chapter 19: FUSE_MV 735 and 87,660 hours give 740 mV, 2E4h. -/
theorem test_avs : avsTarget 735 87660 = 0x2E4 := by decide

/-- Chapter 21: the three addresses. -/
theorem test_addresses : (HSL_PV_LAST 20, LNG_LANE_STAT 17 1, QOS_TP 10) = (0x00450074, 0x00111120, 0x00082854) := by decide

/-- Chapter 2: HPA 45_6789_ABC0h in the window at 40_0000_0000h with pool base 1230_0000_0000h lies in extent 1_2356h. -/
theorem test_extent_index : (0x123000000000 + (0x456789ABC0 - 0x4000000000)) / 2 ^ 28 = 74582 ∧
    (0x123000000000 + (0x456789ABC0 - 0x4000000000) : Nat) = 0x12356789ABC0 := by decide

/-- Chapter 3: a Room with Hmax 120 has groups of three positions. -/
theorem test_coarse_group : Room.groupSize { tR with hmax := 120 } = 3 := by decide

/-- The hold-up parameters of chapter 5's example. -/
def tHold : NMap Nat := [(0, 120000), (1, 36000), (2, 36000), (3, 200), (4, 960), (5, 32000), (6, 400), (7, 100), (8, 800)]

/-- Chapter 5: 0.12 F at 48.0 V down to 36.0 V, r 20 %, 960 W, 32 GB/s, 0.4 ms: 25,000,000 lines. -/
theorem test_budget : budgetAt tHold 0 4800 200 = 25000000 := by
  have h0 : hpOf tHold 0 = some 120000 := by decide
  have h1 : hpOf tHold 1 = some 36000 := by decide
  have h4 : hpOf tHold 4 = some 960 := by decide
  have h5 : hpOf tHold 5 = some 32000 := by decide
  have h6 : hpOf tHold 6 = some 400 := by decide
  have h7 : hpOf tHold 7 = some 100 := by decide
  have h8 : hpOf tHold 8 = some 800 := by decide
  have hn : noParam tHold = false := by decide
  have e : energyAt tHold 0 4800 = 60480 := by norm_num [energyAt, capNow, h0, h1, h7, h8]
  simp only [budgetAt, hn, h1, h4, h5, h6, e]
  norm_num
  rfl

/-! ## A witness for every hypothesis -/

theorem witness_link_group_commands_complete_1 :
    (fun (s : State) (h : Hdr) =>
      (s.serves h 0x0101)) tUp tH := by
  first | decide +kernel | rfl

theorem witness_link_group_commands_complete_2 :
    (fun (s : State) (h : Hdr) =>
      (s.serves h 0x0102)) tUp tH := by
  first | decide +kernel | rfl

theorem witness_link_group_commands_complete_3 :
    (fun (s : State) (h : Hdr) (group mode pa pb pc pd : Byte) =>
      (s.serves h 0x0201) ∧
      ((group.toNat < 32 ∧ mode.toNat ≤ 3 ∧ (mode.toNat = 3 → group.toNat % 2 = 0))) ∧
      (((modePorts mode.toNat [pa.toNat, pb.toNat, pc.toNat, pd.toNat]).Nodup ∧ ∀ p ∈ modePorts mode.toNat [pa.toNat, pb.toNat, pc.toNat, pd.toNat], p < 64)) ∧
      (((s.affected group.toNat mode.toNat).flatMap fun x => (s.group x).2).all (fun p =>
            s.role p == roleUnused && !s.portWork p) = true) ∧
      ((modePorts mode.toNat [pa.toNat, pb.toNat, pc.toNat, pd.toNat]).all (fun p =>
            !(((List.range 32).filter fun x => !(s.affected group.toNat mode.toNat).contains x).flatMap fun x => (s.group x).2).contains p)
            = true) ∧
      ((((List.range 32).filter fun x => !(s.affected group.toNat mode.toNat).contains x).flatMap fun x => (s.group x).2).length +
            (modePorts mode.toNat [pa.toNat, pb.toNat, pc.toNat, pd.toNat]).length ≤ 64)) tUp tH 1 1 1 40 0 0 := by
  refine ⟨?_, ?_, ?_, ?_, ?_, ?_⟩ <;> first | decide +kernel | rfl

theorem witness_link_group_commands_complete_4 :
    (fun (s : State) (h : Hdr) (port role : Byte) =>
      (s.serves h 0x0202) ∧
      (port.toNat < 64 ∧ s.portExists port.toNat = true) ∧
      ((role.toNat ≤ 4 ∧ (role.toNat = roleUpstream → (s.port port.toNat).perst ≠ [] ∨ (s.port port.toNat).noInband = false))) ∧
      ((s.port port.toNat).room = none) ∧
      (s.portBound port.toNat = false) ∧
      (s.portWork port.toNat = false) ∧
      (s.role port.toNat = role.toNat)) tUp tH 3 0 := by
  refine ⟨?_, ?_, ?_, ?_, ?_, ?_, ?_⟩ <;> first | decide +kernel | rfl

theorem witness_link_group_commands_complete_5 :
    (fun (s : State) (h : Hdr) (port role : Byte) =>
      (s.serves h 0x0202) ∧
      (port.toNat < 64 ∧ s.portExists port.toNat = true) ∧
      ((role.toNat ≤ 4 ∧ (role.toNat = roleUpstream → (s.port port.toNat).perst ≠ [] ∨ (s.port port.toNat).noInband = false))) ∧
      ((s.port port.toNat).room = none) ∧
      (s.portBound port.toNat = false) ∧
      (s.portWork port.toNat = false) ∧
      (s.role port.toNat ≠ role.toNat)) tUp tH 3 3 := by
  refine ⟨?_, ?_, ?_, ?_, ?_, ?_, ?_⟩ <;> first | decide +kernel | rfl

theorem witness_link_group_commands_complete_6 :
    (fun (s : State) (h : Hdr) (port rate width : Byte) =>
      (s.serves h 0x0203) ∧
      (port.toNat < 64 ∧ s.portExists port.toNat = true) ∧
      (rate.toNat ≤ 6 ∧ rate.toNat ≤ s.fld (PRT_CFG_fMAX_RATE port.toNat)) ∧
      (width.toNat ≤ 4 ∧ widthLanes width.toNat ≤ s.portWidth port.toNat) ∧
      (s.pendRoom 2) ∧
      (s.busyWith (· == .portLink port.toNat) = false)) tUp tH 3 2 2 := by
  refine ⟨?_, ?_, ?_, ?_, ?_, ?_⟩ <;> first | decide +kernel | rfl

theorem witness_link_group_commands_complete_7 :
    (fun (s : State) (h : Hdr) (port en : Byte) =>
      (s.serves h 0x0204) ∧
      (port.toNat < 64 ∧ s.portExists port.toNat = true) ∧
      (en.toNat ≤ 1)) tUp tH 3 1 := by
  refine ⟨?_, ?_, ?_⟩ <;> first | decide +kernel | rfl

theorem witness_link_group_commands_complete_8 :
    (fun (s : State) (h : Hdr) (port : Byte) =>
      (s.serves h 0x0205) ∧
      (port.toNat < 64 ∧ s.portExists port.toNat = true)) tUp tH 3 := by
  refine ⟨?_, ?_⟩ <;> first | decide +kernel | rfl

theorem witness_link_group_commands_complete_9 :
    (fun (s : State) (h : Hdr) (port target : Byte) (mask : B16) (dir steps limit : Byte) (dwell : Word) =>
      (s.serves h 0x0206) ∧
      (port.toNat < 64 ∧ s.portExists port.toNat = true) ∧
      (target.toNat ≤ 1 ∧ mask.toNat ≠ 0 ∧ mask.toNat < 2 ^ s.portWidth port.toNat) ∧
      (dir.toNat ≤ 3 ∧ steps.toNat ≤ marginSteps (s.fld (PRT_LINK_STAT_fRATE port.toNat)) dir.toNat) ∧
      (1 ≤ limit.toNat ∧ limit.toNat ≤ 63 ∧ 1 ≤ dwell.toNat ∧ dwell.toNat ≤ 10000) ∧
      (s.pendRoom 32) ∧
      (s.inL0 port.toNat = true) ∧
      (3 ≤ s.fld (PRT_LINK_STAT_fRATE port.toNat)) ∧
      ((s.maskLanes port.toNat mask.toNat).all (fun l => !s.flag (LNG_LANE_STAT_fMARGINING (l / 8) (l % 8))) = true)) tLink tH 3 0 1 0 1 1 1 := by
  refine ⟨?_, ?_, ?_, ?_, ?_, ?_, ?_, ?_, ?_⟩ <;> first | decide +kernel | rfl

theorem witness_link_group_commands_complete_10 :
    (fun (s : State) (h : Hdr) (port : Byte) =>
      (s.serves h 0x0207) ∧
      (port.toNat < 64 ∧ s.portExists port.toNat = true)) tUp tH 3 := by
  refine ⟨?_, ?_⟩ <;> first | decide +kernel | rfl

theorem witness_link_group_commands_complete_11 :
    (fun (s : State) (h : Hdr) (module : Byte) =>
      (s.serves h 0x0210) ∧
      (module.toNat ≤ 48)) tUp tH 48 := by
  refine ⟨?_, ?_⟩ <;> first | decide +kernel | rfl

theorem witness_link_group_commands_complete_12 :
    (fun (s : State) (h : Hdr) (module : Byte) =>
      (s.serves h 0x0211) ∧
      (module.toNat ≤ 48) ∧
      (s.lineUp (2 * module.toNat) = true)) tLines tH 5 := by
  refine ⟨?_, ?_, ?_⟩ <;> first | decide +kernel | rfl

theorem witness_room_commands_complete_1 :
    (fun (s : State) (h : Hdr) (froom : Byte) (hmax : B16) (a : Allot) (rates : List RateEntry) (r : Nat) (x : Room) =>
      (s.serves h 0x0301) ∧
      (1 ≤ hmax.toNat ∧ hmax.toNat ≤ 4096) ∧
      (s.allotOk a) ∧
      (s.ratesOk rates) ∧
      (s.localRoom froom.toNat = none) ∧
      (r = leastFree (s.pool.rooms.map (·.1)) 65 1) ∧
      (r ≤ 63) ∧
      (s.poolsFit r (allotShare a) = true) ∧
      (s.ratesFit r (putRates [] rates) rates = true) ∧
      (x = { fid := froom.toNat, share := allotShare a, hmax := hmax.toNat, rates := putRates [] rates })) tW tH 9 4 tA [] 2 { fid := 9, share := allotShare tA, hmax := 4 } := by
  refine ⟨?_, ?_, ?_, ?_, ?_, ?_, ?_, ?_, ?_, ?_⟩ <;> first | decide +kernel | rfl

theorem witness_room_commands_complete_2 :
    (fun (s : State) (h : Hdr) (froom : Byte) (valid : B16) (a : Allot) (rates : List RateEntry) (r : Nat) (x : Room)
  (n : Share) (m : NMap (Nat × Nat)) =>
      (s.serves h 0x0302) ∧
      (valid.toNat < 512 ∧ bitOf valid.toNat 7 = false) ∧
      (s.allotOk (allotPicked a valid.toNat)) ∧
      ((bitOf valid.toNat 8 = true → s.ratesOk rates)) ∧
      (s.fidClosing froom.toNat = false) ∧
      (s.pendRoom 0) ∧
      (s.localRoom froom.toNat = some r) ∧
      (s.room? r = some x) ∧
      (n = allotOver a valid.toNat x.share) ∧
      (m = (if bitOf valid.toNat 8 then putRates x.rates rates else x.rates)) ∧
      (s.poolsFit r n = true) ∧
      ((!bitOf valid.toNat 8 || s.ratesFit r m rates) = true) ∧
      (s.busyWith (· == .roomResize r) = false) ∧
      ((s.roomUse r).mover ≤ n.mover ∧ (s.roomUse r).slices ≤ n.slices ∧ (s.roomUse r).rules ≤ n.rules)) tW tH 5 16 tA [] 1 tR { tR.share with mover := 1 } [] := by
  refine ⟨?_, ?_, ?_, ?_, ?_, ?_, ?_, ?_, ?_, ?_, ?_, ?_, ?_, ?_⟩ <;> first | decide +kernel | rfl

theorem witness_room_commands_complete_3 :
    (fun (s : State) (h : Hdr) (froom : Byte) (host : B16) (r : Nat) (x : Room) (pos : Nat) =>
      (s.serves h 0x0303 (h.room.toNat == froom.toNat)) ∧
      (host.toNat ≤ 4095) ∧
      (s.fidClosing froom.toNat = false) ∧
      (s.localRoom froom.toNat = some r) ∧
      (s.room? r = some x) ∧
      (s.pool.rooms.all (fun p => p.2.hosts.all fun q => q.2 != host.toNat) = true) ∧
      (s.freePos r x = some pos)) tW tH 5 0x124 1 tR 1 := by
  refine ⟨?_, ?_, ?_, ?_, ?_, ?_, ?_⟩ <;> first | decide +kernel | rfl

theorem witness_room_commands_complete_4 :
    (fun (s : State) (h : Hdr) (froom : Byte) (host : B16) (r : Nat) (x : Room) =>
      (s.serves h 0x0304 (h.room.toNat == froom.toNat)) ∧
      (s.fidClosing froom.toNat = false) ∧
      (s.localRoom froom.toNat = some r) ∧
      (s.room? r = some x) ∧
      (x.hosts.any (fun q => q.2 == host.toNat) = true) ∧
      (s.pool.wins.all (fun w => w.2.room != r || w.2.binds.all fun b => b.host != host.toNat) = true) ∧
      (s.pool.slices.all (fun p => p.2.room != r || p.2.host != host.toNat) = true)) tRm tH 5 0x123 1 tR := by
  refine ⟨?_, ?_, ?_, ?_, ?_, ?_, ?_⟩ <;> first | decide +kernel | rfl

theorem witness_room_commands_complete_5 :
    (fun (s : State) (h : Hdr) (froom port add : Byte) (r : Nat) =>
      (s.serves h 0x0305) ∧
      (s.portExists port.toNat = true) ∧
      (s.fidClosing froom.toNat = false) ∧
      (s.localRoom froom.toNat = some r) ∧
      (s.role port.toNat ≠ rolePool ∧ s.role port.toNat ≠ roleFabric) ∧
      ((s.port port.toNat).room = none) ∧
      (add.toNat = 1)) tW tH 5 1 1 1 := by
  refine ⟨?_, ?_, ?_, ?_, ?_, ?_, ?_⟩ <;> first | decide +kernel | rfl

theorem witness_room_commands_complete_6 :
    (fun (s : State) (h : Hdr) (froom port add : Byte) (r : Nat) =>
      (s.serves h 0x0305) ∧
      (s.portExists port.toNat = true) ∧
      (s.fidClosing froom.toNat = false) ∧
      (s.localRoom froom.toNat = some r) ∧
      (s.role port.toNat ≠ rolePool ∧ s.role port.toNat ≠ roleFabric) ∧
      ((s.port port.toNat).room = some r) ∧
      (add.toNat = 0) ∧
      (s.carries port.toNat = false)) tRm tH 5 0 0 1 := by
  refine ⟨?_, ?_, ?_, ?_, ?_, ?_, ?_, ?_⟩ <;> first | decide +kernel | rfl

theorem witness_room_commands_complete_7 :
    (fun (s : State) (h : Hdr) (froom port add : Byte) (r : Nat) =>
      (s.serves h 0x0305) ∧
      (s.portExists port.toNat = true) ∧
      (s.fidClosing froom.toNat = false) ∧
      (s.localRoom froom.toNat = some r) ∧
      (s.role port.toNat ≠ rolePool ∧ s.role port.toNat ≠ roleFabric) ∧
      ((s.port port.toNat).room = some r) ∧
      (add.toNat = 1)) tRm tH 5 0 1 1 := by
  refine ⟨?_, ?_, ?_, ?_, ?_, ?_, ?_⟩ <;> first | decide +kernel | rfl

theorem witness_room_commands_complete_8 :
    (fun (s : State) (h : Hdr) (froom : Byte) (r : Nat) =>
      (s.serves h 0x0306) ∧
      (froom.toNat ≠ 0) ∧
      (s.fidClosing froom.toNat = false) ∧
      (s.pendRoom 16) ∧
      (s.localRoom froom.toNat = some r)) tW tH 5 1 := by
  refine ⟨?_, ?_, ?_, ?_, ?_⟩ <;> first | decide +kernel | rfl

theorem witness_room_commands_complete_9 :
    (fun (s : State) (h : Hdr) (froom : Byte) (first n : B16) (r : Nat) (x : Room) =>
      (s.serves h 0x0307 (h.room.toNat == froom.toNat)) ∧
      (first.toNat < x.hmax ∧ n.toNat ≤ 2000) ∧
      (s.localRoom froom.toNat = some r) ∧
      (s.room? r = some x)) tW tH 5 0 2 1 tR := by
  refine ⟨?_, ?_, ?_, ?_⟩ <;> first | decide +kernel | rfl

theorem witness_slice_and_rule_commands_complete_1 :
    (fun (s : State) (h : Hdr) (window host : B16) (pasid : Word) (x : Window) (b : Binding) (p : Option Nat) (y : Slice)
  (mine : List (Nat × Slice)) (n page : Nat) =>
      (s.serves h 0x0310 (s.winRoom window.toNat h.room.toNat)) ∧
      (bitsOf pasid.toNat 20 11 = 0) ∧
      (s.win? window.toNat = some x) ∧
      (x.bind? host.toNat = some b ∧ b.st = .bound) ∧
      (s.closing x.room = false) ∧
      (p = (if bitOf pasid.toNat 31 then none else some (pasid.toNat % 2 ^ 20))) ∧
      (mine = (s.pool.slices.filter (fun q => q.2.window == window.toNat && q.2.host == host.toNat))) ∧
      (mine.all (fun q => q.2.pasid != p) = true) ∧
      (s.roomSlices x.room < (s.share x.room).slices ∧ mine.length < 256) ∧
      (n = leastFree (s.pool.slices.map (·.1)) 1025 0) ∧
      (page = (leastFree (mine.map fun q => q.2.page) 257 0)) ∧
      (y = { room := x.room, window := window.toNat, host := host.toNat, pasid := p, page := page })) tW tH 1 0x123 7 tDyn tBd (some 7) { tSl with pasid := some 7, page := 1 } [(0, tSl)] 1 1 := by
  refine ⟨?_, ?_, ?_, ?_, ?_, ?_, ?_, ?_, ?_, ?_, ?_, ?_⟩ <;> first | decide +kernel | rfl

theorem witness_slice_and_rule_commands_complete_2 :
    (fun (s : State) (h : Hdr) (slice : B16) =>
      (s.serves h 0x0311 (s.sliceRoom slice.toNat h.room.toNat)) ∧
      ((NMap.get? s.pool.slices slice.toNat).isSome = true)) tW tH 0 := by
  refine ⟨?_, ?_⟩ <;> first | decide +kernel | rfl

theorem witness_slice_and_rule_commands_complete_3 :
    (fun (s : State) (h : Hdr) (slice : B16) (x : Slice) =>
      (s.serves h 0x0312 (s.sliceRoom slice.toNat h.room.toNat)) ∧
      (NMap.get? s.pool.slices slice.toNat = some x)) tW tH 0 tSl := by
  refine ⟨?_, ?_⟩ <;> first | decide +kernel | rfl

theorem witness_slice_and_rule_commands_complete_4 :
    (fun (s : State) (h : Hdr) (froom index : Byte) (entry : BitVec 128) (r : Nat) (x : Room) =>
      (s.serves h 0x0501 (h.room.toNat == froom.toNat) true) ∧
      ((ruleOf entry.toNat).mat ≤ 5 ∧ (ruleOf entry.toNat).engine ≤ 1 ∧ (ruleOf entry.toNat).base ≤ (ruleOf entry.toNat).limit ∧ bitOf entry.toNat 119 = false) ∧
      (s.fidClosing froom.toNat = false) ∧
      (s.localRoom froom.toNat = some r) ∧
      (s.room? r = some x) ∧
      (h.bank ≠ x.bank) ∧
      (x.commitPend = false) ∧
      (validRules (NMap.set (x.bankRules h.bank) index.toNat (ruleOf entry.toNat)) ≤ x.share.rules)) tW { tH with bankV := true, bank := true } 5 255 0x300000000000000000000000000 1 tR := by
  refine ⟨?_, ?_, ?_, ?_, ?_, ?_, ?_, ?_⟩ <;> first | decide +kernel | rfl

theorem witness_slice_and_rule_commands_complete_5 :
    (fun (s : State) (h : Hdr) (froom first n : Byte) (r : Nat) (x : Room) =>
      (s.serves h 0x0502 (h.room.toNat == froom.toNat) true) ∧
      (1 ≤ n.toNat ∧ n.toNat ≤ 32 ∧ first.toNat + n.toNat ≤ 256) ∧
      (s.fidClosing froom.toNat = false) ∧
      (s.localRoom froom.toNat = some r) ∧
      (s.room? r = some x)) tW { tH with bankV := true } 5 224 32 1 tR := by
  refine ⟨?_, ?_, ?_, ?_, ?_⟩ <;> first | decide +kernel | rfl

theorem witness_slice_and_rule_commands_complete_6 :
    (fun (s : State) (h : Hdr) (froom : Byte) (r : Nat) (x : Room) =>
      (s.serves h 0x0503 (h.room.toNat == froom.toNat)) ∧
      (s.fidClosing froom.toNat = false) ∧
      (s.localRoom froom.toNat = some r) ∧
      (s.room? r = some x) ∧
      (x.commitPend = false)) tW tH 5 1 tR := by
  refine ⟨?_, ?_, ?_, ?_, ?_⟩ <;> first | decide +kernel | rfl

theorem witness_slice_and_rule_commands_complete_7 :
    (fun (s : State) (h : Hdr) (froom : Byte) (r : Nat) (x : Room) =>
      (s.serves h 0x0504 (h.room.toNat == froom.toNat)) ∧
      (s.fidClosing froom.toNat = false) ∧
      (s.pendRoom 0) ∧
      (s.localRoom froom.toNat = some r) ∧
      (s.room? r = some x) ∧
      (((s.lifecycle = 2 → x.unseals = false))) ∧
      (x.commitPend = false)) tW tH 5 1 tR := by
  refine ⟨?_, ?_, ?_, ?_, ?_, ?_, ?_⟩ <;> first | decide +kernel | rfl

theorem witness_slice_and_rule_commands_complete_8 :
    (fun (s : State) (h : Hdr) (froom : Byte) (r : Nat) (x : Room) =>
      (s.serves h 0x0505 (h.room.toNat == froom.toNat)) ∧
      (s.fidClosing froom.toNat = false) ∧
      (s.localRoom froom.toNat = some r) ∧
      (s.room? r = some x)) tW tH 5 1 tR := by
  refine ⟨?_, ?_, ?_, ?_⟩ <;> first | decide +kernel | rfl

theorem witness_pool_and_window_commands_complete_1 :
    (fun (s : State) (h : Hdr) (port : Byte) =>
      (s.serves h 0x0401) ∧
      (s.portExists port.toNat = true) ∧
      ((s.port port.toNat).unfit = false) ∧
      (s.pendRoom 16) ∧
      (s.role port.toNat = rolePool) ∧
      (s.devAt port.toNat = none) ∧
      (s.inL0 port.toNat = true) ∧
      (s.busyWith (· == .poolAdopt port.toNat) = false) ∧
      (s.pool.devs.length < 64)) tLink tH 3 := by
  refine ⟨?_, ?_, ?_, ?_, ?_, ?_, ?_, ?_, ?_⟩ <;> first | decide +kernel | rfl

theorem witness_pool_and_window_commands_complete_2 :
    (fun (s : State) (h : Hdr) (handle : Byte) (d : PoolDev) =>
      (s.serves h 0x0402) ∧
      (s.dev? handle.toNat = some d) ∧
      (d.used = [])) tDv tH 2 { port := 3, capacity := 0x10000000, serial := none } := by
  refine ⟨?_, ?_, ?_⟩ <;> first | decide +kernel | rfl

theorem witness_pool_and_window_commands_complete_3 :
    (fun (s : State) (h : Hdr) =>
      (s.serves h 0x0403)) tW tH := by
  first | decide +kernel | rfl

theorem witness_pool_and_window_commands_complete_4 :
    (fun (s : State) (h : Hdr) (p : WinParams) (w b room : Nat) =>
      (s.serves h 0x0410 (h.room.toNat == p.froom.toNat)) ∧
      (s.winOk p false) ∧
      (s.fidClosing p.froom.toNat = false) ∧
      (s.placeWin p false = .ok (w, b)) ∧
      (s.localRoom p.froom.toNat = some room) ∧
      (wtypeOf p.type.toNat = .dynamic)) tW tH { type := 2, froom := 5, pmode := 0, flags := 2, extents := 2, poolBase := 0x200000000, handles := [0] } 2 32 1 := by
  refine ⟨?_, ?_, ?_, ?_, ?_, ?_⟩ <;> first | decide +kernel | rfl

theorem witness_pool_and_window_commands_complete_5 :
    (fun (s : State) (h : Hdr) (p : WinParams) (w b room : Nat) =>
      (s.serves h 0x0410 (h.room.toNat == p.froom.toNat)) ∧
      (s.winOk p false) ∧
      (s.fidClosing p.froom.toNat = false) ∧
      (s.pendRoom 16) ∧
      (s.placeWin p false = .ok (w, b)) ∧
      (s.localRoom p.froom.toNat = some room) ∧
      ((wtypeOf p.type.toNat == .dynamic) = false) ∧
      (((s.mapPool fun q => { q with wins := NMap.set q.wins w (s.newWin p w b room .creating) }).fillWin w
            (s.newWin p w b room .creating) .free (List.range p.extents.toNat)).1 = true)) tW tH { type := 0, froom := 5, pmode := 2, flags := 0, extents := 3, poolBase := 0, handles := [0] } 2 1 1 := by
  refine ⟨?_, ?_, ?_, ?_, ?_, ?_, ?_, ?_⟩ <;> first | decide +kernel | rfl

theorem witness_pool_and_window_commands_complete_6 :
    (fun (s : State) (h : Hdr) (p : WinParams) (w b room : Nat) =>
      (s.serves h 0x0410 (h.room.toNat == p.froom.toNat)) ∧
      (s.winOk p false) ∧
      (s.fidClosing p.froom.toNat = false) ∧
      (s.placeWin p false = .ok (w, b)) ∧
      (s.localRoom p.froom.toNat = some room) ∧
      ((wtypeOf p.type.toNat == .dynamic) = false) ∧
      (((s.mapPool fun q => { q with wins := NMap.set q.wins w (s.newWin p w b room .creating) }).fillWin w
            (s.newWin p w b room .creating) .free (List.range p.extents.toNat)).1 = false)) tCl tH { type := 1, froom := 5, pmode := 1, flags := 1, extents := 1, poolBase := 0, handles := [0] } 2 1 1 := by
  refine ⟨?_, ?_, ?_, ?_, ?_, ?_, ?_⟩ <;> first | decide +kernel | rfl

theorem witness_pool_and_window_commands_complete_7 :
    (fun (s : State) (h : Hdr) (window : B16) (x : Window) =>
      (s.serves h 0x0411 (s.winRoom window.toNat h.room.toNat)) ∧
      (s.pendRoom 0) ∧
      (s.win? window.toNat = some x) ∧
      (x.binds = []) ∧
      (x.st ≠ .creating ∧ x.st ≠ .destroying) ∧
      (x.rehome = none)) tW tH 0 tPriv := by
  refine ⟨?_, ?_, ?_, ?_, ?_, ?_⟩ <;> first | decide +kernel | rfl

theorem witness_pool_and_window_commands_complete_8 :
    (fun (s : State) (h : Hdr) (window first n : B16) (x : Window) =>
      (s.serves h 0x0412 (s.winRoom window.toNat h.room.toNat)) ∧
      (n.toNat ≤ 250) ∧
      (s.win? window.toNat = some x)) tW tH 1 0 250 tDyn := by
  refine ⟨?_, ?_, ?_⟩ <;> first | decide +kernel | rfl

theorem witness_pool_and_window_commands_complete_9 :
    (fun (s : State) (h : Hdr) (x : Word) (n : Byte) =>
      (s.serves h 0x0440 ((s.localRoom h.room.toNat).isSome)) ∧
      (x.toNat + n.toNat ≤ 2 ^ 20 ∧ 1 ≤ n.toNat ∧ n.toNat ≤ 64) ∧
      (h.room = 0)) tW tH 0xFFFC0 64 := by
  refine ⟨?_, ?_, ?_⟩ <;> first | decide +kernel | rfl

theorem witness_pool_and_window_commands_complete_10 :
    (fun (s : State) (h : Hdr) (x : Word) (n : Byte) =>
      (s.serves h 0x0440 ((s.localRoom h.room.toNat).isSome)) ∧
      (x.toNat + n.toNat ≤ 2 ^ 20 ∧ 1 ≤ n.toNat ∧ n.toNat ≤ 64) ∧
      ((h.room == 0) = false)) tW { tH with room := 5 } 0 64 := by
  refine ⟨?_, ?_, ?_⟩ <;> first | decide +kernel | rfl

theorem witness_pool_and_window_commands_complete_11 :
    (fun (s : State) (h : Hdr) (pa : B64) =>
      (s.serves h 0x0460 ((s.winOfLine (pa.toNat / 64)).any fun w => s.winRoom w h.room.toNat)) ∧
      (pa.toNat < 2 ^ 48)) tW tH 0xFFFFFFFFFFFF := by
  refine ⟨?_, ?_⟩ <;> first | decide +kernel | rfl

theorem witness_binding_and_capacity_commands_complete_1 :
    (fun (s : State) (h : Hdr) (window host : B16) (port access : Byte) (hpa : B64) (x : Window) (b : Binding) =>
      (s.serves h 0x0420 (s.winRoom window.toNat h.room.toNat)) ∧
      (host.toNat ≤ 4095 ∧ access.toNat ≤ 1) ∧
      (s.portExists port.toNat = true ∧ s.role port.toNat = roleUpstream) ∧
      (s.pendRoom 4) ∧
      (s.win? window.toNat = some x) ∧
      (s.bindRefusal host.toNat port.toNat hpa.toNat x = none) ∧
      (b = {
            host := host.toNat, port := port.toNat, st := .binding, rw := access.toNat == 1, hpa := hpa.toNat,
            bridge := s.freeBridge port.toNat })) tW tH 0 0x123 0 1 0x50000000 tPriv { tBd with st := .binding, hpa := 0x50000000, bridge := 1 } := by
  refine ⟨?_, ?_, ?_, ?_, ?_, ?_, ?_⟩ <;> first | decide +kernel | rfl

theorem witness_binding_and_capacity_commands_complete_2 :
    (fun (s : State) (h : Hdr) (window host : B16) (timeout : Word) (b : Binding) =>
      (s.serves h 0x0421 (s.winRoom window.toNat h.room.toNat) false true) ∧
      (timeout.toNat = 0 ∨ (100 ≤ timeout.toNat ∧ timeout.toNat ≤ 60000)) ∧
      (s.pendRoom 8) ∧
      ((s.win? window.toNat).bind (·.bind? host.toNat) = some b) ∧
      (b.st ≠ .binding ∧ b.st ≠ .unbinding) ∧
      (h.force = true ∨ b.r96 = true)) tW { tH with force := true } 1 0x123 0 tBd := by
  refine ⟨?_, ?_, ?_, ?_, ?_, ?_⟩ <;> first | decide +kernel | rfl

theorem witness_binding_and_capacity_commands_complete_3 :
    (fun (s : State) (h : Hdr) (window host : B16) (timeout : Word) (b : Binding) (d : Nat) =>
      (s.serves h 0x0421 (s.winRoom window.toNat h.room.toNat) false true) ∧
      (timeout.toNat = 0 ∨ (100 ≤ timeout.toNat ∧ timeout.toNat ≤ 60000)) ∧
      (s.pendRoom 8) ∧
      ((s.win? window.toNat).bind (·.bind? host.toNat) = some b) ∧
      (b.st ≠ .binding ∧ b.st ≠ .unbinding) ∧
      (h.force = false ∧ b.r96 = false) ∧
      (d = s.now + (if timeout.toNat = 0 then 5000 else timeout.toNat) * 1000000)) tW tH 1 0x123 100 tBd 100000000 := by
  refine ⟨?_, ?_, ?_, ?_, ?_, ?_, ?_⟩ <;> first | decide +kernel | rfl

theorem witness_binding_and_capacity_commands_complete_4 :
    (fun (s : State) (h : Hdr) (window : B16) (xs : List Word) (x : Window) (b : Binding) (is : List Nat) (o : Offer) =>
      (s.serves h 0x0430 (s.winRoom window.toNat h.room.toNat)) ∧
      (x.type = .dynamic ∧ xs.all (fun i => i.toNat < x.extents) = true) ∧
      (s.pendRoom (4 + 4 * xs.length)) ∧
      (s.win? window.toNat = some x) ∧
      (x.boundOne = some b) ∧
      (is = (xs.map (·.toNat)).eraseDups) ∧
      (is.all (fun i => !(s.ext (x.baseX + i)).valid) = true) ∧
      (is.length ≤ s.freeOf x.house x.devs) ∧
      (o = { id := x.nextOffer, xs := is, deadline := s.now + 5000000000 })) tW tH 1 [0, 3] tDyn tBd [0, 3] { id := 0, xs := [0, 3], deadline := 5000000000 } := by
  refine ⟨?_, ?_, ?_, ?_, ?_, ?_, ?_, ?_, ?_⟩ <;> first | decide +kernel | rfl

theorem witness_binding_and_capacity_commands_complete_5 :
    (fun (s : State) (h : Hdr) (window : B16) (xs : List Word) (x : Window) (b : Binding) (is : List Nat) =>
      (s.serves h 0x0431 (s.winRoom window.toNat h.room.toNat) false true) ∧
      (x.type = .dynamic ∧ xs.all (fun i => i.toNat < x.extents) = true) ∧
      (s.pendRoom (4 + 4 * xs.length)) ∧
      (s.win? window.toNat = some x) ∧
      (x.boundOne = some b) ∧
      (is = (xs.map (·.toNat)).eraseDups) ∧
      (is.all (fun i => (s.ext (x.baseX + i)).valid && (s.ext (x.baseX + i)).st == .live) = true)) tW tH 1 [1] tDyn tBd [1] := by
  refine ⟨?_, ?_, ?_, ?_, ?_, ?_, ?_⟩ <;> first | decide +kernel | rfl

theorem witness_binding_and_capacity_commands_complete_6 :
    (fun (s : State) (h : Hdr) (p : WinParams) (w b room : Nat) (r : Room) =>
      (s.serves h 0x0450 (h.room.toNat == p.froom.toNat)) ∧
      (s.winOk p true) ∧
      (s.fidClosing p.froom.toNat = false) ∧
      (s.localRoom p.froom.toNat = some room) ∧
      (s.room? room = some r) ∧
      (s.placeWin p true = .ok (w, b)) ∧
      (r.covers (b * 65536) (p.extents.toNat * 65536) = true)) tRu tH { type := 0, froom := 5, pmode := 1, flags := 0, extents := 1, poolBase := 0, handles := [0] } 2 1 1 tRl := by
  refine ⟨?_, ?_, ?_, ?_, ?_, ?_, ?_⟩ <;> first | decide +kernel | rfl

theorem witness_binding_and_capacity_commands_complete_7 :
    (fun (s : State) (h : Hdr) (window bid bwin : B16) (age : Word) (x : Window) =>
      (s.serves h 0x0451 (s.winRoom window.toNat h.room.toNat)) ∧
      (bid.toNat ≤ 4095 ∧ bwin.toNat ≤ 4095 ∧ (age.toNat = 0 ∨ (1000 ≤ age.toNat ∧ age.toNat ≤ 100000))) ∧
      (s.pendRoom 4) ∧
      (s.win? window.toNat = some x) ∧
      (x.st = .active ∧ x.rehome = none ∧ x.failed = false) ∧
      ((s.validExts x).all (fun i => (s.ext i).st == .live && (s.mig? i).isNone) = true)) tW tH 0 0x222 9 1000 tPriv := by
  refine ⟨?_, ?_, ?_, ?_, ?_, ?_⟩ <;> first | decide +kernel | rfl

theorem witness_binding_and_capacity_commands_complete_8 :
    (fun (s : State) (h : Hdr) (window : B16) (x : Window) =>
      (s.serves h 0x0452 (s.winRoom window.toNat h.room.toNat)) ∧
      (s.win? window.toNat = some x)) tW tH 0 tPriv := by
  refine ⟨?_, ?_⟩ <;> first | decide +kernel | rfl

theorem witness_scheduling_commands_complete_1 :
    (fun (s : State) (h : Hdr) (port valid : Byte) (qmap : Word) (quanta : List B16) (cbs pbs : Word) (en : Byte) =>
      (s.serves h 0x0601 (s.portFid port.toNat h.room.toNat)) ∧
      (port.toNat < 64 ∧ s.portExists port.toNat = true) ∧
      (valid.toNat < 32) ∧
      ((bitOf valid.toNat 0 = true → qmap.toNat < 2 ^ 18)) ∧
      ((bitOf valid.toNat 1 = true → ∀ i < 6, 1 ≤ (quanta.getD i 0).toNat ∧ (quanta.getD i 0).toNat ≤ 4095)) ∧
      ((bitOf valid.toNat 2 = true → 4096 ≤ cbs.toNat ∧ cbs.toNat ≤ 16777216)) ∧
      ((bitOf valid.toNat 3 = true → 4096 ≤ pbs.toNat ∧ pbs.toNat ≤ 16777216)) ∧
      ((bitOf valid.toNat 4 = true → en.toNat ≤ 1))) tW tH 0 31 0 [1, 2, 3, 4, 5, 4095] 4096 16777216 1 := by
  refine ⟨?_, ?_, ?_, ?_, ?_, ?_, ?_, ?_⟩ <;> first | decide +kernel | rfl

theorem witness_scheduling_commands_complete_2 :
    (fun (s : State) (h : Hdr) (port : Byte) =>
      (s.serves h 0x0602 (s.portFid port.toNat h.room.toNat)) ∧
      (port.toNat < 64 ∧ s.portExists port.toNat = true)) tW tH 0 := by
  refine ⟨?_, ?_⟩ <;> first | decide +kernel | rfl

theorem witness_scheduling_commands_complete_3 :
    (fun (s : State) (h : Hdr) (port : Byte) (cycle : Word) (base : B64) (entries : List B64) (b : GateBank) =>
      (s.serves h 0x0610 (s.portFid port.toNat h.room.toNat) true) ∧
      (port.toNat < 64 ∧ s.portExists port.toNat = true) ∧
      (entries.length ≤ 64 ∧ 1000 ≤ cycle.toNat ∧ cycle.toNat ≤ 1000000000) ∧
      (entries.all (fun e => 10 ≤ bitsOf e.toNat 0 30 && bitsOf e.toNat 30 2 == 0 && bitsOf e.toNat 40 24 == 0) = true) ∧
      (b = ({ base := base.toNat, cycle := cycle.toNat, entries := entries.map fun e => gateOfWord e.toNat })) ∧
      (b.entries = [] ∨ (b.entries.foldl (fun n e => n + e.1) 0 = cycle.toNat ∧
            (List.range 8).all (fun q => b.entries.any fun e => bitOf e.2 q) = true)) ∧
      ((s.port port.toNat).gateAct ≠ h.bank) ∧
      ((s.port port.toNat).gateT = none)) tW { tH with bankV := true, bank := true } 0 1000 0 [0xFF000003E8] { base := 0, cycle := 1000, entries := [(1000, 255)] } := by
  refine ⟨?_, ?_, ?_, ?_, ?_, ?_, ?_, ?_⟩ <;> first | decide +kernel | rfl

theorem witness_scheduling_commands_complete_4 :
    (fun (s : State) (h : Hdr) (port : Byte) (b : GateBank) =>
      (s.serves h 0x0611 (s.portFid port.toNat h.room.toNat) true) ∧
      (port.toNat < 64 ∧ s.portExists port.toNat = true) ∧
      (b = (s.port port.toNat).bank h.bank)) tW { tH with bankV := true, bank := true } 0 {} := by
  refine ⟨?_, ?_, ?_⟩ <;> first | decide +kernel | rfl

theorem witness_scheduling_commands_complete_5 :
    (fun (s : State) (h : Hdr) (instant mask : B64) =>
      (s.serves h 0x0612 (((List.range 64).filter fun p => bitOf mask.toNat p).all fun p => s.portFid p h.room.toNat)) ∧
      (s.now + 100000 ≤ instant.toNat ∧ instant.toNat ≤ s.now + 2 ^ 40) ∧
      ((∃ p < 64, bitOf mask.toNat p = true)) ∧
      ((∀ p < 64, bitOf mask.toNat p = true → s.portExists p = true)) ∧
      (s.pendRoom 0) ∧
      (((List.range 64).filter fun p => bitOf mask.toNat p).all (fun p =>
            decide (((s.port p).bank (!(s.port p).gateAct)).base ≤ instant.toNat) && (s.port p).gateT.isNone) = true)) tW tH 100000 1 := by
  refine ⟨?_, ?_, ?_, ?_, ?_, ?_⟩ <;> first | decide +kernel | rfl

theorem witness_scheduling_commands_complete_6 :
    (fun (s : State) (h : Hdr) (port : Byte) =>
      (s.serves h 0x0613 (s.portFid port.toNat h.room.toNat)) ∧
      (port.toNat < 64 ∧ s.portExists port.toNat = true)) tW tH 0 := by
  refine ⟨?_, ?_⟩ <;> first | decide +kernel | rfl

theorem witness_mover_commands_complete_1 :
    (fun (s : State) (h : Hdr) (head : B64) (r : Nat) =>
      (s.serves h 0x0701 ((s.localRoom h.room.toNat).isSome)) ∧
      (head.toNat % 64 = 0 ∧ head.toNat < 2 ^ 48) ∧
      (s.pendRoom 16) ∧
      (s.hdrRoom h = some r) ∧
      ((s.mov.queue.filter fun j => j.room == r).length < 1024)) tW tH 0x1000 0 := by
  refine ⟨?_, ?_, ?_, ?_, ?_⟩ <;> first | decide +kernel | rfl

theorem witness_mover_commands_complete_2 :
    (fun (s : State) (h : Hdr) (ch action : Byte) =>
      (s.serves h 0x0702 (s.chanRoom ch.toNat h.room.toNat)) ∧
      (ch.toNat ≤ 63 ∧ action.toNat ≤ 2)) tW tH 60 2 := by
  refine ⟨?_, ?_⟩ <;> first | decide +kernel | rfl

theorem witness_mover_commands_complete_3 :
    (fun (s : State) (h : Hdr) (ch en : Byte) =>
      (s.serves h 0x0703 (s.chanRoom ch.toNat h.room.toNat)) ∧
      (ch.toNat ≤ 63 ∧ en.toNat ≤ 1)) tW tH 60 1 := by
  refine ⟨?_, ?_⟩ <;> first | decide +kernel | rfl

theorem witness_mover_commands_complete_4 :
    (fun (s : State) (h : Hdr) =>
      (s.serves h 0x0704)) tW tH := by
  first | decide +kernel | rfl

theorem witness_mover_commands_complete_5 :
    (fun (s : State) (h : Hdr) (window : B16) (x : Word) (dst house : Byte) (y : Window) (m : Mig) =>
      (s.serves h 0x0710 (s.winRoom window.toNat h.room.toNat)) ∧
      (y.baseX ≤ x.toNat ∧ x.toNat < y.baseX + y.extents) ∧
      (house.toNat = 1 ∨ (house.toNat = 0 ∧ (s.dev? dst.toNat).isSome = true)) ∧
      (s.pendRoom 12) ∧
      (s.win? window.toNat = some y) ∧
      (y.st ≠ .handoffOut ∧ y.st ≠ .proxy ∧ y.st ≠ .incoming ∧ y.st ≠ .copying) ∧
      ((s.ext x.toNat).valid = true ∧ (s.ext x.toNat).st = .live) ∧
      (s.mig? x.toNat = none) ∧
      (s.mov.chans.any (fun c => c.2.en && c.2.room == some 0) = true) ∧
      ((s.takeOne (house.toNat == 1) dst.toNat).isSome = true) ∧
      ((s.mov.queue.filter fun j => j.room == 0).length < 1024) ∧
      (m = {
            x := x.toNat, win := window.toNat, dstHouse := house.toNat == 1, dstDev := dst.toNat,
            oldHouse := (s.ext x.toNat).srcHouse, oldDev := (s.ext x.toNat).srcDev })) tW tH 1 17 0 0 tDyn { x := 17, win := 1, dstHouse := false, dstDev := 0, oldHouse := false, oldDev := 0 } := by
  refine ⟨?_, ?_, ?_, ?_, ?_, ?_, ?_, ?_, ?_, ?_, ?_, ?_⟩ <;> first | decide +kernel | rfl

theorem witness_mover_commands_complete_6 :
    (fun (s : State) (h : Hdr) (window : B16) (x : Word) (m : Mig) =>
      (s.serves h 0x0711 (s.winRoom window.toNat h.room.toNat)) ∧
      (s.notIn window.toNat x.toNat = false) ∧
      (s.mig? x.toNat = some m)) tMig tH 1 17 tMg := by
  refine ⟨?_, ?_, ?_⟩ <;> first | decide +kernel | rfl

theorem witness_mover_commands_complete_7 :
    (fun (s : State) (h : Hdr) (window : B16) (x : Word) (m : Mig) =>
      (s.serves h 0x0712 (s.winRoom window.toNat h.room.toNat)) ∧
      (s.notIn window.toNat x.toNat = false) ∧
      (s.mig? x.toNat = some m) ∧
      (m.step < 3 ∨ m.step = 4) ∧
      (s.mov.queue.any (fun j => j.kind == .mig x.toNat) = true)) tMig tH 1 17 tMg := by
  refine ⟨?_, ?_, ?_, ?_, ?_⟩ <;> first | decide +kernel | rfl

theorem witness_mover_commands_complete_8 :
    (fun (s : State) (h : Hdr) (window : B16) (x : Word) (m : Mig) =>
      (s.serves h 0x0712 (s.winRoom window.toNat h.room.toNat)) ∧
      (s.notIn window.toNat x.toNat = false) ∧
      (s.mig? x.toNat = some m) ∧
      (m.step < 3 ∨ m.step = 4) ∧
      (s.mov.queue.any (fun j => j.kind == .mig x.toNat) = false)) tMig0 tH 1 17 tMg := by
  refine ⟨?_, ?_, ?_, ?_, ?_⟩ <;> first | decide +kernel | rfl

theorem witness_doorway_and_attic_commands_complete_1 :
    (fun (s : State) (h : Hdr) (mask : Word) (en : Byte) =>
      (s.serves h 0x0801) ∧
      (en.toNat ≤ 1) ∧
      ((en.toNat = 1 → ∀ n ∈ maskChans mask.toNat, dwReady (s.dch n).coming = true)) ∧
      (s.mod48Up = true)) tLines tH 3 0 := by
  refine ⟨?_, ?_, ?_, ?_⟩ <;> first | decide +kernel | rfl

theorem witness_doorway_and_attic_commands_complete_2 :
    (fun (s : State) (h : Hdr) (ch : Byte) (valid : Word) (vals : List Word) =>
      (s.serves h 0x0802) ∧
      (ch.toNat < 32 ∧ valid.toNat < 2 ^ 27) ∧
      ((∀ j < 27, bitOf valid.toNat j = true → dwRange j (vals.getD j 0).toInt = true)) ∧
      (s.uvBelowOv ch.toNat valid.toNat vals) ∧
      (s.mod48Up = true) ∧
      ((s.dch ch.toNat).st < 2)) tLines tH 31 0 [] := by
  refine ⟨?_, ?_, ?_, ?_, ?_, ?_⟩ <;> first | decide +kernel | rfl

theorem witness_doorway_and_attic_commands_complete_3 :
    (fun (s : State) (h : Hdr) (ch : Byte) =>
      (s.serves h 0x0803) ∧
      (ch.toNat < 32) ∧
      (s.mod48Up = true)) tLines tH 31 := by
  refine ⟨?_, ?_, ?_⟩ <;> first | decide +kernel | rfl

theorem witness_doorway_and_attic_commands_complete_4 :
    (fun (s : State) (h : Hdr) (froom rebind : Byte) (r : Nat) =>
      (s.serves h 0x0804 (h.room.toNat == froom.toNat)) ∧
      (rebind.toNat ≤ 1) ∧
      (s.fidClosing froom.toNat = false) ∧
      (s.localRoom froom.toNat = some r)) tW tH 5 1 1 := by
  refine ⟨?_, ?_, ?_, ?_⟩ <;> first | decide +kernel | rfl

theorem witness_doorway_and_attic_commands_complete_5 :
    (fun (s : State) (h : Hdr) (first n : Byte) =>
      (s.serves h 0x0901) ∧
      (1 ≤ n.toNat ∧ n.toNat ≤ 32)) tW tH 0 32 := by
  refine ⟨?_, ?_⟩ <;> first | decide +kernel | rfl

theorem witness_doorway_and_attic_commands_complete_6 :
    (fun (s : State) (h : Hdr) =>
      (s.serves h 0x0902)) tW tH := by
  first | decide +kernel | rfl

theorem witness_doorway_and_attic_commands_complete_7 :
    (fun (s : State) (h : Hdr) (what : Byte) =>
      (s.serves h 0x0903) ∧
      ((what.toNat ≤ 3 ∧ (bitOf what.toNat 1 = true → s.lifecycle ≠ 2)))) tW tH 3 := by
  refine ⟨?_, ?_⟩ <;> first | decide +kernel | rfl

theorem witness_doorway_and_attic_commands_complete_8 :
    (fun (s : State) (h : Hdr) (off len : Word) =>
      (s.serves h 0x0904) ∧
      (off.toNat + len.toNat ≤ 0x400000 ∧ len.toNat ≤ 4064)) tW tH 0x3FF020 4064 := by
  refine ⟨?_, ?_⟩ <;> first | decide +kernel | rfl

theorem witness_doorway_and_attic_commands_complete_9 :
    (fun (s : State) (h : Hdr) (checker : B16) (arm : Byte) =>
      (s.serves h 0x0905) ∧
      ((arm.toNat ≤ 2 ∧ (arm.toNat ≠ 0 → canInject checker.toNat = true))) ∧
      (s.lifecycle ≠ 2 ∧ (arm.toNat = 0 ∨ checker.toNat / 256 ≠ 0x16 ∨ s.lifecycle = 0))) tW tH 0x0100 2 := by
  refine ⟨?_, ?_, ?_⟩ <;> first | decide +kernel | rfl

theorem witness_doorway_and_attic_commands_complete_10 :
    (fun (s : State) (h : Hdr) =>
      (s.serves h 0x0906)) tW tH := by
  first | decide +kernel | rfl

theorem witness_fabric_commands_complete_1 :
    (fun (s : State) (h : Hdr) =>
      (s.accepts h cmdFabricQuery = true)) tUp tH := by
  first | decide +kernel | rfl

theorem witness_fabric_commands_complete_2 :
    (fun (s : State) (h : Hdr) =>
      (s.accepts h cmdTimeQuery = true)) tUp tH := by
  first | decide +kernel | rfl

theorem witness_fabric_commands_complete_3 :
    (fun (s : State) (h : Hdr) =>
      (s.accepts h cmdSchemaQuery = true)) tUp tH := by
  first | decide +kernel | rfl

theorem witness_fabric_commands_complete_4 :
    (fun (s : State) (h : Hdr) (ceiling : Byte) (v : Nat) =>
      (s.accepts h (cmdSchemaSet ceiling.toNat) = true) ∧
      (s.canPend (cmdSchemaSet ceiling.toNat) = true) ∧
      (s.isRidge = true) ∧
      (s.fabBusy = false) ∧
      (s.busyWith (· == Work.schemaSet) = false) ∧
      (s.bestSchema ceiling.toNat = some v) ∧
      (v ≠ s.fab.schema)) tRidge tH 2 2 := by
  refine ⟨?_, ?_, ?_, ?_, ?_, ?_, ?_⟩ <;> first | decide +kernel | rfl

theorem witness_fabric_commands_complete_5 :
    (fun (s : State) (h : Hdr) (b : Nat) =>
      (s.accepts h cmdRidgeYield = true) ∧
      (s.canPend cmdRidgeYield = true) ∧
      (s.fab.standby = some b) ∧
      (s.isRidge = true) ∧
      (s.fab.handover = none) ∧
      (s.busyWith (· == Work.ridgeYield) = false)) tRidge tH 0x020 := by
  refine ⟨?_, ?_, ?_, ?_, ?_, ?_⟩ <;> first | decide +kernel | rfl

theorem witness_fabric_commands_complete_6 :
    (fun (s : State) (h : Hdr) (fid sw : B16) (port on : Byte) =>
      (s.accepts h (cmdRouteSet fid.toNat sw.toNat port.toNat on.toNat) = true) ∧
      (s.canPend (cmdRouteSet fid.toNat sw.toNat port.toNat on.toNat) = true) ∧
      (s.isRidge = true) ∧
      (s.fabBusy = false) ∧
      (s.busyWith (· == Work.routeSet) = false) ∧
      (NMap.get? s.fab.master fid.toNat = none ∨ NMap.get? s.fab.master fid.toNat = some (sw.toNat, port.toNat))) tRidge tH 0x123 0x010 63 1 := by
  refine ⟨?_, ?_, ?_, ?_, ?_, ?_⟩ <;> first | decide +kernel | rfl

theorem witness_fabric_commands_complete_7 :
    (fun (s : State) (h : Hdr) (first n : B16) =>
      (s.accepts h (cmdRouteQuery first.toNat n.toNat) = true)) tUp tH 4095 1000 := by
  first | decide +kernel | rfl

theorem witness_fabric_commands_complete_8 :
    (fun (s : State) (h : Hdr) (mask : Word) =>
      (s.accepts h (cmdNoticeMask mask) = true)) tUp tH 4095 := by
  first | decide +kernel | rfl

theorem witness_fabric_commands_complete_9 :
    (fun (s : State) (h : Hdr) (target : B16) (pkt : List Byte) (q : Nat) (u : State) =>
      (s.accepts h (cmdFabricRelay target.toNat pkt) = true) ∧
      (s.canPend (cmdFabricRelay target.toNat pkt) = true) ∧
      (bitOf target.toNat 15 = false) ∧
      (q = vcCount s.fab.relayNext (target.toNat % 4096)) ∧
      (u = (s.mapFab fun f => { f with
            relays := f.relays ++ [{ n := s.fab.relayN, all := false, seq := some q, open_ := [(target.toNat % 4096, some s.now)], pkt := pkt }]
            relayN := s.fab.relayN + 1, relayNext := NMap.set f.relayNext (target.toNat % 4096) ((q + 1) % 2147483648) }))) tUp tH 0x123 tPkt 0 tRel := by
  refine ⟨?_, ?_, ?_, ?_, ?_⟩ <;> first | decide +kernel | rfl

theorem witness_firmware_and_storage_commands_complete_1 :
    (fun (s : State) (h : Hdr) =>
      (s.accepts h cmdFwQuery = true)) tUp tH := by
  first | decide +kernel | rfl

theorem witness_firmware_and_storage_commands_complete_2 :
    (fun (s : State) (h : Hdr) (off : Word) (data : List Byte) =>
      (s.accepts h (cmdFwWrite h.bank off.toNat data) = true) ∧
      (s.running h.bank = false)) tUp { tH with bankV := true, bank := true } 0x3FFFFFF [7] := by
  refine ⟨?_, ?_⟩ <;> first | decide +kernel | rfl

theorem witness_firmware_and_storage_commands_complete_3 :
    (fun (s : State) (h : Hdr) =>
      (s.accepts h (cmdFwVerify h.bank) = true) ∧
      (s.canPend (cmdFwVerify h.bank) = true)) tUp { tH with bankV := true } := by
  refine ⟨?_, ?_⟩ <;> first | decide +kernel | rfl

theorem witness_firmware_and_storage_commands_complete_4 :
    (fun (s : State) (h : Hdr) =>
      (s.accepts h (cmdFwActivate h.bank) = true) ∧
      (s.canPend (cmdFwActivate h.bank) = true) ∧
      ((s.slotOf h.bank).verified = true) ∧
      (s.cmds.pend = [])) tSlot { tH with bankV := true, bank := true } := by
  refine ⟨?_, ?_, ?_, ?_⟩ <;> first | decide +kernel | rfl

theorem witness_firmware_and_storage_commands_complete_5 :
    (fun (s : State) (h : Hdr) (off : Word) (data : List Byte) =>
      (s.accepts h (cmdEhrecWrite off.toNat data) = true)) tUp tH 0xFFFFF [1] := by
  first | decide +kernel | rfl

theorem witness_firmware_and_storage_commands_complete_6 :
    (fun (s : State) (h : Hdr) (off len : Word) =>
      (s.accepts h (cmdEhrecRead off.toNat len.toNat) = true)) tSlot tH 1 2 := by
  first | decide +kernel | rfl

theorem witness_firmware_and_storage_commands_complete_7 :
    (fun (s : State) (h : Hdr) (units : Byte) (u : State) =>
      (s.accepts h (cmdHbmLayout units.toNat) = true) ∧
      (s.canPend (cmdHbmLayout units.toNat) = true) ∧
      (s.panShares ≤ (45 - units.toNat) * 917504) ∧
      (s.pool.hUsed.all (· < 8 * units.toNat) = true) ∧
      (s.busyWith (fun w => match w with | .hbmLayout _ => true | _ => false) = false) ∧
      (u = (s.mapPool fun p => { p with wins := p.wins.map fun w => if w.2.grant then (w.1, { w.2 with grant := false, fit := 0 }) else w }))) tUp tH 45 tUp := by
  refine ⟨?_, ?_, ?_, ?_, ?_, ?_⟩ <;> first | decide +kernel | rfl

theorem witness_firmware_and_storage_commands_complete_8 :
    (fun (s : State) (h : Hdr) =>
      (s.accepts h cmdHbmLayoutQuery = true)) tUp tH := by
  first | decide +kernel | rfl

theorem witness_firmware_and_storage_commands_complete_9 :
    (fun (s : State) (h : Hdr) (window : B16) (mode rank : Byte) (quota : Word) (x : Window) (u : State) =>
      (s.accepts h (cmdPantryMode window.toNat mode.toNat rank.toNat quota.toNat) = true) ∧
      (s.canPend (cmdPantryMode window.toNat mode.toNat rank.toNat quota.toNat) = true) ∧
      (s.win? window.toNat = some x) ∧
      (x.rehome = none) ∧
      (u = (s.mapWin window.toNat fun y => { y with
            pmode := pmodeOf mode.toNat, rank := if mode.toNat = 2 then rank.toNat else y.rank,
            quota := if mode.toNat = 2 then quota.toNat else y.quota, grant := y.grant && mode.toNat == 2,
            fit := if y.grant = true ∧ mode.toNat ≠ 2 then 0 else y.fit }))) tW tH 0 1 0 0 tPriv (tW.mapWin 0 fun y => { y with pmode := .wt }) := by
  refine ⟨?_, ?_, ?_, ?_, ?_⟩ <;> first | decide +kernel | rfl

theorem witness_firmware_and_storage_commands_complete_10 :
    (fun (s : State) (h : Hdr) (window : B16) (x : Window) =>
      (s.accepts h (cmdPantryQuery window.toNat) = true) ∧
      (s.win? window.toNat = some x)) tW tH 0 tPriv := by
  refine ⟨?_, ?_⟩ <;> first | decide +kernel | rfl

theorem witness_firmware_and_storage_commands_complete_11 :
    (fun (s : State) (h : Hdr) (window : B16) (u : State) (ws : List (Nat × Window)) =>
      (s.accepts h (cmdPantryFlush h.invalidate window.toNat) = true) ∧
      (s.canPend (cmdPantryFlush h.invalidate window.toNat) = true) ∧
      (u = (if s.freshBudget < s.allDirty then s.shortOfEnergy else s)) ∧
      (ws = (u.pool.wins.filter fun p => window.toNat == 0xFFFF || p.1 == window.toNat))) tW { tH with invalidate := true } 0xFFFF tW [(0, tPriv), (1, tDyn)] := by
  refine ⟨?_, ?_, ?_, ?_⟩ <;> first | decide +kernel | rfl

theorem witness_firmware_and_storage_commands_complete_12 :
    (fun (s : State) (h : Hdr) (valid : B16) (vals : List Word) =>
      (s.accepts h (cmdHoldupSet valid.toNat vals) = true)) tW tH 0 [] := by
  first | decide +kernel | rfl

theorem witness_firmware_and_storage_commands_complete_13 :
    (fun (s : State) (h : Hdr) =>
      (s.accepts h cmdHoldupQuery = true)) tW tH := by
  first | decide +kernel | rfl

theorem witness_firmware_and_storage_commands_complete_14 :
    (fun (s : State) (h : Hdr) (c0 : Word) =>
      (s.accepts h (cmdHoldupCal c0.toNat) = true)) tW tH 100000 := by
  first | decide +kernel | rfl

theorem witness_completion_posts_the_event_and_ends_the_command_1 :
    (fun (s s1 : State) (id : Nat) (e : WorkEnd) (p0 p : Pend) (r : WorkRes) =>
      (s.cmds.pend.find? (fun q => q.id == id) = some p0) ∧
      (s.monUp = true) ∧
      (s.carryOn p0.work = s1) ∧
      (s1.cmds.pend.find? (fun q => q.id == id) = some p) ∧
      (p.res = some r)) tPd tPd 0 .done tP tP ⟨.ok, 0, []⟩ := by
  refine ⟨?_, ?_, ?_, ?_, ?_⟩ <;> first | decide +kernel | rfl

theorem witness_completion_posts_the_event_and_ends_the_command_2 :
    (fun (s s1 s2 : State) (id : Nat) (e : WorkEnd) (p0 p : Pend) (r : WorkRes) =>
      (s.cmds.pend.find? (fun q => q.id == id) = some p0) ∧
      (s.monUp = true) ∧
      (s.carryOn p0.work = s1) ∧
      (s1.cmds.pend.find? (fun q => q.id == id) = some p) ∧
      (p.res = none) ∧
      (s1.endWork p e = some (r, s2))) tPa tPa tPa 0 (.failed 2) tPz tPz ⟨.faulted, 2, []⟩ := by
  refine ⟨?_, ?_, ?_, ?_, ?_, ?_⟩ <;> first | decide +kernel | rfl

theorem witness_completion_posts_the_event_and_ends_the_command_3 :
    (fun (s : State) (id : Nat) (p : Pend) (slot : Bool) (version : Word) (lo hi : Byte) (x : FwSlot) =>
      (s.cmds.pend.find? (fun q => q.id == id) = some p) ∧
      (s.cmds.hearthUp = true) ∧
      (s.pwr.st ≠ .recovery) ∧
      (p.work = .fwVerify slot ∧ p.res = none) ∧
      (x = { valid := true, verified := true, version := version.toNat, ownMin := lo.toNat, ownMax := hi.toNat })) tPv 0 tPw true 2 1 3 { valid := true, verified := true, version := 2, ownMin := 1, ownMax := 3 } := by
  refine ⟨?_, ?_, ?_, ?_, ?_⟩ <;> first | decide +kernel | rfl

theorem witness_completion_posts_the_event_and_ends_the_command_4 :
    (fun (s : State) (id : Nat) (e : WorkEnd) =>
      (s.cmds.pend.find? (fun q => q.id == id) = none)) tUp 0 .done := by
  first | decide +kernel | rfl

theorem witness_window_mailbox_answers_the_bound_host_1 :
    (fun (s : State) (a : MbAt) (x : Window) (b : Binding) =>
      (MbReady s a x b)) tW tMb tDyn tBd := by
  first | decide +kernel | rfl

theorem witness_window_mailbox_answers_the_bound_host_2 :
    (fun (s : State) (a : MbAt) (x : Window) (b : Binding) (policy : Word) (time : B64) =>
      (MbReady s a x b)) tW tMb tDyn tBd 1 0 := by
  first | decide +kernel | rfl

theorem witness_window_mailbox_answers_the_bound_host_3 :
    (fun (s : State) (a : MbAt) (x : Window) (b : Binding) (log : Byte) (es : List (Nat × Nat × List Nat)) =>
      (MbReady s a x b) ∧
      (log.toNat ≤ 4) ∧
      (es = (b.events.filter fun e => evLog e.2.1 == log.toNat))) tW tMb tDyn tBd 4 [] := by
  refine ⟨?_, ?_, ?_⟩ <;> first | decide +kernel | rfl

theorem witness_window_mailbox_answers_the_bound_host_4 :
    (fun (s : State) (a : MbAt) (x : Window) (b : Binding) (log : Byte) (handles : List B16) =>
      (MbReady s a x b) ∧
      (log.toNat ≤ 4) ∧
      (handles.all (fun h => b.events.any fun e => evLog e.2.1 == log.toNat && e.1 == h.toNat) = true)) (tW.mapBind 1 0x123 fun y => { y with events := [(3, 0, [1])] }) tMb { tDyn with binds := [{ tBd with events := [(3, 0, [1])] }] } { tBd with events := [(3, 0, [1])] } 4 [3] := by
  refine ⟨?_, ?_, ?_⟩ <;> first | decide +kernel | rfl

theorem witness_window_mailbox_answers_the_bound_host_5 :
    (fun (s : State) (a : MbAt) (x : Window) (b : Binding) =>
      (MbReady s a x b) ∧
      (x.type = .dynamic)) tW tMb tDyn tBd := by
  refine ⟨?_, ?_⟩ <;> first | decide +kernel | rfl

theorem witness_window_mailbox_answers_the_bound_host_6 :
    (fun (s : State) (a : MbAt) (x : Window) (b : Binding) (extents : List Nat) (o : Offer) =>
      (MbReady s a x b) ∧
      (x.type = .dynamic) ∧
      ((if extents = [] then x.offers.head? else x.offers.find? fun o => o.xs.any extents.contains) = some o)) (tW.mapWin 1 fun y => { y with offers := [tOf] }) tMb { tDyn with offers := [tOf] } tBd [2] tOf := by
  refine ⟨?_, ?_, ?_⟩ <;> first | decide +kernel | rfl

theorem witness_window_mailbox_answers_the_bound_host_7 :
    (fun (s u : State) (a : MbAt) (x : Window) (b : Binding) (extents : List Nat) =>
      (MbReady s a x b) ∧
      (x.type = .dynamic) ∧
      (u = (extents.foldl (fun c i => if i < x.extents && (c.ext (x.baseX + i)).valid && (c.ext (x.baseX + i)).st == .releasing then
            c.setExt (x.baseX + i) { c.ext (x.baseX + i) with closed := true } else c) s))) tW tW tMb tDyn tBd [1] := by
  refine ⟨?_, ?_, ?_⟩ <;> first | decide +kernel | rfl

theorem witness_window_mailbox_answers_the_bound_host_8 :
    (fun (s : State) (a : MbAt) (x : Window) (b : Binding) (extents : List Nat) =>
      (MbReady s a x b) ∧
      (x.type ≠ .dynamic)) (tW.mapWin 1 fun y => { y with type := .shared }) tMb { tDyn with type := .shared } tBd [] := by
  refine ⟨?_, ?_⟩ <;> first | decide +kernel | rfl

theorem witness_fabric_manager_commands_complete_1 :
    (fun (s : State) (src : FmSrc) =>
      (s.cmds.hearthUp = true)) tUp .mctp := by
  first | decide +kernel | rfl

theorem witness_fabric_manager_commands_complete_2 :
    (fun (s : State) (src : FmSrc) (all : Bool) (handles : List B16) =>
      (s.cmds.hearthUp = true) ∧
      (all = (true ∨ handles.all (fun h => s.mail.recs.any fun r => r.1 == h.toNat) = true))) tUp .mailbox true [] := by
  refine ⟨?_, ?_⟩ <;> first | decide +kernel | rfl

theorem witness_fabric_manager_commands_complete_3 :
    (fun (s : State) (src : FmSrc) (ports : List Byte) =>
      (s.cmds.hearthUp = true) ∧
      (ports.all (fun p => !s.noPort p.toNat) = true)) tW .mctp [0, 31] := by
  refine ⟨?_, ?_⟩ <;> first | decide +kernel | rfl

theorem witness_fabric_manager_commands_complete_4 :
    (fun (s : State) (src : FmSrc) (port : Byte) =>
      (s.cmds.hearthUp = true) ∧
      (s.noPort port.toNat = false) ∧
      (s.role port.toNat = rolePt)) tW .mctp 1 := by
  refine ⟨?_, ?_, ?_⟩ <;> first | decide +kernel | rfl

theorem witness_fabric_manager_commands_complete_5 :
    (fun (s : State) (src : FmSrc) (port : Byte) (reg : BitVec 12) (value : Word) =>
      (s.cmds.hearthUp = true) ∧
      (s.noPort port.toNat = false) ∧
      (s.inL0 port.toNat = true) ∧
      (s.role port.toNat = rolePt)) (tW.setReg (PRT_LINK_STAT 1) 4) .mctp 1 0 0 := by
  refine ⟨?_, ?_, ?_, ?_⟩ <;> first | decide +kernel | rfl

theorem witness_fabric_manager_commands_complete_6 :
    (fun (s : State) (src : FmSrc) (vcs : Byte) =>
      (s.cmds.hearthUp = true) ∧
      (s.noPort vcs.toNat = false) ∧
      (s.role vcs.toNat = roleUpstream)) tW .mctp 0 := by
  refine ⟨?_, ?_, ?_⟩ <;> first | decide +kernel | rfl

theorem witness_fabric_manager_commands_complete_7 :
    (fun (s : State) (src : FmSrc) (vcs vppb port : Byte) (room : Nat) =>
      (s.cmds.hearthUp = true) ∧
      (s.noPort vcs.toNat = false ∧ s.noPort port.toNat = false) ∧
      (s.role vcs.toNat = roleUpstream ∧ s.role port.toNat = rolePt) ∧
      (64 ≤ vppb.toNat ∧ vppb.toNat < 96) ∧
      (s.portRoom vcs.toNat = some room ∧ s.portRoom port.toNat = some room) ∧
      (s.bridgeFree vcs.toNat vppb.toNat = true ∧ s.vppbAt port.toNat = none) ∧
      (s.closing room = false)) (tW.mapPort 1 fun x => { x with room := some 1 }) .mctp 0 95 1 1 := by
  refine ⟨?_, ?_, ?_, ?_, ?_, ?_, ?_⟩ <;> first | decide +kernel | rfl

theorem witness_fabric_manager_commands_complete_8 :
    (fun (s : State) (src : FmSrc) (vcs vppb : Byte) (v : Vppb) =>
      (s.cmds.hearthUp = true) ∧
      (s.ports.vppb.find? (fun v => v.vcs == vcs.toNat && v.bridge == vppb.toNat) = some v)) tVp .mctp 0 64 tV := by
  refine ⟨?_, ?_⟩ <;> first | decide +kernel | rfl

theorem witness_fabric_manager_commands_complete_9 :
    (fun (s : State) (src : FmSrc) (vcs vppb : Byte) (err : Word) =>
      (s.cmds.hearthUp = true) ∧
      (s.noPort vcs.toNat = false) ∧
      (s.role vcs.toNat = roleUpstream) ∧
      (s.bridgeFree vcs.toNat vppb.toNat = false)) tVp .mctp 0 64 1 := by
  refine ⟨?_, ?_, ?_, ?_⟩ <;> first | decide +kernel | rfl

theorem witness_fabric_manager_commands_complete_10 :
    (fun (s : State) (opcode : B16) (pkt : List Byte) =>
      (opcode.toNat = 0xC000 + fieldAt pkt 0 2) ∧
      (opcode.toNat ≤ 0xCFFF) ∧
      (pkt.length ≤ 4096) ∧
      (crcOk pkt = true)) tUp 0xC101 tIdent := by
  refine ⟨?_, ?_, ?_, ?_⟩ <;> first | decide +kernel | rfl

theorem witness_monitor_commands_complete_1 :
    (fun (s : State) (sp : Space) (addr : B64) (n : Nat) (value : Word) (dev : DevData) =>
      (s.monUp = true) ∧
      (s.draining = false)) tUp .reg 0 1 0 [] := by
  refine ⟨?_, ?_⟩ <;> first | decide +kernel | rfl

theorem witness_monitor_commands_complete_2 :
    (fun (s : State) (addr : B64) (n : Nat) (dev : DevData) =>
      (s.monUp = true) ∧
      (1 ≤ n ∧ n ≤ 256) ∧
      (addr.toNat % 4 = 0)) tUp 0x10 256 [] := by
  refine ⟨?_, ?_, ?_⟩ <;> first | decide +kernel | rfl

theorem witness_monitor_commands_complete_3 :
    (fun (s u : State) =>
      (s.monUp = true) ∧
      (u = s.dropChal false)) tUp tUp := by
  refine ⟨?_, ?_⟩ <;> first | decide +kernel | rfl

theorem witness_monitor_commands_complete_4 :
    (fun (s u : State) (off len : Word) =>
      (s.monUp = true) ∧
      (u = s.dropChal false) ∧
      (off.toNat + len.toNat ≤ 0x400000 ∧ len.toNat ≤ 4064)) tUp tUp 0x3FF020 4064 := by
  refine ⟨?_, ?_, ?_⟩ <;> first | decide +kernel | rfl

theorem witness_monitor_commands_complete_5 :
    (fun (s u : State) (p n m w : Byte) =>
      (s.monUp = true) ∧
      (u = s.dropChal false) ∧
      (p.toNat < 64 ∧ m.toNat < 49 ∧ w.toNat < 4)) tUp tUp 63 255 48 3 := by
  refine ⟨?_, ?_, ?_⟩ <;> first | decide +kernel | rfl

theorem witness_monitor_commands_complete_6 :
    (fun (s u : State) (checker : B16) (arm : Byte) (mask : Option Word) =>
      (s.monUp = true) ∧
      (u = s.dropChal false) ∧
      (u.draining = false) ∧
      (arm.toNat ≤ 2) ∧
      (arm.toNat = 0 ∨ canInject checker.toNat = true) ∧
      (u.mayArm checker.toNat arm.toNat = true)) tUp tUp 0x0100 1 (some 1) := by
  refine ⟨?_, ?_, ?_, ?_, ?_, ?_⟩ <;> first | decide +kernel | rfl

theorem witness_monitor_commands_complete_7 :
    (fun (s : State) (pkt : List Byte) =>
      (s.monUp = true)) tUp [] := by
  first | decide +kernel | rfl

theorem witness_monitor_commands_complete_8 :
    (fun (s : State) (rate c : Nat) =>
      (s.monUp = true) ∧
      (baudCode rate = some c)) tUp 3000000 5 := by
  refine ⟨?_, ?_⟩ <;> first | decide +kernel | rfl

theorem witness_monitor_commands_complete_9 :
    (fun (s : State) (c : Nat) =>
      (s.dbg.baud = some c)) (tUp.mapDbg fun d => { d with baud := some 5 }) 5 := by
  first | decide +kernel | rfl

theorem witness_monitor_commands_complete_10 :
    (fun (s u : State) (t : Nat) =>
      (s.monUp = true) ∧
      (u = (s.at t).dropChal false)) tUp (tUp.at 5) 5 := by
  refine ⟨?_, ?_⟩ <;> first | decide +kernel | rfl

theorem witness_monitor_commands_complete_11 :
    (fun (s : State) (t : Nat) (code : B16) (t0 : Nat) =>
      (s.monUp = true) ∧
      (s.dbg.chal = some (false, code, t0)) ∧
      ((s.at t).now ≤ t0 + 10000000000)) (tUp.mapDbg fun d => { d with chal := some (false, 0xABCD, 0) }) 10000000000 0xABCD 0 := by
  refine ⟨?_, ?_, ?_⟩ <;> first | decide +kernel | rfl

theorem witness_monitor_commands_complete_12 :
    (fun (s : State) (line : List Byte) =>
      (s.pwr.st ≠ .reset)) tUp [] := by
  first | decide +kernel | rfl

theorem witness_jtag_instructions_complete_1 :
    (fun (s : State) =>
      (s.pwr.st = .reset) ∧
      (s.pwr.released = false)) State.reset := by
  refine ⟨?_, ?_⟩ <;> first | decide +kernel | rfl

theorem witness_jtag_instructions_complete_2 :
    (fun (s : State) (write : Bool) (sp : Space) (addr : B64) (value : Word) (dev : DevData) (u : State) =>
      (s.pwr.st ≠ .reset) ∧
      (s.lifecycle ≠ 2) ∧
      (u = s.loadIr 0x20)) tUp true .reg 0x10 0 [] (tUp.loadIr 0x20) := by
  refine ⟨?_, ?_, ?_⟩ <;> first | decide +kernel | rfl

theorem witness_jtag_instructions_complete_3 :
    (fun (s u : State) (t : Nat) =>
      (u = (s.at t).loadIr 0x21)) tUp ((tUp.at 5).loadIr 0x21) 5 := by
  first | decide +kernel | rfl

theorem witness_jtag_instructions_complete_4 :
    (fun (s : State) (t : Nat) (v : Word) (t0 : Nat) =>
      (s.dbg.jLoaded = true) ∧
      (bitsOf v.toNat 16 16 = 0xA5C3) ∧
      (s.dbg.chal = some (true, v.setWidth 16, t0)) ∧
      ((s.at t).now ≤ t0 + 10000000000)) (tUp.mapDbg fun d => { d with chal := some (true, 0x1234, 0), jLoaded := true }) 5 0xA5C31234 0 := by
  refine ⟨?_, ?_, ?_, ?_⟩ <;> first | decide +kernel | rfl

theorem witness_jtag_instructions_complete_5 :
    (fun (s u : State) (floor : Word) =>
      (u = s.loadIr 0x31) ∧
      (s.lifecycle = 0)) tUp (tUp.loadIr 0x31) 4 := by
  refine ⟨?_, ?_⟩ <;> first | decide +kernel | rfl

theorem witness_jtag_instructions_complete_6 :
    (fun (s : State) (t : Nat) (j : Bool) (c : B16) (t0 : Nat) =>
      (s.dbg.chal = some (j, c, t0)) ∧
      (t0 + 10000000000 ≤ (s.at t).now)) (tUp.mapDbg fun d => { d with chal := some (true, 0x1234, 0) }) 10000000000 true 0x1234 0 := by
  refine ⟨?_, ?_⟩ <;> first | decide +kernel | rfl

theorem witness_memory_request_grants_open_their_line_1 :
    (fun (s u : State) (hu : Hu) (plane : Bool) (t : Nat) (v : VMsg) (w : Nat) (x : Window) (b : Binding) =>
      (GrantedFor (s.at t) u hu.toNat plane v w x) ∧
      (ExtentServes u v w x b) ∧
      (RulesPermit u v hu.toNat w x b) ∧
      (v.m.kind = .memRd) ∧
      (v.cls = .req)) (tG .memRd .req .i .noOp) (tGu .memRd .req .i .noOp) 0 false 5 (tGv .memRd .req .i .noOp) 1 tWs tBd := by
  refine ⟨?_, ?_, ?_, ?_, ?_⟩ <;> first | decide +kernel | rfl

theorem witness_memory_request_grants_open_their_line_2 :
    (fun (s u : State) (hu : Hu) (plane : Bool) (t : Nat) (v : VMsg) (w : Nat) (x : Window) (b : Binding) =>
      (GrantedFor (s.at t) u hu.toNat plane v w x) ∧
      (ExtentServes u v w x b) ∧
      (RulesPermit u v hu.toNat w x b) ∧
      (v.m.kind = .memRdData) ∧
      (v.cls = .req)) (tG .memRdData .req .i .noOp) (tGu .memRdData .req .i .noOp) 0 false 5 (tGv .memRdData .req .i .noOp) 1 tWs tBd := by
  refine ⟨?_, ?_, ?_, ?_, ?_⟩ <;> first | decide +kernel | rfl

theorem witness_memory_request_grants_open_their_line_3 :
    (fun (s u : State) (hu : Hu) (plane : Bool) (t : Nat) (v : VMsg) (w : Nat) (x : Window) (b : Binding) =>
      (GrantedFor (s.at t) u hu.toNat plane v w x) ∧
      (ExtentServes u v w x b) ∧
      (RulesPermit u v hu.toNat w x b) ∧
      (v.m.kind = .memInv) ∧
      (v.cls = .req)) (tG .memInv .req .i .noOp) (tGu .memInv .req .i .noOp) 0 false 5 (tGv .memInv .req .i .noOp) 1 tWs tBd := by
  refine ⟨?_, ?_, ?_, ?_, ?_⟩ <;> first | decide +kernel | rfl

theorem witness_memory_request_grants_open_their_line_4 :
    (fun (s u : State) (hu : Hu) (plane : Bool) (t : Nat) (v : VMsg) (w : Nat) (x : Window) (b : Binding) =>
      (GrantedFor (s.at t) u hu.toNat plane v w x) ∧
      (ExtentServes u v w x b) ∧
      (RulesPermit u v hu.toNat w x b) ∧
      (v.m.kind = .memInvNT) ∧
      (v.cls = .req)) (tG .memInvNT .req .i .noOp) (tGu .memInvNT .req .i .noOp) 0 false 5 (tGv .memInvNT .req .i .noOp) 1 tWs tBd := by
  refine ⟨?_, ?_, ?_, ?_, ?_⟩ <;> first | decide +kernel | rfl

theorem witness_memory_request_grants_open_their_line_5 :
    (fun (s u : State) (hu : Hu) (plane : Bool) (t : Nat) (v : VMsg) (w : Nat) (x : Window) (b : Binding) =>
      (GrantedFor (s.at t) u hu.toNat plane v w x) ∧
      (ExtentServes u v w x b) ∧
      (RulesPermit u v hu.toNat w x b) ∧
      (v.m.kind = .memSpecRd) ∧
      (v.cls = .req)) (tG .memSpecRd .req .i .noOp) (tGu .memSpecRd .req .i .noOp) 0 false 5 (tGv .memSpecRd .req .i .noOp) 1 tWs tBd := by
  refine ⟨?_, ?_, ?_, ?_, ?_⟩ <;> first | decide +kernel | rfl

theorem witness_memory_request_grants_open_their_line_6 :
    (fun (s u : State) (hu : Hu) (plane : Bool) (t : Nat) (v : VMsg) (w : Nat) (x : Window) (b : Binding) =>
      (GrantedFor (s.at t) u hu.toNat plane v w x) ∧
      (ExtentServes u v w x b) ∧
      (RulesPermit u v hu.toNat w x b) ∧
      (v.m.kind = .memWr) ∧
      (v.cls = .rwd) ∧
      ((u.checkExt w (x.lineAt v.off)).2.isWbk v.m x (x.lineAt v.off) = false)) (tG .memWr .rwd .i .snpInv) (tGu .memWr .rwd .i .snpInv) 0 false 5 (tGv .memWr .rwd .i .snpInv) 1 tWs tBd := by
  refine ⟨?_, ?_, ?_, ?_, ?_, ?_⟩ <;> first | decide +kernel | rfl

theorem witness_memory_request_grants_open_their_line_7 :
    (fun (s u : State) (hu : Hu) (plane : Bool) (t : Nat) (v : VMsg) (w : Nat) (x : Window) (b : Binding) =>
      (GrantedFor (s.at t) u hu.toNat plane v w x) ∧
      (ExtentServes u v w x b) ∧
      (RulesPermit u v hu.toNat w x b) ∧
      (v.m.kind = .memWrPtl) ∧
      (v.cls = .rwd) ∧
      ((u.checkExt w (x.lineAt v.off)).2.isWbk v.m x (x.lineAt v.off) = false)) (tG .memWrPtl .rwd .i .snpInv) (tGu .memWrPtl .rwd .i .snpInv) 0 false 5 (tGv .memWrPtl .rwd .i .snpInv) 1 tWs tBd := by
  refine ⟨?_, ?_, ?_, ?_, ?_, ?_⟩ <;> first | decide +kernel | rfl

theorem witness_memory_request_grants_open_their_line_8 :
    (fun (s u : State) (hu : Hu) (plane : Bool) (t : Nat) (v : VMsg) (w : Nat) (x : Window) (b : Binding) =>
      (GrantedFor (s.at t) u hu.toNat plane v w x) ∧
      (ExtentServes u v w x b) ∧
      (b.rw = true) ∧
      (v.m.kind = .memWr) ∧
      (v.cls = .rwd) ∧
      ((u.checkExt w (x.lineAt v.off)).2.isWbk v.m x (x.lineAt v.off) = true)) (tGb .memWr .rwd .i .noOp) (tGbu .memWr .rwd .i .noOp) 0 false 5 (tGv .memWr .rwd .i .noOp) 1 tWs tBd := by
  refine ⟨?_, ?_, ?_, ?_, ?_, ?_⟩ <;> first | decide +kernel | rfl

theorem witness_memory_request_grants_open_their_line_9 :
    (fun (s u : State) (hu : Hu) (plane : Bool) (t : Nat) (v : VMsg) (w : Nat) (x : Window) (b : Binding) =>
      (GrantedFor (s.at t) u hu.toNat plane v w x) ∧
      (ExtentServes u v w x b) ∧
      (b.rw = true) ∧
      (v.m.kind = .memWrPtl) ∧
      (v.cls = .rwd) ∧
      ((u.checkExt w (x.lineAt v.off)).2.isWbk v.m x (x.lineAt v.off) = true)) (tGb .memWrPtl .rwd .i .noOp) (tGbu .memWrPtl .rwd .i .noOp) 0 false 5 (tGv .memWrPtl .rwd .i .noOp) 1 tWs tBd := by
  refine ⟨?_, ?_, ?_, ?_, ?_, ?_⟩ <;> first | decide +kernel | rfl

theorem witness_snoop_answers_and_conflicts_are_taken_1 :
    (fun (s u : State) (hu : Hu) (plane : Bool) (t : Nat) (v : VMsg) (w : Nat) (x : Window) (k : Trk) (y : Snoop) =>
      (GrantedFor (s.at t) u hu.toNat plane v w x) ∧
      ((s.at t).trkCheck hu.toNat = (false, s.at t)) ∧
      (x.type = .shared) ∧
      (AwaitsSnoop u (x.lineAt v.off) v.m.host.toNat k y) ∧
      (v.m.kind = .biRspI) ∧
      (v.m.block = false)) (tS .biRspI .snpInv) (tSu .biRspI .snpInv) 0 false 5 (tGv .biRspI .srsp .i .noOp) 1 tWs (tK .snpInv) (tY .snpInv) := by
  refine ⟨?_, ?_, ?_, ?_, ?_, ?_⟩ <;> first | decide +kernel | rfl

theorem witness_snoop_answers_and_conflicts_are_taken_2 :
    (fun (s u : State) (hu : Hu) (plane : Bool) (t : Nat) (v : VMsg) (w : Nat) (x : Window) (k : Trk) (y : Snoop) =>
      (GrantedFor (s.at t) u hu.toNat plane v w x) ∧
      ((s.at t).trkCheck hu.toNat = (false, s.at t)) ∧
      (x.type = .shared) ∧
      (AwaitsSnoop u (x.lineAt v.off) v.m.host.toNat k y) ∧
      (v.m.kind = .biRspS) ∧
      (v.m.block = false) ∧
      (y.kind = .snpData ∨ y.kind = .snpCur)) (tS .biRspS .snpData) (tSu .biRspS .snpData) 0 false 5 (tGv .biRspS .srsp .i .noOp) 1 tWs (tK .snpData) (tY .snpData) := by
  refine ⟨?_, ?_, ?_, ?_, ?_, ?_, ?_⟩ <;> first | decide +kernel | rfl

theorem witness_snoop_answers_and_conflicts_are_taken_3 :
    (fun (s u : State) (hu : Hu) (plane : Bool) (t : Nat) (v : VMsg) (w : Nat) (x : Window) (k : Trk) (y : Snoop) =>
      (GrantedFor (s.at t) u hu.toNat plane v w x) ∧
      ((s.at t).trkCheck hu.toNat = (false, s.at t)) ∧
      (x.type = .shared) ∧
      (AwaitsSnoop u (x.lineAt v.off) v.m.host.toNat k y) ∧
      (v.m.kind = .biRspE) ∧
      (v.m.block = false) ∧
      (y.kind = .snpCur)) (tS .biRspE .snpCur) (tSu .biRspE .snpCur) 0 false 5 (tGv .biRspE .srsp .i .noOp) 1 tWs (tK .snpCur) (tY .snpCur) := by
  refine ⟨?_, ?_, ?_, ?_, ?_, ?_, ?_⟩ <;> first | decide +kernel | rfl

theorem witness_snoop_answers_and_conflicts_are_taken_4 :
    (fun (s u : State) (hu : Hu) (plane : Bool) (t : Nat) (v : VMsg) (w : Nat) (x : Window) (k : Trk) (y : Snoop) =>
      (GrantedFor (s.at t) u hu.toNat plane v w x) ∧
      ((s.at t).trkCheck hu.toNat = (false, s.at t)) ∧
      (x.type = .shared) ∧
      (AwaitsSnoop u (x.lineAt v.off) v.m.host.toNat k y) ∧
      (v.m.kind = .biConflict) ∧
      ((k.snoops.any fun z => z.host == v.m.host.toNat && z.cfl != 0) = false) ∧
      (u.owed (x.lineAt v.off) v.m.host.toNat k = [])) (tS .biConflict .snpInv) (tSu .biConflict .snpInv) 0 false 5 (tGv .biConflict .srsp .i .noOp) 1 tWs (tK .snpInv) (tY .snpInv) := by
  refine ⟨?_, ?_, ?_, ?_, ?_, ?_, ?_⟩ <;> first | decide +kernel | rfl

theorem witness_snoop_answers_and_conflicts_are_taken_5 :
    (fun (s u : State) (hu : Hu) (plane : Bool) (t : Nat) (v : VMsg) (w : Nat) (x : Window) (k : Trk) (y : Snoop) =>
      (GrantedFor (s.at t) u hu.toNat plane v w x) ∧
      ((s.at t).trkCheck hu.toNat = (false, s.at t)) ∧
      (x.type = .shared) ∧
      (AwaitsSnoop u (x.lineAt v.off) v.m.host.toNat k y) ∧
      (v.m.kind = .biConflict) ∧
      ((k.snoops.any fun z => z.host == v.m.host.toNat && z.cfl != 0) = false) ∧
      (u.owed (x.lineAt v.off) v.m.host.toNat k ≠ [])) tS2 tSu2 0 false 5 (tGv .biConflict .srsp .i .noOp) 1 tWs (tK .snpInv) (tY .snpInv) := by
  refine ⟨?_, ?_, ?_, ?_, ?_, ?_, ?_⟩ <;> first | decide +kernel | rfl

theorem witness_atomic_op_grants_open_their_line_1 :
    (fun (s u : State) (hu : Hu) (plane : Bool) (t : Nat) (v : VMsg) (w : Nat) (x : Window) (b : Binding) =>
      (AtomPasses (s.at t) u hu.toNat plane v .fetchAdd w x b)) (tG (.ioAtomic .fetchAdd) .req .i .noOp) (tGu (.ioAtomic .fetchAdd) .req .i .noOp) 0 false 5 (tGv (.ioAtomic .fetchAdd) .req .i .noOp) 1 tWs tBd := by
  first | decide +kernel | rfl

theorem witness_atomic_op_grants_open_their_line_2 :
    (fun (s u : State) (hu : Hu) (plane : Bool) (t : Nat) (v : VMsg) (w : Nat) (x : Window) (b : Binding) =>
      (AtomPasses (s.at t) u hu.toNat plane v .swap w x b)) (tG (.ioAtomic .swap) .req .i .noOp) (tGu (.ioAtomic .swap) .req .i .noOp) 0 false 5 (tGv (.ioAtomic .swap) .req .i .noOp) 1 tWs tBd := by
  first | decide +kernel | rfl

theorem witness_atomic_op_grants_open_their_line_3 :
    (fun (s u : State) (hu : Hu) (plane : Bool) (t : Nat) (v : VMsg) (w : Nat) (x : Window) (b : Binding) =>
      (AtomPasses (s.at t) u hu.toNat plane v .cas w x b)) (tG (.ioAtomic .cas) .req .i .noOp) (tGu (.ioAtomic .cas) .req .i .noOp) 0 false 5 (tGv (.ioAtomic .cas) .req .i .noOp) 1 tWs tBd := by
  first | decide +kernel | rfl

theorem witness_extended_operation_grants_open_their_line_1 :
    (fun (s : State) (slice : SliceId) (slot : BitVec 5) (t : Nat) (x : Slice) (w : Window) (y : XSlot) (b : Binding) (target size opnd : Nat) (notify : Bool) =>
      (XopPasses (s.at t) slice.toNat slot.toNat 1 x w y b target size opnd notify)) (tX 1 3) 0 3 5 (tXs 1 3) tWs (tXy 1 3) tBd 16 3 7 false := by
  first | decide +kernel | rfl

theorem witness_extended_operation_grants_open_their_line_2 :
    (fun (s : State) (slice : SliceId) (slot : BitVec 5) (t : Nat) (x : Slice) (w : Window) (y : XSlot) (b : Binding) (target size opnd : Nat) (notify : Bool) =>
      (XopPasses (s.at t) slice.toNat slot.toNat 2 x w y b target size opnd notify)) (tX 2 3) 0 3 5 (tXs 2 3) tWs (tXy 2 3) tBd 16 3 7 false := by
  first | decide +kernel | rfl

theorem witness_extended_operation_grants_open_their_line_3 :
    (fun (s : State) (slice : SliceId) (slot : BitVec 5) (t : Nat) (x : Slice) (w : Window) (y : XSlot) (b : Binding) (target size opnd : Nat) (notify : Bool) =>
      (XopPasses (s.at t) slice.toNat slot.toNat 3 x w y b target size opnd notify)) (tX 3 3) 0 3 5 (tXs 3 3) tWs (tXy 3 3) tBd 16 3 7 false := by
  first | decide +kernel | rfl

theorem witness_extended_operation_grants_open_their_line_4 :
    (fun (s : State) (slice : SliceId) (slot : BitVec 5) (t : Nat) (x : Slice) (w : Window) (y : XSlot) (b : Binding) (target size opnd : Nat) (notify : Bool) =>
      (XopPasses (s.at t) slice.toNat slot.toNat 4 x w y b target size opnd notify)) (tX 4 3) 0 3 5 (tXs 4 3) tWs (tXy 4 3) tBd 16 3 7 false := by
  first | decide +kernel | rfl

theorem witness_extended_operation_grants_open_their_line_5 :
    (fun (s : State) (slice : SliceId) (slot : BitVec 5) (t : Nat) (x : Slice) (w : Window) (y : XSlot) (b : Binding) (target size opnd : Nat) (notify : Bool) =>
      (XopPasses (s.at t) slice.toNat slot.toNat 5 x w y b target size opnd notify)) (tX 5 3) 0 3 5 (tXs 5 3) tWs (tXy 5 3) tBd 16 3 7 false := by
  first | decide +kernel | rfl

theorem witness_extended_operation_grants_open_their_line_6 :
    (fun (s : State) (slice : SliceId) (slot : BitVec 5) (t : Nat) (x : Slice) (w : Window) (y : XSlot) (b : Binding) (target size opnd : Nat) (notify : Bool) =>
      (XopPasses (s.at t) slice.toNat slot.toNat 6 x w y b target size opnd notify)) (tX 6 3) 0 3 5 (tXs 6 3) tWs (tXy 6 3) tBd 16 3 7 false := by
  first | decide +kernel | rfl

theorem witness_extended_operation_grants_open_their_line_7 :
    (fun (s : State) (slice : SliceId) (slot : BitVec 5) (t : Nat) (x : Slice) (w : Window) (y : XSlot) (b : Binding) (target size opnd : Nat) (notify : Bool) =>
      (XopPasses (s.at t) slice.toNat slot.toNat 7 x w y b target size opnd notify)) (tX 7 3) 0 3 5 (tXs 7 3) tWs (tXy 7 3) tBd 16 3 7 false := by
  first | decide +kernel | rfl

theorem witness_extended_operation_grants_open_their_line_8 :
    (fun (s : State) (slice : SliceId) (slot : BitVec 5) (t : Nat) (x : Slice) (w : Window) (y : XSlot) (b : Binding) (target size opnd : Nat) (notify : Bool) =>
      (XopPasses (s.at t) slice.toNat slot.toNat 8 x w y b target size opnd notify)) (tX 8 4) 0 3 5 (tXs 8 4) tWs (tXy 8 4) tBd 16 4 7 false := by
  first | decide +kernel | rfl

theorem witness_extended_operation_grants_open_their_line_9 :
    (fun (s : State) (slice : SliceId) (slot : BitVec 5) (t : Nat) (x : Slice) (w : Window) (y : XSlot) (b : Binding) (target size opnd : Nat) (notify : Bool) =>
      (XopPasses (s.at t) slice.toNat slot.toNat 9 x w y b target size opnd notify)) (tX 9 3) 0 3 5 (tXs 9 3) tWs (tXy 9 3) tBd 16 3 7 false := by
  first | decide +kernel | rfl

theorem witness_flits_and_pass_through_traffic_complete_1 :
    (fun (s u : State) (port : Port) (t : Nat) (msgs : List MsgIn) (ret : FlitRet) =>
      ((s.at t).inL0 port.toNat = true) ∧
      ((s.at t).check1 (0x0100 + ((s.at t).portGroup port.toNat).getD 0) 32 false = (.clean, u))) tLink (tLink.at 3) 0 3 [(tGv .memRd .req .i .noOp).m] {} := by
  refine ⟨?_, ?_⟩ <;> first | decide +kernel | rfl

theorem witness_flits_and_pass_through_traffic_complete_2 :
    (fun (s u : State) (port : Port) (t : Nat) (fecOk crcOk : Bool) (msgs : List MsgIn) (ret : FlitRet) =>
      ((s.at t).inL0 port.toNat = true) ∧
      ((s.at t).check1 (0x0100 + ((s.at t).portGroup port.toNat).getD 0) 32 false = (.clean, u)) ∧
      (fecOk = false ∨ crcOk = false)) tLink (tLink.at 3) 0 3 false true [] {} := by
  refine ⟨?_, ?_, ?_⟩ <;> first | decide +kernel | rfl

theorem witness_flits_and_pass_through_traffic_complete_3 :
    (fun (s : State) (port : Port) (tag : B16) (cacheId : BitVec 4) (data : Bool) (v : Vppb) =>
      (s.traffic port.toNat = true) ∧
      (s.role port.toNat = rolePt) ∧
      (s.ports.vppb.find? (fun v => v.cache && v.port == port.toNat) = some v)) tCa 1 9 2 true tCv := by
  refine ⟨?_, ?_, ?_⟩ <;> first | decide +kernel | rfl

theorem witness_flits_and_pass_through_traffic_complete_4 :
    (fun (s : State) (port : Port) (tag : B16) (cacheId : BitVec 4) (v : Vppb) =>
      (s.traffic port.toNat = true) ∧
      (s.role port.toNat = roleUpstream) ∧
      (s.ports.vppb.find? (fun v => v.cache && (v.vcs == port.toNat && v.cacheId == cacheId.toNat)) = some v)) tCa 0 9 2 tCv := by
  refine ⟨?_, ?_, ?_⟩ <;> first | decide +kernel | rfl

theorem witness_flits_and_pass_through_traffic_complete_5 :
    (fun (s : State) (vcs : Port) (bridge : BitVec 7) (v : Vppb) =>
      (s.ports.vppb.find? (fun v => v.vcs == vcs.toNat && v.bridge == bridge.toNat) = some v) ∧
      (s.role v.port = rolePt) ∧
      (s.inL0 v.port = true)) tCa 0 64 tCv := by
  refine ⟨?_, ?_, ?_⟩ <;> first | decide +kernel | rfl

theorem witness_flits_and_pass_through_traffic_complete_6 :
    (fun (s : State) (vcs : Port) (bridge : BitVec 7) =>
      (s.ports.vppb.find? (fun v => v.vcs == vcs.toNat && v.bridge == bridge.toNat) = none)) tW 0 0 := by
  first | decide +kernel | rfl

theorem witness_flits_and_pass_through_traffic_complete_7 :
    (fun (s : State) (window : Win) (host : Fid) (x : Window) (b : Binding) =>
      (s.win? window.toNat = some x) ∧
      (x.bind? host.toNat = some b) ∧
      (b.st = .unbinding)) tUn 1 0x123 tUw tUb := by
  refine ⟨?_, ?_, ?_⟩ <;> first | decide +kernel | rfl

theorem witness_window_accesses_of_cxl_io_complete_1 :
    (fun (s u a c : State) (window : Win) (host : Fid) (pasid : Option (BitVec 20)) (tag : B16) (off : Nat) (len : Nat) (x : Window) (b : Binding) =>
      (s.win? window.toNat = some x) ∧
      (s.ioBind window.toNat host.toNat tag.toNat false x = some b) ∧
      (s.ioWaits window.toNat host.toNat tag.toNat false = false) ∧
      (s.ioStale window.toNat host.toNat tag.toNat false = none) ∧
      (u = s.takeIo window.toNat host.toNat tag.toNat false) ∧
      (off + len ≤ x.bytes ∧ 1 ≤ len ∧ len ≤ 4096) ∧
      (u.draining = false) ∧
      (x.failed = false) ∧
      (u.ioPages x host.toNat tag.toNat (pasid.map (·.toNat)) (x.base + off) len false = (accPages (x.base + off) len, a)) ∧
      (a.ioLines window.toNat tag.toNat false ((accLines (x.base + off) len).filter fun l => (accPages (x.base + off) len).contains (l / 64)) = (accLines (x.base + off) len, c))) tH0 tH0 tH0 tH0 1 0x123 none 9 60 8 tWs tBd := by
  refine ⟨?_, ?_, ?_, ?_, ?_, ?_, ?_, ?_, ?_, ?_⟩ <;> first | decide +kernel | rfl

theorem witness_window_accesses_of_cxl_io_complete_2 :
    (fun (s u a c : State) (window : Win) (host : Fid) (pasid : Option (BitVec 20)) (tag : B16) (off : Nat) (data : List Byte) (pages go : List Nat) (x : Window) (b : Binding) =>
      (s.win? window.toNat = some x) ∧
      (s.ioBind window.toNat host.toNat tag.toNat true x = some b) ∧
      (s.ioWaits window.toNat host.toNat tag.toNat true = false) ∧
      (s.ioStale window.toNat host.toNat tag.toNat true = none) ∧
      (u = s.takeIo window.toNat host.toNat tag.toNat true) ∧
      (off + data.length ≤ x.bytes ∧ 1 ≤ data.length ∧ data.length ≤ 4096) ∧
      (u.draining = false) ∧
      (x.failed = false) ∧
      (b.rw = true) ∧
      (u.ioPages x host.toNat tag.toNat (pasid.map (·.toNat)) (x.base + off) data.length true = (pages, a)) ∧
      (a.ioLines window.toNat tag.toNat true ((accLines (x.base + off) data.length).filter fun l => pages.contains (l / 64)) = (go, c)) ∧
      (go ≠ [])) tH0 tH0 tH0 tH0 1 0x123 none 9 60 [1, 2, 3, 4, 5, 6, 7, 8] [0] [0, 1] tWs tBd := by
  refine ⟨?_, ?_, ?_, ?_, ?_, ?_, ?_, ?_, ?_, ?_, ?_, ?_⟩ <;> first | decide +kernel | rfl

theorem witness_window_accesses_of_cxl_io_complete_3 :
    (fun (s u : State) (window : Win) (host : Fid) (pasid : Option (BitVec 20)) (tag : B16) (off size : Nat) (value : B64) (port id : Nat) (x : Slice) =>
      (s.hostPort window.toNat host.toNat 0 = some port) ∧
      (s.ioWaits window.toNat host.toNat tag.toNat false = false) ∧
      (s.ioStale window.toNat host.toNat tag.toNat false = none) ∧
      (u = s.takeIo window.toNat host.toNat tag.toNat false) ∧
      (u.draining = false) ∧
      (0x100000 ≤ off) ∧
      (u.pool.slices.find? (fun p => p.2.window == window.toNat && p.2.page == (off - 0x100000) / 4096 && 0x100000 ≤ off && off < 0x200000 &&
            (u.win? window.toNat).isSome && p.2.host == host.toNat) = some (id, x)) ∧
      (x.pasid = pasid.map (·.toNat))) (tX 1 3) (tX 1 3) 1 0x123 none 9 0x100808 4 0 0 0 (tXs 1 3) := by
  refine ⟨?_, ?_, ?_, ?_, ?_, ?_, ?_, ?_⟩ <;> first | decide +kernel | rfl

theorem witness_window_accesses_of_cxl_io_complete_4 :
    (fun (s u : State) (window : Win) (host : Fid) (pasid : Option (BitVec 20)) (tag : B16) (off size : Nat) (value : B64) (port id : Nat) (x : Slice) =>
      (s.hostPort window.toNat host.toNat 0 = some port) ∧
      (s.ioWaits window.toNat host.toNat tag.toNat true = false) ∧
      (s.ioStale window.toNat host.toNat tag.toNat true = none) ∧
      (u = s.takeIo window.toNat host.toNat tag.toNat true) ∧
      (u.draining = false) ∧
      (0x100000 ≤ off) ∧
      (u.pool.slices.find? (fun p => p.2.window == window.toNat && p.2.page == (off - 0x100000) / 4096 && 0x100000 ≤ off && off < 0x200000 &&
            (u.win? window.toNat).isSome && p.2.host == host.toNat) = some (id, x)) ∧
      (x.pasid = pasid.map (·.toNat))) (tX 1 3) (tX 1 3) 1 0x123 none 9 0x100100 8 77 0 0 (tXs 1 3) := by
  refine ⟨?_, ?_, ?_, ?_, ?_, ?_, ?_, ?_⟩ <;> first | decide +kernel | rfl

theorem witness_window_accesses_of_cxl_io_complete_5 :
    (fun (s u : State) (window : Win) (host : Fid) (pasid : Option (BitVec 20)) (tag : B16) (off size : Nat) (write : Bool) (value : B64) (port : Nat) (x : Window) (b : Binding) =>
      (s.hostPort window.toNat host.toNat 0 = some port) ∧
      (s.ioWaits window.toNat host.toNat tag.toNat write = false) ∧
      (s.ioStale window.toNat host.toNat tag.toNat write = none) ∧
      (u = s.takeIo window.toNat host.toNat tag.toNat write) ∧
      (u.draining = false) ∧
      (off < 0x100000) ∧
      (u.win? window.toNat = some x) ∧
      (x.bind? host.toNat = some b)) (tX 1 3) (tX 1 3) 1 0x123 none 9 0x11000 4 false 0 0 tWs tBd := by
  refine ⟨?_, ?_, ?_, ?_, ?_, ?_, ?_, ?_⟩ <;> first | decide +kernel | rfl

theorem witness_window_accesses_of_cxl_io_complete_6 :
    (fun (s : State) (slice : SliceId) (value : Word) (x : Slice) (y : JSlot) =>
      (NMap.get? s.pool.slices slice.toNat = some x) ∧
      (value.toNat < 8) ∧
      (y = (NMap.get? x.jobs value.toNat).getD {}) ∧
      (y.flight = false) ∧
      ((s.mov.queue.filter fun j => j.room == x.room).length < 1024)) (tX 1 3) 0 7 (tXs 1 3) {} := by
  refine ⟨?_, ?_, ?_, ?_, ?_⟩ <;> first | decide +kernel | rfl

theorem witness_home_unit_timers_and_responses_complete_1 :
    (fun (s : State) (req : Nat) (rsp : DevRsp) (t : Nat) (r : MemReq) =>
      (s.home.memq.find? (fun r => r.id == req && r.sent) = some r) ∧
      ((s.at t).trkCheck r.hu = (false, s.at t))) tMq 4 (.ok 7) 9 tMr := by
  refine ⟨?_, ?_⟩ <;> first | decide +kernel | rfl

theorem witness_home_unit_timers_and_responses_complete_2 :
    (fun (s : State) (req : Nat) (rsp : DevRsp) (t : Nat) (p : Nat × PortSt) =>
      (s.home.memq.find? (fun r => r.id == req && r.sent) = none) ∧
      (s.ports.st.find? (fun p => p.2.quar.contains req) = some p)) tQu 4 (.ok 7) 9 (3, { (tLink.port 3) with quar := [4] }) := by
  refine ⟨?_, ?_⟩ <;> first | decide +kernel | rfl

theorem witness_home_unit_timers_and_responses_complete_3 :
    (fun (s : State) (hu : Hu) (trk : Nat) (host : Fid) (t : Nat) (x : Trk) (y : Snoop) =>
      (s.trk? trk = some x) ∧
      (x.snoops.find? (fun y => y.host == host.toNat) = some y) ∧
      (x.hu = hu.toNat) ∧
      (s.fld (HSL_SNP_CFG_fSNP_TMO hu.toNat) * 1000 ≤ (s.at t).now - y.t0) ∧
      ((s.at t).trkCheck x.hu = (false, s.at t))) (tS .biRspI .snpInv) 0 1 0x123 1000000000 (tK .snpInv) (tY .snpInv) := by
  refine ⟨?_, ?_, ?_, ?_, ?_⟩ <;> first | decide +kernel | rfl

theorem witness_home_unit_timers_and_responses_complete_4 :
    (fun (s : State) (req t : Nat) (r : IntReq) =>
      (s.home.intq.find? (fun r => r.id == req && r.next ≤ (s.at t).now) = some r) ∧
      ((s.at t).reqWins (lineHu r.line) (linePlane r.line) r.room = true) ∧
      ((s.at t).scqLevel (lineHu r.line) < 64) ∧
      ((((s.at t).countsReq (lineHu r.line) (linePlane r.line) r.room).offerInt r).1 = true)) tIq 5 9 tIr := by
  refine ⟨?_, ?_, ?_, ?_⟩ <;> first | decide +kernel | rfl

theorem witness_home_unit_timers_and_responses_complete_5 :
    (fun (s : State) (req t : Nat) (r : IntReq) =>
      (s.home.intq.find? (fun r => r.id == req && r.next ≤ (s.at t).now) = some r) ∧
      ((s.at t).reqWins (lineHu r.line) (linePlane r.line) r.room = true) ∧
      ((s.at t).scqLevel (lineHu r.line) < 64) ∧
      ((((s.at t).countsReq (lineHu r.line) (linePlane r.line) r.room).offerInt r).1 = false)) tIqn 5 9 tIr := by
  refine ⟨?_, ?_, ?_, ?_⟩ <;> first | decide +kernel | rfl

theorem witness_home_unit_timers_and_responses_complete_6 :
    (fun (s : State) (req t : Nat) (r : IntReq) =>
      (s.home.intq.find? (fun r => r.id == req && r.next ≤ (s.at t).now) = some r) ∧
      ((s.at t).reqWins (lineHu r.line) (linePlane r.line) r.room = false ∨ 64 ≤ (s.at t).scqLevel (lineHu r.line))) tIqw 5 9 tIr := by
  refine ⟨?_, ?_⟩ <;> first | decide +kernel | rfl

theorem witness_home_unit_timers_and_responses_complete_7 :
    (fun (s u : State) (hu : Hu) =>
      (s.flag (HSL_SCRUB_CFG_fEN hu.toNat) = true) ∧
      (u = (s.mapHome fun x => { x with
            scrub := NMap.set x.scrub hu.toNat (((NMap.get? s.home.scrub hu.toNat).getD 0 + 1) % 524288) })) ∧
      (u.hbmParity (huStack hu.toNat) (16 * huStack hu.toNat + (Config.hbmChannel (huStack hu.toNat)
            (huPos hu.toNat * 0x8000000 + (NMap.get? s.home.scrub hu.toNat).getD 0 * 256)).toNat) = (false, u)) ∧
      (u.fld FLT_INJ_CTL_fARM = 0)) tSc tScu 0 := by
  refine ⟨?_, ?_, ?_, ?_⟩ <;> first | decide +kernel | rfl

theorem witness_home_unit_timers_and_responses_complete_8 :
    (fun (s u : State) (hu : Hu) (way : BitVec 4) (trusted : Bool) =>
      (s.flag (HSL_SCRUB_CFG_fEN hu.toNat) = true) ∧
      (u = (s.mapHome fun x => { x with
            scrub := NMap.set x.scrub hu.toNat (((NMap.get? s.home.scrub hu.toNat).getD 0 + 1) % 524288) })) ∧
      (u.hbmParity (huStack hu.toNat) (16 * huStack hu.toNat + (Config.hbmChannel (huStack hu.toNat)
            (huPos hu.toNat * 0x8000000 + (NMap.get? s.home.scrub hu.toNat).getD 0 * 256)).toNat) = (false, u)) ∧
      (u.fld FLT_INJ_CTL_fARM = 0)) tSc tScu 0 3 true := by
  refine ⟨?_, ?_, ?_, ?_⟩ <;> first | decide +kernel | rfl

theorem witness_home_unit_timers_and_responses_complete_9 :
    (fun (s u : State) (hu : Hu) (way : BitVec 4) (trusted : Bool) =>
      (s.flag (HSL_SCRUB_CFG_fEN hu.toNat) = true) ∧
      (u = (s.mapHome fun x => { x with
            scrub := NMap.set x.scrub hu.toNat (((NMap.get? s.home.scrub hu.toNat).getD 0 + 1) % 524288) })) ∧
      (u.hbmParity (huStack hu.toNat) (16 * huStack hu.toNat + (Config.hbmChannel (huStack hu.toNat)
            (huPos hu.toNat * 0x8000000 + (NMap.get? s.home.scrub hu.toNat).getD 0 * 256)).toNat) = (false, u)) ∧
      (u.fld FLT_INJ_CTL_fARM = 0)) tSc tScu 0 3 true := by
  refine ⟨?_, ?_, ?_, ?_⟩ <;> first | decide +kernel | rfl

theorem witness_home_unit_timers_and_responses_complete_10 :
    (fun (s : State) (port : Port) =>
      ((s.port port.toNat).purge = true) ∧
      (s.purgeHeld port.toNat = false)) tPg 0 := by
  refine ⟨?_, ?_⟩ <;> first | decide +kernel | rfl

theorem witness_arbiter_counters_and_hbm_refresh_complete_1 :
    (fun (s : State) (stack : Stack) (channel : BitVec 4) =>
      (s.home.refresh.contains (stack.toNat * 16 + channel.toNat) = false)) tUp 1 15 := by
  first | decide +kernel | rfl

theorem witness_arbiter_counters_and_hbm_refresh_complete_2 :
    (fun (s : State) (kind : BitVec 2) (inst : Byte) (hu : Hu) =>
      (s.lockHeld kind.toNat inst.toNat = true)) tLk 0 9 3 := by
  first | decide +kernel | rfl

theorem witness_arbiter_counters_and_hbm_refresh_complete_3 :
    (fun (s : State) (kind : BitVec 2) (inst : Byte) (hu : Hu) =>
      (s.lockHeld kind.toNat inst.toNat = false)) tUp 0 9 3 := by
  first | decide +kernel | rfl

theorem witness_window_timers_complete_1 :
    (fun (s u : State) (window : Win) (host : Fid) (t : Nat) (x : Window) (b : Binding) (d : Nat) =>
      (u = ((s.at t).removalsDue.foldl (fun a v => a.unbindPt v) (s.at t))) ∧
      (u.win? window.toNat = some x) ∧
      (x.bind? host.toNat = some b) ∧
      (b.deadline = some d) ∧
      (d ≤ u.now)) tUn (tUn.at 9) 1 0x123 9 tUw tUb 5 := by
  refine ⟨?_, ?_, ?_, ?_, ?_⟩ <;> first | decide +kernel | rfl

theorem witness_window_timers_complete_2 :
    (fun (s u : State) (window : Win) (host : Fid) (t : Nat) (x : Window) (b : Binding) =>
      (u = ((s.at t).removalsDue.foldl (fun a v => a.unbindPt v) (s.at t))) ∧
      (u.win? window.toNat = some x) ∧
      (x.bind? host.toNat = some b) ∧
      (b.deadline = none) ∧
      (b.r96 = true)) tUf (tUf.at 9) 1 0x123 9 tUfw tUfb := by
  refine ⟨?_, ?_, ?_, ?_, ?_⟩ <;> first | decide +kernel | rfl

theorem witness_window_timers_complete_3 :
    (fun (s u : State) (window : Win) (t : Nat) (x : Window) =>
      (s.win? window.toNat = some x) ∧
      (u = ((x.offers.filter fun o => o.deadline ≤ (s.at t).now).foldl (fun a o => a.answerOffer window.toNat o []) (s.at t)))) tDo ((tDo.at 9).answerOffer 1 tOf []) 1 9 tDow := by
  refine ⟨?_, ?_⟩ <;> first | decide +kernel | rfl

theorem witness_rehoming_steps_complete_1 :
    (fun (s u : State) (window : Win) (x : Window) (r : Rehome) =>
      (s.win? window.toNat = some x) ∧
      (x.rehome = some r) ∧
      (r.old = true ∧ x.st = .copying) ∧
      (s.allCopied x = true) ∧
      (u = (s.mapWin window.toNat fun y => { y with st := .handoffOut }))) tHs tHsu 1 tHw tHr := by
  refine ⟨?_, ?_, ?_, ?_, ?_⟩ <;> first | decide +kernel | rfl

theorem witness_rehoming_steps_complete_2 :
    (fun (s u : State) (window : Win) (t : Nat) (x y : Window) (r q : Rehome) =>
      (s.win? window.toNat = some x) ∧
      (x.rehome = some r) ∧
      (r.old = true ∧ x.st = .handoffOut) ∧
      (u = (s.at t).pumpHandoff window.toNat) ∧
      (u.win? window.toNat = some y) ∧
      (y.rehome = some q) ∧
      (q.sweep = [] ∧ u.winTrk window.toNat = 0)) tHo ((tHo.at 5).pumpHandoff 1) 1 5 tHow { tHow with rehome := some { tHr with swept := true } } tHr { tHr with swept := true } := by
  refine ⟨?_, ?_, ?_, ?_, ?_, ?_, ?_⟩ <;> first | decide +kernel | rfl

theorem witness_rehoming_steps_complete_3 :
    (fun (s u : State) (window : Win) (t : Nat) (x : Window) (r : Rehome) =>
      (s.win? window.toNat = some x) ∧
      (x.rehome = some r) ∧
      (r.old = false) ∧
      (u = (((if x.type == .dynamic then (List.range x.extents).filter fun i => !r.wrote.contains i else []).foldl
            (fun a i => a.freeOne x i) ((s.at t).mapWin window.toNat fun y => { y with st := .active, rehome := none })).mapHome fun h =>
              { h with hold := h.hold.filter fun q => q.win != window.toNat }))) tHn tHnu 1 5 tHnw tHnr := by
  refine ⟨?_, ?_, ?_, ?_⟩ <;> first | decide +kernel | rfl

theorem witness_rehoming_steps_complete_4 :
    (fun (s : State) (window : Win) (t : Nat) (x : Window) (r : Rehome) =>
      (s.win? window.toNat = some x) ∧
      (x.rehome = some r)) tHn 1 30000000 tHnw tHnr := by
  refine ⟨?_, ?_⟩ <;> first | decide +kernel | rfl

theorem witness_rehoming_steps_complete_5 :
    (fun (s : State) (window : Win) (x : Window) (r : Rehome) =>
      (s.win? window.toNat = some x) ∧
      (x.rehome = some r) ∧
      (r.old = true) ∧
      (x.st = .copying ∨ x.st = .handoffOut)) tHs 1 tHw tHr := by
  refine ⟨?_, ?_, ?_, ?_⟩ <;> first | decide +kernel | rfl

theorem witness_rehoming_steps_complete_6 :
    (fun (s : State) (window : Win) (x : Window) (r : Rehome) =>
      (s.win? window.toNat = some x) ∧
      (x.rehome = some r) ∧
      (r.old = false)) tHn 1 tHnw tHnr := by
  refine ⟨?_, ?_, ?_⟩ <;> first | decide +kernel | rfl

theorem witness_egress_scheduling_completes_1 :
    (fun (s u : State) (port : Port) (t : Nat) =>
      (u = (s.at t).gateDue port.toNat) ∧
      (u.traffic port.toNat = true) ∧
      (u.groupDrains port.toNat = false)) tCa ((tCa.at 5).gateDue 0) 0 5 := by
  refine ⟨?_, ?_, ?_⟩ <;> first | decide +kernel | rfl

theorem witness_egress_scheduling_completes_2 :
    (fun (s : State) (port : Port) (t : Nat) =>
      ((s.port port.toNat).gateT = none) ∧
      ((s.at t).traffic port.toNat = true) ∧
      ((s.at t).groupDrains port.toNat = false) ∧
      ((s.at t).membersOf port.toNat = [])) tCa 0 5 := by
  refine ⟨?_, ?_, ?_, ?_⟩ <;> first | decide +kernel | rfl

theorem witness_egress_scheduling_completes_3 :
    (fun (s : State) (port : Port) (t d : Nat) =>
      ((s.port port.toNat).gateT = some d) ∧
      (d ≤ (s.at t).now) ∧
      (s.cmds.pend = [])) tGt 0 9 5 := by
  refine ⟨?_, ?_, ?_⟩ <;> first | decide +kernel | rfl

theorem witness_egress_scheduling_completes_4 :
    (fun (s : State) (neighbour : Fid) (t e : Nat) =>
      (NMap.get? s.home.drains neighbour.toNat = some e) ∧
      (e ≤ (s.at t).now)) tDr 0x020 9 5 := by
  refine ⟨?_, ?_⟩ <;> first | decide +kernel | rfl

theorem witness_mover_channels_run_1 :
    (fun (s : State) (room : LRoom) (dev : DevData) (j : Job) (n : Nat) (c : MChan) =>
      (s.mov.queue.find? (fun j => j.room == room.toNat) = some j) ∧
      (s.mov.chans.find? (fun c => c.2.en && c.2.st == .idle && c.2.room == some room.toNat) = some (n, c)) ∧
      (s.draining = false)) tMo0 1 [] tJob 0 { en := true, room := some 1, st := .idle } := by
  refine ⟨?_, ?_, ?_⟩ <;> first | decide +kernel | rfl

theorem witness_mover_channels_run_2 :
    (fun (s u : State) (ch : Chan) (dev : DevData) (dev1 : List DevRsp) (j : Job) (head : Nat) (d : Desc) =>
      (RunsDesc s u ch.toNat dev dev1 j head d) ∧
      (d.type = 0)) (tMo 0) (tMo 0) 0 [] [] tJob 64 (tDe 0) := by
  refine ⟨?_, ?_⟩ <;> first | decide +kernel | rfl

theorem witness_mover_channels_run_3 :
    (fun (s u : State) (ch : Chan) (dev : DevData) (dev1 : List DevRsp) (j : Job) (head : Nat) (d : Desc) =>
      (RunsDesc s u ch.toNat dev dev1 j head d) ∧
      (d.type = 1)) (tMo 1) (tMo 1) 0 [] [] tJob 64 (tDe 1) := by
  refine ⟨?_, ?_⟩ <;> first | decide +kernel | rfl

theorem witness_mover_channels_run_4 :
    (fun (s u : State) (ch : Chan) (dev : DevData) (dev1 : List DevRsp) (j : Job) (head : Nat) (d : Desc) =>
      (RunsDesc s u ch.toNat dev dev1 j head d) ∧
      (d.type = 2)) (tMo 2) (tMo 2) 0 [] [] tJob 64 (tDe 2) := by
  refine ⟨?_, ?_⟩ <;> first | decide +kernel | rfl

theorem witness_mover_channels_run_5 :
    (fun (s u : State) (ch : Chan) (dev : DevData) (dev1 : List DevRsp) (j : Job) (head : Nat) (d : Desc) =>
      (RunsDesc s u ch.toNat dev dev1 j head d) ∧
      (d.type = 3)) (tMo 3) (tMo 3) 0 [] [] tJob 64 (tDe 3) := by
  refine ⟨?_, ?_⟩ <;> first | decide +kernel | rfl

theorem witness_mover_channels_run_6 :
    (fun (s u : State) (ch : Chan) (dev : DevData) (dev1 : List DevRsp) (j : Job) (head : Nat) (d : Desc) =>
      (RunsDesc s u ch.toNat dev dev1 j head d) ∧
      (d.type = 4)) (tMo 4) (tMo 4) 0 [] [] tJob 64 (tDe 4) := by
  refine ⟨?_, ?_⟩ <;> first | decide +kernel | rfl

theorem witness_mover_channels_run_7 :
    (fun (s u c : State) (ch : Chan) (dev : DevData) (dev1 : List DevRsp) (j : Job) (x : Nat) (m : Mig) =>
      (RunsMig s u ch.toNat dev dev1 j x 0 m) ∧
      ((u.migPrepare x dev1).1 ≠ 2) ∧
      (c = (u.migPrepare x dev1).2.2)) (tMm 0 0) (tMm 0 0) ((tMm 0 0).migPrepare 17 []).2.2 60 [] [] tMj 17 { tMg with step := 0 } := by
  refine ⟨?_, ?_, ?_⟩ <;> first | decide +kernel | rfl

theorem witness_mover_channels_run_8 :
    (fun (s u c : State) (ch : Chan) (dev : DevData) (dev1 : List DevRsp) (j : Job) (x : Nat) (m y : Mig) (dev2 : List DevRsp) =>
      (RunsMig s u ch.toNat dev dev1 j x 1 m) ∧
      (State.migCopy (2 ^ 22 + dev1.length) u x ch.toNat dev1 = (true, dev2, c)) ∧
      (c.mig? x = some y) ∧
      (y.copied < 2 ^ 22)) (tMm 1 (5)) (tMm 1 (5)) (tMm 1 (5)) 60 [] [] tMj 17 { tMg with step := 1, copied := 5 } { tMg with step := 1, copied := 5 } [] := by
  refine ⟨?_, ?_, ?_, ?_⟩ <;> first | decide +kernel | rfl

theorem witness_mover_channels_run_9 :
    (fun (s u c : State) (ch : Chan) (dev : DevData) (dev1 : List DevRsp) (j : Job) (x : Nat) (m y : Mig) (dev2 : List DevRsp) =>
      (RunsMig s u ch.toNat dev dev1 j x 1 m) ∧
      (State.migCopy (2 ^ 22 + dev1.length) u x ch.toNat dev1 = (true, dev2, c)) ∧
      (c.mig? x = some y) ∧
      (2 ^ 22 ≤ y.copied ∧ y.remote = none)) (tMm 1 (2 ^ 22)) (tMm 1 (2 ^ 22)) (tMm 1 (2 ^ 22)) 60 [] [] tMj 17 { tMg with step := 1, copied := 2 ^ 22 } { tMg with step := 1, copied := 2 ^ 22 } [] := by
  refine ⟨?_, ?_, ?_, ?_⟩ <;> first | decide +kernel | rfl

theorem witness_mover_channels_run_10 :
    (fun (s u : State) (ch : Chan) (dev1 : List DevRsp) (j : Job) (x : Nat) (m : Mig) =>
      (RunsMig s u ch.toNat [] dev1 j x 2 m)) (tMm 2 0) (tMm 2 0) 60 [] tMj 17 { tMg with step := 2 } := by
  first | decide +kernel | rfl

theorem witness_mover_channels_run_11 :
    (fun (s u : State) (ch : Chan) (dev1 : List DevRsp) (j : Job) (x : Nat) (m : Mig) =>
      (RunsMig s u ch.toNat [] dev1 j x 3 m) ∧
      (u.oldGen x = false)) (tMm 3 0) (tMm 3 0) 60 [] tMj 17 { tMg with step := 3 } := by
  refine ⟨?_, ?_⟩ <;> first | decide +kernel | rfl

theorem witness_mover_channels_run_12 :
    (fun (s u : State) (ch : Chan) (dev1 : List DevRsp) (j : Job) (x : Nat) (m : Mig) =>
      (RunsMig s u ch.toNat [] dev1 j x 4 m)) (tMm 4 0) (tMm 4 0) 60 [] tMj 17 { tMg with step := 4 } := by
  first | decide +kernel | rfl

theorem witness_mover_channel_control_completes_1 :
    (fun (s : State) (path : Path) (ch : Chan) =>
      (PathWrites s path) ∧
      ((s.chan ch.toNat).st = .haltFault ∨ (s.chan ch.toNat).st = .haltBystander)) tMh .monitor 0 := by
  refine ⟨?_, ?_⟩ <;> first | decide +kernel | rfl

theorem witness_mover_channel_control_completes_2 :
    (fun (s : State) (path : Path) (ch : Chan) =>
      (PathWrites s path) ∧
      ((s.chan ch.toNat).st = .haltFault ∨ (s.chan ch.toNat).st = .haltBystander)) tMh .monitor 0 := by
  refine ⟨?_, ?_⟩ <;> first | decide +kernel | rfl

theorem witness_mover_channel_control_completes_3 :
    (fun (s : State) (path : Path) (ch : Chan) =>
      (PathWrites s path) ∧
      ((s.chan ch.toNat).st = .haltFault ∨ (s.chan ch.toNat).st = .haltBystander)) tMh .monitor 0 := by
  refine ⟨?_, ?_⟩ <;> first | decide +kernel | rfl

theorem witness_mover_channel_control_completes_4 :
    (fun (s : State) (path : Path) (ch : Chan) =>
      (PathWrites s path) ∧
      ((s.chan ch.toNat).en = true)) tMh .jtag 0 := by
  refine ⟨?_, ?_⟩ <;> first | decide +kernel | rfl

theorem witness_mover_channel_control_completes_5 :
    (fun (s : State) (t d : Nat) =>
      (s.mov.byst = some d) ∧
      (d ≤ (s.at t).now)) tMb1 9 5 := by
  refine ⟨?_, ?_⟩ <;> first | decide +kernel | rfl

theorem witness_port_training_completes_1 :
    (fun (s : State) (port : Port) (t : Nat) (info : LinkInfo) =>
      ((s.at t).mayTrain port.toNat info = true) ∧
      ((s.at t).tooNarrow port.toNat info.width.toNat = false)) tTr 0 5 tInfo := by
  refine ⟨?_, ?_⟩ <;> first | decide +kernel | rfl

theorem witness_port_training_completes_2 :
    (fun (s : State) (port : Port) (t : Nat) (info : LinkInfo) =>
      ((s.at t).mayTrain port.toNat info = true) ∧
      ((s.at t).tooNarrow port.toNat info.width.toNat = true)) tTrn 0 5 tInfo := by
  refine ⟨?_, ?_⟩ <;> first | decide +kernel | rfl

theorem witness_port_training_completes_3 :
    (fun (s u : State) (port : Port) (t e : Nat) =>
      ((s.port port.toNat).retryAt = some e) ∧
      (e ≤ (s.at t).now) ∧
      (u = ((s.at t).mapPort port.toNat fun x => { x with retryAt := none }))) tWr ((tWr.at 9).mapPort 0 fun x => { x with retryAt := none }) 0 9 5 := by
  refine ⟨?_, ?_, ?_⟩ <;> first | decide +kernel | rfl

theorem witness_port_training_completes_4 :
    (fun (s : State) (port : Port) (rw : RateWidth) (below : Bool) =>
      (s.inL0 port.toNat = true) ∧
      (s.tooNarrow port.toNat rw.width.toNat = false)) tTw 0 tRw true := by
  refine ⟨?_, ?_⟩ <;> first | decide +kernel | rfl

theorem witness_port_training_completes_5 :
    (fun (s : State) (lane : Lane) (up : Option Bool) =>
      (s.flag (LNG_LANE_STAT_fACTIVE (lane.toNat / 8) (lane.toNat % 8)) = true) ∧
      (s.flag (LNG_LANE_STAT_fADAPT_STOP (lane.toNat / 8) (lane.toNat % 8)) = false)) tLa 3 (some true) := by
  refine ⟨?_, ?_⟩ <;> first | decide +kernel | rfl

theorem witness_port_training_completes_6 :
    (fun (s : State) (path : Path) (port : Port) =>
      (PathWrites s path) ∧
      (s.inL0 port.toNat = true)) tLink .monitor 0 := by
  refine ⟨?_, ?_⟩ <;> first | decide +kernel | rfl

theorem witness_port_training_completes_7 :
    (fun (s : State) (path : Path) (port : Port) =>
      (PathWrites s path) ∧
      (s.role port.toNat = rolePt) ∧
      (s.inL0 port.toNat = true)) tCa .jtag 1 := by
  refine ⟨?_, ?_, ?_⟩ <;> first | decide +kernel | rfl

theorem witness_port_training_completes_8 :
    (fun (s : State) (path : Path) (port : Port) (t : Nat) =>
      (PathWrites (s.at t) path) ∧
      ((s.at t).portExists port.toNat = true)) tLink .monitor 0 5 := by
  refine ⟨?_, ?_⟩ <;> first | decide +kernel | rfl

theorem witness_port_training_completes_9 :
    (fun (s u : State) (path : Path) (port : Port) (t : Nat) =>
      (PathWrites (s.at t) path) ∧
      ((s.at t).portExists port.toNat = true) ∧
      (u = (s.at t).setFld (PRT_LINK_CTL_fDISABLE port.toNat) 0) ∧
      (u.inL0 port.toNat = false) ∧
      (((s.at t).port port.toNat).retryAt = none)) tUp ((tUp.at 5).setFld (PRT_LINK_CTL_fDISABLE 0) 0) .monitor 0 5 := by
  refine ⟨?_, ?_, ?_, ?_, ?_⟩ <;> first | decide +kernel | rfl

theorem witness_port_training_completes_10 :
    (fun (s : State) (path : Path) (group : Group) (on : Bool) =>
      (PathWrites s path)) tUp .jtag 3 true := by
  first | decide +kernel | rfl

theorem witness_port_events_complete_1 :
    (fun (s : State) (lane : Lane) =>
      (s.flag (LNG_LANE_STAT_fACTIVE (lane.toNat / 8) (lane.toNat % 8)) = true) ∧
      ((s.allPorts.any fun p => (s.port p).margin.any fun m => (s.maskLanes p m.1).contains lane.toNat) = false)) tLa 3 := by
  refine ⟨?_, ?_⟩ <;> first | decide +kernel | rfl

theorem witness_port_events_complete_2 :
    (fun (s : State) (lane : Lane) =>
      (s.flag (LNG_LANE_STAT_fACTIVE (lane.toNat / 8) (lane.toNat % 8)) = true) ∧
      ((s.allPorts.any fun p => (s.port p).margin.any fun m => (s.maskLanes p m.1).contains lane.toNat) = true)) tLm 3 := by
  refine ⟨?_, ?_⟩ <;> first | decide +kernel | rfl

theorem witness_port_events_complete_3 :
    (fun (s u : State) (port : Port) (errors : List (BitVec 6)) (m : Nat × Nat) (ms : List (Nat × Nat)) (r : WorkRes) =>
      ((s.port port.toNat).margin = m :: ms) ∧
      (s.endMargin port.toNat m errors = (r, u))) tLm (tLm.endMargin 0 (8, 4) [7]).2 0 [7] (8, 4) [] (tLm.endMargin 0 (8, 4) [7]).1 := by
  refine ⟨?_, ?_⟩ <;> first | decide +kernel | rfl

theorem witness_port_events_complete_4 :
    (fun (s : State) (port : Port) (t : Nat) =>
      (s.role port.toNat = roleUpstream ∨ s.role port.toNat = roleFabric) ∧
      (s.fld (PRT_LINK_STAT_fSTATE port.toNat) ≠ 0)) tLink 0 5 := by
  refine ⟨?_, ?_⟩ <;> first | decide +kernel | rfl

theorem witness_port_events_complete_5 :
    (fun (s u : State) (n : BitVec 5) (t : Nat) =>
      (u = { s.at t with pwr := { s.pwr with perstUp := s.pwr.perstUp - (if bitOf s.pwr.perstUp n.toNat then 2 ^ n.toNat else 0) } })) tLink (tLink.at 5) 3 5 := by
  first | decide +kernel | rfl

theorem witness_port_events_complete_6 :
    (fun (s u : State) (req t h d p : Nat) (r : MemReq) =>
      (s.home.memq.find? (fun r => r.id == req) = some r) ∧
      (r.tgt = .dev h d) ∧
      (p = s.devPort h) ∧
      (r.sent = true) ∧
      (s.fld (PRT_PROTO_CFG_fPD_TMO p) * 100000 ≤ (s.at t).now - r.t0) ∧
      (s.answered r = false) ∧
      (u = (((((s.at t).record { checker := 0x5000, source := 11, unit := h + p * 256, tag := (s.at t).memTag r, addr := r.line * 64 }).failMem
            r).mapPort p fun x => { x with quar := x.quar ++ [r.id] })))) tMq ((((tMq.at 9000000).record { checker := 0x5000, source := 11, unit := 768, tag := (tMq.at 9000000).memTag tMr, addr := 0 }).failMem tMr).mapPort 3 fun x => { x with quar := x.quar ++ [4] }) 4 9000000 0 0 3 tMr := by
  refine ⟨?_, ?_, ?_, ?_, ?_, ?_, ?_⟩ <;> first | decide +kernel | rfl

theorem witness_port_events_complete_7 :
    (fun (s : State) (port : Port) (t h e : Nat) (d : PoolDev) =>
      (s.devAt port.toNat = some (h, d)) ∧
      (d.awaitLink = true) ∧
      (s.pwr.poolWait = some e) ∧
      (e ≤ (s.at t).now)) tPl 3 9 0 5 { port := 3, capacity := 0x100000000, serial := some 1, used := [0], awaitLink := true } := by
  refine ⟨?_, ?_, ?_, ?_⟩ <;> first | decide +kernel | rfl

theorem witness_port_events_complete_8 :
    (fun (s : State) (port : Port) (lock retry : Bool) =>
      (s.inL0 port.toNat = true)) tLink 0 true false := by
  first | decide +kernel | rfl

theorem witness_opf_flits_complete_1 :
    (fun (s u : State) (e : OpfEnd) (f : OpfFlit) (t : Nat) =>
      (opfKey e < 96) ∧
      ((s.at t).lineUp (opfKey e) = true) ∧
      (((s.at t).sentFlit (peerEnd (opfKey e)) f).linkCheck (opfKey e) 32 f.good = (true, u)) ∧
      (f.seq.toNat = ((u.fieldsIn (opfKey e) f.ack.toNat f.crVc.toNat f.crCnt.toNat).lend (opfKey e)).rx)) tLines ((tLines.at 9).sentFlit 11 (tFl 0)) ⟨5, false⟩ (tFl 0) 9 := by
  refine ⟨?_, ?_, ?_, ?_⟩ <;> first | decide +kernel | rfl

theorem witness_opf_flits_complete_2 :
    (fun (s u : State) (e : OpfEnd) (f : OpfFlit) (t : Nat) =>
      (opfKey e < 96) ∧
      ((s.at t).lineUp (opfKey e) = true) ∧
      (((s.at t).sentFlit (peerEnd (opfKey e)) f).linkCheck (opfKey e) 32 f.good = (true, u)) ∧
      (f.seq.toNat ≠ ((u.fieldsIn (opfKey e) f.ack.toNat f.crVc.toNat f.crCnt.toNat).lend (opfKey e)).rx)) tLines ((tLines.at 9).sentFlit 11 (tFl 7)) ⟨5, false⟩ (tFl 7) 9 := by
  refine ⟨?_, ?_, ?_, ?_⟩ <;> first | decide +kernel | rfl

theorem witness_opf_flits_complete_3 :
    (fun (s u : State) (e : OpfEnd) (f : OpfFlit) (t : Nat) =>
      (opfKey e < 96) ∧
      ((s.at t).lineUp (opfKey e) = true) ∧
      (((s.at t).sentFlit (peerEnd (opfKey e)) f).check1 (linkChecker (opfKey e)) 32 false = (.clean, u)) ∧
      (f.good = false)) tLines ((tLines.at 9).sentFlit 11 { tFl 0 with good := false }) ⟨5, false⟩ { tFl 0 with good := false } 9 := by
  refine ⟨?_, ?_, ?_, ?_⟩ <;> first | decide +kernel | rfl

theorem witness_opf_flits_complete_4 :
    (fun (s u : State) (e : OpfEnd) (f : OpfNull) (t : Nat) =>
      (opfKey e < 96) ∧
      ((s.at t).lineUp (opfKey e) = true) ∧
      ((s.at t).linkCheck (opfKey e) 32 f.good = (true, u))) tLines (tLines.at 9) ⟨5, false⟩ tNu 9 := by
  refine ⟨?_, ?_, ?_⟩ <;> first | decide +kernel | rfl

theorem witness_opf_flits_complete_5 :
    (fun (s u : State) (e : OpfEnd) (f : OpfNull) (freed : List B16) (t : Nat) =>
      (opfKey e < 96) ∧
      ((s.at t).lineUp (opfKey e) = true) ∧
      ((s.at t).linkCheck (opfKey e) 32 f.good = (true, u))) tLines (tLines.at 9) ⟨5, false⟩ tNu [] 9 := by
  refine ⟨?_, ?_, ?_⟩ <;> first | decide +kernel | rfl

theorem witness_opf_flits_complete_6 :
    (fun (s u : State) (e : OpfEnd) (f : OpfNull) (reason die : Byte) (wordsA wordsB : List B64) (verifyA verifyB : Bool) (t : Nat) =>
      (opfKey e < 96) ∧
      ((s.at t).lineState (opfKey e) = 1) ∧
      ((s.at t).linkCheck (opfKey e) 32 f.good = (true, u))) tLines (tLines.at 9) ⟨5, false⟩ tNu 1 0 tWords tWords true true 9 := by
  refine ⟨?_, ?_, ?_⟩ <;> first | decide +kernel | rfl

theorem witness_opf_flits_complete_7 :
    (fun (s u : State) (e : OpfEnd) (f : OpfNull) (reason die : Byte) (wordsA wordsB : List B64) (verifyA verifyB : Bool) (t : Nat) =>
      (opfKey e < 96) ∧
      ((s.at t).lineState (opfKey e) = 2) ∧
      ((s.at t).linkCheck (opfKey e) 32 f.good = (true, u)) ∧
      ((u.fieldsIn (opfKey e) f.ack.toNat f.crVc.toNat f.crCnt.toNat).links.listed.contains e.m.val = false)) tLr (tLr.at 9) ⟨5, false⟩ tNu 1 0 tWords tWords true true 9 := by
  refine ⟨?_, ?_, ?_, ?_⟩ <;> first | decide +kernel | rfl

theorem witness_opf_flits_complete_8 :
    (fun (s u : State) (e : OpfEnd) (f : OpfNull) (next : BitVec 12) (free : List B16) (t : Nat) =>
      (opfKey e < 96) ∧
      ((s.at t).lineState (opfKey e) = 2) ∧
      (s.links.listed.contains e.m.val = true) ∧
      ((s.at t).linkCheck (opfKey e) 32 f.good = (true, u)) ∧
      (((u.resync (opfKey e) next.toNat (free.map BitVec.toNat)).lend (peerEnd (opfKey e))).sync = true)) tLs (tLs.at 9) ⟨5, false⟩ tNu 0 [96, 64, 16, 32, 64, 96, 16] 9 := by
  refine ⟨?_, ?_, ?_, ?_, ?_⟩ <;> first | decide +kernel | rfl

theorem witness_opf_flits_complete_9 :
    (fun (s u : State) (e : OpfEnd) (f : OpfNull) (next : BitVec 12) (free : List B16) (t : Nat) =>
      (opfKey e < 96) ∧
      ((s.at t).lineState (opfKey e) = 2) ∧
      (s.links.listed.contains e.m.val = true) ∧
      ((s.at t).linkCheck (opfKey e) 32 f.good = (true, u)) ∧
      (((u.resync (opfKey e) next.toNat (free.map BitVec.toNat)).lend (peerEnd (opfKey e))).sync = false)) tLt (tLt.at 9) ⟨5, false⟩ tNu 0 [96, 64, 16, 32, 64, 96, 16] 9 := by
  refine ⟨?_, ?_, ?_, ?_, ?_⟩ <;> first | decide +kernel | rfl

theorem witness_stairwell_packets_complete_1 :
    (fun (s u : State) (n : SLink) (p : StwPkt) (t : Nat) =>
      ((s.at t).lineUp (100 + n.toNat) = true) ∧
      (((s.at t).codeErrors (100 + n.toNat) p.codeErrs).linkCheck (100 + n.toNat) 32 p.good = (true, u)) ∧
      (p.seq.toNat = ((u.fieldsIn (100 + n.toNat) p.ack.toNat p.crVc.toNat p.crCnt.toNat).lend (100 + n.toNat)).rx)) tLines (tLines.at 9) 0 tSp 9 := by
  refine ⟨?_, ?_, ?_⟩ <;> first | decide +kernel | rfl

theorem witness_stairwell_packets_complete_2 :
    (fun (s u : State) (p : StwPkt) (t : Nat) =>
      ((s.at t).lineUp 96 = true) ∧
      (((s.at t).codeErrors 96 p.codeErrs).linkCheck 96 32 p.good = (true, u)) ∧
      (p.seq.toNat = ((u.fieldsIn 96 p.ack.toNat p.crVc.toNat p.crCnt.toNat).lend 96).rx)) tLines (tLines.at 9) tSp 9 := by
  refine ⟨?_, ?_, ?_⟩ <;> first | decide +kernel | rfl

theorem witness_stairwell_packets_complete_3 :
    (fun (s u : State) (c : CtlSet) (ack : BitVec 12) (crVc : BitVec 2) (crCnt : BitVec 4) (t : Nat) =>
      ((s.at t).lineUp (swKey c.link) = true) ∧
      ((s.at t).linkCheck (swKey c.link) 8 (ctlGood 1 (leBytes 2 ack.toNat ++ leBytes 1 (crVc.toNat + 4 * crCnt.toNat)) c.crc) = (true, u))) tLines (tLines.at 9) ⟨.sw 0, tCrc 1 [0xff, 0x0f, 0]⟩ 4095 0 0 9 := by
  refine ⟨?_, ?_⟩ <;> first | decide +kernel | rfl

theorem witness_stairwell_packets_complete_4 :
    (fun (s u : State) (c : CtlSet) (freed : List B16) (t : Nat) =>
      ((s.at t).lineUp (swKey c.link) = true) ∧
      ((s.at t).linkCheck (swKey c.link) 8 (ctlGood 2 (freed.flatMap fun v => leBytes 2 v.toNat) c.crc) = (true, u))) tLines (tLines.at 9) ⟨.mod48, tCrc 2 []⟩ [] 9 := by
  refine ⟨?_, ?_⟩ <;> first | decide +kernel | rfl

theorem witness_stairwell_packets_complete_5 :
    (fun (s u : State) (c : CtlSet) (rank : B16) (id : Fid) (reason : Byte) (t : Nat) =>
      ((s.at t).lineUp (swKey c.link) = true) ∧
      ((s.at t).linkCheck (swKey c.link) 8 (ctlGood 3 (rtrqData rank id reason) c.crc) = (true, u)) ∧
      (u.lineUp (swKey c.link) = true)) tLines (tLines.at 9) ⟨.sw 0, tCrc 3 [1, 0, 0x20, 0, 1]⟩ 1 0x020 1 9 := by
  refine ⟨?_, ?_, ?_⟩ <;> first | decide +kernel | rfl

theorem witness_stairwell_packets_complete_6 :
    (fun (s u : State) (c : CtlSet) (rank : B16) (id : Fid) (reason : Byte) (t : Nat) =>
      ((s.at t).training (swKey c.link) = true) ∧
      ((s.at t).linkCheck (swKey c.link) 8 (ctlGood 3 (rtrqData rank id reason) c.crc) = (true, u)) ∧
      (u.lineUp (swKey c.link) = false) ∧
      ((u.lend (swKey c.link)).asked = false)) tLtr (tLtr.at 9) ⟨.sw 0, tCrc 3 [1, 0, 0x20, 0, 1]⟩ 1 0x020 1 9 := by
  refine ⟨?_, ?_, ?_, ?_⟩ <;> first | decide +kernel | rfl

theorem witness_stairwell_packets_complete_7 :
    (fun (s u : State) (n : SLink) (rank : B16) (id : Fid) (reason crc : Byte) (t k : Nat) =>
      ((s.at t).training (100 + n.toNat) = true) ∧
      ((s.at t).linkCheck (100 + n.toNat) 8 (ctlGood 4 (rtrqData rank id reason) crc) = (true, u)) ∧
      ((u.lend (100 + n.toNat)).trn = k)) tLtr (tLtr.at 9) 0 1 0x020 4 (tCrc 4 [1, 0, 0x20, 0, 4]) 9 16 := by
  refine ⟨?_, ?_, ?_⟩ <;> first | decide +kernel | rfl

theorem witness_stairwell_packets_complete_8 :
    (fun (s u : State) (rank : B16) (id : Fid) (reason crc : Byte) (t k : Nat) =>
      ((s.at t).training 96 = true) ∧
      ((s.at t).linkCheck 96 8 (ctlGood 4 (rtrqData rank id reason) crc) = (true, u)) ∧
      ((u.lend 96).trn = k)) tLm8 (tLm8.at 9) 1 0x020 4 (tCrc 4 [1, 0, 0x20, 0, 4]) 9 16 := by
  refine ⟨?_, ?_, ?_⟩ <;> first | decide +kernel | rfl

theorem witness_stairwell_packets_complete_9 :
    (fun (s u : State) (n : SLink) (next : BitVec 12) (free : List Byte) (crc : Byte) (even : Bool) (t : Nat) =>
      ((s.at t).training (100 + n.toNat) = true) ∧
      (16 ≤ ((s.at t).lend (100 + n.toNat)).trn) ∧
      ((s.at t).linkCheck (100 + n.toNat) 8 (ctlGood 5 (leBytes 2 next.toNat ++ free) crc) = (true, u))) tLtr (tLtr.at 9) 0 0 [16, 16, 16] (tCrc 5 [0, 0, 16, 16, 16]) true 9 := by
  refine ⟨?_, ?_, ?_⟩ <;> first | decide +kernel | rfl

theorem witness_stairwell_packets_complete_10 :
    (fun (s u : State) (next : BitVec 12) (free : List Byte) (crc : Byte) (even : Bool) (t : Nat) =>
      ((s.at t).training 96 = true) ∧
      (16 ≤ ((s.at t).lend 96).trn) ∧
      ((s.at t).linkCheck 96 8 (ctlGood 5 (leBytes 2 next.toNat ++ free) crc) = (true, u))) tLm8 (tLm8.at 9) 0 [16] (tCrc 5 [0, 0, 16]) true 9 := by
  refine ⟨?_, ?_, ?_⟩ <;> first | decide +kernel | rfl

theorem witness_link_timers_complete_1 :
    (fun (s : State) (l : SwLink ⊕ OpfEnd) (t t0 : Nat) =>
      (((s.at t).lend (anyKey l)).timer = some t0) ∧
      (isEnd (anyKey l) = true) ∧
      ((s.at t).lineUp (anyKey l) = true) ∧
      (t0 + (s.at t).replayTmo (anyKey l) ≤ (s.at t).now)) tLrp (.inr ⟨5, false⟩) 900000000 0 := by
  refine ⟨?_, ?_, ?_, ?_⟩ <;> first | decide +kernel | rfl

theorem witness_link_timers_complete_2 :
    (fun (s u : State) (l : SwLink ⊕ OpfEnd) (t : Nat) (r : Nat × Nat) =>
      (isEnd (anyKey l) = true) ∧
      ((s.at t).lineUp (anyKey l) = true) ∧
      (((s.at t).lend (anyKey l)).sentT + 64 ≤ (s.at t).now) ∧
      ((((s.at t).lend (anyKey l)).ackDue || ((s.at t).lend (anyKey l)).owe.any fun p => p.2 != 0) = true) ∧
      ((s.at t).takeReturns (anyKey l) = (r, u))) tLak ((tLak.at 99).takeReturns 10).2 (.inr ⟨5, false⟩) 99 ((tLak.at 99).takeReturns 10).1 := by
  refine ⟨?_, ?_, ?_, ?_, ?_⟩ <;> first | decide +kernel | rfl

theorem witness_link_timers_complete_3 :
    (fun (s u : State) (l : SwLink ⊕ OpfEnd) (t : Nat) (r : Nat × Nat) =>
      (anyKey l < 96) ∧
      ((s.at t).lineUp (anyKey l) = true) ∧
      (s.flag OPF_GCFG_fAUDIT_EN = true) ∧
      ((s.at t).takeReturns (anyKey l) = (r, u))) tLau ((tLau.at 99).takeReturns 10).2 (.inr ⟨5, false⟩) 99 ((tLau.at 99).takeReturns 10).1 := by
  refine ⟨?_, ?_, ?_, ?_⟩ <;> first | decide +kernel | rfl

theorem witness_link_timers_complete_4 :
    (fun (s : State) (n : SLink) (t : Nat) =>
      ((s.at t).lineUp (100 + n.toNat) = true) ∧
      (s.flag (STW_LNK_CFG_fAUDIT_EN n.toNat) = true)) tLau 0 99 := by
  refine ⟨?_, ?_⟩ <;> first | decide +kernel | rfl

theorem witness_link_timers_complete_5 :
    (fun (s : State) (m : Module) (t t0 : Nat) =>
      (m.val < 48) ∧
      (NMap.get? s.links.since m.val = some t0) ∧
      ((s.at t).lineState (2 * m.val) ≠ 1 ∧ (s.at t).lineState (2 * m.val) ≠ 3) ∧
      (t0 + 100000 ≤ (s.at t).now)) tLr 5 200000 0 := by
  refine ⟨?_, ?_, ?_, ?_⟩ <;> first | decide +kernel | rfl

theorem witness_link_timers_complete_6 :
    (fun (s : State) (l : SwLink) (t t0 : Nat) =>
      (NMap.get? s.links.since (lineNo (swKey l)) = some t0) ∧
      ((s.at t).training (swKey l) = true) ∧
      (t0 + 1000000 ≤ (s.at t).now)) tLtr (.sw 0) 2000000 0 := by
  refine ⟨?_, ?_, ?_⟩ <;> first | decide +kernel | rfl

theorem witness_link_timers_complete_7 :
    (fun (s : State) (l : SwLink) (t t0 : Nat) =>
      (NMap.get? s.links.since (lineNo (swKey l)) = some t0) ∧
      ((s.at t).lineState (swKey l) = 0) ∧
      (s.mayTrainSw (swKey l) = true) ∧
      (t0 + 10000000 ≤ (s.at t).now)) tLd (.sw 0) 20000000 0 := by
  refine ⟨?_, ?_, ?_, ?_⟩ <;> first | decide +kernel | rfl

theorem witness_link_timers_complete_8 :
    (fun (s : State) (path : Path) (l : SLink) =>
      (PathWrites s path) ∧
      (s.lineUp (100 + l.toNat) = true)) tLines .monitor 0 := by
  refine ⟨?_, ?_⟩ <;> first | decide +kernel | rfl

theorem witness_link_timers_complete_9 :
    (fun (s : State) (path : Path) (l : SLink) (on : Bool) =>
      (PathWrites s path)) tLines .jtag 0 true := by
  first | decide +kernel | rfl

theorem witness_membership_packets_complete_1 :
    (fun (s : State) (l : SLink) (m : MemberRec) (t : Nat) =>
      (s.fab.fid.isSome = true) ∧
      (s.lineUp (100 + l.toNat) = true)) tRidge 0 tRec 5 := by
  refine ⟨?_, ?_⟩ <;> first | decide +kernel | rfl

theorem witness_membership_packets_complete_2 :
    (fun (s : State) (l : SLink) (x : CtlPfx) (m : MemberRec) (t : Nat) =>
      (s.fab.fid.isSome = true) ∧
      (m.id.toNat ≠ s.me) ∧
      (x.src = m.id) ∧
      (NMap.get? s.fab.members m.id.toNat = none) ∧
      (s.fab.members.length < 255)) tRidge 0 (tPfx 0x123 0x010 true) tRec 5 := by
  refine ⟨?_, ?_, ?_, ?_, ?_⟩ <;> first | decide +kernel | rfl

theorem witness_membership_packets_complete_3 :
    (fun (s : State) (l : SLink) (x : CtlPfx) (m : MemberRec) (t : Nat) (o : Member) =>
      (s.fab.fid.isSome = true) ∧
      (m.id.toNat ≠ s.me) ∧
      (x.src = m.id) ∧
      (NMap.get? s.fab.members m.id.toNat = some o) ∧
      (0 < (m.serial.toNat + 65536 - o.serial) % 65536 ∧ (m.serial.toNat + 65536 - o.serial) % 65536 < 32768)) tRidge 0 (tPfx 0x020 0x010 true) { tRec with id := 0x020, serial := 2 } 5 { tMe with links := [0] } := by
  refine ⟨?_, ?_, ?_, ?_, ?_⟩ <;> first | decide +kernel | rfl

theorem witness_membership_packets_complete_4 :
    (fun (s : State) (l : SLink) (x : CtlPfx) (id : Fid) (serial : B16) (t : Nat) (o : Member) =>
      ((s.at t).forMe 3 x = true) ∧
      (NMap.get? s.fab.members id.toNat = some o) ∧
      ((serial.toNat + 65536 - o.serial) % 65536 < 32768)) tRidge 0 (tPfx 0x020 0x010 true) 0x030 1 5 { tMe with rank := 2, links := [0] } := by
  refine ⟨?_, ?_, ?_⟩ <;> first | decide +kernel | rfl

theorem witness_membership_packets_complete_5 :
    (fun (s : State) (l : SLink) (x : CtlPfx) (ridge : Fid) (standby : Option Fid) (epoch : Word) (t : Nat) =>
      ((s.at t).forMe 4 x = true) ∧
      (s.fab.epoch < epoch.toNat ∨ s.fab.epoch = epoch.toNat ∧ s.fab.ridge.isNone)) tMem 0 (tPfx 0x020 0x030 true) 0x020 none 2 5 := by
  refine ⟨?_, ?_⟩ <;> first | decide +kernel | rfl

theorem witness_membership_packets_complete_6 :
    (fun (s : State) (l : SLink) (x : CtlPfx) (ridge : Fid) (standby : Option Fid) (epoch : Word) (t : Nat) =>
      ((s.at t).forMe 4 x = true) ∧
      (s.fab.epoch = epoch.toNat) ∧
      (s.fab.ridge = some ridge.toNat)) tMem 0 (tPfx 0x010 0x030 true) 0x010 none 1 5 := by
  refine ⟨?_, ?_, ?_⟩ <;> first | decide +kernel | rfl

theorem witness_membership_packets_complete_7 :
    (fun (s : State) (l : SLink) (x : CtlPfx) (ceiling : Byte) (routes : List (Fid × Fid × Byte)) (seq : RidgeSeq)
  (t : Nat) =>
      ((s.at t).forMe 5 x = true) ∧
      (s.fab.ridge = some x.src.toNat) ∧
      ((s.at t).met 3 x.src.toNat x.serial.toNat = false)) tMem 0 (tPfx 0x010 0x030 false) 3 [] ⟨0, some (1, 9), none⟩ 5 := by
  refine ⟨?_, ?_, ?_⟩ <;> first | decide +kernel | rfl

theorem witness_membership_packets_complete_8 :
    (fun (s : State) (l : SLink) (x : CtlPfx) (ceiling : Byte) (routes : List (Fid × Fid × Byte)) (seq : RidgeSeq)
  (t : Nat) =>
      ((s.at t).forMe 5 x = true) ∧
      (s.fab.ridge = some x.src.toNat) ∧
      ((s.at t).met 3 x.src.toNat x.serial.toNat = true)) (tMem.see 3 0x010 7) 0 (tPfx 0x010 0x030 false) 3 [] ⟨0, none, none⟩ 5 := by
  refine ⟨?_, ?_, ?_⟩ <;> first | decide +kernel | rfl

theorem witness_membership_packets_complete_9 :
    (fun (s : State) (l : SLink) (x : CtlPfx) (successor : Fid) (instant : B64) (t : Nat) =>
      ((s.at t).forMe 6 x = true) ∧
      (s.fab.ridge = some x.src.toNat)) tMem 0 (tPfx 0x010 0x030 true) 0x020 2000000 5 := by
  refine ⟨?_, ?_⟩ <;> first | decide +kernel | rfl

theorem witness_time_and_table_packets_complete_1 :
    (fun (s : State) (l : SLink) (t1 : B64) (t : Nat) =>
      (s.fab.fid.isSome = true) ∧
      (s.lineUp (100 + l.toNat) = true)) tRidge 0 5 9 := by
  refine ⟨?_, ?_⟩ <;> first | decide +kernel | rfl

theorem witness_time_and_table_packets_complete_2 :
    (fun (s : State) (c : MarkSet) (mark localTime : B64) (v off : Int) =>
      (c.crc.toNat = crc8 (leBytes 8 mark.toNat)) ∧
      (s.fab.fid.isSome = true) ∧
      (s.isRidge = false) ∧
      (s.parentLink = some c.link.toNat) ∧
      (NMap.get? s.fab.delay c.link.toNat = some v) ∧
      (off = (localTime.toNat : Int) - (mark.toNat + v / 2)) ∧
      (-4 ≤ off ∧ off ≤ 4)) tMem ⟨0, tMarkCrc 100⟩ 100 108 10 3 := by
  refine ⟨?_, ?_, ?_, ?_, ?_, ?_, ?_⟩ <;> first | decide +kernel | rfl

theorem witness_time_and_table_packets_complete_3 :
    (fun (s : State) (c : MarkSet) (mark localTime : B64) (v off : Int) =>
      (c.crc.toNat = crc8 (leBytes 8 mark.toNat)) ∧
      (s.fab.fid.isSome = true) ∧
      (s.isRidge = false) ∧
      (s.parentLink = some c.link.toNat) ∧
      (NMap.get? s.fab.delay c.link.toNat = some v) ∧
      (off = (localTime.toNat : Int) - (mark.toNat + v / 2)) ∧
      (s.fab.joined = true) ∧
      (off < -4 ∨ 4 < off)) tMem ⟨0, tMarkCrc 100⟩ 100 308 10 203 := by
  refine ⟨?_, ?_, ?_, ?_, ?_, ?_, ?_, ?_⟩ <;> first | decide +kernel | rfl

theorem witness_time_and_table_packets_complete_4 :
    (fun (s : State) (c : MarkSet) (mark localTime : B64) (v off : Int) =>
      (c.crc.toNat = crc8 (leBytes 8 mark.toNat)) ∧
      (s.fab.fid.isSome = true) ∧
      (s.isRidge = false) ∧
      (s.parentLink = some c.link.toNat) ∧
      (NMap.get? s.fab.delay c.link.toNat = some v) ∧
      (off = (localTime.toNat : Int) - (mark.toNat + v / 2)) ∧
      (s.fab.joined = false) ∧
      (off < -4 ∨ 4 < off)) (tMem.mapFab fun f => { f with joined := false }) ⟨0, tMarkCrc 100⟩ 100 308 10 203 := by
  refine ⟨?_, ?_, ?_, ?_, ?_, ?_, ?_, ?_⟩ <;> first | decide +kernel | rfl

theorem witness_time_and_table_packets_complete_5 :
    (fun (s : State) (l : SLink) (x : CtlPfx) (version : B16) (entries : List (Fid × Byte × Bool)) (t : Nat) =>
      ((s.at t).forMe 9 x = true) ∧
      (s.fab.ridge = some x.src.toNat) ∧
      ((s.at t).met 3 x.src.toNat x.serial.toNat = false)) tMem 0 (tPfx 0x010 0x030 false) 1 [(0x100, 3, false)] 5 := by
  refine ⟨?_, ?_, ?_⟩ <;> first | decide +kernel | rfl

theorem witness_time_and_table_packets_complete_6 :
    (fun (s : State) (l : SLink) (x : CtlPfx) (version : B16) (instant : B64) (t : Nat) (m : NMap (Nat × Bool)) =>
      ((s.at t).forMe 10 x = true) ∧
      (s.fab.ridge = some x.src.toNat) ∧
      (s.ports.staged = some (version.toNat, m))) (tMem.mapPorts fun p => { p with staged := some (1, []) }) 0 (tPfx 0x010 0x030 true) 1 2000000 5 [] := by
  refine ⟨?_, ?_, ?_⟩ <;> first | decide +kernel | rfl

theorem witness_time_and_table_packets_complete_7 :
    (fun (s : State) (l : SLink) (x : CtlPfx) (window : Win) (oldHome newHome : Fid) (newWin : Win) (t : Nat) =>
      ((s.at t).forMe 11 x = true) ∧
      ((s.at t).met 3 x.src.toNat x.serial.toNat = false) ∧
      (x.bcast = true)) tMem 0 (tPfx 0x010 0x030 true) 1 0x123 0x020 4 5 := by
  refine ⟨?_, ?_, ?_⟩ <;> first | decide +kernel | rfl

theorem witness_time_and_table_packets_complete_8 :
    (fun (s : State) (l : SLink) (x : CtlPfx) (window : Win) (oldHome newHome : Fid) (newWin : Win) (t : Nat) =>
      ((s.at t).forMe 11 x = true) ∧
      ((s.at t).met 3 x.src.toNat x.serial.toNat = false) ∧
      (x.bcast = false) ∧
      (s.isRidge = true)) tRidge 0 (tPfx 0x020 0x010 false) 1 0x123 0x020 4 5 := by
  refine ⟨?_, ?_, ?_, ?_⟩ <;> first | decide +kernel | rfl

theorem witness_time_and_table_packets_complete_9 :
    (fun (s : State) (l : SLink) (x : CtlPfx) (next : Byte) (instant : B64) (t : Nat) =>
      ((s.at t).forMe 12 x = true) ∧
      (s.fab.ridge = some x.src.toNat)) tMem 0 (tPfx 0x010 0x030 true) 2 60000000 5 := by
  refine ⟨?_, ?_⟩ <;> first | decide +kernel | rfl

theorem witness_acknowledgements_relays_and_notices_complete_1 :
    (fun (s : State) (l : SLink) (x : CtlPfx) (type : Byte) (serial : B16) (t : Nat) =>
      ((s.at t).forMe 13 x = true) ∧
      (type ≠ 5 ∧ type ≠ 9 ∧ type ≠ 11)) tRidge 0 (tPfx 0x020 0x010 false) 0 3 5 := by
  refine ⟨?_, ?_⟩ <;> first | decide +kernel | rfl

theorem witness_acknowledgements_relays_and_notices_complete_2 :
    (fun (s : State) (l : SLink) (x : CtlPfx) (type : Byte) (serial : B16) (t : Nat) =>
      ((s.at t).forMe 13 x = true) ∧
      (type = 5)) tRidge 0 (tPfx 0x020 0x010 false) 5 3 5 := by
  refine ⟨?_, ?_⟩ <;> first | decide +kernel | rfl

theorem witness_acknowledgements_relays_and_notices_complete_3 :
    (fun (s : State) (l : SLink) (x : CtlPfx) (type : Byte) (serial : B16) (t : Nat) =>
      ((s.at t).forMe 13 x = true) ∧
      (type = 9)) tRidge 0 (tPfx 0x020 0x010 false) 9 3 5 := by
  refine ⟨?_, ?_⟩ <;> first | decide +kernel | rfl

theorem witness_acknowledgements_relays_and_notices_complete_4 :
    (fun (s : State) (l : SLink) (x : CtlPfx) (type : Byte) (serial : B16) (t : Nat) (w : Nat) (left : List Nat) =>
      ((s.at t).forMe 13 x = true) ∧
      (type = 11) ∧
      ((s.fab.acks.any fun a => a.serial == serial.toNat && a.type == 11 && a.dst == x.src.toNat) = false) ∧
      (NMap.get? s.fab.moves serial.toNat = some (w, left))) (tRidge.mapFab fun f => { f with moves := [(3, (1, [0x020]))] }) 0 (tPfx 0x020 0x010 false) 11 3 5 1 [0x020] := by
  refine ⟨?_, ?_, ?_, ?_⟩ <;> first | decide +kernel | rfl

theorem witness_acknowledgements_relays_and_notices_complete_5 :
    (fun (s : State) (l : SLink) (x : CtlPfx) (all : Bool) (seq : Word) (pkt : List Byte) (t : Nat) =>
      (s.fab.fid.isSome = true) ∧
      ((s.at t).forMe 16 x = true) ∧
      (x.bcast = true) ∧
      ((s.at t).met 2 x.src.toNat x.serial.toNat = false)) tMem 0 (tPfx 0x020 0x030 true) true 0 tPkt 5 := by
  refine ⟨?_, ?_, ?_, ?_⟩ <;> first | decide +kernel | rfl

theorem witness_acknowledgements_relays_and_notices_complete_6 :
    (fun (s : State) (l : SLink) (x : CtlPfx) (all : Bool) (seq : Word) (pkt : List Byte) (t : Nat) =>
      (s.fab.fid.isSome = true) ∧
      (x.bcast = true) ∧
      (all = true) ∧
      (x.src.toNat = s.me) ∧
      ((s.at t).pktSchema 16 x.schema.toNat = true) ∧
      ((s.at t).met 2 x.src.toNat x.serial.toNat = false)) tMem 0 (tPfx 0x030 0x030 true) true 0 tPkt 5 := by
  refine ⟨?_, ?_, ?_, ?_, ?_, ?_⟩ <;> first | decide +kernel | rfl

theorem witness_acknowledgements_relays_and_notices_complete_7 :
    (fun (s : State) (l : SLink) (x : CtlPfx) (all : Bool) (seq : Word) (pkt : List Byte) (t : Nat) =>
      (s.fab.fid.isSome = true) ∧
      ((s.at t).forMe 16 x = true) ∧
      (x.bcast = false) ∧
      (all = false) ∧
      ((s.at t).met 3 x.src.toNat x.serial.toNat = false)) tMem 0 (tPfx 0x020 0x030 false) false 0 tPkt 5 := by
  refine ⟨?_, ?_, ?_, ?_, ?_⟩ <;> first | decide +kernel | rfl

theorem witness_acknowledgements_relays_and_notices_complete_8 :
    (fun (s : State) (l : SLink) (x : CtlPfx) (all : Bool) (seq : Word) (pkt : List Byte) (t : Nat) =>
      (s.fab.fid.isSome = true) ∧
      ((s.at t).forMe 16 x = true) ∧
      (x.bcast = false) ∧
      (all = true) ∧
      (s.isRidge = true) ∧
      ((s.at t).met 3 x.src.toNat x.serial.toNat = false)) tRidge 0 (tPfx 0x020 0x010 false) true 0 tPkt 5 := by
  refine ⟨?_, ?_, ?_, ?_, ?_, ?_⟩ <;> first | decide +kernel | rfl

theorem witness_acknowledgements_relays_and_notices_complete_9 :
    (fun (s : State) (l : SLink) (x : CtlPfx) (seq : Word) (completion : Bool) (status : B16) (bytes : List Byte) (t : Nat) =>
      ((s.at t).forMe 17 x = true)) tMem 0 (tPfx 0x020 0x030 false) 0 false 0 [] 5 := by
  first | decide +kernel | rfl

theorem witness_acknowledgements_relays_and_notices_complete_10 :
    (fun (s : State) (l : SLink) (x : CtlPfx) (kind : Byte) (body : List Byte) (t : Nat) =>
      ((s.at t).forMe 32 x = true) ∧
      ((s.at t).met 1 x.src.toNat x.serial.toNat = false) ∧
      (NMap.get? s.fab.ntcNext x.src.toNat = none)) tMem 0 (tPfx 0x020 0x030 true) 1 [] 5 := by
  refine ⟨?_, ?_, ?_⟩ <;> first | decide +kernel | rfl

theorem witness_acknowledgements_relays_and_notices_complete_11 :
    (fun (s : State) (l : SLink) (x : CtlPfx) (kind : Byte) (body : List Byte) (t : Nat) =>
      ((s.at t).forMe 32 x = true) ∧
      ((s.at t).met 1 x.src.toNat x.serial.toNat = false) ∧
      (NMap.get? s.fab.ntcNext x.src.toNat = some x.serial.toNat)) (tMem.mapFab fun f => { f with ntcNext := [(0x020, 7)] }) 0 (tPfx 0x020 0x030 true) 1 [] 5 := by
  refine ⟨?_, ?_, ?_⟩ <;> first | decide +kernel | rfl

theorem witness_acknowledgements_relays_and_notices_complete_12 :
    (fun (s : State) (l : SLink) (x : CtlPfx) (kind : Byte) (body : List Byte) (t : Nat) (e : Nat) =>
      ((s.at t).forMe 32 x = true) ∧
      ((s.at t).met 1 x.src.toNat x.serial.toNat = false) ∧
      (NMap.get? s.fab.ntcNext x.src.toNat = some e) ∧
      (x.serial.toNat ≠ e) ∧
      ((x.serial.toNat + 65536 - e) % 65536 < 32768)) (tMem.mapFab fun f => { f with ntcNext := [(0x020, 6)] }) 0 (tPfx 0x020 0x030 true) 1 [] 5 6 := by
  refine ⟨?_, ?_, ?_, ?_, ?_⟩ <;> first | decide +kernel | rfl

theorem witness_membership_and_time_timers_complete_1 :
    (fun (s : State) (t : Nat) =>
      (s.fab.fid.isSome = true) ∧
      (s.flt.st ≠ .fault)) tRidge 5 := by
  refine ⟨?_, ?_⟩ <;> first | decide +kernel | rfl

theorem witness_membership_and_time_timers_complete_2 :
    (fun (s : State) (l : SLink) (t id hops last : Nat) =>
      (NMap.get? s.fab.neigh l.toNat = some (id, hops, last)) ∧
      (last + 50000 ≤ (s.at t).now)) tMem 0 60000 0x010 0 0 := by
  refine ⟨?_, ?_⟩ <;> first | decide +kernel | rfl

theorem witness_membership_and_time_timers_complete_3 :
    (fun (s : State) (t : Nat) =>
      (s.fab.fid.isSome = true) ∧
      (s.flt.st ≠ .fault)) tRidge 5 := by
  refine ⟨?_, ?_⟩ <;> first | decide +kernel | rfl

theorem witness_membership_and_time_timers_complete_4 :
    (fun (s : State) (id : Fid) (t : Nat) (m : Member) =>
      (NMap.get? s.fab.members id.toNat = some m) ∧
      (m.last + 400000 ≤ (s.at t).now)) tMem 0x020 500000 tMe := by
  refine ⟨?_, ?_⟩ <;> first | decide +kernel | rfl

theorem witness_membership_and_time_timers_complete_5 :
    (fun (s : State) (t : Nat) =>
      (s.fab.ridge = none) ∧
      (s.fab.standby = none) ∧
      (s.quorum = true) ∧
      (s.fab.quiet + 200000 ≤ (s.at t).now) ∧
      (s.firstKey = some s.me)) (tRidge.mapFab fun f => { f with ridge := none, standby := none }) 300000 := by
  refine ⟨?_, ?_, ?_, ?_, ?_⟩ <;> first | decide +kernel | rfl

theorem witness_membership_and_time_timers_complete_6 :
    (fun (s : State) (t r : Nat) =>
      (s.fab.ridge = none) ∧
      (s.fab.standby = none) ∧
      (s.quorum = true) ∧
      (s.fab.quiet + 200000 ≤ (s.at t).now) ∧
      (s.firstKey = some r) ∧
      (r ≠ s.me)) (tMem.mapFab fun f => { f with ridge := none, standby := none }) 300000 0x010 := by
  refine ⟨?_, ?_, ?_, ?_, ?_, ?_⟩ <;> first | decide +kernel | rfl

theorem witness_membership_and_time_timers_complete_7 :
    (fun (s : State) (t : Nat) (i : Instant) =>
      (s.fab.handover = some i) ∧
      (i.t ≤ (s.at t).now) ∧
      (s.pendOf (· == Work.ridgeYield) = none) ∧
      (i.value = s.me)) (tMem.mapFab fun f => { f with handover := some ⟨5, 0x030, 0x010⟩ }) 5 ⟨5, 0x030, 0x010⟩ := by
  refine ⟨?_, ?_, ?_, ?_⟩ <;> first | decide +kernel | rfl

theorem witness_membership_and_time_timers_complete_8 :
    (fun (s : State) (t : Nat) (i : Instant) =>
      (s.fab.handover = some i) ∧
      (i.t ≤ (s.at t).now) ∧
      (s.pendOf (· == Work.ridgeYield) = none) ∧
      (i.value ≠ s.me) ∧
      (State.busyWith (State.fabSettle ((s.at t).mapFab fun f => { f with
              ridge := some i.value, standby := s.nextKey i.value, epoch := (f.epoch + 1) % 4294967296, handover := none, todo := []
              staging := none })) (· == Work.fwActivate) = false)) (tMem.mapFab fun f => { f with handover := some ⟨5, 0x020, 0x010⟩ }) 5 ⟨5, 0x020, 0x010⟩ := by
  refine ⟨?_, ?_, ?_, ?_, ?_⟩ <;> first | decide +kernel | rfl

theorem witness_membership_and_time_timers_complete_9 :
    (fun (s : State) (id : Fid) (t : Nat) (m : Member) =>
      (NMap.get? s.fab.members id.toNat = some m) ∧
      (s.isRidge = true) ∧
      (m.longEligible (s.at t).now = true) ∧
      (keyLt (m.rank, id.toNat) (s.fab.rank, s.me) = true) ∧
      (s.firstKey = some id.toNat) ∧
      (s.handoverGoes = false)) (tRidge.mapFab fun f => { f with rank := 3, members := [(0x020, { tMe with since := some 0 }), (0x030, { tMe with rank := 2 })] }) 0x020 200000000 { tMe with since := some 0 } := by
  refine ⟨?_, ?_, ?_, ?_, ?_, ?_⟩ <;> first | decide +kernel | rfl

theorem witness_membership_and_time_timers_complete_10 :
    (fun (s : State) (t : Nat) =>
      (s.fab.fid.isSome = true) ∧
      (s.fab.everLocked = true)) tRidge 5 := by
  refine ⟨?_, ?_⟩ <;> first | decide +kernel | rfl

theorem witness_membership_and_time_timers_complete_11 :
    (fun (s : State) (t : Nat) =>
      (s.fab.fid.isSome = true)) tRidge 5 := by
  first | decide +kernel | rfl

theorem witness_membership_and_time_timers_complete_12 :
    (fun (s : State) (t t0 : Nat) =>
      (s.fab.holdover = some t0) ∧
      (t0 + 1000000 ≤ (s.at t).now)) (tMem.mapFab fun f => { f with holdover := some 0 }) 1000000 0 := by
  refine ⟨?_, ?_⟩ <;> first | decide +kernel | rfl

theorem witness_membership_and_time_timers_complete_13 :
    (fun (s : State) (t t0 : Nat) =>
      (s.fab.restarting = some t0) ∧
      (t0 + 2000000000 ≤ (s.at t).now)) (tMem.mapFab fun f => { f with restarting := some 0 }) 2000000000 0 := by
  refine ⟨?_, ?_⟩ <;> first | decide +kernel | rfl

theorem witness_instants_and_packet_timers_complete_1 :
    (fun (s u : State) (t : Nat) (i : Instant) (m : NMap (Nat × Bool)) =>
      (s.fab.routeT = some i) ∧
      (s.ports.staged = some (i.value, m)) ∧
      (i.t ≤ (s.at t).now) ∧
      (s.timeLocked = true) ∧
      (u = ((((s.at t).mapPorts fun p => { p with route := m, routeVer := i.value, staged := none }).mapFab fun f => { f with
            routeT := none }).reroute)) ∧
      (u.pendOf (· == Work.routeSet) = none)) tAct (((tAct.at 5).mapPorts fun p => { p with route := [(0x100, (3, false))], routeVer := 1, staged := none }).mapFab fun f => { f with routeT := none }).reroute 5 ⟨5, 1, 0x010⟩ [(0x100, (3, false))] := by
  refine ⟨?_, ?_, ?_, ?_, ?_, ?_⟩ <;> first | decide +kernel | rfl

theorem witness_instants_and_packet_timers_complete_2 :
    (fun (s u : State) (t : Nat) (i : Instant) (m : NMap (Nat × Bool)) (p : Pend) =>
      (s.fab.routeT = some i) ∧
      (s.ports.staged = some (i.value, m)) ∧
      (i.t ≤ (s.at t).now) ∧
      (s.timeLocked = true) ∧
      (u = ((((s.at t).mapPorts fun p => { p with route := m, routeVer := i.value, staged := none }).mapFab fun f => { f with
            routeT := none }).reroute)) ∧
      (u.pendOf (· == Work.routeSet) = some p)) (tAct.mapCmds fun c => { c with pend := [{ tP with work := .routeSet, res := none }] }) ((((tAct.mapCmds fun c => { c with pend := [{ tP with work := .routeSet, res := none }] }).at 5).mapPorts fun p => { p with route := [(0x100, (3, false))], routeVer := 1, staged := none }).mapFab fun f => { f with routeT := none }).reroute 5 ⟨5, 1, 0x010⟩ [(0x100, (3, false))] { tP with work := .routeSet, res := none } := by
  refine ⟨?_, ?_, ?_, ?_, ?_, ?_⟩ <;> first | decide +kernel | rfl

theorem witness_instants_and_packet_timers_complete_3 :
    (fun (s : State) (t : Nat) (i : Instant) =>
      (s.fab.schemaPend = some i) ∧
      (i.t ≤ (s.at t).now) ∧
      (s.fab.ownMin ≤ i.value ∧ i.value ≤ s.fab.ownMax) ∧
      (s.timeLocked = true) ∧
      (s.pendOf (· == Work.schemaSet) = none) ∧
      (s.isRidge = false)) (tMem.mapFab fun f => { f with schemaPend := some ⟨5, 2, 0x010⟩ }) 5 ⟨5, 2, 0x010⟩ := by
  refine ⟨?_, ?_, ?_, ?_, ?_, ?_⟩ <;> first | decide +kernel | rfl

theorem witness_instants_and_packet_timers_complete_4 :
    (fun (s : State) (src : Fid) (serial : B16) (t : Nat) (old : List (Nat × Nat × Nat × Nat × List Nat)) =>
      ((s.fab.reasm.filter fun r => r.1 == src.toNat && r.2.1 == serial.toNat && r.2.2.2.1 + 1000000 ≤ (s.at t).now) = old) ∧
      (old ≠ [])) (tMem.mapFab fun f => { f with reasm := [tRe] }) 0x020 3 1000000 [tRe] := by
  refine ⟨?_, ?_⟩ <;> first | decide +kernel | rfl

theorem witness_instants_and_packet_timers_complete_5 :
    (fun (s : State) (serial : B16) (t : Nat) (a : AckWait) =>
      ((s.fab.acks.filter fun a => a.serial == serial.toNat && a.t + 2000000 ≤ (s.at t).now) = [a])) (tRidge.mapFab fun f => { f with acks := [tAw] }) 3 2000000 tAw := by
  first | decide +kernel | rfl

theorem witness_instants_and_packet_timers_complete_6 :
    (fun (s : State) (seq : Word) (t i : Nat) (r : Relay) (t0 : Option Nat) =>
      ((s.fab.relays.find? fun r => r.n == seq.toNat) = some r) ∧
      (r.late (s.at t).now = [(i, t0)])) tRel 0 100000000 0x123 { n := 0, all := false, seq := some 0, open_ := [(0x123, some 0)], pkt := tPkt } (some 0) := by
  refine ⟨?_, ?_⟩ <;> first | decide +kernel | rfl

theorem witness_instants_and_packet_timers_complete_7 :
    (fun (s : State) (t : Nat) (h : Nat × Nat × Nat × Nat × List Byte) =>
      ((s.fab.heldRelay.filter fun h => h.2.2.2.1 + 100000000 ≤ (s.at t).now) = [h])) (tMem.mapFab fun f => { f with heldRelay := [(0x020, 4, 0x020, 0, tPkt)] }) 100000000 (0x020, 4, 0x020, 0, tPkt) := by
  first | decide +kernel | rfl

theorem witness_instants_and_packet_timers_complete_8 :
    (fun (s : State) (origin : Fid) (t e gap : Nat) (y : Nat × Nat × Nat × Nat × List Byte) =>
      ((s.fab.ntcHeld.find? fun h => h.1 == origin.toNat && h.2.2.1 + 10000000 ≤ (s.at t).now) = some y) ∧
      (NMap.get? s.fab.ntcNext origin.toNat = some e) ∧
      ((s.fab.ntcHeld.filter fun h => h.1 == origin.toNat).foldl (fun g h => Nat.min g ((h.2.1 + 65536 - e) % 65536)) 65535 = gap)) (tMem.mapFab fun f => { f with ntcNext := [(0x020, 6)], ntcHeld := [(0x020, 8, 0, 1, [])] }) 0x020 10000000 6 2 (0x020, 8, 0, 1, []) := by
  refine ⟨?_, ?_, ?_⟩ <;> first | decide +kernel | rfl

theorem witness_doorway_presence_and_pins_complete_1 :
    (fun (s : State) (ch : Dch) (t x : Nat) =>
      ((s.dch ch.toNat).cntT = some x) ∧
      ((s.dch ch.toNat).prsHigh = false) ∧
      (x + dwNat (s.dch ch.toNat).par 14 * 1000000 ≤ (s.at t).now) ∧
      ((s.dch ch.toNat).present = false)) tCnt 3 2000000000 0 := by
  refine ⟨?_, ?_, ?_, ?_⟩ <;> first | decide +kernel | rfl

theorem witness_doorway_presence_and_pins_complete_2 :
    (fun (s : State) (ch : Dch) (t x : Nat) =>
      ((s.dch ch.toNat).cntT = some x) ∧
      ((s.dch ch.toNat).prsHigh = false) ∧
      (x + dwNat (s.dch ch.toNat).par 14 * 1000000 ≤ (s.at t).now) ∧
      ((s.dch ch.toNat).present = true)) (tCnt.mapDch 3 fun c => { c with present := true }) 3 2000000000 0 := by
  refine ⟨?_, ?_, ?_, ?_⟩ <;> first | decide +kernel | rfl

theorem witness_doorway_presence_and_pins_complete_3 :
    (fun (s : State) (ch : Dch) (t : Nat) =>
      ((s.dch ch.toNat).prsHigh = false) ∧
      ((s.dch ch.toNat).present = true) ∧
      (s.mod48Up = true)) (tDw 2) 3 5 := by
  refine ⟨?_, ?_, ?_⟩ <;> first | decide +kernel | rfl

theorem witness_doorway_presence_and_pins_complete_4 :
    (fun (s : State) (path : Path) (ch : Dch) (on : Bool) (t : Nat) =>
      (PathWrites (s.at t) path)) tUp .jtag 3 true 5 := by
  first | decide +kernel | rfl

theorem witness_doorway_presence_and_pins_complete_5 :
    (fun (s : State) (t : Nat) =>
      (s.mod48Up = false)) (tUp.setFld DWY_STAT_fLINK 0) 5 := by
  first | decide +kernel | rfl

theorem witness_doorway_timers_and_model_complete_1 :
    (fun (s : State) (ch : Dch) (t : Nat) =>
      ((s.dch ch.toNat).st = 3 ∨ (s.dch ch.toNat).st = 4) ∧
      (dwNat (s.dch ch.toNat).par 12 * 1000000 ≤ (s.dch ch.toNat).faultNs (s.at t).now)) (tFt 3) 3 1000000000 := by
  refine ⟨?_, ?_⟩ <;> first | decide +kernel | rfl

theorem witness_doorway_timers_and_model_complete_2 :
    (fun (s : State) (ch : Dch) (t : Nat) =>
      ((s.dch ch.toNat).st = 5 ∨ (s.dch ch.toNat).st = 6) ∧
      (dwNat (s.dch ch.toNat).par 13 * 100000 ≤ (s.dch ch.toNat).faultNs (s.at t).now)) (tFt 6) 3 1000000000 := by
  refine ⟨?_, ?_⟩ <;> first | decide +kernel | rfl

theorem witness_doorway_timers_and_model_complete_3 :
    (fun (s : State) (ch : Dch) (t : Nat) =>
      ((s.dch ch.toNat).st = 3 ∨ (s.dch ch.toNat).st = 4) ∧
      ((s.dch ch.toNat).rampT + ((s.dch ch.toNat).rampV * 100000 / dwNat (s.dch ch.toNat).par 4 + dwNat (s.dch ch.toNat).par 9 * 1000000) ≤ (s.at t).now)) (tFt 4) 3 1000000000 := by
  refine ⟨?_, ?_⟩ <;> first | decide +kernel | rfl

theorem witness_doorway_timers_and_model_complete_4 :
    (fun (s : State) (ch : Dch) (t x : Nat) =>
      ((s.dch ch.toNat).st = 4) ∧
      ((s.dch ch.toNat).vgsT = some x) ∧
      (x + 1000000 ≤ (s.at t).now) ∧
      ((s.dch ch.toNat).ilim = false) ∧
      (s.mod48Up = true)) ((tDw 4).mapDch 3 fun c => { c with vgsT := some 0, ilim := false }) 3 1000000 0 := by
  refine ⟨?_, ?_, ?_, ?_, ?_⟩ <;> first | decide +kernel | rfl

theorem witness_doorway_timers_and_model_complete_5 :
    (fun (s : State) (ch : Dch) (t : Nat) =>
      ((s.dch ch.toNat).st = 5) ∧
      (s.mod48Up = true) ∧
      ((s.dch ch.toNat).pgT + dwNat (s.dch ch.toNat).par 11 * 1000000 ≤ (s.at t).now)) (tDw 5) 3 1000000000 := by
  refine ⟨?_, ?_, ?_⟩ <;> first | decide +kernel | rfl

theorem witness_doorway_timers_and_model_complete_6 :
    (fun (s : State) (ch : Dch) (t e : Nat) =>
      ((s.dch ch.toNat).off = some e) ∧
      (e ≤ (s.at t).now)) ((tDw 2).mapDch 3 fun c => { c with off := some 5 }) 3 5 5 := by
  refine ⟨?_, ?_⟩ <;> first | decide +kernel | rfl

theorem witness_transports_and_register_accesses_complete_1 :
    (fun (s : State) (ring : BitVec 2) (value : Word) (pkts : List (List Byte)) =>
      (s.ep.mse = true ∧ s.ep.d3 = false) ∧
      (value.toNat < 2 ^ s.fld (CMD_RNG_CFG_fSIZE ring.toNat)) ∧
      (s.flag (CMD_RNG_CFG_fEN ring.toNat) = true)) tRng 0 1 [tPkt] := by
  refine ⟨?_, ?_, ?_⟩ <;> first | decide +kernel | rfl

theorem witness_transports_and_register_accesses_complete_2 :
    (fun (s : State) (ring : BitVec 2) (value : Word) (pkts : List (List Byte)) =>
      (s.ep.mse = true ∧ s.ep.d3 = false) ∧
      (value.toNat < 2 ^ s.fld (CMD_RNG_CFG_fSIZE ring.toNat)) ∧
      (s.flag (CMD_RNG_CFG_fEN ring.toNat) = false)) tEp 0 1 [] := by
  refine ⟨?_, ?_, ?_⟩ <;> first | decide +kernel | rfl

theorem witness_transports_and_register_accesses_complete_3 :
    (fun (s : State) (ring : BitVec 2) (value : Word) (pkts : List (List Byte)) =>
      (s.ep.mse = true ∧ s.ep.d3 = false) ∧
      (2 ^ s.fld (CMD_RNG_CFG_fSIZE ring.toNat) ≤ value.toNat)) tEp 0 4096 [] := by
  refine ⟨?_, ?_⟩ <;> first | decide +kernel | rfl

theorem witness_transports_and_register_accesses_complete_4 :
    (fun (s : State) (path : Path) (ring : BitVec 2) (on : Bool) =>
      (PathWrites s path) ∧
      (s.flag (CMD_RNG_CFG_fEN ring.toNat) ≠ on)) tEp .endpoint 0 true := by
  refine ⟨?_, ?_⟩ <;> first | decide +kernel | rfl

theorem witness_transports_and_register_accesses_complete_5 :
    (fun (s : State) (i : Nat) (p : Packet) =>
      (s.hearthCheck = (false, s)) ∧
      (s.nextTransport = some (i, p)) ∧
      (4 ≤ i ∨ p.bytes ≠ [])) tMbx 4 ⟨tPkt, none⟩ := by
  refine ⟨?_, ?_, ?_⟩ <;> first | decide +kernel | rfl

theorem witness_transports_and_register_accesses_complete_6 :
    (fun (s : State) (i : Nat) (p : Packet) =>
      (s.hearthCheck = (false, s)) ∧
      (s.nextTransport = some (i, p)) ∧
      (i < 4 ∧ p.bytes = [])) tRngE 0 ⟨[], none⟩ := by
  refine ⟨?_, ?_, ?_⟩ <;> first | decide +kernel | rfl

theorem witness_transports_and_register_accesses_complete_7 :
    (fun (s : State) (w : B64) (ws : List B64) =>
      (s.ep.mse = true ∧ s.ep.d3 = false) ∧
      (s.evtReady ≠ 0) ∧
      (s.cmds.fifo = w :: ws) ∧
      (s.checkOnce { checker := 0x1500 } = (false, s))) (tEvt 0xC000000000000000 []) 0xC000000000000000 [] := by
  refine ⟨?_, ?_, ?_, ?_⟩ <;> first | decide +kernel | rfl

theorem witness_transports_and_register_accesses_complete_8 :
    (fun (s : State) (value : Word) =>
      (s.ep.mse = true ∧ s.ep.d3 = false) ∧
      (value.getLsbD 0 = true)) tEp 1 := by
  refine ⟨?_, ?_⟩ <;> first | decide +kernel | rfl

theorem witness_transports_and_register_accesses_complete_9 :
    (fun (s : State) (path : Path) (off size : Nat) (value : Word) =>
      (PathWrites s path) ∧
      (size = 4 ∧ off % 4 = 0)) tEp .endpoint 0 4 0 := by
  refine ⟨?_, ?_⟩ <;> first | decide +kernel | rfl

theorem witness_transports_and_register_accesses_complete_10 :
    (fun (s : State) (path : Path) (off size : Nat) (value : Word) =>
      (PathWrites s path) ∧
      (size ≠ 4 ∨ off % 4 ≠ 0)) tEp .endpoint 1 4 0 := by
  refine ⟨?_, ?_⟩ <;> first | decide +kernel | rfl

theorem witness_transports_and_register_accesses_complete_11 :
    (fun (s : State) (path : Path) (off : Nat) =>
      (path ≠ .endpoint ∨ s.ep.mse = true ∧ s.ep.d3 = false) ∧
      (off % 4 = 0)) tEp .endpoint 0 := by
  refine ⟨?_, ?_⟩ <;> first | decide +kernel | rfl

theorem witness_hold_up_commands_complete_1 :
    (fun (s : State) (t : Nat) =>
      ((s.at t).newBudget.grantsHeld = true) ∧
      ((s.at t).newBudget.allDirty ≤ (s.at t).rawBudget (s.at t).newBudget.pan.par)) (tUp.mapPan fun p => { p with pfw := true }) 5 := by
  refine ⟨?_, ?_⟩ <;> first | decide +kernel | rfl

theorem witness_hold_up_commands_complete_2 :
    (fun (s : State) (t : Nat) =>
      ((s.at t).rawBudget (s.at t).newBudget.pan.par < (s.at t).newBudget.allDirty)) tDty 5 := by
  first | decide +kernel | rfl

theorem witness_hold_up_commands_complete_3 :
    (fun (s : State) (t : Nat) =>
      ((s.at t).newBudget.grantsHeld = false) ∧
      ((s.at t).newBudget.allDirty ≤ (s.at t).rawBudget (s.at t).newBudget.pan.par)) tUp 5 := by
  refine ⟨?_, ?_⟩ <;> first | decide +kernel | rfl

theorem witness_hold_up_commands_complete_4 :
    (fun (s : State) (mv10 : B16) (t : Nat) =>
      (s.pan.flush = none)) tUp 1200 5 := by
  first | decide +kernel | rfl

theorem witness_hold_up_commands_complete_5 :
    (fun (s : State) (mv10 : B16) (t : Nat) (f : Flush) =>
      (s.pan.flush = some f) ∧
      (f.vstop = none) ∧
      (mv10.toNat * 10 < (hpOf s.pan.par 2).getD 0)) (tFlu.mapPan fun p => { p with par := [(2, 5000)] }) 10 5 tFf := by
  refine ⟨?_, ?_, ?_⟩ <;> first | decide +kernel | rfl

theorem witness_hold_up_commands_complete_6 :
    (fun (s : State) (t : Nat) =>
      ((s.at t).senseFault = true)) tUp 200000 := by
  first | decide +kernel | rfl

theorem witness_hold_up_commands_complete_7 :
    (fun (s : State) (t : Nat) =>
      (s.pwr.st ≠ .reset ∧ s.pwr.st ≠ .warmBoot) ∧
      (s.pan.flushDone = false ∧ s.pan.flush = none) ∧
      (s.flt.st = .normal ∨ s.hbmKeep = true)) tUp 5 := by
  refine ⟨?_, ?_, ?_⟩ <;> first | decide +kernel | rfl

theorem witness_hold_up_commands_complete_8 :
    (fun (s : State) (t : Nat) =>
      (s.pwr.st ≠ .reset ∧ s.pwr.st ≠ .warmBoot) ∧
      (s.pan.flushDone = false ∧ s.pan.flush = none) ∧
      (s.flt.st ≠ .normal ∧ s.hbmKeep = false)) (tUp.mapFlt fun f => { f with st := .fault, allKeep := false }) 5 := by
  refine ⟨?_, ?_, ?_⟩ <;> first | decide +kernel | rfl

theorem witness_hold_up_commands_complete_9 :
    (fun (s : State) (t : Nat) =>
      (s.pwr.st ≠ .reset) ∧
      (s.pan.flushDone = true ∨ s.pan.flush.isSome = true)) tFlu 5 := by
  refine ⟨?_, ?_⟩ <;> first | decide +kernel | rfl

theorem witness_hold_up_commands_complete_10 :
    (fun (s : State) (t : Nat) =>
      (s.pwr.st = .warmBoot) ∧
      (s.pan.flushDone = false ∧ s.pan.flush = none)) (tUp.mapPwr fun p => { p with st := .warmBoot }) 5 := by
  refine ⟨?_, ?_⟩ <;> first | decide +kernel | rfl

theorem witness_hold_up_commands_complete_11 :
    (fun (s : State) (t : Nat) (f : Flush) =>
      (s.pan.flush = some f) ∧
      ((s.home.memq.any fun r => r.use == .clean true) = false)) tFlu 5 tFf := by
  refine ⟨?_, ?_⟩ <;> first | decide +kernel | rfl

theorem witness_hold_up_commands_complete_12 :
    (fun (s : State) (t d : Nat) (f : Flush) =>
      (s.pan.flush = some f) ∧
      (f.vstop = some d) ∧
      (d ≤ (s.at t).now)) (tFlu.mapPan fun p => { p with flush := some { tFf with vstop := some 5 } }) 5 5 { tFf with vstop := some 5 } := by
  refine ⟨?_, ?_, ?_⟩ <;> first | decide +kernel | rfl

theorem witness_hold_up_commands_complete_13 :
    (fun (s : State) (t : Nat) =>
      (s.pan.flushDone = true)) (tUp.mapPan fun p => { p with flushDone := true }) 5 := by
  first | decide +kernel | rfl

theorem witness_fault_and_reset_commands_complete_1 :
    (fun (s : State) (path : Path) (checker : B16) =>
      (PathWrites s path) ∧
      (s.mayArm checker.toNat 1 = true) ∧
      (canInject checker.toNat = true)) tUp .jtag 0x0300 := by
  refine ⟨?_, ?_, ?_⟩ <;> first | decide +kernel | rfl

theorem witness_fault_and_reset_commands_complete_2 :
    (fun (s : State) (path : Path) (checker : B16) =>
      (PathWrites s path) ∧
      (s.mayArm checker.toNat 2 = true) ∧
      (canInject checker.toNat = true)) tUp .jtag 0x0300 := by
  refine ⟨?_, ?_, ?_⟩ <;> first | decide +kernel | rfl

theorem witness_fault_and_reset_commands_complete_3 :
    (fun (s : State) (path : Path) (checker : B16) =>
      (PathWrites s path) ∧
      (s.lifecycle ≠ 2)) tUp .jtag 0x0300 := by
  refine ⟨?_, ?_⟩ <;> first | decide +kernel | rfl

theorem witness_fault_and_reset_commands_complete_4 :
    (fun (s : State) (t : Nat) =>
      (s.pwr.st = .run)) tUp 5 := by
  first | decide +kernel | rfl

theorem witness_fault_and_reset_commands_complete_5 :
    (fun (s : State) (t : Nat) =>
      ((s.at t).sweepCleans.drainOver = true) ∧
      (s.pwr.st ≠ .warmDrain) ∧
      (s.flt.st = .drain)) (tUp.mapFlt fun f => { f with st := .drain }) 5 := by
  refine ⟨?_, ?_, ?_⟩ <;> first | decide +kernel | rfl

theorem witness_fault_and_reset_commands_complete_6 :
    (fun (s : State) (t : Nat) =>
      ((s.at t).sweepCleans.drainOver = true) ∧
      (s.pwr.st = .warmDrain)) tWd 5 := by
  refine ⟨?_, ?_⟩ <;> first | decide +kernel | rfl

theorem witness_fault_and_reset_commands_complete_7 :
    (fun (s : State) (t : Nat) =>
      (s.pwr.st ≠ .warmDrain) ∧
      (s.flt.st = .drain) ∧
      (s.flt.drainT + s.fld FLT_CFG_fDRAIN_TMO * 1000000 ≤ (s.at t).now)) (tUp.mapFlt fun f => { f with st := .drain }) 1000000000000 := by
  refine ⟨?_, ?_, ?_⟩ <;> first | decide +kernel | rfl

theorem witness_fault_and_reset_commands_complete_8 :
    (fun (s : State) (t : Nat) =>
      (s.pwr.st = .warmDrain) ∧
      (s.flt.st = .normal ∧ s.flt.limit = false) ∧
      (s.pwr.t0 + s.fld FLT_CFG_fDRAIN_TMO * 1000000 ≤ (s.at t).now) ∧
      ((s.at t).drainLimit.pan.flush = none)) tWd 1000000000000 := by
  refine ⟨?_, ?_, ?_, ?_⟩ <;> first | decide +kernel | rfl

theorem witness_fault_and_reset_commands_complete_9 :
    (fun (s : State) (path : Path) (value : Word) (t : Nat) =>
      (PathWrites (s.at t) path) ∧
      (value.getLsbD 0 = true ∧ bitsOf value.toNat 8 8 = 0xA5)) tUp .jtag 0xA501 5 := by
  refine ⟨?_, ?_⟩ <;> first | decide +kernel | rfl

theorem witness_start_up_clocks_and_rails_complete_1 :
    (fun (s : State) (ehrec : List Byte) (slotOk : Bool × Bool) (strap : BitVec 2) =>
      (s.pwr.st = .reset ∧ s.pwr.released = false) ∧
      (s.flag CKP_CLK_STAT_fA_OK = true ∨ s.flag CKP_CLK_STAT_fB_OK = true)) (State.reset.setFld CKP_CLK_STAT_fA_OK 1) [] (true, true) 0 := by
  refine ⟨?_, ?_⟩ <;> first | decide +kernel | rfl

theorem witness_start_up_clocks_and_rails_complete_2 :
    (fun (s : State) (t : Nat) (version : Word) (ownMin ownMax : Byte) =>
      (s.pwr.st = .cold)) (tUp.mapPwr fun p => { p with st := .cold }) 5 1 1 3 := by
  first | decide +kernel | rfl

theorem witness_start_up_clocks_and_rails_complete_3 :
    (fun (s : State) (t : Nat) (version : Word) (ownMin ownMax : Byte) =>
      (s.pwr.st = .warmBoot)) (tUp.mapPwr fun p => { p with st := .warmBoot }) 5 1 1 3 := by
  first | decide +kernel | rfl

theorem witness_start_up_clocks_and_rails_complete_4 :
    (fun (s : State) (b : Bool) (t : Nat) =>
      (s.pwr.st ≠ .reset) ∧
      (((s.at t).setFld (clkOk b) 0).flag CKP_CLK_STAT_fSEL = b) ∧
      (s.flag (clkOk b) = true) ∧
      (((s.at t).setFld (clkOk b) 0).flag (clkOk !b) = true)) tClk false 5 := by
  refine ⟨?_, ?_, ?_, ?_⟩ <;> first | decide +kernel | rfl

theorem witness_start_up_clocks_and_rails_complete_5 :
    (fun (s : State) (b : Bool) (t : Nat) =>
      (s.pwr.st ≠ .reset) ∧
      (((s.at t).setFld (clkOk b) 0).flag CKP_CLK_STAT_fSEL = b) ∧
      (s.flag (clkOk b) = true) ∧
      (((s.at t).setFld (clkOk b) 0).flag (clkOk !b) = false) ∧
      (s.cmds.hearthUp = true)) (tClk.setFld CKP_CLK_STAT_fB_OK 0) false 5 := by
  refine ⟨?_, ?_, ?_, ?_, ?_⟩ <;> first | decide +kernel | rfl

theorem witness_start_up_clocks_and_rails_complete_6 :
    (fun (s : State) (b : Bool) =>
      (s.pwr.st ≠ .reset)) tUp true := by
  first | decide +kernel | rfl

theorem witness_start_up_clocks_and_rails_complete_7 :
    (fun (s : State) (b : Bool) =>
      (s.pwr.st = .reset ∧ s.pwr.released = true)) (State.reset.mapPwr fun p => { p with released := true }) true := by
  first | decide +kernel | rfl

theorem witness_start_up_clocks_and_rails_complete_8 :
    (fun (s : State) (path : Path) =>
      (PathWrites s path) ∧
      (s.flag (clkOk !s.flag CKP_CLK_STAT_fSEL) = true)) tClk .jtag := by
  refine ⟨?_, ?_⟩ <;> first | decide +kernel | rfl

theorem witness_start_up_clocks_and_rails_complete_9 :
    (fun (s : State) (x : BitVec 6) (t : Nat) =>
      (x.toNat ≤ 32)) tUp 3 5 := by
  first | decide +kernel | rfl

theorem witness_start_up_clocks_and_rails_complete_10 :
    (fun (s : State) (inRange : BitVec 9) =>
      (s.pwr.released = true) ∧
      ((List.range 9).any (fun i => bitOf (s.fld CKP_RAIL_STAT_fIN_RANGE) i && !inRange.getLsbD i) = true)) ((tUp.mapPwr fun p => { p with released := true }).setFld CKP_RAIL_STAT_fIN_RANGE 511) 510 := by
  refine ⟨?_, ?_⟩ <;> first | decide +kernel | rfl

theorem witness_start_up_clocks_and_rails_complete_11 :
    (fun (s : State) (measured : BitVec 10) =>
      (s.flag CKP_AVS_fEN = true) ∧
      (s.pwr.st = .run) ∧
      (s.pwr.avsFail = false)) (tUp.setReg CKP_AVS_fEN.off (BitVec.ofNat 32 (2 ^ CKP_AVS_fEN.lo))) 740 := by
  refine ⟨?_, ?_, ?_⟩ <;> first | decide +kernel | rfl

theorem witness_start_up_clocks_and_rails_complete_12 :
    (fun (s : State) (acked differs : Bool) (measured : BitVec 10) =>
      (s.flag CKP_AVS_fEN = true) ∧
      (s.pwr.st = .run) ∧
      (s.pwr.avsFail = false) ∧
      (acked = false ∨ differs = true)) (tUp.setReg CKP_AVS_fEN.off (BitVec.ofNat 32 (2 ^ CKP_AVS_fEN.lo))) false false 740 := by
  refine ⟨?_, ?_, ?_, ?_⟩ <;> first | decide +kernel | rfl

theorem witness_start_up_clocks_and_rails_complete_13 :
    (fun (s : State) (t : Nat) (b : Bool) =>
      (s.pwr.st = .restart) ∧
      (s.pwr.previous = some b) ∧
      (s.pwr.t0 + 2000000000 ≤ (s.at t).now)) (tUp.mapPwr fun p => { p with st := .restart, previous := some true, t0 := 0 }) 2000000000 true := by
  refine ⟨?_, ?_, ?_⟩ <;> first | decide +kernel | rfl

theorem witness_start_up_clocks_and_rails_complete_14 :
    (fun (s : State) (t : Nat) =>
      (s.pwr.st = .restart)) (tUp.mapPwr fun p => { p with st := .restart }) 5 := by
  first | decide +kernel | rfl

theorem witness_start_up_clocks_and_rails_complete_15 :
    (fun (s : State) (port : Port) =>
      (s.busyWith (· == .poolAdopt port.toNat) = true)) tPa 3 := by
  first | decide +kernel | rfl

theorem witness_step_runs_the_front_command_1 :
    (fun (s : State) (c : Instr) (rest : List Instr) =>
      (s.pending = c :: rest)) { tUp with pending := [.eventPosted] } .eventPosted [] := by
  first | decide +kernel | rfl

theorem witness_step_runs_the_front_command_2 :
    (fun (s : State) =>
      (s.pending = [])) tUp := by
  first | decide +kernel | rfl

theorem witness_every_step_keeps_memory_canonical :
    (fun (s t : State) =>
      (MemInv s) ∧
      (step s = .next t)) { tUp with pending := [.poweredHour] } ((tUp.mapPwr fun p => { p with hours := p.hours + 1 }).mapPan fun p => { p with calHours := p.calHours + 1 }) := by
  refine ⟨?_, ?_⟩ <;> first | decide +kernel | rfl

theorem witness_packet_decodes_to_its_row :
    (fun (i : Instr) (h : Hdr) (c : Cmd) =>
      (rowCmd i = some (h, c)) ∧
      (i.wf = true)) (.portRole tH 3 1) tH (cmdPortRole 3 1) := by
  refine ⟨?_, ?_⟩ <;> first | decide +kernel | rfl

theorem witness_hearth_turn_runs_the_packet_of_a_row_1 :
    (fun (i : Instr) (h : Hdr) (c : Cmd) =>
      (rowCmd i = some (h, c)) ∧
      (i.wf = true) ∧
      ((rowParams i).length % 4 = 0)) (.portRole tH 3 1) tH (cmdPortRole 3 1) := by
  refine ⟨?_, ?_, ?_⟩ <;> first | decide +kernel | rfl

theorem witness_hearth_turn_runs_the_packet_of_a_row_2 :
    (fun (s : State) (i : Instr) (h : Hdr) (c : Cmd) (k : Nat) =>
      (rowCmd i = some (h, c)) ∧
      (i.wf = true) ∧
      ((rowParams i).length % 4 = 0) ∧
      (h.src = transport k) ∧
      (s.hearthCheck = (false, s)) ∧
      (s.nextTransport = some (k, ⟨packetOf h i, none⟩))) tMbr (.portRole tHm 3 1) tHm (cmdPortRole 3 1) 4 := by
  refine ⟨?_, ?_, ?_, ?_, ?_, ?_⟩ <;> first | decide +kernel | rfl

theorem witness_dermel_commands_are_answered_1 :
    (fun (s : State) (i : Instr) (h : Hdr) (c : Cmd) =>
      (rowCmd i = some (h, c)) ∧
      (s.takes h = false)) State.reset (.portRole tH 3 1) tH (cmdPortRole 3 1) := by
  refine ⟨?_, ?_⟩ <;> first | decide +kernel | rfl

theorem witness_dermel_commands_are_answered_2 :
    (fun (s : State) (i : Instr) (h : Hdr) (c : Cmd) (st : Status) (d : Nat) =>
      (rowCmd i = some (h, c)) ∧
      (s.takes h = true) ∧
      (s.checkCmd h c = some (st, d))) tUp (.portRole { tH with bankV := true } 3 1) { tH with bankV := true } (cmdPortRole 3 1) .badParam 0xFFFF := by
  refine ⟨?_, ?_, ?_⟩ <;> first | decide +kernel | rfl

theorem witness_dermel_commands_are_answered_3 :
    (fun (s : State) (i : Instr) (h : Hdr) (c : Cmd) (st : Status) (d : Nat) =>
      (rowCmd i = some (h, c)) ∧
      (s.accepts h c = true) ∧
      (c.run s = .refuse st d)) tUp (.ridgeYield tH) tH cmdRidgeYield .busy 0 := by
  refine ⟨?_, ?_, ?_⟩ <;> first | decide +kernel | rfl

theorem witness_dermel_commands_are_answered_4 :
    (fun (s : State) (i : Instr) (h : Hdr) (c : Cmd) =>
      (rowCmd i = some (h, c)) ∧
      (s.takes h = true)) tUp (.portRole tH 3 1) tH (cmdPortRole 3 1) := by
  refine ⟨?_, ?_⟩ <;> first | decide +kernel | rfl

theorem witness_queries_change_nothing :
    (fun (s : State) (i : Instr) (h : Hdr) (c : Cmd) =>
      (rowCmd i = some (h, c)) ∧
      (c.opcode ∈ [0x0101, 0x0102, 0x0205, 0x0207, 0x0210, 0x0307, 0x0312, 0x0403, 0x0412, 0x0440, 0x0452, 0x0460, 0x0502, 0x0505, 0x0602, 0x0611, 0x0613, 0x0704,
              0x0711, 0x0803, 0x0901, 0x0906, 0x0a01, 0x0a02, 0x0a03, 0x0a07, 0x0b01, 0x0b06, 0x0c02, 0x0c11, 0x0c21]) ∧
      ((c.opcode = 0x0901 → s.fld FLT_INJ_CTL_fCHECKER ≠ 0x1500))) tUp (.portQuery tH 3) tH (cmdPortQuery 3) := by
  refine ⟨?_, ?_, ?_⟩ <;> first | decide +kernel | rfl

theorem witness_header_flags_follow_the_table_1 :
    (fun (i : Instr) (h : Hdr) (c : Cmd) =>
      (rowCmd i = some (h, c))) (.portRole tH 3 1) tH (cmdPortRole 3 1) := by
  first | decide +kernel | rfl

theorem witness_header_flags_follow_the_table_2 :
    (fun (s : State) (i : Instr) (h : Hdr) (c : Cmd) =>
      (rowCmd i = some (h, c)) ∧
      (s.takes h = true) ∧
      (s.checkFirst c.opcode h.schema.toNat = none) ∧
      (s.lockOk h.src h.room.toNat = true ∧ (h.room = 0 ∨ c.room s h.room.toNat = true)) ∧
      ((s.cmds.pend.any fun p => p.src == h.src && p.tag == h.tag) = false) ∧
      (h.bankV ≠ decide (c.opcode ∈ [0x0501, 0x0502, 0x0610, 0x0611, 0x0b02, 0x0b03, 0x0b04]) ∨
            h.force = true ∧ c.opcode ∉ [0x0421, 0x0431] ∨ h.invalidate = true ∧ c.opcode ≠ 0x0c12)) tUp (.portRole { tH with force := true } 3 1) { tH with force := true } (cmdPortRole 3 1) := by
  refine ⟨?_, ?_, ?_, ?_, ?_, ?_⟩ <;> first | decide +kernel | rfl

theorem witness_indexes_of_directory_and_pantry_1 :
    (fun (pa : Nat) =>
      (pa < 2 ^ 48)) 0x123456789ABC := by
  first | decide +kernel | rfl

theorem witness_indexes_of_directory_and_pantry_2 :
    (fun (a b : Nat) =>
      (dirSet (a / 64) = dirSet (b / 64))) 0x123456789ABC 0x923456789ABC := by
  first | decide +kernel | rfl

theorem witness_indexes_of_directory_and_pantry_3 :
    (fun (s : State) (line key : Nat) =>
      (s.panFind line = some key)) tPk 5 (panKey (lineHu 5) (tUp.panSet 5) 3) := by
  first | decide +kernel | rfl

theorem witness_warm_reset_requests_1 :
    (fun (s : State) (path : Path) (value : Word) (t : Nat) =>
      (PathWrites (s.at t) path) ∧
      (value.getLsbD 0 = true) ∧
      (value.toNat / 256 % 256 = 0xA5)) tUp .jtag 0xA501 5 := by
  refine ⟨?_, ?_, ?_⟩ <;> first | decide +kernel | rfl

theorem witness_warm_reset_requests_2 :
    (fun (s : State) (path : Path) (value : Word) (t : Nat) =>
      (PathWrites (s.at t) path) ∧
      (value.toNat / 256 % 256 ≠ 0xA5)) tUp .jtag 0x5A01 5 := by
  refine ⟨?_, ?_⟩ <;> first | decide +kernel | rfl

theorem witness_warm_reset_requests_3 :
    (fun (s : State) (cause : Nat) =>
      (s.pwr.st = .run ∨ s.pwr.st = .recovery) ∧
      (s.warmWaits = false) ∧
      (s.flt.st = .normal)) tUp 2 := by
  refine ⟨?_, ?_, ?_⟩ <;> first | decide +kernel | rfl

theorem witness_warm_reset_requests_4 :
    (fun (s : State) (cause : Nat) =>
      (s.pwr.st = .warmDrain ∨ s.pwr.st = .warmBoot)) tWd 2 := by
  first | decide +kernel | rfl

theorem witness_target_address :
    (fun (s : State) (ehrec : List Byte) (slotOk : Bool × Bool) (strap : BitVec 2) =>
      (s.pwr.st = .reset ∧ s.pwr.released = false)) State.reset [] (true, true) 2 := by
  first | decide +kernel | rfl

theorem witness_events_and_reports_are_kept_1 :
    (fun (s : State) (ws : List B64) (completion : Bool) =>
      (s.cmds.fifo.length ≤ 4096)) tUp [] true := by
  first | decide +kernel | rfl

theorem witness_events_and_reports_are_kept_2 :
    (fun (s : State) (r : Report) =>
      (s.flt.ring.length ≤ 32)) tUp { checker := 0x4f00 } := by
  first | decide +kernel | rfl

theorem witness_flash_writes_store_their_bytes_1 :
    (fun (s : State) (h : Hdr) (off : Word) (data : List Byte) =>
      (MemInv s) ∧
      (s.accepts h (cmdFwWrite h.bank off.toNat data) = true) ∧
      (s.running h.bank = false)) tSlot { tH with bankV := true, bank := true } 8 [1, 2] := by
  refine ⟨?_, ?_, ?_⟩ <;> first | decide +kernel | rfl

theorem witness_flash_writes_store_their_bytes_2 :
    (fun (s : State) (h : Hdr) (off : Word) (data : List Byte) =>
      (MemInv s) ∧
      (s.accepts h (cmdEhrecWrite off.toNat data) = true)) tSlot tH 8 [1, 2] := by
  refine ⟨?_, ?_⟩ <;> first | decide +kernel | rfl

theorem witness_orders_follow_their_keys_1 :
    (fun (ks : List (Nat × Nat)) (k : Nat × Nat) =>
      (minKey ks = some k)) [(2, 1), (1, 7), (1, 5)] (1, 5) := by
  first | decide +kernel | rfl

theorem witness_orders_follow_their_keys_2 :
    (fun (ks : List (Nat × Nat)) =>
      (ks ≠ [])) [(2, 1)] := by
  first | decide +kernel | rfl

end Sys2Proof.Tests
end

section
/-! What the transports of Dermel packets, the event FIFO's window and the register accesses do where the path is open
(R12, R429, R433, R434, R442, R444, R547). -/

namespace Sys2Proof.Machine

/-- The gate of BAR0 and BAR2 as the meanings test it: neither closed by Memory Space Enable nor by D3hot (R547). -/
theorem PathWrites.endpoint_not_shut {s : State} (h : PathWrites s .endpoint) : (!s.ep.mse || s.ep.d3) = false := by
  obtain ⟨hmse, hd3⟩ := h
  simp [hmse, hd3]

/-! ## Rings (R433, R434) -/

theorem exec_doorbell_of_open {s : State} {ring : BitVec 2} {value : Word} {pkts : List (List Byte)}
    (hopen : PathWrites s .endpoint) :
    exec (.doorbell ring value pkts) s = .next (
      if 2 ^ s.fld (CMD_RNG_CFG_fSIZE ring.toNat) ≤ value.toNat then
        (s.setFld (CMD_RNG_STAT_fSTOPPED ring.toNat) 1).setFld (CMD_RNG_STAT_fTAIL_ERR ring.toNat) 1
      else if s.flag (CMD_RNG_CFG_fEN ring.toNat) = false then s.mapRing ring.toNat fun x => { x with tail := value.toNat }
      else
        let size := 2 ^ s.fld (CMD_RNG_CFG_fSIZE ring.toNat)
        let k := (value.toNat + size - (s.ring ring.toNat).tail % size) % size
        s.mapRing ring.toNat fun x => { x with tail := value.toNat, slots := x.slots ++ newSlots k pkts }) := by
  change execDoorbell ring value pkts s = _
  simp only [execDoorbell, hopen.endpoint_not_shut, Bool.false_eq_true, if_false, Bool.not_eq_true']

/-- A ring whose EN differs from the value written is switched. -/
theorem State.ringEnable_of_ne {s : State} {n : Nat} {on : Bool} (h : s.flag (CMD_RNG_CFG_fEN n) ≠ on) :
    s.ringEnable n on = if on then s.ringOn n else s.ringOff n := by
  have hne : (on == s.flag (CMD_RNG_CFG_fEN n)) = false := beq_false_of_ne h.symm
  simp only [State.ringEnable, hne, Bool.false_eq_true, if_false]

theorem exec_ringEnable_of_ne {s : State} {path : Path} {ring : BitVec 2} {on : Bool} (hopen : PathWrites s path)
    (h : s.flag (CMD_RNG_CFG_fEN ring.toNat) ≠ on) :
    exec (.ringEnable path ring on) s =
      .next ((if on then s.ringOn ring.toNat else s.ringOff ring.toNat).pathAnswers path) := by
  change execRingEnable path ring on s = _
  rw [execRingEnable, regWrite_accepted _ _ hopen, State.ringEnable_of_ne h]

/-! ## The turn of the Hearth (R429, R430) -/

/-- With the Hearth's memory sound and a packet due, the turn moves on and the packet is run, or its ring stops. -/
theorem exec_hearthTurn_of_next {s : State} {i : Nat} {p : Packet} (hcheck : s.hearthCheck = (false, s))
    (hnext : s.nextTransport = some (i, p)) :
    exec .hearthTurn s = .next (
      let u := s.mapCmds fun c => { c with turn := (i + 1) % 8 }
      if i < 4 ∧ p.bytes = [] then u.ringDmaErr i
      else ((u.takePacket (transport i)).runPacket (transport i) p).afterReply (transport i)) := by
  change execHearthTurn s = _
  simp only [execHearthTurn, hcheck, hnext, Bool.false_eq_true, if_false, Bool.and_eq_true, decide_eq_true_eq,
    List.isEmpty_iff]

/-! ## The event FIFO (R442, R444) -/

/-- The oldest word of a FIFO with a readable event, its check passed: the word leaves and the backlog moves up. -/
theorem State.popWord_of_sound {s : State} {w : B64} {ws : List B64} (hready : s.evtReady ≠ 0)
    (hfifo : s.cmds.fifo = w :: ws) (hcheck : s.checkOnce { checker := 0x1500 } = (false, s)) :
    s.popWord = (w, (s.mapCmds fun c => { c with fifo := ws }).pumpFifo) := by
  simp only [State.popWord, hready, hfifo, hcheck, if_false, Bool.false_eq_true]

theorem exec_evtPop_wholeWord {s : State} (hopen : PathWrites s .endpoint) :
    exec (.evtPop 8 0x1000) s =
      .next (s.popWord.2.emit (.value .endpoint [s.popWord.1.setWidth 32, (s.popWord.1 >>> 32).setWidth 32])) := by
  change execEvtPop 8 0x1000 s = _
  simp only [execEvtPop, hopen.endpoint_not_shut, Bool.false_eq_true, if_false, decide_true, Bool.and_self, if_true]

theorem exec_evtFlush_of_flush {s : State} {value : Word} (hopen : PathWrites s .endpoint) (hflush : value.getLsbD 0 = true) :
    exec (.evtFlush value) s = .next s.flushEvents := by
  change execEvtFlush value s = _
  rw [execEvtFlush, regWrite_accepted _ _ hopen, if_pos hflush]
  rfl

/-! ## Register accesses (R12, R13) -/

theorem goodAccess_iff (off size : Nat) : goodAccess off size = true ↔ size = 4 ∧ off % 4 = 0 := by
  simp [goodAccess]

/-- On an open path a write that R12 permits has its effect, and any other is aborted and recorded; the path answers. -/
theorem exec_registerWrite_of_open {s : State} {path : Path} {off size : Nat} {value : Word} (hopen : PathWrites s path) :
    exec (.registerWrite path off size value) s =
      .next ((if size = 4 ∧ off % 4 = 0 then s.writeReg off value else s.badAccess path off).pathAnswers path) := by
  change execRegisterWrite path off size value s = _
  simp only [execRegisterWrite, regWrite_accepted _ _ hopen, goodAccess_iff]

theorem exec_loReadLatch_of_open {s : State} {path : Path} {off : Nat}
    (hopen : path ≠ .endpoint ∨ s.ep.mse = true ∧ s.ep.d3 = false) (halign : off % 4 = 0) :
    exec (.loReadLatch path off 4) s = .next ((s.regRead path off).2.emit (.value path [(s.regRead path off).1])) := by
  change execLoReadLatch path off 4 s = _
  have hgate : (path == .endpoint && (!s.ep.mse || s.ep.d3)) = false := by
    rcases hopen with hpath | hep
    · simp [hpath]
    · simp [PathWrites.endpoint_not_shut hep]
  have hgood : goodAccess off 4 = true := (goodAccess_iff off 4).2 ⟨rfl, halign⟩
  simp only [execLoReadLatch, hgate, hgood, Bool.false_eq_true, if_false, Bool.not_true]

end Sys2Proof.Machine

namespace Sys2Proof.Proofs

open Sys2Proof Sys2Proof.Machine

/-- Settles O42: each clause is a branch of its command's meaning on an open path. -/
theorem transportsAndRegisterAccessesComplete : Obligations.TransportsAndRegisterAccessesComplete := by
  unfold Obligations.TransportsAndRegisterAccessesComplete
  refine ⟨?doorbellEnabled, ?doorbellDisabled, ?doorbellBeyond, fun _ _ _ _ => exec_ringEnable_of_ne, ?turn, ?turnUnreadable,
    ?pop, fun _ _ => exec_evtFlush_of_flush, fun _ => rfl, ?write, ?writeBad, fun _ _ _ => exec_loReadLatch_of_open,
    fun _ _ _ _ => rfl⟩
  case doorbellEnabled =>
    intro s ring value pkts hopen hin hen
    rw [exec_doorbell_of_open hopen, if_neg (Nat.not_le.2 hin), if_neg (by simp [hen])]
  case doorbellDisabled =>
    intro s ring value pkts hopen hin hen
    rw [exec_doorbell_of_open hopen, if_neg (Nat.not_le.2 hin), if_pos hen]
  case doorbellBeyond =>
    intro s ring value pkts hopen hout
    rw [exec_doorbell_of_open hopen, if_pos hout]
  case turn =>
    intro s i p hcheck hnext hread
    have hsome : ¬ (i < 4 ∧ p.bytes = []) := by
      rintro ⟨hi, hp⟩
      exact hread.elim (Nat.not_le.2 hi) (· hp)
    rw [exec_hearthTurn_of_next hcheck hnext]
    exact congrArg _ (if_neg hsome)
  case turnUnreadable =>
    intro s i p hcheck hnext hempty
    rw [exec_hearthTurn_of_next hcheck hnext]
    exact congrArg _ (if_pos hempty)
  case pop =>
    intro s w ws hopen hready hfifo hcheck
    rw [exec_evtPop_wholeWord hopen, State.popWord_of_sound hready hfifo hcheck]
  case write =>
    intro s path off size value hopen hgood
    rw [exec_registerWrite_of_open hopen, if_pos hgood]
  case writeBad =>
    intro s path off size value hopen hbad
    rw [exec_registerWrite_of_open hopen, if_neg (Decidable.not_and_iff_or_not.2 hbad)]

end Sys2Proof.Proofs
end

section
/-! One step of the queue (R10), and the power-on state (R17). -/

namespace Sys2Proof.Machine

theorem step_of_pending_cons {s : State} {c : Instr} {rest : List Instr} (h : s.pending = c :: rest) :
    step s = exec c { s with pending := rest } := by
  rw [step, h]

theorem step_of_pending_nil {s : State} (h : s.pending = []) : step s = .next { s with now := s.now + 1 } := by
  rw [step, h]

/-- A register that nothing has written reads its Reset column (R17). -/
theorem State.reg_of_unwritten {s : State} {off : Nat} (h : NMap.get? s.regs off = none) : s.reg off = regReset off := by
  rw [State.reg, h]

/-- An extent without an entry has the entry 0 (R45). -/
theorem State.ext_of_unlisted {s : State} {x : Nat} (h : NMap.get? s.pool.ext x = none) : s.ext x = Ext.zero := by
  rw [State.ext, h, Option.getD_none]

end Sys2Proof.Machine

namespace Sys2Proof.Proofs

open Sys2Proof Sys2Proof.Machine

/-- Settles O46, by the two shapes of the queue. -/
theorem stepRunsTheFrontCommand : Obligations.StepRunsTheFrontCommand :=
  ⟨fun _ _ _ => step_of_pending_cons, fun _ => step_of_pending_nil⟩

/-- Settles O57: nothing is written and no extent is listed at reset, and each other field holds its default. -/
theorem resetState : Obligations.ResetState := by
  unfold Obligations.ResetState
  refine ⟨fun off => State.reg_of_unwritten (NMap.get?_nil off), fun x => State.ext_of_unlisted (NMap.get?_nil x), ?defaults⟩
  case defaults => and_intros <;> rfl

end Sys2Proof.Proofs
end

section
/-! What a flit, a CXL.cache request in pass-through, a secondary bus reset and a slot power-off do (R24, R54, R305, R314,
R316, R321). -/

namespace Sys2Proof.Machine

/-! ## Flits (R24, R314) -/

/-- A good flit on a port in L0 that its group's checker passes: the messages are received in order, and the port replays on a NAK. -/
theorem exec_flitReceived_of_good {s u : State} {port : Port} {t : Nat} {msgs : List MsgIn} {ret : FlitRet}
    (hup : (s.at t).inL0 port.toNat = true)
    (hcheck : (s.at t).check1 (0x0100 + ((s.at t).portGroup port.toNat).getD 0) 32 false = (.clean, u)) :
    exec (.flitReceived port t true true msgs ret) s = .next (
      let c := msgs.foldl (fun a m => a.receive port.toNat m)
        ((u.mapPort port.toNat fun x => { x with part := ret.part }).returnsIn port.toNat ret)
      if ret.nak then c.replays port.toNat else c) := by
  change execFlitReceived port t true true msgs ret s = _
  simp only [execFlitReceived, hup, hcheck, Bool.not_true, Bool.false_eq_true, if_false, Bool.or_self, bne_self_eq_false]

/-- A flit that fails FEC or CRC on a port in L0: it is counted, recorded and asked for again. -/
theorem exec_flitReceived_of_bad {s u : State} {port : Port} {t : Nat} {fecOk crcOk : Bool} {msgs : List MsgIn}
    {ret : FlitRet} (hup : (s.at t).inL0 port.toNat = true)
    (hcheck : (s.at t).check1 (0x0100 + ((s.at t).portGroup port.toNat).getD 0) 32 false = (.clean, u))
    (hbad : fecOk = false ∨ crcOk = false) :
    exec (.flitReceived port t fecOk crcOk msgs ret) s = .next (
      (((u.bump (if fecOk then PRT_FLIT_ERR_fCRC_CNT port.toNat else PRT_FLIT_ERR_fUNC_CNT port.toNat)).bump
        (PRT_RETRY_CNT_fRX_NAK port.toNat)).record {
          checker := 0x0100 + ((s.at t).portGroup port.toNat).getD 0, cls := 0, source := srcPort, unit := port.toNat
          transient := true, injected := false }).emit (.retry port.toNat)) := by
  change execFlitReceived port t fecOk crcOk msgs ret s = _
  have hfails : (!fecOk || !crcOk) = true := by simpa using hbad
  simp only [execFlitReceived, hup, hcheck, hfails, Bool.not_true, Bool.false_eq_true, if_false, Bool.true_or, if_true,
    bne_self_eq_false]

/-! ## CXL.cache in pass-through (R316) -/

/-- A device's request goes to the virtual switch of the binding that carries CXL.cache for its port. -/
theorem State.cacheIn_d2hReq_of_pt {s : State} {p : Nat} {m : MsgIn} {v : Vppb} (hkind : m.kind = .d2hReq)
    (hrole : s.role p = rolePt) (hbound : s.ports.vppb.find? (fun v => v.cache && v.port == p) = some v) :
    s.cacheIn p m = s.forward p v.vcs m none 0 none := by
  simp only [State.cacheIn, hrole, hkind, hbound, beq_self_eq_true, if_true]

/-- A host's request goes to the device that its CacheID names among the bindings of its virtual switch. -/
theorem State.cacheIn_h2dReq_of_up {s : State} {p : Nat} {m : MsgIn} {v : Vppb} (hkind : m.kind = .h2dReq)
    (hrole : s.role p = roleUpstream)
    (hbound : s.ports.vppb.find? (fun v => v.cache && (v.vcs == p && v.cacheId == m.host.toNat % 16)) = some v) :
    s.cacheIn p m = s.forward p v.port m none 0 none := by
  have hnpt : (roleUpstream == rolePt) = false := rfl
  simp only [State.cacheIn, hrole, hkind, hnpt, bne_self_eq_false, Bool.false_or, hbound, Bool.false_eq_true, if_false]

/-- The CacheID that a built message names, the low four bits of its host, is the one that it was built of. -/
theorem cacheMsg_cacheId (k : MKind) (tag : B16) (cacheId : BitVec 4) (data : Bool) :
    (cacheMsg k tag cacheId data).host.toNat % 16 = cacheId.toNat := by
  have hlt : cacheId.toNat < 16 := cacheId.isLt
  change (cacheId.setWidth 12).toNat % 16 = cacheId.toNat
  rw [BitVec.toNat_setWidth_of_le (by decide), Nat.mod_eq_of_lt hlt]

theorem exec_cxlCacheD2hReq_of_traffic {s : State} {port : Port} {tag : B16} {cacheId : BitVec 4} {data : Bool}
    (hup : s.traffic port.toNat = true) :
    exec (.cxlCacheD2hReq port tag cacheId data) s = .next (s.cacheIn port.toNat (cacheMsg .d2hReq tag cacheId data)) :=
  congrArg _ (if_pos hup)

theorem exec_cxlCacheH2dReq_of_traffic {s : State} {port : Port} {tag : B16} {cacheId : BitVec 4}
    (hup : s.traffic port.toNat = true) :
    exec (.cxlCacheH2dReq port tag cacheId) s = .next (s.cacheIn port.toNat (cacheMsg .h2dReq tag cacheId false)) :=
  congrArg _ (if_pos hup)

/-! ## Secondary bus reset (R305, R321) -/

theorem State.sendHotReset_of_l0 {s : State} {p : Nat} (hrole : s.role p = rolePt) (hup : s.inL0 p = true) :
    s.sendHotReset p = (s.emit (.pin (.hotReset p) true)).linkDown p 6 :=
  if_pos (by rw [hrole, hup, beq_self_eq_true, Bool.and_self])

theorem exec_secondaryBusReset_of_pt {s : State} {vcs : Port} {bridge : BitVec 7} {v : Vppb}
    (hfind : s.ports.vppb.find? (fun v => v.vcs == vcs.toNat && v.bridge == bridge.toNat) = some v) :
    exec (.secondaryBusReset vcs bridge) s = .next (s.sendHotReset v.port) := by
  change execSecondaryBusReset vcs bridge s = _
  simp only [execSecondaryBusReset, hfind]

theorem exec_secondaryBusReset_of_window {s : State} {vcs : Port} {bridge : BitVec 7}
    (hfind : s.ports.vppb.find? (fun v => v.vcs == vcs.toNat && v.bridge == bridge.toNat) = none) :
    exec (.secondaryBusReset vcs bridge) s = .next (s.mapPool fun x => { x with wins := x.wins.map fun w => (w.1, { w.2 with
      binds := w.2.binds.map fun b => if b.port == vcs.toNat && b.bridge == bridge.toNat then
        { b with events := [], nextEvt := 1, evtPolicy := 0, bar := 0, bar2 := 0, regs := [], pba := [] } else b }) }) := by
  change execSecondaryBusReset vcs bridge s = _
  simp only [execSecondaryBusReset, hfind]

/-! ## Slot power-off (R54) -/

/-- The power-off of a host whose binding is UNBINDING: the unbind goes on with its second and its fifth step. -/
theorem exec_slotPowerOff_of_unbinding {s : State} {window : Win} {host : Fid} {x : Window} {b : Binding}
    (hwin : s.win? window.toNat = some x) (hbind : x.bind? host.toNat = some b) (hst : b.st = .unbinding) :
    exec (.slotPowerOff window host) s =
      .next ((s.unbind2 window.toNat host.toNat).unbind5 window.toNat host.toNat) := by
  change execSlotPowerOff window host s = _
  simp only [execSlotPowerOff, hwin, Option.bind_some, hbind, hst, beq_self_eq_true, if_true]

end Sys2Proof.Machine

namespace Sys2Proof.Proofs

open Sys2Proof Sys2Proof.Machine

/-- Settles O21: each clause is a branch of its command's meaning, taken where the clause's conditions hold. -/
theorem flitsAndPassThroughTrafficComplete : Obligations.FlitsAndPassThroughTrafficComplete := by
  unfold Obligations.FlitsAndPassThroughTrafficComplete
  refine ⟨fun _ _ _ _ _ _ => exec_flitReceived_of_good, fun _ _ _ _ _ _ _ _ => exec_flitReceived_of_bad, ?deviceRequest,
    ?hostRequest, ?hotReset, fun _ _ _ => exec_secondaryBusReset_of_window,
    fun _ _ _ _ _ => exec_slotPowerOff_of_unbinding⟩
  case deviceRequest =>
    intro s port tag cacheId data v hup hrole hbound
    rw [exec_cxlCacheD2hReq_of_traffic hup, State.cacheIn_d2hReq_of_pt rfl hrole hbound]
  case hostRequest =>
    intro s port tag cacheId v hup hrole hbound
    rw [exec_cxlCacheH2dReq_of_traffic hup, State.cacheIn_h2dReq_of_up rfl hrole (by rwa [cacheMsg_cacheId])]
  case hotReset =>
    intro s vcs bridge v hfind hrole hup
    rw [exec_secondaryBusReset_of_pt hfind, State.sendHotReset_of_l0 hrole hup]

end Sys2Proof.Proofs
end

section
/-! Grants of memory requests, AtomicOps and extended operations at a home unit (R113, R120, R125). -/

namespace Sys2Proof.Machine

/-- The row of a memory request that its arbiter grants for a window at its home takes the request to its checks. -/
theorem grantRow_letIn {s u : State} {hu : Nat} {plane : Bool} {t w : Nat} {kind : MKind} {v : VMsg} {x : Window}
    (hg : GrantedFor (s.at t) u hu plane v w x) (hm : v.m.kind = kind)
    (hkind : kind ∈ [MKind.memRd, .memRdData, .memInv, .memInvNT, .memSpecRd, .memWr, .memWrPtl]) :
    s.grantRow hu plane t (· == kind) = ((s.at t).countsGrant hu plane v).letIn v hu w x := by
  obtain ⟨hpick, hage, hdrain, hvwin, hwin, -⟩ := hg
  rw [grantRow_pick (k := (· == kind)) hpick (beq_iff_eq.2 hm), grantMsg_letIn hage hdrain hvwin hwin (hm ▸ hkind)]

section
variable {s u : State} {hu : Nat} {plane : Bool} {t w : Nat} {v : VMsg} {x : Window} {b : Binding} {kind : MKind}

/-- A granted read or invalidation that passes its checks opens its line. -/
theorem grantRow_opens_read (hg : GrantedFor (s.at t) u hu plane v w x) (he : ExtentServes u v w x b)
    (hr : RulesPermit u v hu w x b) (hm : v.m.kind = kind) (hc : v.cls = .req)
    (hkind : kind ∈ [MKind.memRd, .memRdData, .memInv, .memInvNT]) :
    s.grantRow hu plane t (· == kind) =
      (u.checked v hu w x b).opens hu x.room (x.lineAt v.off) w false
        (.rd kind (b.rw && (v.m.mval == .a || kind != .memRd))
          (!(b.rw && (v.m.mval == .a || kind != .memRd)) && (v.m.mval == .s || v.m.mval == .a || kind != .memRd))
          v.m.host.toNat v.m.tag.toNat v.port) ((u.checked v hu w x b).bankOf x.room)
        (if v.m.mval == .reserved && x.type == .shared then some (8, v.m.host.toNat, v.m.tag.toNat) else none) := by
  obtain ⟨-, -, -, -, -, hleft⟩ := id hg
  rw [grantRow_letIn hg hm (List.mem_append_left [MKind.memSpecRd, .memWr, .memWrPtl] hkind)]
  subst hm
  exact letIn_read hleft he hr hkind hc

/-- A granted MemRdData, MemInv or MemInvNT takes its line exclusive over a writable binding, and shared otherwise. -/
theorem grantRow_opens_owned (hg : GrantedFor (s.at t) u hu plane v w x) (he : ExtentServes u v w x b)
    (hr : RulesPermit u v hu w x b) (hm : v.m.kind = kind) (hc : v.cls = .req)
    (hkind : kind ∈ [MKind.memRdData, .memInv, .memInvNT]) :
    s.grantRow hu plane t (· == kind) =
      (u.checked v hu w x b).opens hu x.room (x.lineAt v.off) w false
        (.rd kind b.rw (!b.rw) v.m.host.toNat v.m.tag.toNat v.port) ((u.checked v hu w x b).bankOf x.room)
        (if v.m.mval == .reserved && x.type == .shared then some (8, v.m.host.toNat, v.m.tag.toNat) else none) := by
  have hne : (kind != .memRd) = true := by
    rw [bne_iff_ne]
    rintro rfl
    exact absurd hkind (by decide)
  rw [grantRow_opens_read hg he hr hm hc (List.mem_cons_of_mem _ hkind)]
  simp only [hne, Bool.or_true, Bool.and_true]

/-- A granted MemRd takes its line exclusive only for meta value A over a writable binding, and shared for S, or A otherwise. -/
theorem grantRow_opens_memRd (hg : GrantedFor (s.at t) u hu plane v w x) (he : ExtentServes u v w x b)
    (hr : RulesPermit u v hu w x b) (hm : v.m.kind = .memRd) (hc : v.cls = .req) :
    s.grantRow hu plane t (· == .memRd) =
      (u.checked v hu w x b).opens hu x.room (x.lineAt v.off) w false
        (.rd .memRd (b.rw && v.m.mval == .a) (!(b.rw && v.m.mval == .a) && (v.m.mval == .s || v.m.mval == .a))
          v.m.host.toNat v.m.tag.toNat v.port) ((u.checked v hu w x b).bankOf x.room)
        (if v.m.mval == .reserved && x.type == .shared then some (8, v.m.host.toNat, v.m.tag.toNat) else none) := by
  rw [grantRow_opens_read hg he hr hm hc (by decide)]
  simp only [bne_self_eq_false, Bool.or_false]

/-- A granted MemSpecRd that passes its checks starts its fill or is discarded. -/
theorem grantRow_specRead (hg : GrantedFor (s.at t) u hu plane v w x) (he : ExtentServes u v w x b)
    (hr : RulesPermit u v hu w x b) (hm : v.m.kind = .memSpecRd) (hc : v.cls = .req) :
    s.grantRow hu plane t (· == .memSpecRd) = (u.checked v hu w x b).specRead w (x.lineAt v.off) x := by
  obtain ⟨-, -, -, -, -, hleft⟩ := id hg
  rw [grantRow_letIn hg hm (by decide), letIn_spec hleft he hr hm hc]

/-- A granted write that is no writeback and passes its checks opens its line; a MemWr writes every byte. -/
theorem grantRow_opens_write (hg : GrantedFor (s.at t) u hu plane v w x) (he : ExtentServes u v w x b)
    (hr : RulesPermit u v hu w x b) (hm : v.m.kind = kind) (hc : v.cls = .rwd) (hkind : kind ∈ [MKind.memWr, .memWrPtl])
    (hwb : (u.checkExt w (x.lineAt v.off)).2.isWbk v.m x (x.lineAt v.off) = false) :
    s.grantRow hu plane t (· == kind) =
      (u.checked v hu w x b).opens hu x.room (x.lineAt v.off) w true
        (.wr v.m.host.toNat v.m.tag.toNat v.port v.m.data (if kind = .memWr then allBe else v.m.be) v.m.poison)
        ((u.checked v hu w x b).bankOf x.room)
        (if x.type == .shared && v.m.snp != .snpInv then
          some (if v.m.snp == .noOp then 5 else 6, v.m.host.toNat, v.m.tag.toNat) else none) := by
  obtain ⟨-, -, -, -, -, hleft⟩ := id hg
  rw [grantRow_letIn hg hm (List.mem_append_right [MKind.memRd, .memRdData, .memInv, .memInvNT, .memSpecRd] hkind)]
  subst hm
  exact letIn_write hleft he hr hkind hc hwb

/-- A granted writeback of the owner over a writable binding needs no rule. -/
theorem grantRow_writesBack (hg : GrantedFor (s.at t) u hu plane v w x) (he : ExtentServes u v w x b) (hrw : b.rw = true)
    (hm : v.m.kind = kind) (hc : v.cls = .rwd) (hkind : kind ∈ [MKind.memWr, .memWrPtl])
    (hwb : (u.checkExt w (x.lineAt v.off)).2.isWbk v.m x (x.lineAt v.off) = true) :
    s.grantRow hu plane t (· == kind) =
      (let p := ((u.checkExt w (x.lineAt v.off)).2.abandonSpec (x.lineAt v.off)).fresh1
       p.2.writesBack p.1 v hu w x) := by
  obtain ⟨-, -, -, -, -, hleft⟩ := id hg
  rw [grantRow_letIn hg hm (List.mem_append_right [MKind.memRd, .memRdData, .memInv, .memInvNT, .memSpecRd] hkind)]
  subst hm
  exact letIn_writeback hleft he hrw hkind hc hwb

end

end Sys2Proof.Machine

namespace Sys2Proof.Proofs

open Sys2Proof Sys2Proof.Machine

/-- Settles O16: each row acts on the arbiter's choice, which passes its checks and opens its line or is written back. -/
theorem memoryRequestGrantsOpenTheirLine : Obligations.MemoryRequestGrantsOpenTheirLine := by
  unfold Obligations.MemoryRequestGrantsOpenTheirLine
  refine ⟨?memRd, ?memRdData, ?memInv, ?memInvNT, ?memSpecRd, ?memWr, ?memWrPtl, ?memWrOwner, ?memWrPtlOwner⟩
  case memRd =>
    intro s u hu plane t v w x b hg he hr hm hc
    exact congrArg _ (grantRow_opens_memRd hg he hr hm hc)
  case memRdData =>
    intro s u hu plane t v w x b hg he hr hm hc
    exact congrArg _ (grantRow_opens_owned hg he hr hm hc (by decide))
  case memInv =>
    intro s u hu plane t v w x b hg he hr hm hc
    exact congrArg _ (grantRow_opens_owned hg he hr hm hc (by decide))
  case memInvNT =>
    intro s u hu plane t v w x b hg he hr hm hc
    exact congrArg _ (grantRow_opens_owned hg he hr hm hc (by decide))
  case memSpecRd =>
    intro s u hu plane t v w x b hg he hr hm hc
    exact congrArg _ (grantRow_specRead hg he hr hm hc)
  case memWr =>
    intro s u hu plane t v w x b hg he hr hm hc hwb
    exact congrArg _ (grantRow_opens_write hg he hr hm hc (by decide) hwb)
  case memWrPtl =>
    intro s u hu plane t v w x b hg he hr hm hc hwb
    exact congrArg _ (grantRow_opens_write hg he hr hm hc (by decide) hwb)
  case memWrOwner =>
    intro s u hu plane t v w x b hg he hrw hm hc hwb
    exact congrArg _ (grantRow_writesBack hg he hrw hm hc (by decide) hwb)
  case memWrPtlOwner =>
    intro s u hu plane t v w x b hg he hrw hm hc hwb
    exact congrArg _ (grantRow_writesBack hg he hrw hm hc (by decide) hwb)

/-- Settles O18: an AtomicOp granted with every check of R122 passed opens its line, whichever of the three it is. -/
theorem atomicOpGrantsOpenTheirLine : Obligations.AtomicOpGrantsOpenTheirLine :=
  ⟨fun _ _ _ _ _ _ _ _ _ hpass => congrArg _ (atomRow_passes hpass),
    fun _ _ _ _ _ _ _ _ _ hpass => congrArg _ (atomRow_passes hpass),
    fun _ _ _ _ _ _ _ _ _ hpass => congrArg _ (atomRow_passes hpass)⟩

/-- Settles O19: an extended operation granted with every check of R126 and R129 passed opens its line, whatever its code. -/
theorem extendedOperationGrantsOpenTheirLine : Obligations.ExtendedOperationGrantsOpenTheirLine := by
  unfold Obligations.ExtendedOperationGrantsOpenTheirLine
  and_intros <;> exact fun _ _ _ _ _ _ _ _ _ _ _ _ hpass => congrArg _ (grantXop_passes hpass)

end Sys2Proof.Proofs
end

section
/-! Unbind and capacity timeouts (R54 to R57, R323), and the steps of a re-homing at its two homes (R58 to R63). -/

namespace Sys2Proof.Machine

@[simp] theorem State.at_win? (s : State) (t w : Nat) : (s.at t).win? w = s.win? w := rfl

/-! ## Timeouts -/

/-- The wait for the host is over at the deadline, or at once for a binding that a snoop timeout failed (R54, R96). -/
theorem exec_unbindTimeout_of_over {s u : State} {window : Win} {host : Fid} {t : Nat} {x : Window} {b : Binding}
    (hu : u = (s.at t).removalsDue.foldl (fun a v => a.unbindPt v) (s.at t)) (hwin : u.win? window.toNat = some x)
    (hbind : x.bind? host.toNat = some b)
    (hover : (∃ d, b.deadline = some d ∧ d ≤ u.now) ∨ b.deadline = none ∧ b.r96 = true) :
    exec (.unbindTimeout window host t) s = .next ((u.unbind2 window.toNat host.toNat).unbind5 window.toNat host.toNat) := by
  change execUnbindTimeout window host t s = _
  rw [execUnbindTimeout, ← hu]
  rcases hover with ⟨d, hdeadline, hdue⟩ | ⟨hdeadline, hfailed⟩
  · simp only [hwin, Option.bind_some, hbind, hdeadline, hdue, if_true]
  · simp only [hwin, Option.bind_some, hbind, hdeadline, hfailed, if_true]

theorem exec_capacityResponseTimeout_of_window {s u : State} {window : Win} {t : Nat} {x : Window}
    (hwin : s.win? window.toNat = some x)
    (hu : u = (x.offers.filter fun o => o.deadline ≤ (s.at t).now).foldl (fun a o => a.answerOffer window.toNat o []) (s.at t)) :
    exec (.capacityResponseTimeout window t) s = .next (
      let c := (u.forcedDue window.toNat).foldl (fun a i => a.closeReleasing (x.baseX + i)) u
      (c.pumpRelease window.toNat).endReleases window.toNat) := by
  change execCapacityResponseTimeout window t s = _
  simp only [execCapacityResponseTimeout, State.at_win?, hwin, hu]

/-! ## Re-homing at the old home -/

section
variable {s u : State} {window : Win} {t : Nat} {x y : Window} {r q : Rehome}

/-- H1 to H4 of R60. -/
theorem exec_handoffStart_of_copied (hwin : s.win? window.toNat = some x) (hrehome : x.rehome = some r) (hold : r.old = true)
    (hst : x.st = .copying) (hcopied : s.allCopied x = true)
    (hu : u = s.mapWin window.toNat fun y => { y with st := .handoffOut }) :
    exec (.handoffStart window) s = .next ((u.mapWin window.toNat fun y =>
      { y with rehome := some { r with sweep := u.heldLines window.toNat 4096 } }).pumpHandoff window.toNat) := by
  change execHandoffStart window s = _
  simp only [execHandoffStart, hwin, hrehome, hold, hst, hcopied, hu, beq_self_eq_true, Bool.and_self, if_true]

/-- H5 and H6 of R60: the sweep is empty and nothing of the window is open. -/
theorem exec_handoffReady_of_swept (hwin : s.win? window.toNat = some x) (hrehome : x.rehome = some r) (hold : r.old = true)
    (hst : x.st = .handoffOut) (hu : u = (s.at t).pumpHandoff window.toNat) (hwin' : u.win? window.toNat = some y)
    (hrehome' : y.rehome = some q) (hsweep : q.sweep = []) (hidle : u.winTrk window.toNat = 0) :
    exec (.handoffReady window t) s = .next
      ((u.mapWin window.toNat fun y => { y with st := .proxy, rehome := some { q with ready := true } }).emit (.handoff q.peer q.peerWin)) := by
  change execHandoffReady window t s = _
  rw [execHandoffReady, ← hu]
  simp only [State.at_win?, hwin, hrehome, hold, hst, hwin', Option.bind_some, hrehome', hsweep, hidle, beq_self_eq_true, if_true,
    List.isEmpty_nil, decide_true, Bool.and_self]

/-- R63 before H6: the copies end, and the old home serves its own copy again. -/
theorem exec_rehomeAbandon_of_old (hwin : s.win? window.toNat = some x) (hrehome : x.rehome = some r) (hold : r.old = true)
    (hst : x.st = .copying ∨ x.st = .handoffOut) :
    exec (.rehomeAbandon window) s = .next (
      (((s.mov.migs.filter fun m => m.win == window.toNat && m.remote.isSome).foldl (fun a m => a.migAbandon m.x .aborted) s).mapWin
        window.toNat fun y => { y with st := .active, rehome := none }).finishWork (.rehome window.toNat) .aborted (leBytes 4 r.copied)) := by
  change execRehomeAbandon window s = _
  have hbefore : (x.st == .copying || x.st == .handoffOut) = true := by simpa using hst
  simp only [execRehomeAbandon, hwin, hrehome, hold, hbefore, if_true]

/-! ## Re-homing at the new home -/

/-- A held request is let in to its window as the window now stands (R60 H8). -/
def State.letInHeld (s : State) (w : Nat) (h : Held) : State :=
  match s.win? w with
  | some y => s.letIn h.v (lineHu (y.lineAt h.v.off)) w y
  | none => s

/-- H7 and H8 of R60: the window is ACTIVE, and the held requests are let in in the order in which they came. -/
theorem exec_handoffReady_of_new (hwin : s.win? window.toNat = some x) (hrehome : x.rehome = some r) (hnew : r.old = false)
    (hu : u = ((if x.type == .dynamic then (List.range x.extents).filter fun i => !r.wrote.contains i else []).foldl
      (fun a i => a.freeOne x i) ((s.at t).mapWin window.toNat fun y => { y with st := .active, rehome := none })).mapHome fun h =>
        { h with hold := h.hold.filter fun q => q.win != window.toNat }) :
    exec (.handoffReady window t) s = .next (((s.home.hold.filter fun h => h.win == window.toNat).foldl
      (fun a h => a.letInHeld window.toNat h) u).announceMove window.toNat r) := by
  change execHandoffReady window t s = _
  simp only [execHandoffReady, State.at_win?, State.at_home, hwin, hrehome, hnew, hu, Bool.false_eq_true, if_false]
  rfl

/-- R62: what has been held for the age limit is discarded, each request with its synthetic completion and its record. -/
theorem exec_handoffAgeDiscard_of_rehome (hwin : s.win? window.toNat = some x) (hrehome : x.rehome = some r) :
    exec (.handoffAgeDiscard window t) s = .next (
      let n := (s.at t).now
      let due := fun (h : Held) => h.win == window.toNat && r.age * 1000 ≤ n - h.t0
      (s.home.hold.filter due).foldl (fun a h => (a.synth h.v.port h.v.port h.v.m).record {
          checker := 0x5100, source := srcWindow, unit := window.toNat, room := h.v.room.getD 0, tag := h.v.m.tag.toNat
          payload := packBits [(n - h.t0, 64), (h.v.cls.rank, 8)] })
        ((s.at t).mapHome fun h => { h with hold := h.hold.filter fun q => !due q })) := by
  change execHandoffAgeDiscard window t s = _
  simp only [execHandoffAgeDiscard, State.at_win?, State.at_home, hwin, Option.bind_some, hrehome]

/-- R63 at the new home: the held requests are completed without data. -/
theorem exec_rehomeAbandon_of_new (hwin : s.win? window.toNat = some x) (hrehome : x.rehome = some r) (hnew : r.old = false) :
    exec (.rehomeAbandon window) s = .next (
      (s.home.hold.filter fun h => h.win == window.toNat).foldl (fun a h => a.synth h.v.port h.v.port h.v.m)
        ((s.mapWin window.toNat fun y => { y with rehome := none }).mapHome fun h =>
          { h with hold := h.hold.filter fun q => q.win != window.toNat })) := by
  change execRehomeAbandon window s = _
  simp only [execRehomeAbandon, hwin, hrehome, hnew, Bool.false_eq_true, if_false]

end

end Sys2Proof.Machine

namespace Sys2Proof.Proofs

open Sys2Proof Sys2Proof.Machine

/-- Settles O25: an unbind goes on when its wait is over in either way, and a capacity timeout ends what is due. -/
theorem windowTimersComplete : Obligations.WindowTimersComplete :=
  ⟨fun _ _ _ _ _ _ _ d hu hwin hbind hdeadline hdue => exec_unbindTimeout_of_over hu hwin hbind (.inl ⟨d, hdeadline, hdue⟩),
    fun _ _ _ _ _ _ _ hu hwin hbind hdeadline hfailed => exec_unbindTimeout_of_over hu hwin hbind (.inr ⟨hdeadline, hfailed⟩),
    fun _ _ _ _ _ => exec_capacityResponseTimeout_of_window⟩

/-- Settles O26: each step is the branch of its row at the old or the new home. -/
theorem rehomingStepsComplete : Obligations.RehomingStepsComplete := by
  unfold Obligations.RehomingStepsComplete
  refine ⟨?handoffStart, ?readyOld, ?readyNew, fun _ _ _ _ _ => exec_handoffAgeDiscard_of_rehome, ?abandonOld,
    fun _ _ _ _ => exec_rehomeAbandon_of_new⟩
  case handoffStart =>
    intro s u window x r hwin hrehome ⟨hold, hst⟩
    exact exec_handoffStart_of_copied hwin hrehome hold hst
  case readyOld =>
    intro s u window t x y r q hwin hrehome ⟨hold, hst⟩ hu hwin' hrehome' ⟨hsweep, hidle⟩
    exact exec_handoffReady_of_swept hwin hrehome hold hst hu hwin' hrehome' hsweep hidle
  case readyNew => exact fun _ _ _ _ _ _ => exec_handoffReady_of_new
  case abandonOld => exact fun _ _ _ _ => exec_rehomeAbandon_of_old

end Sys2Proof.Proofs
end

section
/-! Start-up, reference clocks, PLLs, rails, the core voltage and the Hearth's return (R34, R449, R496, R503 to R511, R520, R524). -/

namespace Sys2Proof.Machine

/-! ## Start-up (R509, R524) -/

/-- The release of reset with a valid reference: the levels are in range, absent slots are counted, and the boot starts. -/
theorem exec_resetRelease_of_reference {s : State} {ehrec : List Byte} {slotOk : Bool × Bool} {strap : BitVec 2}
    (hst : s.pwr.st = .reset) (hheld : s.pwr.released = false)
    (href : s.flag CKP_CLK_STAT_fA_OK = true ∨ s.flag CKP_CLK_STAT_fB_OK = true) :
    exec (.resetRelease ehrec slotOk strap) s = .next (
      let u := s.mapPwr fun p => { p with
        released := true, smb := 0x64 + strap.toNat, ehrec := ehrec
        slot0 := { p.slot0 with valid := slotOk.1 || p.slot0.verified }, slot1 := { p.slot1 with valid := slotOk.2 || p.slot1.verified } }
      let v := u.setFld CKP_RAIL_STAT_fIN_RANGE 0x1FF
      let dwy := s.dwy.map fun c => (c.1, { c.2 with cntT := if c.2.prsHigh then none else some s.now })
      State.bootCold { v with dwy := dwy }) := by
  change execResetRelease ehrec slotOk strap s = _
  have hrun : (s.pwr.st != .reset || s.pwr.released) = false := by rw [hst, hheld]; rfl
  have href' : (s.flag CKP_CLK_STAT_fA_OK || s.flag CKP_CLK_STAT_fB_OK) = true := by simpa using href
  rw [execResetRelease, hrun, href']
  rfl

section
variable {s : State} {t : Nat} {version : Word} {ownMin ownMax : Byte}

theorem exec_hearthUp_of_cold (hst : s.pwr.st = .cold) :
    exec (.hearthUp t version ownMin ownMax) s = .next
      ((((s.at t).wakeStacks.enterRun false version ownMin ownMax).announceReset false).startDoorway).startLinks.fabSettle := by
  change execHearthUp t version ownMin ownMax s = _
  have hcold : (BootSt.cold == BootSt.warmBoot) = false := rfl
  simp only [execHearthUp, State.at_pwr, hst, hcold, bne_self_eq_false, Bool.not_false, Bool.true_and, Bool.false_and,
    Bool.false_eq_true, if_false]

/-- A directory and a Pantry that a warm reset has kept are checked before they are used. -/
theorem exec_hearthUp_of_warm (hst : s.pwr.st = .warmBoot) :
    exec (.hearthUp t version ownMin ownMax) s = .next (
      let u := if s.pwr.keep then (s.at t).wakeStacks.checkKept.settleWarm else (s.at t).wakeStacks
      ((u.enterRun true version ownMin ownMax).announceReset true).startLinks.fabSettle) := by
  change execHearthUp t version ownMin ownMax s = _
  simp only [execHearthUp, State.at_pwr, hst, beq_self_eq_true, Bool.not_true, Bool.true_and, Bool.false_and,
    Bool.false_eq_true, if_false, if_true]

/-! ## The Hearth's restart (R394, R520) -/

theorem exec_firmwareFallback_of_due {b : Bool} (hst : s.pwr.st = .restart) (hprev : s.pwr.previous = some b)
    (hdue : s.pwr.t0 + 2000000000 ≤ (s.at t).now) :
    exec (.firmwareFallback t) s = .next
      (((s.at t).mapPwr fun p => { p with slot := b, preferred := b, previous := none, t0 := (s.at t).now }).finishWork
        .fwActivate .faulted []) := by
  change execFirmwareFallback t s = _
  simp only [execFirmwareFallback, State.at_pwr, hst, hprev, Nat.not_lt.2 hdue, if_false]

theorem exec_hearthReturn_of_restart (hst : s.pwr.st = .restart) :
    exec (.hearthReturn t) s = .next (
      let u := if s.flt.st == .fault then (s.at t).endPends (fun _ => true) .faulted
        else if s.restartedByFw then (s.at t).endPends (· == Work.fwActivate) .ok else (s.at t).endPends (fun _ => true) .aborted
      let v := (u.mapPwr fun p => { p with st := .run, previous := none }).mapCmds fun c => { c with hearthUp := true }
      ((v.adoptRange.payRecord.emit .monRestart).fabSettle).resumeWarm.pumpLines) := by
  change execHearthReturn t s = _
  simp only [execHearthReturn, State.at_pwr, hst, bne_self_eq_false, Bool.false_eq_true, if_false]
  rfl

end

/-! ## Reference clocks and PLLs (R509 to R511) -/

section
variable {s : State} {b : Bool} {t : Nat}

/-- The loss of the input in use is acted on; `u` is the state without it. -/
theorem exec_refclkLost_of_selected {u : State} (hu : u = (s.at t).setFld (clkOk b) 0) (hst : s.pwr.st ≠ .reset)
    (hsel : u.flag CKP_CLK_STAT_fSEL = b) (hok : s.flag (clkOk b) = true) :
    exec (.refclkLost b t) s = .next (
      if u.flag (clkOk !b) then
        (((u.takeClock !b).setFld CKP_CLK_STAT_fFAIL_SEEN 1).bump CKP_CLK_STAT_fFAIL_CNT).corrected (0x1700 + b2n b) 0 (b2n b)
      else if u.cmds.hearthUp || u.pwr.st == .restart then u.fatal { checker := 0x1700 + b2n b, unit := b2n b }
      else (u.record { checker := 0x1700 + b2n b, cls := 2, unit := b2n b }).coldReset false) := by
  change execRefclkLost b t s = _
  have hst' : (u.pwr.st == .reset) = false := by
    rw [hu]
    exact beq_false_of_ne hst
  rw [execRefclkLost, ← hu]
  simp only [hst', hsel, hok, bne_self_eq_false, Bool.not_true, Bool.or_self, Bool.false_eq_true, if_false]

theorem exec_refclkLost_failsOver (hst : s.pwr.st ≠ .reset) (hsel : ((s.at t).setFld (clkOk b) 0).flag CKP_CLK_STAT_fSEL = b)
    (hok : s.flag (clkOk b) = true) (hother : ((s.at t).setFld (clkOk b) 0).flag (clkOk !b) = true) :
    exec (.refclkLost b t) s = .next
      ((((((s.at t).setFld (clkOk b) 0).takeClock !b).setFld CKP_CLK_STAT_fFAIL_SEEN 1).bump CKP_CLK_STAT_fFAIL_CNT).corrected
        (0x1700 + b2n b) 0 (b2n b)) := by
  rw [exec_refclkLost_of_selected rfl hst hsel hok, if_pos hother]

theorem exec_refclkLost_of_last (hst : s.pwr.st ≠ .reset) (hsel : ((s.at t).setFld (clkOk b) 0).flag CKP_CLK_STAT_fSEL = b)
    (hok : s.flag (clkOk b) = true) (hother : ((s.at t).setFld (clkOk b) 0).flag (clkOk !b) = false)
    (hup : s.cmds.hearthUp = true) :
    exec (.refclkLost b t) s = .next (((s.at t).setFld (clkOk b) 0).fatal { checker := 0x1700 + b2n b, unit := b2n b }) := by
  rw [exec_refclkLost_of_selected rfl hst hsel hok, if_neg (by simp [hother]), if_pos (by simp [hup])]

/-- An input that is valid again changes nothing else in a switch that does not wait for one. -/
theorem exec_refclkValid (s : State) (b : Bool) :
    exec (.refclkValid b) s = .next (
      if s.pwr.st = .reset ∧ s.pwr.released = true then (s.setFld (clkOk b) 1).bootCold else s.setFld (clkOk b) 1) := by
  change execRefclkValid b s = _
  simp only [execRefclkValid, State.setFld_pwr, Bool.and_eq_true, beq_iff_eq]

theorem exec_ckpSwitch_of_valid {path : Path} (hopen : PathWrites s path)
    (hother : s.flag (clkOk !s.flag CKP_CLK_STAT_fSEL) = true) :
    exec (.ckpSwitch path) s = .next ((s.takeClock !s.flag CKP_CLK_STAT_fSEL).pathAnswers path) := by
  change execCkpSwitch path s = _
  simp only [execCkpSwitch, regWrite_accepted _ _ hopen, State.switchClock, hother, if_true]

theorem exec_pllLockLoss_of_group {x : BitVec 6} (hx : x.toNat ≤ 32) :
    exec (.pllLockLoss (some x) t) s = .next (
      let u := (s.at t).record { checker := 0x1801 + x.toNat, source := if x.toNat < 32 then 2 else 0, unit := x.toNat % 32 }
      if x.toNat = 32 then (List.range 4).foldl (fun a i => a.ringEnable i false) u
      else (u.portsIn x.toNat).foldl (fun a p => a.linkDown p 1) u) :=
  if_neg (Nat.not_lt.2 hx)

end

/-! ## Rails and core voltage (R503, R505, R506) -/

section
variable {s : State} {acked differs : Bool} {measured : BitVec 10}

theorem exec_railOutOfRange_of_left {inRange : BitVec 9} (hreleased : s.pwr.released = true)
    (hleft : (List.range 9).any (fun i => bitOf (s.fld CKP_RAIL_STAT_fIN_RANGE) i && !inRange.getLsbD i) = true) :
    exec (.railOutOfRange inRange) s =
      .next ((s.setFld CKP_RAIL_STAT_fIN_RANGE inRange.toNat).setFld CKP_RAIL_STAT_fOUT_SEEN 1) := by
  change execRailOutOfRange inRange s = _
  simp only [execRailOutOfRange, hreleased, hleft, Bool.and_self, if_true]

/-- While the voltage bus has not failed, an update asks for 5 mV towards the target, or for 800 mV once it fails. -/
theorem exec_avsUpdate_of_run (hen : s.flag CKP_AVS_fEN = true) (hst : s.pwr.st = .run) (hsound : s.pwr.avsFail = false) :
    exec (.avsUpdate acked measured differs) s = .next (
      let m := s.setFld CKP_AVS_STAT_fMEAS_MV measured.toNat
      if acked = false ∨ differs = true then
        let f := ((m.setFld CKP_AVS_STAT_fBUS_ERR 1).mapPwr fun p => { p with avsFail := true }).record { checker := 0x4f00 }
        (f.setFld CKP_AVS_STAT_fREQ_MV 800).emit (.avs 800)
      else
        let mv := avsToward (s.fld CKP_AVS_STAT_fREQ_MV) (avsTarget Config.fuseMv.toNat (Config.hours + s.pwr.hours))
        (m.setFld CKP_AVS_STAT_fREQ_MV mv).emit (.avs mv)) := by
  change execAvsUpdate acked measured differs s = _
  have hruns : (!s.flag CKP_AVS_fEN || s.pwr.st == .reset || s.pwr.st == .recovery || s.pwr.st == .restart) = false := by
    rw [hen, hst]
    rfl
  have hfails : (!s.pwr.avsFail && (!acked || differs)) = (!acked || differs) := by rw [hsound, Bool.not_false, Bool.true_and]
  rw [execAvsUpdate, hruns, hfails]
  by_cases h : acked = false ∨ differs = true
  · have hbad : (!acked || differs) = true := by simpa using h
    simp only [h, hbad, if_true, Bool.false_eq_true, if_false, State.record_pwr, State.mapPwr_sets]
  · have hgood : (!acked || differs) = false := by simpa using h
    simp only [h, hgood, Bool.false_eq_true, if_false, State.setFld_pwr, hsound]

end

/-! ## Adoption that the device holds up (R34, R318) -/

theorem exec_cxlIoCompletionTimeout_of_adopting {s : State} {port : Port} (hbusy : s.busyWith (· == .poolAdopt port.toNat) = true) :
    exec (.cxlIoCompletionTimeout port) s = .next
      (s.free.2.finish (fun c => c.work == .poolAdopt port.toNat) ⟨.faulted, s.free.1.toNat % 65536, []⟩) :=
  if_pos hbusy

end Sys2Proof.Machine

namespace Sys2Proof.Proofs

open Sys2Proof Sys2Proof.Machine

/-- Settles O45: each clause is a branch of its row, taken where the clause's conditions hold. -/
theorem startUpClocksAndRailsComplete : Obligations.StartUpClocksAndRailsComplete := by
  unfold Obligations.StartUpClocksAndRailsComplete
  refine ⟨?resetRelease, fun _ _ _ _ _ => exec_hearthUp_of_cold, fun _ _ _ _ _ => exec_hearthUp_of_warm,
    fun _ _ _ => exec_refclkLost_failsOver, fun _ _ _ => exec_refclkLost_of_last, ?validRunning, ?validAwaited,
    fun _ _ => exec_ckpSwitch_of_valid, fun _ _ => rfl, fun _ _ _ => exec_pllLockLoss_of_group,
    fun _ _ => exec_railOutOfRange_of_left, ?avsStep, ?avsFails, fun _ => rfl, fun _ _ => rfl,
    fun _ _ _ => exec_firmwareFallback_of_due, fun _ _ => exec_hearthReturn_of_restart, fun _ _ => rfl,
    fun _ _ => exec_cxlIoCompletionTimeout_of_adopting⟩
  case resetRelease =>
    intro s ehrec slotOk strap ⟨hst, hheld⟩ href
    exact exec_resetRelease_of_reference hst hheld href
  case validRunning =>
    intro s b hst
    rw [exec_refclkValid, if_neg fun h => hst h.1]
  case validAwaited =>
    intro s b hwaits
    rw [exec_refclkValid, if_pos hwaits]
  case avsStep =>
    intro s measured hen hst hsound
    rw [exec_avsUpdate_of_run hen hst hsound]
    exact congrArg _ (if_neg (by decide))
  case avsFails =>
    intro s acked differs measured hen hst hsound hbad
    rw [exec_avsUpdate_of_run hen hst hsound]
    exact congrArg _ (if_pos hbad)

end Sys2Proof.Proofs
end

section
/-! What follows for the row of a Dermel command that the Hearth serves, once its parameters are sound (R426, R430), and what the
checks ask of the names among them (R563). -/

namespace Sys2Proof.Machine

/-! ## A command that the Hearth serves -/

section
variable {s s1 : State} {i : Instr} {h : Hdr} {c : Cmd}

theorem exec_answers (hrow : rowCmd i = some (h, c)) (ha : s.accepts h c = true) {data : List Byte}
    (hrun : c.run s = .ok data s1) : exec i s = .next (s1.answers h c.opcode data) := by
  rw [exec_rowCmd hrow, dermel_ok ha hrun]

theorem exec_waits (hrow : rowCmd i = some (h, c)) (ha : s.accepts h c = true) (hp : s.pendRoom c.most) {w : Work}
    (hrun : c.run s = .pending w [] s1) : exec i s = .next (s1.waits h c.opcode c.most w) := by
  rw [exec_rowCmd hrow, dermel_pending ha (pendRoom_canPend hp) hrun, pends_waits]

/-- A served command that takes neither BANK nor FORCE and is permitted in every lifecycle state is accepted once its Room and its
parameters are sound. -/
theorem accepts_of_serves {room : Bool} (hs : s.serves h c.opcode room) (hr : room = true → c.room s h.room.toNat = true)
    (hbad : c.bad s = none) (hn : ∀ f ∈ c.names, s.fidClosing f = false) (hb : c.bank = false) (hl : c.life s = true) :
    s.accepts h c = true :=
  serves_accepts hs hr hb nofun hn hbad hl

end

/-! ## What the checks ask of names (R563) -/

section
variable {s : State} {w host : Nat} {x : Window} {b : Binding}

theorem State.noWin_of_win (hwin : s.win? w = some x) : s.noWin w = false := by
  rw [State.noWin, hwin]
  rfl

theorem State.win_of_bind (h : (s.win? w).bind (·.bind? host) = some b) :
    ∃ x, s.win? w = some x ∧ x.bind? host = some b :=
  Option.bind_eq_some_iff.1 h

theorem State.noBind_of_bind (hwin : s.win? w = some x) (hbind : x.bind? host = some b) : s.noBind w host = false := by
  simp only [State.noBind, hwin, hbind, Option.isNone_some]

theorem State.ownRoom_of_local {froom fid r : Nat} (hlocal : s.localRoom froom = some r) (h : (fid == froom) = true) :
    s.ownRoom froom fid = true := by
  rw [State.ownRoom, hlocal, Bool.beq_comm, h]
  rfl

theorem badIndex_of_lt {xs : List Word} (h : xs.all (fun i => i.toNat < x.extents) = true) : badIndex x xs = none := by
  rw [badIndex, Option.map_eq_none_iff, List.find?_eq_none]
  intro i hi
  have hlt : i < xs.length := List.mem_range.1 hi
  have hin : xs[i].toNat < x.extents := by simpa using List.all_eq_true.1 h _ (List.getElem_mem hlt)
  simpa [List.getD, hlt] using hin

end

end Sys2Proof.Machine
end

section
/-! The commands of group 04xxh that adopt and release pool devices, create and destroy windows and read them, the extent map and the
directory (R34 to R40, R48, R55, R437). -/

namespace Sys2Proof.Machine

/-! ## Pool devices (R34 to R37) -/

theorem cmdPoolAdopt_run {s : State} {port : Nat} (hrole : s.role port = rolePool) (hfree : s.devAt port = none)
    (hup : s.inL0 port = true) (hidle : s.busyWith (· == .poolAdopt port) = false) (hfit : (s.port port).unfit = false)
    (hroom : s.pool.devs.length < 64) : (cmdPoolAdopt port).run s = .pending (.poolAdopt port) [] s := by
  simp only [cmdPoolAdopt, hrole, hfree, hup, hidle, hfit, Nat.not_le.2 hroom, bne_self_eq_false, Option.isSome_none, Bool.not_true,
    Bool.or_self, Bool.false_eq_true, if_false]

theorem cmdPoolRelease_run {s : State} {handle : Nat} {d : PoolDev} (hdev : s.dev? handle = some d) (hunused : d.used = []) :
    (cmdPoolRelease handle).run s = .ok [] (s.dropDev handle) := by
  simp only [cmdPoolRelease, hdev, hunused, List.isEmpty_nil, Bool.not_true, Bool.false_eq_true, if_false]

/-! ## Windows (R48, R55) -/

/-- A window that finds its place is ACTIVE at once if nothing has to be zeroed for it, and CREATING until it is. -/
theorem cmdWindowCreate_run {s : State} {p : WinParams} {w b room : Nat} (hplace : s.placeWin p false = .ok (w, b))
    (hlocal : s.localRoom p.froom.toNat = some room) :
    (cmdWindowCreate p).run s =
      let x := s.newWin p w b room .creating
      let u := s.mapPool fun q => { q with wins := NMap.set q.wins w x }
      let r := u.fillWin w x .free (List.range p.extents.toNat)
      if wtypeOf p.type.toNat == .dynamic then .ok (winResult w b) (u.mapWin w fun y => { y with st := .active })
      else if r.1 then .pending (.windowCreate w) [] r.2
      else .ok (winResult w b) ((r.2.mapPool fun q => { q with ext := q.ext.map fun e =>
        if e.2.window == w then (e.1, { e.2 with st := .live }) else e }).mapWin w fun y => { y with st := .active }) := by
  simp only [cmdWindowCreate, hplace, hlocal]
  rfl

theorem cmdWindowCreate_accepts {s : State} {h : Hdr} {p : WinParams} {room : Nat}
    (hs : s.serves h 0x0410 (h.room.toNat == p.froom.toNat)) (hok : s.winOk p false)
    (hopen : s.fidClosing p.froom.toNat = false) (hlocal : s.localRoom p.froom.toNat = some room) :
    s.accepts h (cmdWindowCreate p) = true :=
  accepts_of_serves hs (State.ownRoom_of_local hlocal) (badWin_none hok) (List.forall_mem_singleton.2 hopen) rfl rfl

theorem cmdWindowDestroy_run {s : State} {w : Nat} {x : Window} (hwin : s.win? w = some x) (hunbound : x.binds = [])
    (hst : x.st ≠ .creating ∧ x.st ≠ .destroying) (hhome : x.rehome = none) :
    (cmdWindowDestroy w).run s = .pending (.windowDestroy w) [] (s.mapWin w fun y => { y with st := .destroying }) := by
  obtain ⟨hcreated, hkept⟩ := hst
  simp only [cmdWindowDestroy, hwin, hunbound, hhome, beq_false_of_ne hcreated, beq_false_of_ne hkept, List.isEmpty_nil, Bool.not_true,
    Option.isSome_none, Bool.or_self, Bool.false_eq_true, if_false]

theorem cmdWindowQuery_run {s : State} {w first n : Nat} {x : Window} (hwin : s.win? w = some x) :
    (cmdWindowQuery w first n).run s = .ok (leBytes 1 x.type.code ++ leBytes 1 x.st.code ++
        leBytes 1 ((s.roomFid x.room).getD 0) ++ leBytes 1 x.pmode.code ++ leBytes 4 x.extents ++ leBytes 8 x.base ++
        leBytes 2 x.home ++ leBytes 2 x.binds.length ++ leBytes 12 (b2n x.failed) ++
        ((x.binds.drop first).take n).flatMap fun b =>
          leBytes 2 b.host ++ leBytes 1 b.port ++ leBytes 1 b.st.code ++ leBytes 1 (b2n b.rw) ++ leBytes 1 b.bridge ++ leBytes 2 0 ++
            leBytes 8 b.hpa) s := by
  simp only [cmdWindowQuery, hwin]

/-! ## Reads of the extent map and the directory (R40, R437) -/

/-- With ROOM 00h every entry is read, with another one the valid entries of that Room. -/
theorem cmdExtentRead_run (s : State) (h : Hdr) (x n : Nat) :
    (cmdExtentRead h x n).run s = .ok ((List.range n).flatMap fun i =>
      if h.room = 0 ∨ (s.ext (x + i)).valid = true ∧ some (s.ext (x + i)).room = s.hdrRoom h then
        leBytes 16 (if s.ext (x + i) = Ext.zero then 0 else (s.ext (x + i)).image)
      else leBytes 16 0) s := by
  simp only [cmdExtentRead, Bool.or_eq_true, Bool.and_eq_true, beq_iff_eq]

theorem cmdExtentRead_accepts {s : State} {h : Hdr} {x n : Nat} (hs : s.serves h 0x0440 ((s.localRoom h.room.toNat).isSome))
    (hin : x + n ≤ 2 ^ 20 ∧ 1 ≤ n ∧ n ≤ 64) : s.accepts h (cmdExtentRead h x n) = true := by
  obtain ⟨hend, hsome, hmost⟩ := hin
  refine accepts_of_serves hs id (firstBad_none.2 ?_) nofun rfl rfl
  simp only [List.forall_mem_cons, decide_eq_false_iff_not, Bool.or_eq_false_iff]
  exact ⟨by omega, by omega, nofun⟩

/-- The last 16 bytes of DIR_READ: the cache entry of the line and its flags, or zeros (R437). -/
def dirCacheRecord : Option CEnt → List Byte
  | some e => leBytes 12 e.image ++ leBytes 4 (1 + 2 * b2n e.dirty)
  | none => leBytes 16 0

theorem cmdDirRead_run (s : State) (pa : Nat) :
    (cmdDirRead pa).run s = .ok (
      ((List.range 16).flatMap fun w => leBytes 16 (s.dirEnt (dirKey (lineHu (pa / 64)) (dirSet (pa / 64)) w)).image) ++
      dirCacheRecord ((s.cacheFind (pa / 64)).bind s.cacheEnt?)) s := by
  cases hent : (s.cacheFind (pa / 64)).bind s.cacheEnt? with
  | none => simp only [cmdDirRead, hent, List.append_assoc]; rfl
  | some e => simp only [cmdDirRead, hent, List.append_assoc, dirCacheRecord]

theorem cmdDirRead_room {s : State} {pa fid : Nat} (h : ((s.winOfLine (pa / 64)).any fun w => s.winRoom w fid) = true) :
    (cmdDirRead pa).room s fid = true := by
  obtain ⟨w, hwin, hroom⟩ := (Option.any_eq_true _ _).1 h
  simp only [cmdDirRead, hwin, hroom]

end Sys2Proof.Machine

namespace Sys2Proof.Proofs

open Sys2Proof Sys2Proof.Machine

/-- Settles O4: each command is accepted, and its own rules answer as the clause says. -/
theorem poolAndWindowCommandsComplete : Obligations.PoolAndWindowCommandsComplete := by
  unfold Obligations.PoolAndWindowCommandsComplete
  refine ⟨?adopt, ?release, ?list, ?createDynamic, ?createZeroed, ?createClean, ?destroy, ?query, ?readAll, ?readRoom, ?directory⟩
  case adopt =>
    intro s h port hs hexists hfit hp hrole hfree hup hidle hroom
    have hbad : (cmdPoolAdopt port.toNat).bad s = none := firstBad_none.2 (by simp [hexists])
    exact exec_waits (c := cmdPoolAdopt port.toNat) rfl (accepts_of_serves hs nofun hbad nofun rfl rfl) hp
      (cmdPoolAdopt_run hrole hfree hup hidle hfit hroom)
  case release =>
    intro s h handle d hs hdev hunused
    have hbad : (cmdPoolRelease handle.toNat).bad s = none := firstBad_none.2 (by simp [hdev])
    exact exec_answers (c := cmdPoolRelease handle.toNat) rfl (accepts_of_serves hs nofun hbad nofun rfl rfl)
      (cmdPoolRelease_run hdev hunused)
  case list =>
    intro s h hs
    exact exec_answers (c := cmdPoolList) rfl (accepts_of_serves hs nofun rfl nofun rfl rfl) rfl
  case createDynamic =>
    intro s h p w b room hs hok hopen hplace hlocal hdyn
    refine exec_answers (c := cmdWindowCreate p) rfl (cmdWindowCreate_accepts hs hok hopen hlocal)
      ((cmdWindowCreate_run hplace hlocal).trans ?_)
    exact if_pos (beq_iff_eq.2 hdyn)
  case createZeroed =>
    intro s h p w b room hs hok hopen hp hplace hlocal hfixed hunclean
    refine exec_waits (c := cmdWindowCreate p) rfl (cmdWindowCreate_accepts hs hok hopen hlocal) hp
      ((cmdWindowCreate_run hplace hlocal).trans ?_)
    exact (if_neg (ne_true_of_eq_false hfixed)).trans (if_pos hunclean)
  case createClean =>
    intro s h p w b room hs hok hopen hplace hlocal hfixed hclean
    refine exec_answers (c := cmdWindowCreate p) rfl (cmdWindowCreate_accepts hs hok hopen hlocal)
      ((cmdWindowCreate_run hplace hlocal).trans ?_)
    exact (if_neg (ne_true_of_eq_false hfixed)).trans (if_neg (ne_true_of_eq_false hclean))
  case destroy =>
    intro s h window x hs hp hwin hunbound hst hhome
    have hbad : (cmdWindowDestroy window.toNat).bad s = none := firstBad_none.2 (by simp [State.noWin_of_win hwin])
    exact exec_waits (c := cmdWindowDestroy window.toNat) rfl (accepts_of_serves hs id hbad nofun rfl rfl) hp
      (cmdWindowDestroy_run hwin hunbound hst hhome)
  case query =>
    intro s h window first n x hs hn hwin
    have hbad : (cmdWindowQuery window.toNat first.toNat n.toNat).bad s = none :=
      firstBad_none.2 (by simp [State.noWin_of_win hwin, hn])
    exact exec_answers (c := cmdWindowQuery window.toNat first.toNat n.toNat) rfl (accepts_of_serves hs id hbad nofun rfl rfl)
      (cmdWindowQuery_run hwin)
  case readAll =>
    intro s h x n hs hin hroom
    refine exec_answers (c := cmdExtentRead h x.toNat n.toNat) rfl (cmdExtentRead_accepts hs hin)
      ((cmdExtentRead_run s h x.toNat n.toNat).trans ?_)
    simp only [hroom, true_or, if_true]
  case readRoom =>
    intro s h x n hs hin hroom
    refine exec_answers (c := cmdExtentRead h x.toNat n.toNat) rfl (cmdExtentRead_accepts hs hin)
      ((cmdExtentRead_run s h x.toNat n.toNat).trans ?_)
    simp only [beq_eq_false_iff_ne.1 hroom, false_or]
  case directory =>
    intro s h pa hs hpa
    have hbad : (cmdDirRead pa.toNat).bad s = none := firstBad_none.2 (by simpa using hpa)
    exact exec_answers (c := cmdDirRead pa.toNat) rfl (accepts_of_serves hs cmdDirRead_room hbad nofun rfl rfl)
      (cmdDirRead_run s pa.toNat)

end Sys2Proof.Proofs
end

section
/-! The commands of group 04xxh that bind and unbind windows, add and release capacity and start a re-homing (R52 to R63, R437). -/

namespace Sys2Proof.Machine

/-! ## Bindings (R52 to R54) -/

theorem cmdWindowBind_run {s : State} {w host port access hpa : Nat} {x : Window} (hwin : s.win? w = some x)
    (hbindable : s.bindRefusal host port hpa x = none) :
    (cmdWindowBind w host port access hpa).run s = .pending (.windowBind w host) [] (s.mapWin w fun y => { y with binds := y.binds ++
      [{ host := host, port := port, st := .binding, rw := access == 1, hpa := hpa, bridge := s.freeBridge port }] }) := by
  simp only [cmdWindowBind, hwin, hbindable]

/-- An unbind that R54 does not refuse waits for the host, but not with FORCE or for a binding that a snoop timeout failed. -/
theorem cmdWindowUnbind_run {s : State} {force : Bool} {w host timeout : Nat} {b : Binding}
    (hbind : (s.win? w).bind (·.bind? host) = some b) (hst : b.st ≠ .binding ∧ b.st ≠ .unbinding) :
    (cmdWindowUnbind force w host timeout).run s =
      let u := s.mapBind w host fun y => { y with st := .unbinding }
      if force = true ∨ b.r96 = true then .pending (.windowUnbind w host) [] (u.unbind2 w host)
      else .pending (.windowUnbind w host) [] ((u.mapBind w host fun y =>
        { y with deadline := some (s.now + (if timeout = 0 then 5000 else timeout) * 1000000) }).bridgeMsg b.port host b.bridge
          evtAttention) := by
  obtain ⟨hbound, hkept⟩ := hst
  simp only [cmdWindowUnbind, hbind, beq_false_of_ne hbound, beq_false_of_ne hkept, Bool.or_eq_true, Bool.false_eq_true, or_self,
    if_false]

theorem cmdWindowUnbind_accepts {s : State} {h : Hdr} {w host timeout : Nat} {b : Binding}
    (hs : s.serves h 0x0421 (s.winRoom w h.room.toNat) false true) (htimeout : timeout = 0 ∨ (100 ≤ timeout ∧ timeout ≤ 60000))
    (hbind : (s.win? w).bind (·.bind? host) = some b) : s.accepts h (cmdWindowUnbind h.force w host timeout) = true := by
  obtain ⟨x, hwin, hbinding⟩ := State.win_of_bind hbind
  have hbound : s.noBind w host = false := State.noBind_of_bind hwin hbinding
  refine serves_accepts hs (fun hroom => ?_) rfl (fun _ => rfl) nofun (firstBad_none.2 ?_) rfl
  · change (s.winRoom w h.room.toNat && !s.noBind w host) = true
    rw [hroom, hbound]
    rfl
  · simp only [List.forall_mem_cons, State.noWin_of_win hwin, hbound, true_and]
    refine ⟨?_, nofun⟩
    simp only [Bool.and_eq_false_iff, bne_eq_false_iff_eq, Bool.or_eq_false_iff, decide_eq_false_iff_not]
    omega

/-! ## Dynamic capacity (R56, R57) -/

theorem cmdDcAdd_run {s : State} {w : Nat} {xs : List Word} {x : Window} {b : Binding} {is : List Nat}
    (hwin : s.win? w = some x) (hbound : x.boundOne = some b) (his : is = (xs.map (·.toNat)).eraseDups)
    (hfree : is.all (fun i => !(s.ext (x.baseX + i)).valid) = true) (hroom : is.length ≤ s.freeOf x.house x.devs) :
    (cmdDcAdd w xs).run s = .pending (.dcAdd w x.nextOffer) []
      (((s.fillWin w x .offered is).2.mapWin w fun y => { y with
        offers := y.offers ++ [{ id := x.nextOffer, xs := is, deadline := s.now + 5000000000 }],
        nextOffer := y.nextOffer + 1 }).bindEvent w b.host 0 is) := by
  have hnone : is.any (fun i => (s.ext (x.baseX + i)).valid) = false := by rw [List.any_eq_not_all_not, hfree]; rfl
  simp only [cmdDcAdd, hwin, hbound, ← his, hnone, Nat.not_lt.2 hroom, Bool.false_eq_true, if_false]

theorem cmdDcRelease_run {s : State} {force : Bool} {w : Nat} {xs : List Word} {x : Window} {b : Binding} {is : List Nat}
    (hwin : s.win? w = some x) (hbound : x.boundOne = some b) (his : is = (xs.map (·.toNat)).eraseDups)
    (hlive : is.all (fun i => (s.ext (x.baseX + i)).valid && (s.ext (x.baseX + i)).st == .live) = true) :
    (cmdDcRelease force w xs).run s = .pending (.dcRelease w is force (s.now + 5000000000)) []
      ((is.foldl (fun a i => a.setExt (x.baseX + i) { a.ext (x.baseX + i) with st := .releasing }) s).bindEvent w b.host 1 is) := by
  have hnone : is.any (fun i => !(s.ext (x.baseX + i)).valid || (s.ext (x.baseX + i)).st != .live) = false := by
    simpa only [List.any_eq_not_all_not, Bool.not_or, Bool.not_not, bne, Bool.not_eq_false'] using hlive
  simp only [cmdDcRelease, hwin, hbound, ← his, hnone, Bool.false_eq_true, if_false]

/-- The capacity commands ask for a dynamic capacity window and indexes inside it. -/
theorem cmdDcAdd_bad {s : State} {w : Nat} {xs : List Word} {x : Window} (hwin : s.win? w = some x)
    (hdyn : x.type = .dynamic ∧ xs.all (fun i => i.toNat < x.extents) = true) : (cmdDcAdd w xs).bad s = none := by
  simp only [cmdDcAdd, hwin, hdyn.1, bne_self_eq_false, Bool.false_eq_true, if_false, badIndex_of_lt hdyn.2]

theorem cmdDcRelease_bad {s : State} {force : Bool} {w : Nat} {xs : List Word} {x : Window} (hwin : s.win? w = some x)
    (hdyn : x.type = .dynamic ∧ xs.all (fun i => i.toNat < x.extents) = true) : (cmdDcRelease force w xs).bad s = none :=
  cmdDcAdd_bad hwin hdyn

/-! ## Re-homing (R58, R59, R63) -/

theorem cmdRehomePrepare_run {s : State} {h : Hdr} {p : WinParams} {w b room : Nat} {r : Room}
    (hlocal : s.localRoom p.froom.toNat = some room) (hroom : s.room? room = some r) (hplace : s.placeWin p true = .ok (w, b))
    (hcovers : r.covers (b * 65536) (p.extents.toNat * 65536) = true) :
    (cmdRehomePrepare h p).run s =
      let q := s.incomingWin h p w b room
      .ok (leBytes 4 w)
        ((q.2.mapPool fun y => { y with wins := NMap.set y.wins w q.1 }).fillWin w q.1 .live (List.range p.extents.toNat)).2 := by
  have hsize : (s.incomingWin h p w b room).1.extents = p.extents.toNat := rfl
  simp only [cmdRehomePrepare, hlocal, hplace, hroom, hsize, hcovers, Bool.not_true, Bool.false_eq_true, if_false]

/-- The migrations that copy the extents `xs` of window `w` to extents of the new home `bid` from `v` on (R59, log 26). -/
def State.copyMigs (s : State) (w bid v : Nat) (x : Window) (xs : List Nat) : List Mig :=
  xs.map fun i => { x := i, win := w, dstHouse := false, dstDev := 0, oldHouse := (s.ext i).srcHouse, oldDev := (s.ext i).srcDev,
                    cmd := false, remote := some (bid, (v + (i - x.baseX)) % 2 ^ 24) }

/-- Their jobs, of Room 0, numbered from `n` on. -/
def copyJobs (n : Nat) (xs : List Nat) : List Job :=
  ((List.range xs.length).zip xs).map fun p => { id := n + p.1, room := 0, kind := .mig p.2 }

theorem cmdRehomeStart_run {s : State} {w bid bwin age : Nat} {x : Window} (hwin : s.win? w = some x)
    (hst : x.st = .active ∧ x.rehome = none ∧ x.failed = false)
    (hlive : (s.validExts x).all (fun i => (s.ext i).st == .live && (s.mig? i).isNone) = true) :
    (cmdRehomeStart w bid bwin age).run s =
      let r : Rehome := { old := true, peer := bid, peerWin := bwin, mode := x.pmode, age := if age = 0 then 20000 else age }
      let u := (s.free.2.mapWin w fun y => { y with st := .copying, pmode := .wt, grant := false, rehome := some r }).startClean none w
        false (s.free.2.dirtyOf x)
      .pending (.rehome w) [] (u.mapMov fun m => { m with
        migs := m.migs ++ s.copyMigs w bid s.free.1.toNat x (s.validExts x)
        queue := m.queue ++ copyJobs s.mov.nextJob (s.validExts x)
        nextJob := s.mov.nextJob + (s.validExts x).length }) := by
  obtain ⟨hactive, hhome, hsound⟩ := hst
  have hnone : (s.validExts x).any (fun i => (s.ext i).st != .live || (s.mig? i).isSome) = false := by
    simpa only [List.any_eq_not_all_not, Bool.not_or, bne, Bool.not_not, Option.not_isSome, Bool.not_eq_false'] using hlive
  simp only [cmdRehomeStart, hwin, hactive, hhome, hsound, hnone, bne_self_eq_false, Option.isSome_none, Bool.or_self,
    Bool.false_eq_true, if_false]
  rfl

theorem cmdRehomeStart_bad {s : State} {w bid bwin age : Nat} {x : Window} (hwin : s.win? w = some x) (hbid : bid ≤ 4095)
    (hbwin : bwin ≤ 4095) (hage : age = 0 ∨ (1000 ≤ age ∧ age ≤ 100000)) : (cmdRehomeStart w bid bwin age).bad s = none := by
  refine firstBad_none.2 ?_
  simp only [List.forall_mem_cons, State.noWin_of_win hwin, decide_eq_false_iff_not, Bool.and_eq_false_iff, bne_eq_false_iff_eq,
    Bool.or_eq_false_iff, true_and]
  exact ⟨by omega, by omega, by omega, nofun⟩

theorem cmdRehomeStatus_run {s : State} {w : Nat} {x : Window} (hwin : s.win? w = some x) :
    (cmdRehomeStatus w).run s =
      .ok (leBytes 4 x.st.code ++ leBytes 4 ((x.rehome.map (·.copied)).getD 0) ++ leBytes 4 (s.winTrk w)) s := by
  cases hhome : x.rehome <;> simp only [cmdRehomeStatus, hwin, hhome, Option.map_none, Option.map_some, Option.getD_none, Option.getD_some]

end Sys2Proof.Machine

namespace Sys2Proof.Proofs

open Sys2Proof Sys2Proof.Machine

/-- Settles O5: each command is accepted, and its own rules leave the binding, the extents or the re-homing as the clause says. -/
theorem bindingAndCapacityCommandsComplete : Obligations.BindingAndCapacityCommandsComplete := by
  unfold Obligations.BindingAndCapacityCommandsComplete
  refine ⟨?bind, ?unbindForced, ?unbind, ?dcAdd, ?dcRelease, ?prepare, ?start, ?status⟩
  case bind =>
    rintro s h window host port access hpa x b hs ⟨hhost, haccess⟩ ⟨hexists, hrole⟩ hp hwin hbindable rfl
    have hbad : (cmdWindowBind window.toNat host.toNat port.toNat access.toNat hpa.toNat).bad s = none :=
      firstBad_none.2 (by simp [State.noWin_of_win hwin, hhost, hexists, hrole, haccess])
    exact exec_waits (c := cmdWindowBind window.toNat host.toNat port.toNat access.toNat hpa.toNat) rfl
      (accepts_of_serves hs id hbad nofun rfl rfl) hp (cmdWindowBind_run hwin hbindable)
  case unbindForced =>
    intro s h window host timeout b hs htimeout hp hbind hst hforced
    exact exec_waits (c := cmdWindowUnbind h.force window.toNat host.toNat timeout.toNat) rfl
      (cmdWindowUnbind_accepts hs htimeout hbind) hp ((cmdWindowUnbind_run hbind hst).trans (if_pos hforced))
  case unbind =>
    rintro s h window host timeout b d hs htimeout hp hbind hst ⟨hforce, hfailed⟩ rfl
    have hwaits : ¬ (h.force = true ∨ b.r96 = true) := by simp [hforce, hfailed]
    exact exec_waits (c := cmdWindowUnbind h.force window.toNat host.toNat timeout.toNat) rfl
      (cmdWindowUnbind_accepts hs htimeout hbind) hp ((cmdWindowUnbind_run hbind hst).trans (if_neg hwaits))
  case dcAdd =>
    rintro s h window xs x b is o hs hdyn hp hwin hbound his hfree hroom rfl
    exact exec_waits (c := cmdDcAdd window.toNat xs) rfl (accepts_of_serves hs id (cmdDcAdd_bad hwin hdyn) nofun rfl rfl) hp
      (cmdDcAdd_run hwin hbound his hfree hroom)
  case dcRelease =>
    intro s h window xs x b is hs hdyn hp hwin hbound his hlive
    exact exec_waits (c := cmdDcRelease h.force window.toNat xs) rfl
      (serves_accepts hs id rfl (fun _ => rfl) nofun (cmdDcRelease_bad hwin hdyn) rfl) hp (cmdDcRelease_run hwin hbound his hlive)
  case prepare =>
    intro s h p w b room r hs hok hopen hlocal hroom hplace hcovers
    exact exec_answers (c := cmdRehomePrepare h p) rfl
      (accepts_of_serves hs (State.ownRoom_of_local hlocal) (badWin_none hok) (List.forall_mem_singleton.2 hopen) rfl rfl)
      (cmdRehomePrepare_run hlocal hroom hplace hcovers)
  case start =>
    rintro s h window bid bwin age x hs ⟨hbid, hbwin, hage⟩ hp hwin hst hlive
    exact exec_waits (c := cmdRehomeStart window.toNat bid.toNat bwin.toNat age.toNat) rfl
      (accepts_of_serves hs id (cmdRehomeStart_bad hwin hbid hbwin hage) nofun rfl rfl) hp (cmdRehomeStart_run hwin hst hlive)
  case status =>
    intro s h window x hs hwin
    have hbad : (cmdRehomeStatus window.toNat).bad s = none := firstBad_none.2 (by simp [State.noWin_of_win hwin])
    refine ⟨(x.rehome.map (·.copied)).getD 0, ?_, fun hnone => by rw [hnone]; rfl, fun r hsome => by rw [hsome]; rfl⟩
    exact exec_answers (c := cmdRehomeStatus window.toNat) rfl (accepts_of_serves hs id hbad nofun rfl rfl) (cmdRehomeStatus_run hwin)

end Sys2Proof.Proofs
end

section
/-! The commands of group 07xxh: the Mover's queue and channels, and the migration of extents (R254 to R256, R267 to R275, R277). -/

namespace Sys2Proof.Machine

/-! ## The Mover's commands (R277) -/

theorem cmdMoverJob_run {s : State} {h : Hdr} {head r : Nat} (hroom : s.hdrRoom h = some r)
    (hfull : (s.mov.queue.filter fun j => j.room == r).length < 1024) :
    (cmdMoverJob h head).run s = .pending (.moverJob s.mov.nextJob) [] (s.mapMov fun m => { m with
      nextJob := s.mov.nextJob + 1, queue := m.queue ++ [{ id := s.mov.nextJob, room := r, kind := .list head }] }) := by
  simp only [cmdMoverJob, hroom, Nat.not_le.2 hfull, if_false]

theorem State.notIn_iff {s : State} {w x : Nat} {y : Window} (hwin : s.win? w = some y) :
    s.notIn w x = false ↔ y.baseX ≤ x ∧ x < y.baseX + y.extents := by
  simp only [State.notIn, hwin, Bool.or_eq_false_iff, decide_eq_false_iff_not, Nat.not_lt, Nat.not_le]

theorem State.noWin_of_in {s : State} {w x : Nat} (h : s.notIn w x = false) : s.noWin w = false := by
  cases hwin : s.win? w with
  | none => simp [State.notIn, hwin] at h
  | some y => exact State.noWin_of_win hwin

theorem cmdExtentMigrate_run {s : State} {w x dst house : Nat} {y : Window} (hwin : s.win? w = some y)
    (hst : y.st ≠ .handoffOut ∧ y.st ≠ .proxy ∧ y.st ≠ .incoming ∧ y.st ≠ .copying)
    (hlive : (s.ext x).valid = true ∧ (s.ext x).st = .live) (hmig : s.mig? x = none)
    (hchan : s.mov.chans.any (fun c => c.2.en && c.2.room == some 0) = true) (htake : (s.takeOne (house == 1) dst).isSome = true)
    (hfull : (s.mov.queue.filter fun j => j.room == 0).length < 1024) :
    (cmdExtentMigrate w x dst house).run s = .pending (.migrate w x) [] (s.mapMov fun q => { q with
      nextJob := s.mov.nextJob + 1
      migs := q.migs ++ [{ x := x, win := w, dstHouse := house == 1, dstDev := dst, oldHouse := (s.ext x).srcHouse,
                           oldDev := (s.ext x).srcDev }]
      queue := q.queue ++ [{ id := s.mov.nextJob, room := 0, kind := .mig x }] }) := by
  obtain ⟨hout, hproxy, hin, hcopying⟩ := hst
  obtain ⟨hvalid, hext⟩ := hlive
  have htaken : (s.takeOne (house == 1) dst).isNone = false := by rw [← Option.not_isSome, htake]; rfl
  simp only [cmdExtentMigrate, hwin, hvalid, hext, hmig, hchan, htaken, beq_false_of_ne hout, beq_false_of_ne hproxy,
    beq_false_of_ne hin, beq_false_of_ne hcopying, decide_eq_false (Nat.not_le.2 hfull), Bool.not_true, bne_self_eq_false,
    Option.isSome_none, Bool.or_self, Bool.false_eq_true, if_false]

theorem cmdMigrateStatus_run {s : State} {w x : Nat} {m : Mig} (hmig : s.mig? x = some m) :
    (cmdMigrateStatus w x).run s = .ok (leBytes 4 m.step ++ leBytes 4 m.copied) s := by
  simp only [cmdMigrateStatus, hmig]

/-- Before the switch a migration is abandoned, at once while it waits in the queue. -/
theorem cmdMigrateAbort_run {s : State} {w x : Nat} {m : Mig} (hmig : s.mig? x = some m) (hstep : m.step < 3 ∨ m.step = 4) :
    (cmdMigrateAbort w x).run s =
      if s.mov.queue.any (fun j => j.kind == .mig x) then .ok [] (s.migAbandon x .aborted)
      else .ok [] (s.mapMig x fun y => { y with step := 4 }) := by
  have hearly : ¬ (3 ≤ m.step ∧ m.step ≠ 4) := by omega
  simp only [cmdMigrateAbort, hmig, Bool.and_eq_true, decide_eq_true_eq, bne_iff_ne, hearly, if_false]

/-- The parameters that name a migration. -/
theorem cmdMigrateStatus_bad {s : State} {w x : Nat} {m : Mig} (hin : s.notIn w x = false) (hmig : s.mig? x = some m) :
    (cmdMigrateStatus w x).bad s = none :=
  firstBad_none.2 (by simp [State.noWin_of_in hin, hin, hmig])

theorem cmdMigrateAbort_bad {s : State} {w x : Nat} {m : Mig} (hin : s.notIn w x = false) (hmig : s.mig? x = some m) :
    (cmdMigrateAbort w x).bad s = none :=
  cmdMigrateStatus_bad hin hmig

end Sys2Proof.Machine

namespace Sys2Proof.Proofs

open Sys2Proof Sys2Proof.Machine

/-- Settles O7: each command is accepted, and its own rules act on the queue, the channel or the migration that it names. -/
theorem moverCommandsComplete : Obligations.MoverCommandsComplete := by
  unfold Obligations.MoverCommandsComplete
  refine ⟨?job, ?resume, ?enable, ?query, ?migrate, ?status, ?abortQueued, ?abortRunning⟩
  case job =>
    rintro s h head r hs ⟨halign, hhead⟩ hp hroom hfull
    have hbad : (cmdMoverJob h head.toNat).bad s = none := by
      refine firstBad_none.2 ?_
      simp only [List.forall_mem_singleton, halign, bne_self_eq_false, Bool.false_or, decide_eq_false (Nat.not_le.2 hhead)]
    exact exec_waits (c := cmdMoverJob h head.toNat) rfl (accepts_of_serves hs id hbad nofun rfl rfl) hp
      (cmdMoverJob_run hroom hfull)
  case resume =>
    rintro s h ch action hs ⟨hch, haction⟩
    have hbad : (cmdMoverChResume ch.toNat action.toNat).bad s = none := firstBad_none.2 (by simp [hch, haction])
    exact exec_answers (c := cmdMoverChResume ch.toNat action.toNat) rfl (accepts_of_serves hs id hbad nofun rfl rfl) rfl
  case enable =>
    rintro s h ch en hs ⟨hch, hen⟩
    have hbad : (cmdMoverChEnable ch.toNat en.toNat).bad s = none := firstBad_none.2 (by simp [hch, hen])
    exact exec_answers (c := cmdMoverChEnable ch.toNat en.toNat) rfl (accepts_of_serves hs id hbad nofun rfl rfl) rfl
  case query =>
    intro s h hs
    exact exec_answers (c := cmdMoverQuery) rfl (accepts_of_serves hs nofun rfl nofun rfl rfl) rfl
  case migrate =>
    rintro s h window x dst house y m hs hin hdst hp hwin hst hlive hmig hchan htake hfull rfl
    have hbad : (cmdExtentMigrate window.toNat x.toNat dst.toNat house.toNat).bad s = none := by
      refine firstBad_none.2 ?_
      simp only [List.forall_mem_cons, State.noWin_of_win hwin, (State.notIn_iff hwin).2 hin, true_and]
      rcases hdst with hhouse | ⟨hdev, hsome⟩
      · simp [hhouse]
      · simp [hdev, hsome]
    exact exec_waits (c := cmdExtentMigrate window.toNat x.toNat dst.toNat house.toNat) rfl
      (accepts_of_serves hs id hbad nofun rfl rfl) hp (cmdExtentMigrate_run hwin hst hlive hmig hchan htake hfull)
  case status =>
    intro s h window x m hs hin hmig
    exact exec_answers (c := cmdMigrateStatus window.toNat x.toNat) rfl
      (accepts_of_serves hs id (cmdMigrateStatus_bad hin hmig) nofun rfl rfl) (cmdMigrateStatus_run hmig)
  case abortQueued =>
    intro s h window x m hs hin hmig hstep hqueued
    exact exec_answers (c := cmdMigrateAbort window.toNat x.toNat) rfl
      (accepts_of_serves hs id (cmdMigrateAbort_bad hin hmig) nofun rfl rfl)
      ((cmdMigrateAbort_run hmig hstep).trans (if_pos hqueued))
  case abortRunning =>
    intro s h window x m hs hin hmig hstep hrunning
    exact exec_answers (c := cmdMigrateAbort window.toNat x.toNat) rfl
      (accepts_of_serves hs id (cmdMigrateAbort_bad hin hmig) nofun rfl rfl)
      ((cmdMigrateAbort_run hmig hstep).trans (if_neg (ne_true_of_eq_false hrunning)))

end Sys2Proof.Proofs
end

section
/-! Snoop answers and conflicts that a home unit expects (R114 to R117). -/

namespace Sys2Proof.Machine

section
variable {s u : State} {hu : Nat} {plane : Bool} {t w : Nat} {v : VMsg} {x : Window} {k : Trk} {y : Snoop}

/-- A granted answer that the snoop outstanding to its host can have is taken: `n` notes I, S or E. -/
theorem answerRow_takesAnswer {kind : MKind} {n : Nat} (hg : GrantedFor (s.at t) u hu plane v w x)
    (hsound : (s.at t).trkCheck hu = (false, s.at t)) (hshared : x.type = .shared)
    (hsnoop : AwaitsSnoop u (x.lineAt v.off) v.m.host.toNat k y) (hm : v.m.kind = kind) (hblock : v.m.block = false)
    (hexpected : (kind = .biRspI ∧ n = 1) ∨ (kind = .biRspS ∧ n = 2 ∧ (y.kind = .snpData ∨ y.kind = .snpCur)) ∨
      (kind = .biRspE ∧ n = 3 ∧ y.kind = .snpCur)) :
    s.answerRow hu plane t (· == kind) = (u.takesAnswer k v.m.host.toNat n).removeFailed := by
  obtain ⟨hpick, hage, hdrain, hvwin, hwin, rfl⟩ := hg
  subst hm
  have hanswer : v.m.kind ∈ [MKind.biRspI, .biRspS, .biRspE] := by
    rcases hexpected with ⟨h, -⟩ | ⟨h, -⟩ | ⟨h, -⟩ <;> rw [h] <;> decide
  rw [answerRow_pick (k := (· == v.m.kind)) hpick (beq_self_eq_true _) hsound,
    grantMsg_answer hage hdrain hvwin hwin hanswer hshared, hblock, snoopAnswer_taken hsnoop hexpected]

/-- A granted first conflict with the snoop outstanding to its host is acknowledged, or waits for the completions owed. -/
theorem answerRow_conflict (hg : GrantedFor (s.at t) u hu plane v w x)
    (hsound : (s.at t).trkCheck hu = (false, s.at t)) (hsnoop : AwaitsSnoop u (x.lineAt v.off) v.m.host.toNat k y)
    (hm : v.m.kind = .biConflict) (hfirst : (k.snoops.any fun z => z.host == v.m.host.toNat && z.cfl != 0) = false) :
    s.answerRow hu plane t (· == .biConflict) =
      (if (u.owed (x.lineAt v.off) v.m.host.toNat k).isEmpty then
        (u.conflictNoted k v.m.host.toNat).pushHome v.port hu .cmp (.biConflictAck v.m.host.toNat (x.lineAt v.off))
      else ((u.conflictNoted k v.m.host.toNat).mapHome fun h => { h with cfl := h.cfl ++
        [{ hu := hu, host := v.m.host.toNat, line := x.lineAt v.off, port := v.port,
           owed := u.owed (x.lineAt v.off) v.m.host.toNat k }] }).bump (HSL_CFL_STAT_fDEFER_CNT hu)).removeFailed := by
  obtain ⟨hpick, hage, hdrain, hvwin, hwin, rfl⟩ := hg
  rw [answerRow_pick (k := (· == .biConflict)) hpick (beq_iff_eq.2 hm) hsound, grantMsg_conflict hage hdrain hvwin hwin hm,
    conflict_first hsnoop hfirst]

end

end Sys2Proof.Machine

namespace Sys2Proof.Proofs

open Sys2Proof Sys2Proof.Machine

/-- Settles O17: each answer is one that its snoop can have, and a first conflict waits exactly if a completion is owed. -/
theorem snoopAnswersAndConflictsAreTaken : Obligations.SnoopAnswersAndConflictsAreTaken := by
  unfold Obligations.SnoopAnswersAndConflictsAreTaken
  refine ⟨?birspi, ?birsps, ?birspe, ?acknowledged, ?deferred⟩
  case birspi =>
    intro s u hu plane t v w x k y hg hsound hshared hsnoop hm hblock
    exact congrArg _ (answerRow_takesAnswer hg hsound hshared hsnoop hm hblock (.inl ⟨rfl, rfl⟩))
  case birsps =>
    intro s u hu plane t v w x k y hg hsound hshared hsnoop hm hblock hkind
    exact congrArg _ (answerRow_takesAnswer hg hsound hshared hsnoop hm hblock (.inr (.inl ⟨rfl, rfl, hkind⟩)))
  case birspe =>
    intro s u hu plane t v w x k y hg hsound hshared hsnoop hm hblock hkind
    exact congrArg _ (answerRow_takesAnswer hg hsound hshared hsnoop hm hblock (.inr (.inr ⟨rfl, rfl, hkind⟩)))
  case acknowledged =>
    intro s u hu plane t v w x k y hg hsound _ hsnoop hm hfirst howed
    refine congrArg _ ((answerRow_conflict hg hsound hsnoop hm hfirst).trans ?_)
    rw [if_pos (List.isEmpty_iff.2 howed)]
  case deferred =>
    intro s u hu plane t v w x k y hg hsound _ hsnoop hm hfirst howed
    refine congrArg _ ((answerRow_conflict hg hsound hsnoop hm hfirst).trans ?_)
    rw [if_neg (mt List.isEmpty_iff.1 howed)]

end Sys2Proof.Proofs
end

section
/-! CXL.io accesses to windows and doorbell pages, and job submits (R207 to R219, R272). -/

namespace Sys2Proof.Machine

/-! ## The pages of BAR0 (R207 to R209, R319) -/

section
variable {s u : State} {window : Win} {host : Fid} {pasid : Option (BitVec 20)} {tag : B16} {off size port id : Nat}
  {write : Bool} {value : B64} {x : Window} {b : Binding} {y : Slice} (hport : s.hostPort window.toNat host.toNat 0 = some port)
  (hgrant : s.ioWaits window.toNat host.toNat tag.toNat write = false)
  (hfresh : s.ioStale window.toNat host.toNat tag.toNat write = none)
  (hu : u = s.takeIo window.toNat host.toNat tag.toNat write) (hdrain : u.draining = false)
include hport hgrant hfresh hu hdrain

/-- The slice's own host and PASID write its doorbell page, or read its bytes. -/
theorem exec_doorbellPageAccess_of_slice (hoff : 0x100000 ≤ off)
    (hslice : u.pool.slices.find? (fun p => p.2.window == window.toNat && p.2.page == (off - 0x100000) / 4096 &&
      0x100000 ≤ off && off < 0x200000 && (u.win? window.toNat).isSome && p.2.host == host.toNat) = some (id, y))
    (hpasid : y.pasid = pasid.map (·.toNat)) :
    exec (.doorbellPageAccess window host pasid tag off write size value) s = .next (
      if write then u.writePage id y (off % 4096) (if size ≤ 4 then 4 else 8) value.toNat
      else u.push port .cmp port (.ioCpl host.toNat tag.toNat .sc
        (leBytes (if size ≤ 4 then 4 else 8) (u.readPage id y (off % 4096) (if size ≤ 4 then 4 else 8))) false)) := by
  change execDoorbellPageAccess window host pasid tag off write size value s = _
  simp only [execDoorbellPageAccess, hport, hgrant, hfresh, ← hu, hdrain, Nat.not_lt.2 hoff, hslice, hpasid, bne_self_eq_false,
    Bool.false_eq_true, if_false]
  cases write <;> rfl

/-- Below the doorbell pages the registers of the window's logical device are written, or read. -/
theorem exec_doorbellPageAccess_of_register (hoff : off < 0x100000)
    (hwin : u.win? window.toNat = some x) (hbind : x.bind? host.toNat = some b) :
    exec (.doorbellPageAccess window host pasid tag off write size value) s = .next (
      if write then u.ldWrite window.toNat host.toNat off (if size ≤ 4 then 4 else 8) value.toNat
      else u.push port .cmp port (.ioCpl host.toNat tag.toNat .sc
        (leBytes (if size ≤ 4 then 4 else 8) (b.ldRead x off (if size ≤ 4 then 4 else 8))) false)) := by
  change execDoorbellPageAccess window host pasid tag off write size value s = _
  simp only [execDoorbellPageAccess, hport, hgrant, hfresh, ← hu, hdrain, hoff, hwin, hbind, Option.bind_some, Option.map_some,
    Bool.false_eq_true, if_false, if_true]
  cases write <;> rfl

end

/-! ## The slice job queue (R272) -/

/-- A job of slot `n` of slice `id`, whose last job has ended, joins the Room's queue with the slice's head. -/
theorem State.submitJob_of_room {s : State} {id n : Nat} {x : Slice} (hn : n < 8)
    (hended : ((NMap.get? x.jobs n).getD {}).flight = false)
    (hroom : (s.mov.queue.filter fun j => j.room == x.room).length < 1024) :
    s.submitJob id x n =
      (s.mapPool fun p => { p with slices := NMap.adjust p.slices id fun z => { z with
        jobs := NMap.set z.jobs n { (NMap.get? x.jobs n).getD {} with done := false, flight := true } } }).mapMov fun m => { m with
          nextJob := s.mov.nextJob + 1
          queue := m.queue ++
            [{ id := s.mov.nextJob, room := x.room, kind := .list ((NMap.get? s.mov.heads id).getD 0), slice := some (id, n) }] } := by
  simp only [State.submitJob, Nat.mod_eq_of_lt hn, Nat.not_le.2 hn, Nat.not_le.2 hroom, hended, decide_false, Bool.or_self,
    Bool.false_eq_true, if_false]

theorem exec_mjSubmit_of_slice {s : State} {slice : SliceId} {value : Word} {x : Slice}
    (hslice : NMap.get? s.pool.slices slice.toNat = some x) :
    exec (.mjSubmit slice value) s = .next (s.submitJob slice.toNat x value.toNat) := by
  change execMjSubmit slice value s = _
  simp only [execMjSubmit, hslice]

end Sys2Proof.Machine

namespace Sys2Proof.Proofs

open Sys2Proof Sys2Proof.Machine

/-- Settles O22: a granted access opens its lines or acts on its page, and a submit joins the queue of its Room. -/
theorem windowAccessesOfCxlIoComplete : Obligations.WindowAccessesOfCxlIoComplete := by
  unfold Obligations.WindowAccessesOfCxlIoComplete
  refine ⟨?memRead, ?memWrite, ?pageRead, ?pageWrite, ?register, ?submit⟩
  case memRead =>
    rintro s u a c window host pasid tag off len x b hwin hbind hgrant hfresh rfl ⟨hend, hone, hmost⟩ hdrain hsound hpages hlines
    have hopens := ioServe_opens (data := none) (b := b) ⟨hend, hone, hmost⟩ hdrain hsound nofun hpages (fun _ => rfl) hlines
      (accLines_ne_nil hone) (fun _ => rfl)
    rw [bne_self_eq_false] at hopens
    exact congrArg _ ((ioAccess_serves (data := none) hwin hbind hgrant hfresh).trans hopens)
  case memWrite =>
    rintro s u a c window host pasid tag off data pages go x b hwin hbind hgrant hfresh rfl hin hdrain hsound hrw hpages hlines hsome
    have hopens := ioServe_opens (data := some data) hin hdrain hsound (fun _ => hrw) hpages nofun hlines hsome nofun
    exact congrArg _ ((ioAccess_serves (data := some data) hwin hbind hgrant hfresh).trans hopens)
  case pageRead => exact fun _ _ _ _ _ _ _ _ _ _ _ _ => exec_doorbellPageAccess_of_slice (write := false)
  case pageWrite => exact fun _ _ _ _ _ _ _ _ _ _ _ _ => exec_doorbellPageAccess_of_slice (write := true)
  case register => exact fun _ _ _ _ _ _ _ _ _ _ _ _ _ => exec_doorbellPageAccess_of_register
  case submit =>
    rintro s slice value x y hslice hn rfl hended hroom
    rw [exec_mjSubmit_of_slice hslice, State.submitJob_of_room hn hended hroom]

end Sys2Proof.Proofs
end

section
/-! Responses, timeouts, retries, scrubs, ageing and purges of the home units (R71, R95 to R101, R119, R182, R333 to R337). -/

namespace Sys2Proof.Machine

@[simp] theorem State.at_fld (s : State) (t : Nat) (f : RegF) : (s.at t).fld f = s.fld f := rfl
@[simp] theorem State.at_trk? (s : State) (t id : Nat) : (s.at t).trk? id = s.trk? id := rfl

/-! ## Memory responses (R114, R119, R334) -/

theorem exec_memoryResponse_of_outstanding {s : State} {req t : Nat} {rsp : DevRsp} {r : MemReq}
    (hfind : s.home.memq.find? (fun r => r.id == req && r.sent) = some r) (hsound : (s.at t).trkCheck r.hu = (false, s.at t)) :
    exec (.memoryResponse req rsp t) s = .next (((s.at t).takeNotice r).memResp r rsp).removeFailed := by
  change execMemoryResponse req rsp t s = _
  simp only [execMemoryResponse, State.at_home, hfind, hsound, Bool.false_eq_true, if_false]

/-- A response that no outstanding request has, of a slot in quarantine: violation 0Bh of its port. -/
theorem exec_memoryResponse_of_quarantined {s : State} {req t : Nat} {rsp : DevRsp} {p : Nat × PortSt}
    (hnone : s.home.memq.find? (fun r => r.id == req && r.sent) = none)
    (hquar : s.ports.st.find? (fun p => p.2.quar.contains req) = some p) :
    exec (.memoryResponse req rsp t) s = .next (((((s.at t).mapPort p.1 fun x =>
      { x with quar := x.quar.filter (· != req) }).bump (PRT_PV_STAT_fPV_CNT p.1)).setFld (PRT_PV_STAT_fPV_SEEN p.1) 1).record
        { checker := 0x4100, source := srcPort, unit := p.1, tag := req, payload := 11 }).pumpDev := by
  change execMemoryResponse req rsp t s = _
  simp only [execMemoryResponse, State.at_home, State.at_ports, hnone, hquar]

/-! ## Snoop timeouts (R95, R96) -/

theorem exec_snoopTimeout_of_due {s : State} {hu : Hu} {trk t : Nat} {host : Fid} {x : Trk} {y : Snoop}
    (htrk : s.trk? trk = some x) (hsnoop : x.snoops.find? (fun y => y.host == host.toNat) = some y) (hunit : x.hu = hu.toNat)
    (hdue : s.fld (HSL_SNP_CFG_fSNP_TMO hu.toNat) * 1000 ≤ (s.at t).now - y.t0)
    (hsound : (s.at t).trkCheck x.hu = (false, s.at t)) :
    exec (.snoopTimeout hu trk host t) s = .next (((s.at t).failSnoop x host.toNat).advance trk).run.removeFailed := by
  change execSnoopTimeout hu trk host t s = _
  rw [hunit] at hsound
  simp only [execSnoopTimeout, State.at_trk?, State.at_fld, htrk, hsnoop, hunit, hdue, hsound, beq_self_eq_true, decide_true,
    Bool.and_self, if_true, Bool.false_eq_true, if_false]

/-! ## Retries of internal requests (R71) -/

section
variable {s : State} {req t : Nat} {r : IntReq}

/-- A request that wins its arbiter, with room in the set-conflict queue, is offered: admitted it is done, and NAKed it is kept. -/
theorem State.askInt_of_wins (hwins : s.reqWins (lineHu r.line) (linePlane r.line) r.room = true)
    (hqueue : s.scqLevel (lineHu r.line) < 64) :
    s.askInt r =
      let o := (s.countsReq (lineHu r.line) (linePlane r.line) r.room).offerInt r
      if o.1 then o.2.mapHome fun h => { h with intq := h.intq.filter fun x => x.id != r.id } else o.2.nakInt r := by
  simp only [State.askInt, hwins, Nat.not_le.2 hqueue, Bool.not_true, decide_false, Bool.or_self, Bool.false_eq_true, if_false]
  obtain ⟨taken, u⟩ := (s.countsReq (lineHu r.line) (linePlane r.line) r.room).offerInt r
  cases taken <;> rfl

theorem State.askInt_of_waits
    (hwaits : s.reqWins (lineHu r.line) (linePlane r.line) r.room = false ∨ 64 ≤ s.scqLevel (lineHu r.line)) :
    s.askInt r = s.waitInt r :=
  if_pos (by simpa using hwaits)

theorem exec_internalRetry_of_due (hfind : s.home.intq.find? (fun r => r.id == req && r.next ≤ (s.at t).now) = some r) :
    exec (.internalRetry req t) s = .next ((s.at t).askInt r) := by
  change execInternalRetry req t s = _
  simp only [execInternalRetry, State.at_home, hfind]

end

/-! ## The scrub (R99 to R101) -/

/-- A check while no checker is armed is clean (R463). -/
theorem State.check1_of_unarmed {s : State} (ck w : Nat) (secded : Bool) (harm : s.fld FLT_INJ_CTL_fARM = 0) :
    s.check1 ck w secded = (.clean, s) := by
  simp only [State.check1, harm, bne_self_eq_false, Bool.false_and, Bool.false_eq_true, if_false]

/-- What the error that a way of a scrubbed set shows leads to: an uncorrectable one is recovered, a correctable one recorded (R101). -/
def State.scrubMeets (s : State) (hu set : Nat) : Option (BitVec 4 × Bool × Bool) → State
  | none => s
  | some (way, true, trusted) => s.dirUe hu set way.toNat trusted false
  | some (_, false, _) => s.dirCe hu (0x0a00 + hu) false false

/-- With scrubbing on, a sound channel and no checker armed, a scrub reads the next set and meets the error that a way shows. -/
theorem exec_directoryScrub_of_sound {s u : State} {hu : Hu} (e : Option (BitVec 4 × Bool × Bool))
    (hen : s.flag (HSL_SCRUB_CFG_fEN hu.toNat) = true)
    (hu' : u = (s.mapHome fun x => { x with
      scrub := NMap.set x.scrub hu.toNat (((NMap.get? s.home.scrub hu.toNat).getD 0 + 1) % 524288) }))
    (hparity : u.hbmParity (huStack hu.toNat) (16 * huStack hu.toNat + (Config.hbmChannel (huStack hu.toNat)
      (huPos hu.toNat * 0x8000000 + (NMap.get? s.home.scrub hu.toNat).getD 0 * 256)).toNat) = (false, u))
    (harm : u.fld FLT_INJ_CTL_fARM = 0) :
    exec (.directoryScrub hu e) s = .next (u.scrubMeets hu.toNat ((NMap.get? s.home.scrub hu.toNat).getD 0) e) := by
  change execDirectoryScrub hu e s = _
  simp only [execDirectoryScrub, hen, ← hu', hparity, State.check1_of_unarmed _ _ _ harm, Bool.not_true, Bool.false_eq_true, if_false,
    beq_self_eq_true, if_true]
  match e with
  | none => rfl
  | some (_, true, _) => rfl
  | some (_, false, _) => rfl

/-! ## The end of a purge (R337) -/

theorem exec_purgeEnd_of_over {s : State} {port : Port} (hpurge : (s.port port.toNat).purge = true)
    (hover : s.purgeHeld port.toNat = false) :
    exec (.purgeEnd port) s = .next ((((s.purgePort port.toNat).mapPort port.toNat fun x => { x with purge := false }).setFld
      (PRT_PROTO_STAT_fPURGE port.toNat) 0).run) :=
  congrArg _ (if_pos (by rw [hpurge, hover]; rfl))

end Sys2Proof.Machine

namespace Sys2Proof.Proofs

open Sys2Proof Sys2Proof.Machine

/-- Settles O23: each clause is a branch of its row, taken where the clause's conditions hold. -/
theorem homeUnitTimersAndResponsesComplete : Obligations.HomeUnitTimersAndResponsesComplete := by
  unfold Obligations.HomeUnitTimersAndResponsesComplete
  refine ⟨fun _ _ _ _ _ => exec_memoryResponse_of_outstanding, fun _ _ _ _ _ => exec_memoryResponse_of_quarantined,
    fun _ _ _ _ _ _ _ => exec_snoopTimeout_of_due, ?retryTaken, ?retryNaked, ?retryWaits,
    fun _ _ _ => exec_directoryScrub_of_sound none,
    fun _ _ _ way trusted => exec_directoryScrub_of_sound (some (way, false, trusted)),
    fun _ _ _ way trusted => exec_directoryScrub_of_sound (some (way, true, trusted)), fun _ _ => rfl, fun _ _ => exec_purgeEnd_of_over⟩
  case retryTaken =>
    intro s req t r hfind hwins hqueue htaken
    rw [exec_internalRetry_of_due hfind, State.askInt_of_wins hwins hqueue]
    exact congrArg _ (if_pos htaken)
  case retryNaked =>
    intro s req t r hfind hwins hqueue hnaked
    rw [exec_internalRetry_of_due hfind, State.askInt_of_wins hwins hqueue]
    exact congrArg _ (if_neg (ne_true_of_eq_false hnaked))
  case retryWaits =>
    intro s req t r hfind hwaits
    rw [exec_internalRetry_of_due hfind, State.askInt_of_waits hwaits]

end Sys2Proof.Proofs
end

section
/-! The indexes of the directory, its cache and the Pantry (R78, R139). -/

namespace Sys2Proof.Machine

/-! ## Bit fields of an address -/

theorem bitsOf_lt (v lo w : Nat) : bitsOf v lo w < 2 ^ w := Nat.mod_lt _ (Nat.two_pow_pos w)

/-- Bits of a number from which low bits are dropped are the number's own bits, so many places higher. -/
theorem bitsOf_div_two_pow (v k lo w : Nat) : bitsOf (v / 2 ^ k) lo w = v / 2 ^ (k + lo) % 2 ^ w := by
  rw [bitsOf, Nat.div_div_eq_div_mul, ← Nat.pow_add]

/-- A field that begins at the same bit and is no wider is part of the wider one. -/
theorem bitsOf_of_wider {v lo w w' : Nat} (h : w ≤ w') : bitsOf v lo w' % 2 ^ w = bitsOf v lo w :=
  Nat.mod_mod_of_dvd _ (Nat.pow_dvd_pow 2 h)

/-- Two fields placed one above the other fill the sum of their widths. -/
theorem bitsOf_append_lt (v lo w lo' w' : Nat) : bitsOf v lo w * 2 ^ w' + bitsOf v lo' w' < 2 ^ (w + w') := by
  have hhigh := bitsOf_lt v lo w
  have hlow := bitsOf_lt v lo' w'
  calc bitsOf v lo w * 2 ^ w' + bitsOf v lo' w' < bitsOf v lo w * 2 ^ w' + 2 ^ w' := Nat.add_lt_add_left hlow _
    _ = (bitsOf v lo w + 1) * 2 ^ w' := (Nat.succ_mul _ _).symm
    _ ≤ 2 ^ w * 2 ^ w' := Nat.mul_le_mul_right _ hhigh
    _ = 2 ^ (w + w') := (Nat.pow_add 2 w w').symm

/-! ## Directory and cache (R78) -/

/-- The low five bits of a line address, PA[10:6], that end both tags. -/
theorem bitsOf_pageLine (pa : Nat) : bitsOf (pa / 64) 0 5 = pa / 64 % 32 := bitsOf_div_two_pow pa 6 0 5

theorem dirSet_div (pa : Nat) : dirSet (pa / 64) = pa / 2 ^ 11 % 2 ^ 19 := bitsOf_div_two_pow pa 6 5 19

theorem cacheSet_div (pa : Nat) : cacheSet (pa / 64) = pa / 2 ^ 11 % 2 ^ 13 := bitsOf_div_two_pow pa 6 5 13

theorem dirTag_div (pa : Nat) : dirTag (pa / 64) = pa / 2 ^ 30 % 2 ^ 18 * 32 + pa / 64 % 32 :=
  congrArg₂ (· * 32 + ·) (bitsOf_div_two_pow pa 6 24 18) (bitsOf_pageLine pa)

theorem cacheTag_div (pa : Nat) : cacheTag (pa / 64) = pa / 2 ^ 24 % 2 ^ 24 * 32 + pa / 64 % 32 :=
  congrArg₂ (· * 32 + ·) (bitsOf_div_two_pow pa 6 18 24) (bitsOf_pageLine pa)

/-- The cache set index is the low 13 bits of the directory set index. -/
theorem dirSet_mod_cacheSets (line : Nat) : dirSet line % 2 ^ 13 = cacheSet line := bitsOf_of_wider (by decide)

/-! ## The Pantry (R139) -/

/-- A way found for a line is one of the 16 of the line's set, and its tag holds the line. -/
theorem State.panFind_eq_some {s : State} {line key : Nat} (h : s.panFind line = some key) :
    ∃ w g, w < 16 ∧ key = panKey (lineHu line) (s.panSet line) w ∧ NMap.get? s.pan.tags key = some g ∧ g.line = line := by
  rw [State.panFind] at h
  split at h
  · cases h
  · obtain ⟨w, hfind, rfl⟩ := Option.map_eq_some_iff.1 h
    have hway : w < 16 := List.mem_range.1 (List.mem_of_find?_eq_some hfind)
    have htag := List.find?_some hfind
    split at htag
    · next g hget => exact ⟨w, g, hway, rfl, hget, beq_iff_eq.1 htag⟩
    · cases htag

end Sys2Proof.Machine

namespace Sys2Proof.Proofs

open Sys2Proof Sys2Proof.Machine

/-- Settles O54: each index is a bit field of the line address, and a way is found by the whole address in its tag. -/
theorem indexesOfDirectoryAndPantry : Obligations.IndexesOfDirectoryAndPantry := by
  unfold Obligations.IndexesOfDirectoryAndPantry
  refine ⟨?fields, ?sets, fun _ _ => rfl, fun _ _ _ => State.panFind_eq_some⟩
  case fields =>
    intro pa _
    exact ⟨dirSet_div pa, dirTag_div pa, cacheSet_div pa, cacheTag_div pa, bitsOf_lt _ 5 19, bitsOf_append_lt _ 24 18 0 5,
      bitsOf_lt _ 5 13, bitsOf_append_lt _ 18 24 0 5⟩
  case sets =>
    intro a b hset
    rw [← dirSet_mod_cacheSets, hset, dirSet_mod_cacheSets]

end Sys2Proof.Proofs
end

section
/-! New values of AtomicOps and extended operations as operations on bit vectors, at every operand size (R120, R126). -/

namespace Sys2Proof.Machine

/-! ## Operands: values of `size` bytes, unsigned and in two's complement -/

/-- Reducing to `size` bytes leaves an operand of `size` bytes as it is. -/
@[simp] theorem operand_mod_bytes {size : Nat} (a : BitVec (8 * size)) : a.toNat % 256 ^ size = a.toNat := by
  have hbytes : 256 ^ size = 2 ^ (8 * size) := (Nat.pow_mul 2 8 size).symm
  rw [hbytes, Nat.mod_eq_of_lt a.isLt]

/-- A sum reduced to `size` bytes is the wrapping sum of the operands. -/
theorem add_mod_bytes {size : Nat} (o a : BitVec (8 * size)) : (o.toNat + a.toNat) % 256 ^ size = (o + a).toNat := by
  rw [← operand_mod_bytes (o + a), BitVec.toNat_add, ← Nat.pow_mul 2 8 size, Nat.mod_mod]

theorem signed_toNat {w : Nat} (v : BitVec w) : signed w v.toNat = v.toInt := by
  rw [signed, Nat.mod_eq_of_lt v.isLt, BitVec.toInt_eq_toNat_cond]
  cases w with
  | zero => simp [BitVec.of_length_zero]
  | succ n => simp only [Nat.add_sub_cancel, Nat.pow_succ', Nat.mul_lt_mul_left Nat.two_pos]

/-- The model compares with ≤ where a signed comparison of bit vectors is strict: at a tie both choices must agree. -/
theorem ite_signed_le {w : Nat} {o a : BitVec w} {α : Type} {x y : α} (htie : o = a → x = y) :
    (if signed w o.toNat ≤ signed w a.toNat then x else y) = if o.slt a then x else y := by
  simp only [signed_toNat, BitVec.slt_iff_toInt_lt]
  by_cases heq : o = a
  · rw [htie heq, ite_self, ite_self]
  · have hne : o.toInt ≠ a.toInt := mt BitVec.toInt_inj.1 heq
    simp only [hne.le_iff_lt]

section
variable (size : Nat) (o a b : BitVec (8 * size))

/-! ## AtomicOps (R120) -/

theorem atomNew_fetchAdd : atomNew .fetchAdd size o.toNat a.toNat b.toNat = (o + a).toNat := add_mod_bytes o a

theorem atomNew_swap : atomNew .swap size o.toNat a.toNat b.toNat = a.toNat := operand_mod_bytes a

theorem atomNew_cas : atomNew .cas size o.toNat a.toNat b.toNat = (if o = a then b else o).toNat := by
  simp only [atomNew, operand_mod_bytes, BitVec.toNat_inj, apply_ite BitVec.toNat]

/-! ## Extended operations (R126) -/

theorem xopNew_umin : xopNew 1 size o.toNat a.toNat = (if o.ult a then o else a).toNat := by
  simp only [xopNew, operand_mod_bytes, BitVec.ult_iff_lt, BitVec.lt_def]
  split
  · next hlt => exact Nat.min_eq_left hlt.le
  · next hge => exact Nat.min_eq_right (Nat.le_of_not_lt hge)

theorem xopNew_umax : xopNew 2 size o.toNat a.toNat = (if o.ult a then a else o).toNat := by
  simp only [xopNew, operand_mod_bytes, BitVec.ult_iff_lt, BitVec.lt_def]
  split
  · next hlt => exact Nat.max_eq_right hlt.le
  · next hge => exact Nat.max_eq_left (Nat.le_of_not_lt hge)

theorem xopNew_smin : xopNew 3 size o.toNat a.toNat = (if o.slt a then o else a).toNat := by
  simp only [xopNew, operand_mod_bytes, apply_ite BitVec.toNat]
  exact ite_signed_le (congrArg BitVec.toNat)

theorem xopNew_smax : xopNew 4 size o.toNat a.toNat = (if o.slt a then a else o).toNat := by
  simp only [xopNew, operand_mod_bytes, apply_ite BitVec.toNat]
  exact ite_signed_le fun htie => congrArg BitVec.toNat htie.symm

theorem xopNew_and : xopNew 5 size o.toNat a.toNat = (o &&& a).toNat := by
  simp only [xopNew, operand_mod_bytes, BitVec.toNat_and]

theorem xopNew_or : xopNew 6 size o.toNat a.toNat = (o ||| a).toNat := by
  simp only [xopNew, operand_mod_bytes, BitVec.toNat_or]

theorem xopNew_xor : xopNew 7 size o.toNat a.toNat = (o ^^^ a).toNat := by
  simp only [xopNew, operand_mod_bytes, BitVec.toNat_xor]

theorem xopNew_add128 : xopNew 8 size o.toNat a.toNat = (o + a).toNat := by
  simp only [xopNew, operand_mod_bytes, add_mod_bytes]

/-- Below its bound the old value is not the greatest of its size, so that adding 1 does not wrap. -/
theorem xopNew_binc : xopNew 9 size o.toNat a.toNat = (if o.ult a then o + 1 else o).toNat := by
  simp only [xopNew, operand_mod_bytes, BitVec.ult_iff_lt, BitVec.lt_def]
  split
  · next hlt =>
    have hfits : o.toNat + 1 < 2 ^ (8 * size) := Nat.lt_of_le_of_lt hlt a.isLt
    simp only [BitVec.toNat_add, BitVec.ofNat_eq_ofNat, BitVec.toNat_ofNat, Nat.add_mod_mod, Nat.mod_eq_of_lt hfits]
  · rfl

end

end Sys2Proof.Machine

namespace Sys2Proof.Proofs

open Sys2Proof Sys2Proof.Machine

/-- Settles O20: each operation is its bit-vector operation at every operand size, of which the tables name 4, 8 and 16. -/
theorem atomicResultsFollowTheTables : Obligations.AtomicResultsFollowTheTables := by
  unfold Obligations.AtomicResultsFollowTheTables
  refine ⟨?bits64, ?bits32, ?bits128⟩
  case bits64 =>
    intro o a b
    exact ⟨atomNew_fetchAdd 8 o a b, atomNew_swap 8 o a b, atomNew_cas 8 o a b, xopNew_umin 8 o a, xopNew_umax 8 o a,
      xopNew_smin 8 o a, xopNew_smax 8 o a, xopNew_and 8 o a, xopNew_or 8 o a, xopNew_xor 8 o a, xopNew_binc 8 o a⟩
  case bits32 =>
    intro o a b
    exact ⟨atomNew_fetchAdd 4 o a b, atomNew_swap 4 o a b, atomNew_cas 4 o a b, xopNew_umin 4 o a, xopNew_umax 4 o a,
      xopNew_smin 4 o a, xopNew_smax 4 o a, xopNew_and 4 o a, xopNew_or 4 o a, xopNew_xor 4 o a, xopNew_binc 4 o a⟩
  case bits128 =>
    intro o a b
    exact ⟨atomNew_cas 16 o a b, xopNew_and 16 o a, xopNew_or 16 o a, xopNew_xor 16 o a, xopNew_add128 16 o a⟩

end Sys2Proof.Proofs
end

section
/-! The lowest key of an election (R369, R375) and the order in which grants are decided (R150). -/

namespace Sys2Proof.Machine

/-! ## Keys -/

theorem keyLt_eq_false_iff {a b : Nat × Nat} : keyLt a b = false ↔ b.1 < a.1 ∨ b.1 = a.1 ∧ b.2 ≤ a.2 := by
  simp only [keyLt, Bool.or_eq_false_iff, Bool.and_eq_false_iff, decide_eq_false_iff_not, beq_eq_false_iff_ne]
  omega

theorem keyLt_eq_true_iff {a b : Nat × Nat} : keyLt a b = true ↔ a.1 < b.1 ∨ a.1 = b.1 ∧ a.2 < b.2 := by
  simp [keyLt]

theorem minKey_eq_none_iff {ks : List (Nat × Nat)} : minKey ks = none ↔ ks = [] := by
  cases ks with
  | nil => simp [minKey]
  | cons k ks =>
    simp only [minKey, reduceCtorEq, iff_false]
    split <;> [split; skip] <;> exact Option.some_ne_none _

/-- The lowest key is one of the list, and no key of the list is lower. -/
theorem minKey_least {ks : List (Nat × Nat)} {k : Nat × Nat} (h : minKey ks = some k) :
    k ∈ ks ∧ ∀ j ∈ ks, keyLt j k = false := by
  induction ks generalizing k with
  | nil => cases h
  | cons a ks ih =>
    simp only [minKey] at h
    cases hm : minKey ks with
    | none =>
      obtain rfl := minKey_eq_none_iff.1 hm
      obtain rfl : a = k := by simpa [minKey] using h
      simp [keyLt]
    | some b =>
      obtain ⟨hmem, hleast⟩ := ih hm
      cases hlt : keyLt b a with
      | true =>
        obtain rfl : b = k := by simpa [hm, hlt] using h
        refine ⟨.tail _ hmem, List.forall_mem_cons.2 ⟨?_, hleast⟩⟩
        rw [keyLt_eq_true_iff] at hlt
        rw [keyLt_eq_false_iff]
        omega
      | false =>
        obtain rfl : a = k := by simpa [hm, hlt] using h
        refine ⟨.head _, List.forall_mem_cons.2 ⟨by simp [keyLt], fun j hj => ?_⟩⟩
        have hjb := hleast j hj
        rw [keyLt_eq_false_iff] at hlt hjb ⊢
        omega

/-! ## The order of grants -/

/-- A list of windows is in descending rank. -/
abbrev RankDescends (ws : List (Nat × Window)) : Prop := ws.Pairwise fun a b => b.2.rank ≤ a.2.rank

theorem rankInsert_perm (x : Nat × Window) (ws : List (Nat × Window)) : (rankInsert x ws).Perm (x :: ws) := by
  induction ws with
  | nil => exact .refl _
  | cons y ys ih =>
    simp only [rankInsert]
    split
    · exact .refl _
    · exact (ih.cons y).trans (.swap x y ys)

theorem rankInsert_descends {x : Nat × Window} {ws : List (Nat × Window)} (h : RankDescends ws) :
    RankDescends (rankInsert x ws) := by
  induction ws with
  | nil => exact List.pairwise_singleton _ _
  | cons y ys ih =>
    obtain ⟨hy, hys⟩ := List.pairwise_cons.1 h
    simp only [rankInsert]
    split
    case isTrue hlt => exact List.pairwise_cons.2 ⟨List.forall_mem_cons.2 ⟨hlt.le, fun z hz => (hy z hz).trans hlt.le⟩, h⟩
    case isFalse hge =>
      refine List.pairwise_cons.2 ⟨fun z hz => ?_, ih hys⟩
      obtain rfl | hz := List.mem_cons.1 ((rankInsert_perm x ys).mem_iff.1 hz)
      · exact Nat.le_of_not_lt hge
      · exact hy z hz

/-- In a list of descending rank a window comes in behind those of its own rank. -/
theorem filter_rank_rankInsert {x : Nat × Window} {ws : List (Nat × Window)} (h : RankDescends ws) (r : Nat) :
    (rankInsert x ws).filter (fun y => y.2.rank == r) = (ws ++ [x]).filter (fun y => y.2.rank == r) := by
  induction ws with
  | nil => rfl
  | cons y ys ih =>
    obtain ⟨hy, hys⟩ := List.pairwise_cons.1 h
    simp only [rankInsert]
    split
    case isTrue hlt =>
      by_cases hr : x.2.rank = r
      · have hnone : (y :: ys).filter (fun z => z.2.rank == r) = [] := by
          rw [List.filter_eq_nil_iff, List.forall_mem_cons]
          simp only [beq_iff_eq]
          exact ⟨by omega, fun z hz => by have := hy z hz; omega⟩
        rw [List.filter_append, hnone, List.filter_cons_of_pos (by simpa using hr), hnone]
        simp [hr]
      · simp [hr, List.filter_cons]
    case isFalse hge => rw [List.cons_append, List.filter_cons, List.filter_cons, ih hys]

theorem byRank_append_singleton (ws : List (Nat × Window)) (x : Nat × Window) :
    byRank (ws ++ [x]) = rankInsert x (byRank ws) := by
  simp [byRank]

theorem byRank_perm (ws : List (Nat × Window)) : (byRank ws).Perm ws := by
  induction ws using List.reverseRecOn with
  | nil => exact .refl _
  | append_singleton ws x ih =>
    rw [byRank_append_singleton]
    exact (rankInsert_perm x _).trans ((ih.cons x).trans (List.perm_append_singleton x ws).symm)

theorem byRank_descends (ws : List (Nat × Window)) : RankDescends (byRank ws) := by
  induction ws using List.reverseRecOn with
  | nil => exact .nil
  | append_singleton ws x ih => rw [byRank_append_singleton]; exact rankInsert_descends ih

theorem filter_rank_byRank (ws : List (Nat × Window)) (r : Nat) :
    (byRank ws).filter (fun x => x.2.rank == r) = ws.filter (fun x => x.2.rank == r) := by
  induction ws using List.reverseRecOn with
  | nil => rfl
  | append_singleton ws x ih =>
    rw [byRank_append_singleton, filter_rank_rankInsert (byRank_descends ws), List.filter_append, ih, List.filter_append]

end Sys2Proof.Machine

namespace Sys2Proof.Proofs

open Sys2Proof Sys2Proof.Machine

/-- Settles O60: the lowest key by induction on the keys, the order of grants by insertion of the last window. -/
theorem ordersFollowTheirKeys : Obligations.OrdersFollowTheirKeys :=
  ⟨fun _ _ => minKey_least, fun _ h => Option.ne_none_iff_exists'.1 (mt minKey_eq_none_iff.1 h),
    fun ws => ⟨byRank_perm ws, byRank_descends ws, filter_rank_byRank ws⟩⟩

end Sys2Proof.Proofs
end

section
/-! The tick of the dirty budget, samples of HU_SENSE, and the power-fail flush from PFW_N to its release (R147 to R158, R457). -/

namespace Sys2Proof.Machine

/-! ## The budget (R148 to R151) -/

/-- The tick after new parameters: short of energy every grant goes, else the grants are decided unless something holds them. -/
theorem exec_budgetTick (t : Nat) (s : State) :
    exec (.budgetTick t) s = .next (
      let u := (s.at t).newBudget
      if (s.at t).rawBudget u.pan.par < u.allDirty then u.shortOfEnergy.sweepCleans
      else if u.grantsHeld then u.sweepCleans else u.decideGrants.sweepCleans) := rfl

/-- The last sample of HU_SENSE, and the lowest one since the last tick (R148, R149). -/
def State.sampled (s : State) (v : Nat) : State :=
  (s.mapPan fun p => { p with
    sample := some v, sampleT := s.now, tickMin := some (Nat.min (p.tickMin.getD v) v) }).setFld PAN_HU_V_fV_LAST v

theorem exec_huSenseSample_of_noFlush {s : State} {mv10 : B16} {t : Nat} (hnone : s.pan.flush = none) :
    exec (.huSenseSample mv10 t) s = .next ((s.at t).sampled mv10.toNat) := by
  change execHuSenseSample mv10 t s = _
  cases hlow : s.pan.tickMin <;> simp [execHuSenseSample, State.sampled, State.mapPan, hlow, hnone]

/-- A sample below Vstop stops a flush that has not been stopped: its writes that are not sent are dropped (R155). -/
theorem exec_huSenseSample_of_belowVstop {s : State} {mv10 : B16} {t : Nat} {f : Flush} (hflush : s.pan.flush = some f)
    (hrun : f.vstop = none) (hbelow : mv10.toNat * 10 < (hpOf s.pan.par 2).getD 0) :
    exec (.huSenseSample mv10 t) s = .next (
      (((s.at t).sampled mv10.toNat).mapPan fun p =>
        { p with flush := some { f with vstop := some ((s.at t).now + 10000) } }).mapHome fun h =>
          { h with memq := h.memq.filter fun r => r.sent || r.use != .clean true }) := by
  change execHuSenseSample mv10 t s = _
  cases hlow : s.pan.tickMin <;> simp [execHuSenseSample, State.sampled, State.mapPan, hlow, hflush, hrun, hbelow]

/-! ## The power-fail flush (R154 to R158, R457) -/

/-- The flush of which PFW_N asserts FLUSH_DONE at once: it writes no line. -/
def State.emptyFlush (s : State) : Flush :=
  { t0 := s.now, dirtyStart := s.allDirty, flushed := 0, failed := 0, vCheck := s.pan.sample.getD 0, short := false,
    sense := s.senseFault, vstop := none, todo := [] }

/-- PFW_N by what it finds: a reset, a flush that runs or has ended, a warm reset past its drain, a fault without HBM_KEEP. -/
theorem exec_pfwN (t : Nat) (s : State) :
    exec (.pfwN t) s = .next (
      let u := (s.at t).endCleans.mapPan fun p => { p with pfw := true }
      if s.pwr.st == .reset then s.at t
      else if s.pan.flushDone || s.pan.flush.isSome then u
      else if s.pwr.st == .warmBoot then u.endFlush (s.at t).emptyFlush true
      else if s.flt.st != .normal && !s.hbmKeep then u.endFlush (s.at t).emptyFlush false
      else (s.at t).startFlush) := rfl

section
variable {s : State} {t : Nat}

theorem exec_pfwN_of_flushed (hst : s.pwr.st ≠ .reset) (hdone : s.pan.flushDone = true ∨ s.pan.flush.isSome = true) :
    exec (.pfwN t) s = .next ((s.at t).endCleans.mapPan fun p => { p with pfw := true }) := by
  rw [exec_pfwN]
  simp only [beq_false_of_ne hst, Bool.or_eq_true, hdone, Bool.false_eq_true, if_false, if_true]

/-- Outside a reset, with no flush done or running, PFW_N depends on the warm reset and on HBM_KEEP alone. -/
theorem exec_pfwN_of_unflushed (hst : s.pwr.st ≠ .reset) (hidle : s.pan.flushDone = false ∧ s.pan.flush = none) :
    exec (.pfwN t) s = .next (
      let u := (s.at t).endCleans.mapPan fun p => { p with pfw := true }
      if s.pwr.st == .warmBoot then u.endFlush (s.at t).emptyFlush true
      else if s.flt.st != .normal && !s.hbmKeep then u.endFlush (s.at t).emptyFlush false
      else (s.at t).startFlush) := by
  obtain ⟨hlow, hnone⟩ := hidle
  rw [exec_pfwN]
  simp only [beq_false_of_ne hst, hlow, hnone, Option.isSome_none, Bool.or_self, Bool.false_eq_true, if_false]

theorem exec_flushDone_of_flush {f : Flush} (hflush : s.pan.flush = some f)
    (hleft : (s.home.memq.any fun r => r.use == .clean true) = false) :
    exec (.flushDone t) s = .next ((s.at t).endFlush f f.vstop.isNone) := by
  change execFlushDone t s = _
  simp only [execFlushDone, State.at_pan, State.at_home, hflush, hleft, Bool.false_eq_true, if_false]

theorem exec_vstopWaitExpiry_of_due {f : Flush} {d : Nat} (hflush : s.pan.flush = some f) (hstop : f.vstop = some d)
    (hdue : d ≤ (s.at t).now) : exec (.vstopWaitExpiry t) s = .next ((s.at t).endFlush f false) := by
  change execVstopWaitExpiry t s = _
  simp only [execVstopWaitExpiry, State.at_pan, hflush, hstop, hdue, if_true]

end

end Sys2Proof.Machine

namespace Sys2Proof.Proofs

open Sys2Proof Sys2Proof.Machine

/-- Settles O43: each clause is a branch of its row, taken where the clause's conditions hold. -/
theorem holdUpCommandsComplete : Obligations.HoldUpCommandsComplete := by
  unfold Obligations.HoldUpCommandsComplete
  refine ⟨?tickHeld, ?tickShort, ?tick, fun _ _ _ => exec_huSenseSample_of_noFlush,
    fun _ _ _ _ => exec_huSenseSample_of_belowVstop, fun _ _ hfault => congrArg _ (if_pos hfault), ?pfw, ?pfwFault,
    fun _ _ => exec_pfwN_of_flushed, ?pfwWarm, fun _ _ _ => exec_flushDone_of_flush, fun _ _ _ _ => exec_vstopWaitExpiry_of_due,
    fun _ _ hdone => congrArg _ (if_pos hdone)⟩
  case tickHeld =>
    intro s t hheld henough
    rw [exec_budgetTick]
    simp only [Nat.not_lt.2 henough, hheld, if_false, if_true]
  case tickShort =>
    intro s t hshort
    rw [exec_budgetTick]
    simp only [hshort, if_true]
  case tick =>
    intro s t hfree henough
    rw [exec_budgetTick]
    simp only [Nat.not_lt.2 henough, hfree, Bool.false_eq_true, if_false]
  case pfw =>
    rintro s t ⟨hst, hwarm⟩ hidle hkeep
    have hserves : (s.flt.st != .normal && !s.hbmKeep) = false := by
      rcases hkeep with hnormal | hkept
      · simp [hnormal]
      · simp [hkept]
    rw [exec_pfwN_of_unflushed hst hidle]
    simp only [beq_false_of_ne hwarm, hserves, Bool.false_eq_true, if_false]
  case pfwFault =>
    rintro s t ⟨hst, hwarm⟩ hidle ⟨hfault, hlost⟩
    rw [exec_pfwN_of_unflushed hst hidle]
    simp only [beq_false_of_ne hwarm, bne_iff_ne.2 hfault, hlost, Bool.not_false, Bool.and_self, Bool.false_eq_true, if_false, if_true]
    rfl
  case pfwWarm =>
    intro s t hwarm hidle
    rw [exec_pfwN_of_unflushed (by simp [hwarm]) hidle]
    simp only [hwarm, beq_self_eq_true, if_true]
    rfl

end Sys2Proof.Proofs
end

section
/-! Firmware slots and the Ehrec in the boot flash, the HBM layout, the Pantry's modes and flushes, and the hold-up parameters: the
commands of groups 0Bxxh and 0Cxxh (R137 to R160, R438, R516 to R523). -/

namespace Sys2Proof.Machine

/-! ## Firmware (R517, R520) -/

theorem State.mapSlot_eq (s : State) (b : Bool) (f : FwSlot → FwSlot) : s.mapSlot b f = { s with pwr := (s.mapSlot b f).pwr } := rfl

@[simp] theorem State.slotOf_mapSlot_same (s : State) (b : Bool) (f : FwSlot → FwSlot) :
    (s.mapSlot b f).slotOf b = f (s.slotOf b) := by
  cases b <;> rfl

@[simp] theorem State.slotOf_mapSlot_other (s : State) (b : Bool) (f : FwSlot → FwSlot) :
    (s.mapSlot b f).slotOf (!b) = s.slotOf (!b) := by
  cases b <;> rfl

theorem cmdFwWrite_run {s : State} {bank : Bool} {off : Nat} {data : List Byte} (hidle : s.running bank = false) :
    (cmdFwWrite bank off data).run s = .ok [] (
      ({ s with mem := Memory.writeBytes s.mem (slotBase bank + off) data } : State).mapSlot bank fun x =>
        { x with valid := false, verified := false }) := by
  simp only [cmdFwWrite, hidle, Bool.false_eq_true, if_false]

theorem cmdFwActivate_run {s : State} {bank : Bool} (hverified : (s.slotOf bank).verified = true) (hnone : s.cmds.pend = []) :
    (cmdFwActivate bank).run s =
      .pending .fwActivate [] (s.mapPwr fun p => { p with preferred := bank, previous := some p.slot }).restartFw := by
  simp only [cmdFwActivate, hverified, hnone, List.isEmpty_nil, Bool.not_true, Bool.false_eq_true, if_false]

/-! ## HBM layout and Pantry (R137, R146, R152) -/

/-- Every grant taken away, to be earned again (R137). -/
def State.grantsTaken (s : State) : State :=
  s.mapPool fun p => { p with wins := p.wins.map fun w => if w.2.grant then (w.1, { w.2 with grant := false, fit := 0 }) else w }

theorem cmdHbmLayout_run {s : State} {units : Nat} (hshares : s.panShares ≤ (45 - units) * 917504)
    (hfits : s.pool.hUsed.all (· < 8 * units) = true)
    (hidle : s.busyWith (fun w => match w with | .hbmLayout _ => true | _ => false) = false) :
    (cmdHbmLayout units).run s = .pending (.hbmLayout units) [] (s.grantsTaken.startClean (some s.cmds.nextId) 4096 false
      (s.grantsTaken.pool.wins.flatMap fun w => s.grantsTaken.dirtyOf w.2)) := by
  have hbeyond : s.pool.hUsed.any (8 * units ≤ ·) = false := by simpa using hfits
  have hnotBusy := Bool.eq_false_iff.1 (Bool.or_eq_false_iff.2 ⟨hbeyond, hidle⟩)
  exact (if_neg (Nat.not_lt.2 hshares)).trans (if_neg hnotBusy)

/-- A window's Pantry mode set: rank and quota go with write-back alone, and a grant that goes loses its place (R146, R150). -/
def Window.inMode (y : Window) (mode rank quota : Nat) : Window :=
  { y with
    pmode := pmodeOf mode, rank := if mode = 2 then rank else y.rank, quota := if mode = 2 then quota else y.quota
    grant := y.grant && mode == 2, fit := if y.grant = true ∧ mode ≠ 2 then 0 else y.fit }

theorem cmdPantryMode_run {s : State} {w mode rank quota : Nat} {x : Window} (hwin : s.win? w = some x) (hhome : x.rehome = none) :
    (cmdPantryMode w mode rank quota).run s =
      let u := s.mapWin w fun y => y.inMode mode rank quota
      if mode = 2 ∨ u.dirtyOf x = [] then .ok [] (if mode = 0 then u.invalClean x else u)
      else .pending (.pantryMode w) [] (u.startClean (some s.cmds.nextId) w (mode == 0) (u.dirtyOf x)
        ((s.pan.tags.filter fun p => x.holds p.2.line).map (·.2.line))) := by
  simp only [cmdPantryMode, hwin, hhome, Option.isSome_none, Bool.false_eq_true, if_false, Bool.or_eq_true, decide_eq_true_eq,
    List.isEmpty_iff, Bool.and_eq_true, bne_iff_ne, Window.inMode]
  rfl

theorem cmdPantryQuery_run {s : State} {w : Nat} {x : Window} (hwin : s.win? w = some x) :
    (cmdPantryQuery w).run s = .ok (leBytes 1 x.pmode.code ++ leBytes 1 x.run.code ++ leBytes 1 (b2n x.grant) ++ leBytes 1 x.rank ++
      leBytes 4 x.quota ++ leBytes 4 (s.winDirty x)) s := by
  simp only [cmdPantryQuery, hwin]

/-! ## Hold-up parameters (R147) -/

/-- The values that HOLDUP_SET marks valid join those that wait for the next tick. -/
theorem cmdHoldupSet_run (s : State) (valid : Nat) (vals : List Word) :
    (cmdHoldupSet valid vals).run s = .ok [] (s.mapPan fun p => { p with
      parNext := ((List.range 9).filter fun j => bitOf valid j).foldl (fun a j => NMap.set a j (vals.getD j 0).toNat) p.parNext }) := by
  simp only [cmdHoldupSet, List.foldl_map]

/-! ## Rows whose command is accepted (R426, R430) -/

section
variable {s s1 : State} {i : Instr} {h : Hdr} {c : Cmd}

theorem exec_pends (hrow : rowCmd i = some (h, c)) (ha : s.accepts h c = true) (hp : s.canPend c = true) {w : Work}
    (hrun : c.run s = .pending w [] s1) : exec i s = .next (s1.pends h c w) := by
  rw [exec_rowCmd hrow, dermel_pending ha hp hrun]

end

end Sys2Proof.Machine

namespace Sys2Proof.Proofs

open Sys2Proof Sys2Proof.Machine

/-- Settles O10: each command is accepted, and its own rules answer or leave it pending as the clause says. -/
theorem firmwareAndStorageCommandsComplete : Obligations.FirmwareAndStorageCommandsComplete := by
  unfold Obligations.FirmwareAndStorageCommandsComplete
  refine ⟨fun _ _ ha => exec_answers (c := cmdFwQuery) rfl ha rfl, ?fwWrite,
    fun _ h ha hp => exec_pends (c := cmdFwVerify h.bank) rfl ha hp rfl,
    fun _ h ha hp hverified hnone => exec_pends (c := cmdFwActivate h.bank) rfl ha hp (cmdFwActivate_run hverified hnone),
    fun _ _ off data ha => exec_answers (c := cmdEhrecWrite off.toNat data) rfl ha rfl,
    fun _ _ off len ha => exec_answers (c := cmdEhrecRead off.toNat len.toNat) rfl ha rfl, ?layout,
    fun _ _ ha => exec_answers (c := cmdHbmLayoutQuery) rfl ha rfl, ?mode,
    fun _ _ window _ ha hwin => exec_answers (c := cmdPantryQuery window.toNat) rfl ha (cmdPantryQuery_run hwin), ?flush,
    fun _ _ valid vals ha => exec_answers (c := cmdHoldupSet valid.toNat vals) rfl ha (cmdHoldupSet_run _ _ _),
    fun _ _ ha => exec_answers (c := cmdHoldupQuery) rfl ha rfl,
    fun _ _ c0 ha => exec_answers (c := cmdHoldupCal c0.toNat) rfl ha rfl⟩
  case fwWrite =>
    intro s h off data ha hidle
    refine ⟨_, exec_answers (c := cmdFwWrite h.bank off.toNat data) rfl ha (cmdFwWrite_run hidle), State.mapSlot_eq _ _ _, ?_, ?_, ?_⟩
    · rw [State.slotOf_mapSlot_same]
    · rw [State.slotOf_mapSlot_same]
    · rw [State.slotOf_mapSlot_other]
      rfl
  case layout =>
    rintro s h units u ha hp hshares hfits hidle rfl
    exact exec_pends (c := cmdHbmLayout units.toNat) rfl ha hp (cmdHbmLayout_run hshares hfits hidle)
  case mode =>
    rintro s h window mode rank quota x u ha hp hwin hhome rfl
    have hrun := cmdPantryMode_run (mode := mode.toNat) (rank := rank.toNat) (quota := quota.toNat) hwin hhome
    dsimp only at hrun
    split at hrun
    case isTrue hclean =>
      exact (exec_answers (c := cmdPantryMode window.toNat mode.toNat rank.toNat quota.toNat) rfl ha hrun).trans
        (congrArg _ (if_pos hclean).symm)
    case isFalse hdirty =>
      exact (exec_pends (c := cmdPantryMode window.toNat mode.toNat rank.toNat quota.toNat) rfl ha hp hrun).trans
        (congrArg _ (if_neg hdirty).symm)
  case flush =>
    rintro s h window u ws ha hp rfl rfl
    exact exec_pends (c := cmdPantryFlush h.invalidate window.toNat) rfl ha hp rfl

end Sys2Proof.Proofs
end

section

/-!
# Every step keeps HBM and flash canonical

`MemInv` speaks of the field `mem` alone. A function of the model either leaves that field as it is, and has a lemma `…_mem`
that says so, or may write it, by one of the canonical writes in the end (`Memory.writeEn`, `Memory.writeBytes`,
`List.filter`), and has a lemma `…_wf`: the canonical form goes through it. Both kinds are `simp` lemmas in the order of the
definitions they speak of, so that a function's lemma follows from those of the functions that it calls. What a fold or a
command does at each of its steps is named by a predicate of its own (`StepsKeepMem`, `KeepsWf`, `Cmd.KeepsWf`, …).
-/

namespace Sys2Proof.Machine

/-! ## Functions that leave the memory as it is -/

/-! ### Conditionals and folds -/

@[simp] theorem State.mem_ite {c : Prop} [Decidable c] (s t : State) : (if c then s else t).mem = if c then s.mem else t.mem :=
  apply_ite _ _ _ _

section
variable {α β γ : Type}

/-- Each step of a fold leaves the memory as it is. -/
def StepsKeepMem (f : State → α → State) : Prop := ∀ a x, (f a x).mem = a.mem

@[simp] theorem stepsKeepMem_iff {f : State → α → State} : StepsKeepMem f ↔ ∀ a x, (f a x).mem = a.mem := Iff.rfl

@[simp] theorem foldl_mem {f : State → α → State} (hf : StepsKeepMem f) (l : List α) (s : State) : (l.foldl f s).mem = s.mem := by
  induction l generalizing s with
  | nil => rfl
  | cons x xs ih => exact (ih _).trans (hf _ _)

/-- The same for a fold that gathers a result beside the state. -/
def StepsKeepSndMem (f : β × State → α → β × State) : Prop := ∀ a x, (f a x).2.mem = a.2.mem

@[simp] theorem stepsKeepSndMem_iff {f : β × State → α → β × State} :
    StepsKeepSndMem f ↔ ∀ a x, (f a x).2.mem = a.2.mem := Iff.rfl

@[simp] theorem foldl_snd_mem {f : β × State → α → β × State} (hf : StepsKeepSndMem f) (l : List α) (p : β × State) :
    (l.foldl f p).2.mem = p.2.mem := by
  induction l generalizing p with
  | nil => rfl
  | cons x xs ih => exact (ih _).trans (hf _ _)

theorem foldl_snd_snd_mem {f : β × γ × State → α → β × γ × State} (hf : ∀ a x, (f a x).2.2.mem = a.2.2.mem) (l : List α)
    (p : β × γ × State) : (l.foldl f p).2.2.mem = p.2.2.mem := by
  induction l generalizing p with
  | nil => rfl
  | cons x xs ih => exact (ih _).trans (hf _ _)

@[simp] theorem snd_mem_ite {c : Prop} [Decidable c] (p q : β × State) :
    (if c then p else q).2.mem = if c then p.2.mem else q.2.mem :=
  apply_ite (fun p : β × State => p.2.mem) _ _ _

end

/-! ### Machine/Switch -/

@[simp] theorem State.dropRet_mem (s : State) (p) : (s.dropRet p).mem = s.mem := by simp only [State.dropRet]; split <;> simp

@[simp] theorem State.returnCredits_mem (s : State) (p chan) : (s.returnCredits p chan).mem = s.mem := by
  simp only [State.returnCredits]
  split <;> simp

@[simp] theorem State.noteHeld_mem (s : State) (p) : (s.noteHeld p).mem = s.mem := by simp only [State.noteHeld]; split <;> simp
@[simp] theorem State.refill_mem (s : State) (p) : (s.refill p).mem = s.mem := by simp [State.refill]
@[simp] theorem State.join_mem (s : State) (p id c yellow) : (s.join p id c yellow).mem = s.mem := rfl
@[simp] theorem State.push_mem (s : State) (p c src b t0) : (s.push p c src b t0).mem = s.mem := by simp [State.push]
@[simp] theorem State.pushHome_mem (s : State) (p hu c b) : (s.pushHome p hu c b).mem = s.mem := by simp [State.pushHome]

@[simp] theorem State.synth_mem (s : State) (p src m) : (s.synth p src m).mem = s.mem := by
  simp only [State.synth]
  split <;> simp

@[simp] theorem State.leave_mem (s : State) (v) : (s.leave v).mem = s.mem := by simp [State.leave]
@[simp] theorem State.discard_mem (s : State) (v ck) : (s.discard v ck).mem = s.mem := by simp [State.discard]

@[simp] theorem State.countArb_mem (s : State) (type inst winner losers) : (s.countArb type inst winner losers).mem = s.mem := by
  simp [State.countArb]

@[simp] theorem State.xbarGrant_mem (s : State) (a plane src cells losers) :
    (s.xbarGrant a plane src cells losers).mem = s.mem := by
  simp [State.xbarGrant]

@[simp] theorem State.hbmGrant_mem (s : State) (k q wait) : (s.hbmGrant k q wait).mem = s.mem := by simp [State.hbmGrant]
@[simp] theorem State.hbmAsk_mem (s : State) (k q) : (s.hbmAsk k q).mem = s.mem := by simp [State.hbmAsk]

@[simp] theorem State.hbmDrain_mem (k n : Nat) (s : State) : (State.hbmDrain k n s).mem = s.mem := by
  fun_induction State.hbmDrain k n s <;> simp_all

@[simp] theorem State.check1_mem (s : State) (ck w secded) : (s.check1 ck w secded).2.mem = s.mem := by simp [State.check1]
@[simp] theorem State.retire_mem (s : State) (k) : (s.retire k).mem = s.mem := by simp [State.retire]
@[simp] theorem State.hbmCe_mem (s : State) (ck lasting) : (s.hbmCe ck lasting).mem = s.mem := by simp [State.hbmCe]

@[simp] theorem State.checkOnce_mem (s : State) (r : Report) : (s.checkOnce r).2.mem = s.mem := by
  have hmem := State.check1_mem s r.checker 8 true
  simp only [State.checkOnce]
  generalize s.check1 r.checker 8 true = p at hmem ⊢
  obtain ⟨_ | _ | _, s1⟩ := p <;> simpa using hmem

@[simp] theorem State.checkRetry_mem (s : State) (r : Report) : (s.checkRetry r).2.mem = s.mem := by
  have hfirst := State.check1_mem s r.checker 8 true
  simp only [State.checkRetry]
  generalize s.check1 r.checker 8 true = p at hfirst ⊢
  obtain ⟨_ | _ | _, s1⟩ := p
  case clean => exact hfirst
  all_goals
    have hagain := (State.check1_mem s1 r.checker 8 true).trans hfirst
    dsimp only
    generalize s1.check1 r.checker 8 true = q at hagain ⊢
    obtain ⟨_ | _ | _, s2⟩ := q <;> simpa using hagain

/-! ### Machine/Extent -/

@[simp] theorem State.winVector_mem (s : State) (w host entry) : (s.winVector w host entry).mem = s.mem := by
  simp only [State.winVector]
  split <;> simp

@[simp] theorem State.winUnmask_mem (s : State) (w host) : (s.winUnmask w host).mem = s.mem := by
  simp only [State.winUnmask]
  split <;> simp

@[simp] theorem State.bindEvent_mem (s : State) (w host kind xs) : (s.bindEvent w host kind xs).mem = s.mem := by
  simp only [State.bindEvent]
  split <;> simp

@[simp] theorem State.mediaEvent_mem (s : State) (line w) : (s.mediaEvent line w).mem = s.mem := by
  simp only [State.mediaEvent]
  split <;> simp

@[simp] theorem State.setExt_mem (s : State) (x e) : (s.setExt x e).mem = s.mem := rfl

@[simp] theorem State.failWin_mem (s : State) (w ck addr) : (s.failWin w ck addr).mem = s.mem := by
  simp only [State.failWin]
  split <;> simp

@[simp] theorem State.refusedExt_mem (s : State) (w line tag) : (s.refusedExt w line tag).mem = s.mem := by
  simp [State.refusedExt]

@[simp] theorem State.cutNote_mem (s : State) (w line p) : (s.cutNote w line p).mem = s.mem := by simp [State.cutNote]

@[simp] theorem State.checkExt_mem (s : State) (w line) : (s.checkExt w line).2.mem = s.mem := by
  simp only [State.checkExt]
  (repeat' split) <;> simp

@[simp] theorem State.denyNote_mem (s : State) (room pa i kind) : (s.denyNote room pa i kind).mem = s.mem := rfl
@[simp] theorem State.deny_mem (s : State) (room pa i kind tag) : (s.deny room pa i kind tag).mem = s.mem := by simp [State.deny]

@[simp] theorem State.ruleCheck_mem (s : State) (hu room pa i n) : (s.ruleCheck hu room pa i n).2.mem = s.mem := by
  simp only [State.ruleCheck]
  split <;> simp

@[simp] theorem State.huAsk_mem (s : State) (hu addr lock) : (s.huAsk hu addr lock).mem = s.mem := by simp [State.huAsk]
@[simp] theorem State.setTag_mem (s : State) (key t) : (s.setTag key t).mem = s.mem := rfl
@[simp] theorem State.dropTag_mem (s : State) (key) : (s.dropTag key).mem = s.mem := rfl
@[simp] theorem State.touchTag_mem (s : State) (key) : (s.touchTag key).mem = s.mem := rfl

/-! ### Machine/Directory -/

@[simp] theorem State.setDir_mem (s : State) (key e) : (s.setDir key e).mem = s.mem := rfl
@[simp] theorem State.setCache_mem (s : State) (key e) : (s.setCache key e).mem = s.mem := rfl
@[simp] theorem State.dropCache_mem (s : State) (key) : (s.dropCache key).mem = s.mem := rfl
@[simp] theorem State.useSet_mem (s : State) (hu set) : (s.useSet hu set).mem = s.mem := by simp [State.useSet]

@[simp] theorem State.evictCache_mem (s : State) (key) : (s.evictCache key).mem = s.mem := by
  simp only [State.evictCache]
  split <;> simp

@[simp] theorem State.ageCache_mem (s : State) (key) : (s.ageCache key).mem = s.mem := rfl
@[simp] theorem State.ageDir_mem (s : State) (key) : (s.ageDir key).mem = s.mem := rfl

@[simp] theorem State.putEntry_mem (s : State) (line way e) : (s.putEntry line way e).mem = s.mem := by
  simp only [State.putEntry]
  (repeat' split) <;> simp

@[simp] theorem State.lookup_mem (s : State) (line) : (s.lookup line).mem = s.mem := by
  simp only [State.lookup]
  (repeat' split) <;> simp

@[simp] theorem State.updEntry_mem (s : State) (line f) : (s.updEntry line f).mem = s.mem := by
  simp only [State.updEntry]
  split <;> simp

@[simp] theorem State.newEntry_mem (s : State) (line way e) : (s.newEntry line way e).mem = s.mem := by
  simp only [State.newEntry]
  split <;> simp

/-! ### Machine/Home -/

@[simp] theorem State.addTrk_mem (s : State) (t) : (s.addTrk t).mem = s.mem := rfl
@[simp] theorem State.pumpCfl_mem (s : State) : s.pumpCfl.mem = s.mem := by simp [State.pumpCfl]
@[simp] theorem State.joinScq_mem (s : State) (t) : (s.joinScq t).mem = s.mem := by simp [State.joinScq]

@[simp] theorem State.leaveScq_mem (s : State) (t) : (s.leaveScq t).mem = s.mem := by
  simp only [State.leaveScq]
  (repeat' split) <;> simp

@[simp] theorem State.retryScq_mem (s : State) (line) : (s.retryScq line).mem = s.mem := by
  simp only [State.retryScq]
  (repeat' split) <;> simp

@[simp] theorem State.sendReq_mem (s : State) (r) : (s.sendReq r).mem = s.mem := by
  simp only [State.sendReq]
  (repeat' split) <;> simp

@[simp] theorem State.issue_mem (s : State) (hu line win use wr tgt) : (s.issue hu line win use wr tgt).mem = s.mem := by
  simp only [State.issue]
  split <;> simp

@[simp] theorem State.pumpDev_mem (s : State) : s.pumpDev.mem = s.mem := by simp only [State.pumpDev]; split <;> simp
@[simp] theorem State.panTagBad_mem (s : State) (hu line) : (s.panTagBad hu line).mem = s.mem := by simp [State.panTagBad]
@[simp] theorem State.panMiss_mem (s : State) (line) : (s.panMiss line).mem = s.mem := by simp [State.panMiss]

theorem State.readMem_mem {s t : State} {use : MUse} {line win : Nat} (h : s.readMem use line win = some t) : t.mem = s.mem := by
  simp only [State.readMem] at h
  split at h
  · cases h
  · split at h <;> cases h <;> simp

@[simp] theorem State.panBad_mem (s : State) (hu win line k) : (s.panBad hu win line k).mem = s.mem := by
  simp only [State.panBad]
  split <;> simp

@[simp] theorem State.panCheck_mem (s : State) (line win) : (s.panCheck line win).mem = s.mem := by
  simp only [State.panCheck]
  split <;> simp

@[simp] theorem State.writeThrough_mem (s : State) (trk line win data be poison bs) :
    (s.writeThrough trk line win data be poison bs).mem = s.mem := by
  simp [State.writeThrough]

@[simp] theorem State.poisonLine_mem (s0 : State) (line win) : (s0.poisonLine line win).mem = s0.mem := by
  simp only [State.poisonLine]
  (repeat' split) <;> simp

@[simp] theorem State.purgeLine_mem (s : State) (w host line) : (s.purgeLine w host line).mem = s.mem := by
  simp only [State.purgeLine]
  split <;> simp

@[simp] theorem State.purgeBinds_mem (s : State) (w line) : (s.purgeBinds w line).mem = s.mem := by
  simp only [State.purgeBinds]
  split <;> simp

@[simp] theorem State.dropTrk_mem (s : State) (id) : (s.dropTrk id).mem = s.mem := by simp only [State.dropTrk]; split <;> simp
@[simp] theorem State.freeTrk_mem (s : State) (id) : (s.freeTrk id).mem = s.mem := by simp only [State.freeTrk]; split <;> simp

@[simp] theorem State.sendSnoop_mem (s : State) (t host again) : (s.sendSnoop t host again).mem = s.mem := by
  simp only [State.sendSnoop]
  split <;> simp

@[simp] theorem State.ioLine_mem (s : State) (acc line data refused) : (s.ioLine acc line data refused).mem = s.mem := by
  simp only [State.ioLine]
  split <;> simp

@[simp] theorem State.slotDone_mem (s : State) (slice slot status result) :
    (s.slotDone slice slot status result).mem = s.mem := by
  simp only [State.slotDone]
  split <;> simp

@[simp] theorem State.answerRead_mem (s : State) (t d g) : (s.answerRead t d g).mem = s.mem := by
  simp only [State.answerRead]
  split <;> simp

@[simp] theorem State.answerHdmH_mem (s : State) (t d) : (s.answerHdmH t d).mem = s.mem := by
  simp only [State.answerHdmH]
  split <;> simp

@[simp] theorem State.answerSyn_mem (s : State) (t) : (s.answerSyn t).mem = s.mem := by
  simp only [State.answerSyn]
  split <;> simp

@[simp] theorem State.answerWrite_mem (s : State) (t err) : (s.answerWrite t err).mem = s.mem := by
  simp only [State.answerWrite]
  split <;> simp

@[simp] theorem State.memFaultOf_mem (s : State) (t inj) : (s.memFaultOf t inj).mem = s.mem := by simp [State.memFaultOf]
@[simp] theorem State.memFault_mem (s : State) (t) : (s.memFault t).mem = s.mem := by simp [State.memFault]
@[simp] theorem State.endTrk_mem (s : State) (t) : (s.endTrk t).mem = s.mem := by simp [State.endTrk]
@[simp] theorem State.setStable_mem (s : State) (line st hs) : (s.setStable line st hs).mem = s.mem := by simp [State.setStable]

@[simp] theorem State.endStable_mem (s : State) (t) : (s.endStable t).mem = s.mem := by
  simp only [State.endStable]
  (repeat' split) <;> simp

@[simp] theorem State.startRead_mem (s : State) (t : Trk) : (s.startRead t).mem = s.mem := by
  simp only [State.startRead]
  split
  · rfl
  · split
    · exact State.readMem_mem ‹_›
    · simp

@[simp] theorem State.synStable_mem (s : State) (t) : (s.synStable t).mem = s.mem := by
  simp only [State.synStable]
  split <;> simp

@[simp] theorem State.dirCe_mem (s : State) (hu ck inj lasting) : (s.dirCe hu ck inj lasting).mem = s.mem := by simp [State.dirCe]

@[simp] theorem State.dirCheck_mem (s : State) (hu ck : Nat) : (s.dirCheck hu ck).2.mem = s.mem := by
  have hfirst := State.check1_mem s ck 8 true
  simp only [State.dirCheck]
  generalize s.check1 ck 8 true = p at hfirst ⊢
  obtain ⟨_ | _ | _, s1⟩ := p
  case clean => exact hfirst
  all_goals
    have hagain := (State.check1_mem s1 ck 8 true).trans hfirst
    dsimp only
    generalize s1.check1 ck 8 true = q at hagain ⊢
    obtain ⟨_ | _ | _, s2⟩ := q <;> simpa using hagain

@[simp] theorem State.abandonFill_mem (s : State) (line) : (s.abandonFill line).mem = s.mem := rfl
@[simp] theorem State.openAs_mem (s : State) (t st from_ owner hosts k) : (s.openAs t st from_ owner hosts k).mem = s.mem := rfl
@[simp] theorem State.abandonSpec_mem (s : State) (line) : (s.abandonSpec line).mem = s.mem := rfl
@[simp] theorem State.openIo_mem (s : State) (a line wr) : (s.openIo a line wr).mem = s.mem := rfl
@[simp] theorem State.snoopLeft_mem (s : State) (host line) : (s.snoopLeft host line).mem = s.mem := rfl

/-! ### Machine/Grant -/

@[simp] theorem State.noteViol_mem (s : State) (hu kind host line) : (s.noteViol hu kind host line).mem = s.mem := rfl

@[simp] theorem State.homeViol_mem (s : State) (hu kind host win line tag) :
    (s.homeViol hu kind host win line tag).mem = s.mem := by
  simp [State.homeViol]

@[simp] theorem State.strayResp_mem (s : State) (v hu) : (s.strayResp v hu).mem = s.mem := by simp [State.strayResp]

@[simp] theorem State.refuseMem_mem (s : State) (v hu) : (s.refuseMem v hu).mem = s.mem := by
  simp only [State.refuseMem]
  split <;> simp

@[simp] theorem State.specRead_mem (s : State) (w line x) : (s.specRead w line x).mem = s.mem := by
  simp only [State.specRead]
  (repeat' split) <;> simp

@[simp] theorem State.forwardHome_mem (s : State) (v r) : (s.forwardHome v r).mem = s.mem := by
  simp only [State.forwardHome]
  split <;> simp

@[simp] theorem State.noteRaw_mem (s : State) (w host i wr) : (s.noteRaw w host i wr).mem = s.mem := rfl

@[simp] theorem State.purgeHost_mem (s : State) (w host) : (s.purgeHost w host).mem = s.mem := by
  simp only [State.purgeHost]
  split <;> simp

@[simp] theorem State.stopChan_mem (s : State) (n c) : (s.stopChan n c).mem = s.mem := rfl

@[simp] theorem State.dropSlice_mem (s : State) (n) : (s.dropSlice n).mem = s.mem := by
  simp only [State.dropSlice]
  split <;> simp

@[simp] theorem State.dropSlices_mem (s : State) (w host) : (s.dropSlices w host).mem = s.mem := by simp [State.dropSlices]
@[simp] theorem State.failSnoop_mem (s : State) (t host) : (s.failSnoop t host).mem = s.mem := by simp [State.failSnoop]

@[simp] theorem State.conflict_mem (s : State) (hu w line host tag port) : (s.conflict hu w line host tag port).mem = s.mem := by
  simp only [State.conflict]
  split <;> simp

@[simp] theorem State.countsGrant_mem (s : State) (hu plane v) : (s.countsGrant hu plane v).mem = s.mem := by
  simp [State.countsGrant]

/-! ### Machine/Memory -/

@[simp] theorem State.dropReq_mem (s : State) (id) : (s.dropReq id).mem = s.mem := by simp [State.dropReq]

@[simp] theorem State.cleanResp_mem (s : State) (r rsp pfw) : (s.cleanResp r rsp pfw).mem = s.mem := by
  simp only [State.cleanResp]
  (repeat' split) <;> simp

@[simp] theorem State.intEnds_mem (s : State) (r code) : (s.intEnds r code).mem = s.mem := rfl
@[simp] theorem State.notePart_mem (s : State) (r) : (s.notePart r).mem = s.mem := by simp only [State.notePart]; split <;> simp
@[simp] theorem State.checkInt_mem (s : State) (r) : (s.checkInt r).2.mem = s.mem := by simp only [State.checkInt]; split <;> simp
@[simp] theorem State.nakInt_mem (s : State) (r) : (s.nakInt r).mem = s.mem := rfl

@[simp] theorem State.countsReq_mem (s : State) (hu plane room) : (s.countsReq hu plane room).mem = s.mem := by
  simp [State.countsReq]

@[simp] theorem State.waitInt_mem (s : State) (r) : (s.waitInt r).mem = s.mem := rfl

/-! ### Machine/Atomic -/

@[simp] theorem State.submitXop_mem (s : State) (id x value) : (s.submitXop id x value).mem = s.mem := by simp [State.submitXop]

@[simp] theorem State.takeIo_mem (s : State) (w host tag wr) : (s.takeIo w host tag wr).mem = s.mem := by
  simp only [State.takeIo]
  (repeat' split) <;> simp

@[simp] theorem State.ioPages_mem (s : State) (x host tag pasid pa len wr) :
    (s.ioPages x host tag pasid pa len wr).2.mem = s.mem := by
  simp [State.ioPages]

@[simp] theorem State.ioLines_mem (s : State) (w tag wr lines) : (s.ioLines w tag wr lines).2.mem = s.mem := by
  simp [State.ioLines]

@[simp] theorem State.ioFail_mem (s : State) (host tag port wr c) : (s.ioFail host tag port wr c).mem = s.mem := by
  simp [State.ioFail]

/-! ### Machine/LinkLayer -/

@[simp] theorem State.bumpCrc_mem (s : State) (k) : (s.bumpCrc k).mem = s.mem := by simp [State.bumpCrc]

@[simp] theorem State.takeReturns_mem (s : State) (k) : (s.takeReturns k).2.mem = s.mem := by
  simp only [State.takeReturns]
  split <;> simp

@[simp] theorem State.noteFirst_mem (s : State) (k seq vc data) : (s.noteFirst k seq vc data).mem = s.mem := rfl
@[simp] theorem State.sendFirst_mem (s : State) (k vc data) : (s.sendFirst k vc data).mem = s.mem := by simp [State.sendFirst]

@[simp] theorem State.pumpGo_mem (s : State) (k : Nat) (w : List (Nat × List Byte)) : (s.pumpGo k w).2.mem = s.mem := by
  fun_induction State.pumpGo s k w <;> simp_all

@[simp] theorem State.pump_mem (s : State) (k) : (s.pump k).mem = s.mem := by simp [State.pump]
@[simp] theorem State.linkSend_mem (s : State) (k vc data) : (s.linkSend k vc data).mem = s.mem := by simp [State.linkSend]
@[simp] theorem State.ackIn_mem (s : State) (k ack) : (s.ackIn k ack).mem = s.mem := rfl
@[simp] theorem State.credIn_mem (s : State) (k vc n) : (s.credIn k vc n).mem = s.mem := by simp [State.credIn]
@[simp] theorem State.fieldsIn_mem (s : State) (k ack vc n) : (s.fieldsIn k ack vc n).mem = s.mem := by simp [State.fieldsIn]
@[simp] theorem State.accept_mem (s : State) (k vc) : (s.accept k vc).mem = s.mem := rfl
@[simp] theorem State.burst_mem (s : State) (k) : (s.burst k).mem = s.mem := by simp [State.burst]

@[simp] theorem State.ctlOn_mem (s : State) (l type dst serial body) : (s.ctlOn l type dst serial body).mem = s.mem := by
  simp [State.ctlOn]

@[simp] theorem State.flood_mem (s : State) (type serial body) : (s.flood type serial body).mem = s.mem := by simp [State.flood]
@[simp] theorem State.nextSerial_mem (s : State) : s.nextSerial.2.mem = s.mem := rfl
@[simp] theorem State.ctlLost_mem (s : State) : s.ctlLost.mem = s.mem := by simp [State.ctlLost]

@[simp] theorem State.unicast_mem (s : State) (type dst serial body) : (s.unicast type dst serial body).mem = s.mem := by
  simp only [State.unicast]
  split <;> simp

@[simp] theorem State.unicastNew_mem (s : State) (type dst body) : (s.unicastNew type dst body).mem = s.mem := by
  simp [State.unicastNew]

@[simp] theorem State.unicastAck_mem (s : State) (type dst body) : (s.unicastAck type dst body).2.mem = s.mem := by
  simp [State.unicastAck]

@[simp] theorem State.floodNew_mem (s : State) (type body) : (s.floodNew type body).mem = s.mem := by simp [State.floodNew]
@[simp] theorem State.endRelay_mem (s : State) (r) : (s.endRelay r).mem = s.mem := by simp [State.endRelay]

@[simp] theorem State.relayAnswer_mem (s : State) (src seq completion status bytes) :
    (s.relayAnswer src seq completion status bytes).mem = s.mem := by
  simp only [State.relayAnswer]
  split <;> simp

@[simp] theorem State.relayTmo_mem (s : State) (r fid) : (s.relayTmo r fid).mem = s.mem := by simp [State.relayTmo]

@[simp] theorem State.relayBack_mem (s : State) (o completion status bytes) :
    (s.relayBack o completion status bytes).mem = s.mem := by
  simp [State.relayBack]

/-! ### Machine/Command -/

@[simp] theorem State.sendReply_mem (s : State) (src relay r) : (s.sendReply src relay r).mem = s.mem := by
  simp only [State.sendReply]
  split <;> simp

@[simp] theorem State.reply_mem (s : State) (h relay op st detail data) : (s.reply h relay op st detail data).mem = s.mem := by
  simp [State.reply]

@[simp] theorem State.mailRecord_mem (s : State) (bs) : (s.mailRecord bs).mem = s.mem := rfl

@[simp] theorem State.complete_mem (s : State) (p r) : (s.complete p r).mem = s.mem := by
  simp only [State.complete]
  (repeat' split) <;> simp

@[simp] theorem State.notice_mem (s : State) (kind body) : (s.notice kind body).mem = s.mem := by simp [State.notice]

/-! ### Machine/Backing -/

theorem State.takeOne_mem {s : State} {house : Bool} {h : Nat} {r : (Nat × Bool) × State} (hr : s.takeOne house h = some r) :
    r.2.mem = s.mem := by
  simp only [State.takeOne] at hr
  split at hr
  · split at hr <;> cases hr
    rfl
  · split at hr
    · cases hr
    · split at hr <;> cases hr
      exact State.mapDev_mem ..

theorem State.takeDev_mem {s : State} {hs : List Nat} {r : Nat × Nat × Bool × State} (hr : s.takeDev hs = some r) :
    r.2.2.2.mem = s.mem := by
  induction hs with
  | nil => cases hr
  | cons h hs ih =>
    simp only [State.takeDev] at hr
    split at hr
    case h_1 hone => cases hr; exact State.takeOne_mem hone
    case h_2 => exact ih hr

theorem State.takeFor_mem {s : State} {house : Bool} {devs : List Nat} {i : Nat} {r : Nat × Nat × Bool × State}
    (hr : s.takeFor house devs i = some r) : r.2.2.2.mem = s.mem := by
  simp only [State.takeFor] at hr
  split at hr
  · obtain ⟨q, hq, rfl⟩ := Option.map_eq_some_iff.1 hr
    exact State.takeOne_mem hq
  · exact State.takeDev_mem hr

@[simp] theorem State.giveBack_mem (s : State) (house h e clean) : (s.giveBack house h e clean).mem = s.mem := by
  simp [State.giveBack]

@[simp] theorem State.giveSrc_mem (s : State) (e clean) : (s.giveSrc e clean).mem = s.mem := by simp [State.giveSrc]
@[simp] theorem State.giveDst_mem (s : State) (e) : (s.giveDst e).mem = s.mem := by simp [State.giveDst]
@[simp] theorem State.dropLines_mem (s : State) (x) : (s.dropLines x).mem = s.mem := rfl

@[simp] theorem State.bridgeMsg_mem (s : State) (port host bridge code) : (s.bridgeMsg port host bridge code).mem = s.mem := by
  simp [State.bridgeMsg]

@[simp] theorem State.present_mem (s : State) (w host) : (s.present w host).mem = s.mem := by
  simp only [State.present]
  (repeat' split) <;> simp

@[simp] theorem State.unbind5_mem (s : State) (w host) : (s.unbind5 w host).mem = s.mem := by
  simp only [State.unbind5]
  (repeat' split) <;> simp

@[simp] theorem State.loseDev_mem (s : State) (h) : (s.loseDev h).mem = s.mem := by simp [State.loseDev]
@[simp] theorem State.dropDev_mem (s : State) (h) : (s.dropDev h).mem = s.mem := by simp [State.dropDev]

/-! ### Machine/LogDev -/

@[simp] theorem State.ldCfgPut_mem (s : State) (w host reg v be) : (s.ldCfgPut w host reg v be).mem = s.mem := by
  simp only [State.ldCfgPut]
  split <;> simp

@[simp] theorem State.mbPost_mem (s : State) (w host r data) : (s.mbPost w host r data).mem = s.mem := rfl

@[simp] theorem State.ldWrite_mem (s : State) (w host off n v) : (s.ldWrite w host off n v).mem = s.mem := by
  simp only [State.ldWrite]
  split <;> simp

/-! ### Machine/PoolCmds -/

@[simp] theorem State.endAdopt_mem (s : State) (port e) : (s.endAdopt port e).2.mem = s.mem := by
  simp only [State.endAdopt]
  split <;> simp

@[simp] theorem State.endCreate_mem (s : State) (w) : (s.endCreate w).2.mem = s.mem := by
  simp only [State.endCreate]
  split <;> simp

@[simp] theorem State.endReleases_mem (s : State) (w : Nat) : (s.endReleases w).mem = s.mem := by
  simp only [State.endReleases]
  split
  · rfl
  · exact foldl_mem (fun a p => by split <;> simp) _ _

@[simp] theorem State.closeReleasing_mem (s : State) (x) : (s.closeReleasing x).mem = s.mem := by simp [State.closeReleasing]
@[simp] theorem State.incomingWin_mem (s : State) (h p w b room) : (s.incomingWin h p w b room).2.mem = s.mem := rfl

/-! ### Machine/Mover -/

@[simp] theorem State.dropAsked_mem (s : State) (n) : (s.dropAsked n).mem = s.mem := rfl

@[simp] theorem State.jobRecord_mem (s : State) (j status count last) : (s.jobRecord j status count last).mem = s.mem := by
  simp only [State.jobRecord]
  (repeat' split) <;> simp

@[simp] theorem State.endJob_mem (s : State) (n status last) : (s.endJob n status last).mem = s.mem := by
  simp only [State.endJob]
  split <;> simp

@[simp] theorem State.busError_mem (s : State) (n cause dir fetch addr) : (s.busError n cause dir fetch addr).mem = s.mem := by
  simp [State.busError]

@[simp] theorem State.migLeft_mem (s : State) (j x) : (s.migLeft j x).mem = s.mem := rfl

@[simp] theorem State.quitJob_mem (s : State) (n status) : (s.quitJob n status).mem = s.mem := by
  simp only [State.quitJob]
  (repeat' split) <;> simp

@[simp] theorem State.resumeChan_mem (s : State) (n action) : (s.resumeChan n action).mem = s.mem := by simp [State.resumeChan]
@[simp] theorem State.takeInt_mem (s : State) (id : Nat) : (s.takeInt id).2.mem = s.mem := rfl

@[simp] theorem State.descDone_mem (s : State) (n j d wrote) : (s.descDone n j d wrote).mem = s.mem := by
  simp only [State.descDone]
  (repeat' split) <;> simp

@[simp] theorem State.cleanSync_mem (s : State) (line win dev) : (s.cleanSync line win dev).2.2.mem = s.mem := by
  simp only [State.cleanSync]
  (repeat' split) <;> simp

@[simp] theorem State.cleanLines_mem (ls : List Nat) (s : State) (dev : List DevRsp) :
    (State.cleanLines ls s dev).2.2.2.mem = s.mem := by
  induction ls generalizing s dev with
  | nil => rfl
  | cons l ls ih =>
    have hmem := State.cleanSync_mem s l ((s.winOfLine l).getD 0) dev
    simp only [State.cleanLines]
    generalize s.cleanSync l ((s.winOfLine l).getD 0) dev = p at hmem ⊢
    obtain ⟨_ | _ | _, d1, s1⟩ := p
    · exact (ih _ _).trans hmem
    · exact hmem
    · exact hmem

@[simp] theorem State.dropMig_mem (s : State) (x) : (s.dropMig x).mem = s.mem := rfl
@[simp] theorem State.migEnd_mem (s : State) (m st) : (s.migEnd m st).mem = s.mem := rfl
@[simp] theorem State.freeMigChan_mem (s : State) (x) : (s.freeMigChan x).mem = s.mem := by simp [State.freeMigChan]

@[simp] theorem State.migAbandon_mem (s : State) (x st) : (s.migAbandon x st).mem = s.mem := by
  simp only [State.migAbandon]
  split <;> simp

theorem State.backRead_mem {s : State} {line win : Nat} {b : Back} {dev : List DevRsp} {r : DevRsp × List DevRsp × State}
    (hr : s.backRead line win b dev = some r) : r.2.2.mem = s.mem := by
  simp only [State.backRead] at hr
  split at hr <;> cases hr <;> simp

@[simp] theorem State.leavePan_mem (s : State) (x) : (s.leavePan x).mem = s.mem := rfl
@[simp] theorem State.migSwitch_mem (s0 : State) (x) : (s0.migSwitch x).mem = s0.mem := by simp [State.migSwitch]

@[simp] theorem State.migRelease_mem (s : State) (x) : (s.migRelease x).mem = s.mem := by
  simp only [State.migRelease]
  split <;> simp

@[simp] theorem State.disableChan_mem (s : State) (n) : (s.disableChan n).mem = s.mem := by
  simp only [State.disableChan]
  (repeat' split) <;> simp

@[simp] theorem State.setChanEn_mem (s : State) (n on) : (s.setChanEn n on).mem = s.mem := by simp [State.setChanEn]
@[simp] theorem State.abortQueue_mem (s : State) (room) : (s.abortQueue room).mem = s.mem := by simp [State.abortQueue]
@[simp] theorem State.moverTeardown_mem (s : State) (room) : (s.moverTeardown room).2.mem = s.mem := by simp [State.moverTeardown]
@[simp] theorem State.lostDev_mem (s : State) (h) : (s.lostDev h).mem = s.mem := by simp [State.lostDev]
@[simp] theorem State.submitJob_mem (s : State) (id x value) : (s.submitJob id x value).mem = s.mem := by simp [State.submitJob]

@[simp] theorem State.writePage_mem (s : State) (id x off n value) : (s.writePage id x off n value).mem = s.mem := by
  simp [State.writePage]

/-! ### Machine/RoomCmds -/

@[simp] theorem State.fitChans_mem (s : State) (r n) : (s.fitChans r n).mem = s.mem := by simp [State.fitChans]
@[simp] theorem State.refillRoom_mem (s : State) (r) : (s.refillRoom r).mem = s.mem := by simp [State.refillRoom]

/-! ### Machine/Qos -/

@[simp] theorem State.setTokens_mem (s : State) (p tc tp) : (s.setTokens p tc tp).mem = s.mem := rfl
@[simp] theorem State.noteTokens_mem (s : State) (p) : (s.noteTokens p).mem = s.mem := by simp [State.noteTokens]
@[simp] theorem State.charge_mem (s : State) (p m) : (s.charge p m).2.mem = s.mem := by simp [State.charge]
@[simp] theorem State.tickPort_mem (s : State) (p) : (s.tickPort p).mem = s.mem := by simp [State.tickPort]
@[simp] theorem State.fillBuckets_mem (s : State) (p) : (s.fillBuckets p).mem = s.mem := by simp [State.fillBuckets]

@[simp] theorem State.stateParity_mem (s : State) (die : Nat) : (s.stateParity die).mem = s.mem := by
  have hmem := State.check1_mem s (0x1000 + die) 1 false
  simp only [State.stateParity]
  generalize s.check1 (0x1000 + die) 1 false = p at hmem ⊢
  obtain ⟨_ | _ | _, s1⟩ := p <;> simpa using hmem

@[simp] theorem State.parity_mem (s : State) : s.parity.mem = s.mem := by simp [State.parity]
@[simp] theorem State.gateDue_mem (s : State) (p) : (s.gateDue p).mem = s.mem := by simp only [State.gateDue]; split <;> simp
@[simp] theorem State.spendTx_mem (s : State) (p chan cells) : (s.spendTx p chan cells).mem = s.mem := rfl
@[simp] theorem State.notePosted_mem (s : State) (p v) : (s.notePosted p v).mem = s.mem := by simp [State.notePosted]
@[simp] theorem State.sendV_mem (s : State) (p v) : (s.sendV p v).mem = s.mem := by simp [State.sendV]

@[simp] theorem State.failSentOn_mem (s : State) (e) : (s.failSentOn e).mem = s.mem := by
  simp only [State.failSentOn]
  split <;> simp

@[simp] theorem State.requeue_mem (s : State) (id p q c yellow) : (s.requeue id p q c yellow).mem = s.mem := rfl

@[simp] theorem State.moveQueued_mem (s : State) (may : Nat → Nat → Bool) : (s.moveQueued may).mem = s.mem := by
  refine (foldl_mem (fun a e => ?_) _ _).trans (foldl_mem (fun a v => ?_) _ _)
  · split <;> simp
  · split
    · split <;> simp
    · rfl

@[simp] theorem State.resteer_mem (s : State) (neighbour) : (s.resteer neighbour).mem = s.mem := by simp [State.resteer]
@[simp] theorem State.reroute_mem (s : State) : s.reroute.mem = s.mem := by simp [State.reroute]

/-! ### Machine/Pantry -/

@[simp] theorem State.cleanFailed_mem (s : State) (line) : (s.cleanFailed line).mem = s.mem := by simp [State.cleanFailed]

@[simp] theorem State.cleanLine_mem (s : State) (pfw line) : (s.cleanLine pfw line).2.mem = s.mem := by
  simp only [State.cleanLine]
  split <;> simp

@[simp] theorem State.startClean_mem (s : State) (cmd : Option Nat) (win : Nat) (inval : Bool) (lines old : List Nat) :
    (s.startClean cmd win inval lines old).mem = s.mem := by
  refine foldl_snd_snd_mem (fun a l => ?_) _ _
  have hmem := State.cleanLine_mem a.2.2 false l
  generalize a.2.2.cleanLine false l = p at hmem ⊢
  obtain ⟨_ | _, s1⟩ := p <;> exact hmem

@[simp] theorem State.invalClean_mem (s : State) (x) : (s.invalClean x).mem = s.mem := rfl
@[simp] theorem State.sweepCleans_mem (s : State) : s.sweepCleans.mem = s.mem := rfl

@[simp] theorem State.loseGrant_mem (s : State) (w) : (s.loseGrant w).mem = s.mem := by
  simp only [State.loseGrant]
  split <;> simp

@[simp] theorem State.dropGrants_mem (s : State) : s.dropGrants.mem = s.mem := by simp [State.dropGrants]
@[simp] theorem State.shortOfEnergy_mem (s : State) : s.shortOfEnergy.mem = s.mem := by simp [State.shortOfEnergy]

@[simp] theorem State.decideGrants_mem (s : State) : s.decideGrants.mem = s.mem := by
  refine foldl_snd_snd_mem (fun a p => ?_) _ _
  dsimp only
  split <;> simp

@[simp] theorem State.newBudget_mem (s : State) : s.newBudget.mem = s.mem := rfl

@[simp] theorem State.endCleans_mem (s : State) : s.endCleans.mem = s.mem :=
  foldl_mem (fun a c => by split <;> rfl) _ _

@[simp] theorem State.startFlush_mem (s : State) : s.startFlush.mem = s.mem := by
  refine (foldl_mem (fun a l => ?_) _ _).trans (State.endCleans_mem s)
  have hmem := State.cleanLine_mem a true l
  generalize a.cleanLine true l = p at hmem ⊢
  obtain ⟨_ | _, s1⟩ := p <;> exact hmem

@[simp] theorem State.flushRecord_mem (s : State) (f ok) : (s.flushRecord f ok).mem = s.mem := by simp [State.flushRecord]
@[simp] theorem State.endFlush_mem (s : State) (f ok) : (s.endFlush f ok).mem = s.mem := by simp [State.endFlush]
@[simp] theorem State.dropClean_mem (s : State) (id) : (s.dropClean id).mem = s.mem := rfl

theorem State.endLayout_mem {s : State} {id units : Nat} {r : WorkRes × State} (hr : s.endLayout id units = some r) :
    r.2.mem = s.mem := by
  simp only [State.endLayout] at hr
  split at hr
  · cases hr; rfl
  · split at hr
    · cases hr
    · split at hr <;> cases hr <;> simp

theorem State.endClean_mem {s : State} {id : Nat} {wins : List Nat} {both : Bool} {r : WorkRes × State}
    (hr : s.endClean id wins both = some r) : r.2.mem = s.mem := by
  have hinval : StepsKeepMem (fun (a : State) w => match a.win? w with | some x => a.invalClean x | none => a) :=
    fun a w => by dsimp only; split <;> rfl
  simp only [State.endClean] at hr
  split at hr
  · cases hr; rfl
  · split at hr <;> cases hr
    exact (State.mem_ite _ _).trans ((ite_congr rfl (fun _ => foldl_mem hinval _ _) fun _ => rfl).trans (ite_self _))

/-! ### Machine/Link -/

@[simp] theorem State.lossRecord_mem (s : State) (p tag room payload) : (s.lossRecord p tag room payload).mem = s.mem := by
  simp [State.lossRecord]

@[simp] theorem State.failReq_mem (s : State) (p v) : (s.failReq p v).mem = s.mem := by simp only [State.failReq]; split <;> simp
@[simp] theorem State.failQueued_mem (s : State) (p v) : (s.failQueued p v).mem = s.mem := by simp [State.failQueued]

@[simp] theorem State.synCount_mem (s : State) (p r) : (s.synCount p r).mem = s.mem := by
  simp only [State.synCount]
  split <;> simp

@[simp] theorem State.purgePort_mem (s : State) (p) : (s.purgePort p).mem = s.mem := by simp [State.purgePort]
@[simp] theorem State.startPurge_mem (s : State) (p) : (s.startPurge p).mem = s.mem := by simp [State.startPurge]
@[simp] theorem State.laneOff_mem (s : State) (l) : (s.laneOff l).mem = s.mem := rfl

@[simp] theorem State.freeBytes_mem (s : State) (n : Nat) : (s.freeBytes n).2.mem = s.mem := by
  induction n generalizing s with
  | zero => rfl
  | succ n ih => simp [State.freeBytes, ih]

@[simp] theorem State.unmargin_mem (s : State) (p) : (s.unmargin p).mem = s.mem := by simp [State.unmargin]
@[simp] theorem State.endMargins_mem (s : State) (p) : (s.endMargins p).mem = s.mem := by simp [State.endMargins]
@[simp] theorem State.endPortWork_mem (s : State) (p) : (s.endPortWork p).mem = s.mem := by simp [State.endPortWork]
@[simp] theorem State.loseCredits_mem (s : State) (p) : (s.loseCredits p).mem = s.mem := rfl
@[simp] theorem State.unbindPt_mem (s : State) (b) : (s.unbindPt b).mem = s.mem := by simp [State.unbindPt]

/-! ### Machine/Collector -/

@[simp] theorem State.endPend_mem (s : State) (p st) : (s.endPend p st).mem = s.mem := by simp [State.endPend]
@[simp] theorem State.endPends_mem (s : State) (f st) : (s.endPends f st).mem = s.mem := by simp [State.endPends]
@[simp] theorem State.cancelInstants_mem (s : State) : s.cancelInstants.mem = s.mem := by simp [State.cancelInstants]
@[simp] theorem State.stopMover_mem (s : State) : s.stopMover.mem = s.mem := by simp [State.stopMover]
@[simp] theorem State.abortSlots_mem (s : State) : s.abortSlots.mem = s.mem := by simp [State.abortSlots]
@[simp] theorem State.drainClean_mem (s : State) : s.drainClean.mem = s.mem := by simp [State.drainClean]
@[simp] theorem State.dropWaiting_mem (s : State) : s.dropWaiting.mem = s.mem := by simp [State.dropWaiting]
@[simp] theorem State.stopWork_mem (s : State) : s.stopWork.mem = s.mem := by simp [State.stopWork]
@[simp] theorem State.stopFlush_mem (s : State) : s.stopFlush.mem = s.mem := by simp only [State.stopFlush]; split <;> simp
@[simp] theorem State.fatal_mem (s : State) (r) : (s.fatal r).mem = s.mem := by simp [State.fatal]
@[simp] theorem State.driveFaultN_mem (s : State) (level) : (s.driveFaultN level).mem = s.mem := by simp [State.driveFaultN]
@[simp] theorem State.enterFault_mem (s : State) : s.enterFault.mem = s.mem := by simp [State.enterFault]
@[simp] theorem State.failTrk_mem (s : State) (t) : (s.failTrk t).mem = s.mem := by simp only [State.failTrk]; split <;> simp
@[simp] theorem State.drainLimit_mem (s : State) : s.drainLimit.mem = s.mem := by simp [State.drainLimit]

/-! ### Machine/Access -/

@[simp] theorem State.debugRefuse_mem (s : State) (jtag reason sp write addr len room) :
    (s.debugRefuse jtag reason sp write addr len room).mem = s.mem := by
  simp [State.debugRefuse]

/-! ### Machine/Doorway -/

@[simp] theorem State.dwyEvent_mem (s : State) (n kind code) : (s.dwyEvent n kind code).mem = s.mem := by simp [State.dwyEvent]
@[simp] theorem State.startRamp_mem (s : State) (n) : (s.startRamp n).mem = s.mem := rfl
@[simp] theorem State.pumpRamps_mem (s : State) : s.pumpRamps.mem = s.mem := by simp [State.pumpRamps]
@[simp] theorem State.cacheOn_mem (s : State) (p) : (s.cacheOn p).mem = s.mem := by simp only [State.cacheOn]; split <;> simp
@[simp] theorem State.bindPt_mem (s : State) (vcs bridge p) : (s.bindPt vcs bridge p).mem = s.mem := by simp [State.bindPt]

@[simp] theorem State.rebind_mem (s : State) (p serial capacity) : (s.rebind p serial capacity).mem = s.mem := by
  simp only [State.rebind]
  (repeat' split) <;> simp

@[simp] theorem State.mod48Down_mem (s : State) : s.mod48Down.mem = s.mem := rfl

/-! ### Machine/Flit -/

@[simp] theorem State.aer_mem (s : State) (p host) : (s.aer p host).mem = s.mem := by
  simp only [State.aer]
  (repeat' split) <;> simp

@[simp] theorem State.spendCredit_mem (s : State) (p m) : (s.spendCredit p m).mem = s.mem := by
  simp only [State.spendCredit]
  split <;> simp

@[simp] theorem State.discardD2_mem (s : State) (v) : (s.discardD2 v).mem = s.mem := by
  simp only [State.discardD2]
  split <;> simp

@[simp] theorem State.xbarCheck_mem (s : State) (hu plane) : (s.xbarCheck hu plane).2.mem = s.mem := by simp [State.xbarCheck]

@[simp] theorem State.mem_notice_ (s : State) (p m dst win off line) : (s.notice_ p m dst win off line).mem = s.mem := by
  simp only [State.notice_]
  split <;> simp

@[simp] theorem State.forward_mem (s : State) (p q m win off line) : (s.forward p q m win off line).mem = s.mem := by
  simp [State.forward]

@[simp] theorem State.toHome_mem (s : State) (p m0 r off) : (s.toHome p m0 r off).mem = s.mem := by
  simp only [State.toHome]
  (repeat' split) <;> simp

@[simp] theorem State.aliasIn_mem (s : State) (p m w x off) : (s.aliasIn p m w x off).mem = s.mem := by
  simp only [State.aliasIn]
  split <;> simp

@[simp] theorem State.cfgDone_mem (s : State) (p m value) : (s.cfgDone p m value).mem = s.mem := by
  simp only [State.cfgDone]
  (repeat' split) <;> simp

@[simp] theorem State.freeSent_mem (s : State) (x half) : (s.freeSent x half).mem = s.mem := rfl

@[simp] theorem State.synthReq_mem (s : State) (p m) : (s.synthReq p m).mem = s.mem := by
  simp only [State.synthReq]
  split <;> simp

/-! ### Machine/PortCmds -/

@[simp] theorem State.adaptTaps_mem (s : State) (lane rate) : (s.adaptTaps lane rate).mem = s.mem := by simp [State.adaptTaps]
@[simp] theorem State.laneUp_mem (s : State) (i total k lane) : (s.laneUp i total k lane).mem = s.mem := by simp [State.laneUp]

@[simp] theorem State.lanesUp_mem (s : State) (p : Nat) (i : LinkInfo) : (s.lanesUp p i).mem = s.mem :=
  foldl_mem (fun a k => by split <;> simp) _ _

@[simp] theorem State.lanesChange_mem (s : State) (p rate width : Nat) : (s.lanesChange p rate width).mem = s.mem :=
  foldl_mem (fun a k => by split <;> simp) _ _

@[simp] theorem State.protoUp_mem (s : State) (p i) : (s.protoUp p i).mem = s.mem := by simp [State.protoUp]
@[simp] theorem State.initCredits_mem (s : State) (p) : (s.initCredits p).mem = s.mem := by simp [State.initCredits]
@[simp] theorem State.joinGroup_mem (s : State) (p n) : (s.joinGroup p n).mem = s.mem := by simp [State.joinGroup]
@[simp] theorem State.presentAll_mem (s : State) (p) : (s.presentAll p).mem = s.mem := by simp [State.presentAll]

@[simp] theorem State.warmCheck_mem (s : State) (p i) : (s.warmCheck p i).mem = s.mem := by
  simp only [State.warmCheck]
  split <;> simp

@[simp] theorem State.endLinkSet_mem (s : State) (p) : (s.endLinkSet p).mem = s.mem := by
  simp only [State.endLinkSet]
  split <;> simp

@[simp] theorem State.holdNarrow_mem (s : State) (p) : (s.holdNarrow p).mem = s.mem := rfl
@[simp] theorem State.linkTrained_mem (s : State) (p info) : (s.linkTrained p info).mem = s.mem := by simp [State.linkTrained]

@[simp] theorem State.linkOpens_mem (s4 : State) (p info) : (s4.linkOpens p info).mem = s4.mem := by
  simp only [State.linkOpens]
  split <;> simp

@[simp] theorem State.recover_mem (s : State) (p) : (s.recover p).mem = s.mem := by simp [State.recover]
@[simp] theorem State.setFreeze_mem (s : State) (g on) : (s.setFreeze g on).mem = s.mem := rfl
@[simp] theorem State.setMargin_mem (s : State) (ls on) : (s.setMargin ls on).mem = s.mem := by simp [State.setMargin]
@[simp] theorem State.endMargin_mem (s : State) (p m errors) : (s.endMargin p m errors).2.mem = s.mem := by simp [State.endMargin]
@[simp] theorem State.newPort_mem (s : State) (p) : (s.newPort p).mem = s.mem := rfl
@[simp] theorem State.setGroup_mem (s : State) (g mode ps) : (s.setGroup g mode ps).mem = s.mem := rfl

/-! ### Machine/Opf -/

@[simp] theorem State.mapEnds_mem (s : State) (k f) : (s.mapEnds k f).mem = s.mem := by simp [State.mapEnds]

@[simp] theorem State.beginRetrain_mem (s : State) (k reason) : (s.beginRetrain k reason).mem = s.mem := by
  simp [State.beginRetrain]

@[simp] theorem State.sendRtrq_mem (s : State) (k reason) : (s.sendRtrq k reason).mem = s.mem := by simp [State.sendRtrq]
@[simp] theorem State.wantRetrain_mem (s : State) (k reason) : (s.wantRetrain k reason).mem = s.mem := by simp [State.wantRetrain]
@[simp] theorem State.resync_mem (s : State) (k next free) : (s.resync k next free).mem = s.mem := rfl
@[simp] theorem State.goUp_mem (s : State) (k) : (s.goUp k).mem = s.mem := by simp [State.goUp]
@[simp] theorem State.linkCheck_mem (s : State) (k w good) : (s.linkCheck k w good).2.mem = s.mem := by simp [State.linkCheck]
@[simp] theorem State.auditIn_mem (s : State) (k freed) : (s.auditIn k freed).mem = s.mem := by simp [State.auditIn]
@[simp] theorem State.sentFlit_mem (s : State) (k f) : (s.sentFlit k f).mem = s.mem := by simp [State.sentFlit]

@[simp] theorem State.deliver_mem (n : Nat) (s : State) (k vc : Nat) (bs : List Byte) :
    (State.deliver n s k vc bs).2.mem = s.mem := by
  fun_induction State.deliver n s k vc bs <;> simp_all

@[simp] theorem State.streamIn_mem (s : State) (k vc data) : (s.streamIn k vc data).mem = s.mem := by simp [State.streamIn]
@[simp] theorem State.loseModule_mem (s : State) (m) : (s.loseModule m).mem = s.mem := by simp [State.loseModule]
@[simp] theorem State.repair_mem (s : State) (m dir new) : (s.repair m dir new).mem = s.mem := by simp [State.repair]
@[simp] theorem State.sendSync_mem (s : State) (k) : (s.sendSync k).mem = s.mem := by simp [State.sendSync]

@[simp] theorem State.testWires_mem (s : State) (m wordsA wordsB verifyA verifyB) :
    (s.testWires m wordsA wordsB verifyA verifyB).mem = s.mem := by
  simp only [State.testWires]
  split <;> simp

/-! ### Machine/Fabric -/

@[simp] theorem State.sendMember_mem (s : State) : s.sendMember.mem = s.mem := by simp [State.sendMember]
@[simp] theorem State.see_mem (s : State) (cls src n) : (s.see cls src n).mem = s.mem := rfl
@[simp] theorem State.enqueueRelay_mem (s : State) (all origin seq pkt) : (s.enqueueRelay all origin seq pkt).mem = s.mem := rfl

@[simp] theorem State.drainRelay_mem (s : State) (key n : Nat) : (s.drainRelay key n).mem = s.mem := by
  fun_induction State.drainRelay s key n <;> simp_all

@[simp] theorem State.relayIn_mem (s : State) (all origin seq pkt) : (s.relayIn all origin seq pkt).mem = s.mem := by
  simp [State.relayIn]

@[simp] theorem State.floodSchema_mem (s : State) : s.floodSchema.mem = s.mem := by simp only [State.floodSchema]; split <;> simp
@[simp] theorem State.floodRoute_mem (s : State) (ver) : (s.floodRoute ver).mem = s.mem := by simp [State.floodRoute]
@[simp] theorem State.stageRoutes_mem (s : State) : s.stageRoutes.mem = s.mem := by simp [State.stageRoutes]
@[simp] theorem State.seqRelay_mem (s : State) (seq pkt) : (s.seqRelay seq pkt).mem = s.mem := rfl

@[simp] theorem State.floodRelay_mem (s : State) (origin serial seq pkt) : (s.floodRelay origin serial seq pkt).mem = s.mem := by
  simp [State.floodRelay]

@[simp] theorem State.floodHandover_mem (s : State) (n) : (s.floodHandover n).mem = s.mem := by simp [State.floodHandover]

@[simp] theorem State.doAct_mem (s : State) (a : RidgeAct) : (s.doAct a).mem = s.mem := by
  fun_cases State.doAct s a <;> simp

@[simp] theorem State.replicateTo_mem (s : State) (dst a) : (s.replicateTo dst a).mem = s.mem := by simp [State.replicateTo]

@[simp] theorem State.replicate_mem (s : State) (a) : (s.replicate a).mem = s.mem := by
  simp only [State.replicate]
  split <;> simp

@[simp] theorem State.sendState_mem (s : State) : s.sendState.mem = s.mem := by simp only [State.sendState]; split <;> simp
@[simp] theorem State.floodRidge_mem (s : State) : s.floodRidge.mem = s.mem := by simp [State.floodRidge]
@[simp] theorem State.becomeRidge_mem (s : State) : s.becomeRidge.mem = s.mem := by simp [State.becomeRidge]
@[simp] theorem State.cancelForeign_mem (s : State) (r) : (s.cancelForeign r).mem = s.mem := by simp [State.cancelForeign]

@[simp] theorem State.adoptRidge_mem (s : State) (r std epoch) : (s.adoptRidge r std epoch).mem = s.mem := by
  simp [State.adoptRidge]

@[simp] theorem State.checkStaging_mem (s : State) : s.checkStaging.mem = s.mem := by
  simp only [State.checkStaging]
  split <;> simp

@[simp] theorem State.cancelHandover_mem (s : State) : s.cancelHandover.mem = s.mem := by simp [State.cancelHandover]

@[simp] theorem State.settleRidge_mem (s : State) : s.settleRidge.mem = s.mem := by
  simp only [State.settleRidge]
  (repeat' split) <;> simp

@[simp] theorem State.settleDuty_mem (s : State) : s.settleDuty.mem = s.mem := by
  simp only [State.settleDuty]
  (repeat' split) <;> simp

@[simp] theorem State.settleSelf_mem (s : State) : s.settleSelf.mem = s.mem := by simp [State.settleSelf]
@[simp] theorem State.fabSettle_mem (s : State) : s.fabSettle.mem = s.mem := by simp [State.fabSettle]
@[simp] theorem State.restartHearth_mem (s : State) : s.restartHearth.mem = s.mem := by simp [State.restartHearth]

/-! ### Machine/Stairwell -/

@[simp] theorem State.fwdCtl_mem (s : State) (l bs) : (s.fwdCtl l bs).mem = s.mem := by
  simp only [State.fwdCtl]
  (repeat' split) <;> simp

@[simp] theorem State.segment_mem (s : State) (bs) : (s.segment bs).mem = s.mem := by
  simp only [State.segment]
  (repeat' split) <;> simp

@[simp] theorem State.ctlIn_mem (s : State) (l bs) : (s.ctlIn l bs).mem = s.mem := by simp [State.ctlIn]
@[simp] theorem State.codeErrors_mem (s : State) (k n) : (s.codeErrors k n).mem = s.mem := by simp [State.codeErrors]

@[simp] theorem State.handBack_mem (s : State) (vc bs) : (s.handBack vc bs).mem = s.mem := by
  simp only [State.handBack]
  (repeat' split) <;> simp

@[simp] theorem State.train_mem (s : State) (k) : (s.train k).mem = s.mem := by simp [State.train]

/-! ### Machine/FabricRows -/

@[simp] theorem State.sendAck_mem (s : State) (dst type serial) : (s.sendAck dst type serial).mem = s.mem := by
  simp [State.sendAck]

@[simp] theorem State.adoptSchema_mem (s : State) (v) : (s.adoptSchema v).mem = s.mem := by simp [State.adoptSchema]
@[simp] theorem State.putMember_mem (s : State) (l m) : (s.putMember l m).mem = s.mem := rfl
@[simp] theorem State.unlockedRecord_mem (s : State) : s.unlockedRecord.mem = s.mem := by simp [State.unlockedRecord]

@[simp] theorem State.rewriteHome_mem (s : State) (w oldHome newHome newWin) :
    (s.rewriteHome w oldHome newHome newWin).mem = s.mem := by
  simp [State.rewriteHome]

@[simp] theorem State.prepDone_mem (s : State) (w) : (s.prepDone w).mem = s.mem := by simp only [State.prepDone]; split <;> simp

@[simp] theorem State.postNotice_mem (s : State) (origin serial kind body) :
    (s.postNotice origin serial kind body).mem = s.mem := by
  simp [State.postNotice]

@[simp] theorem State.drainNotices_mem (s : State) (origin n : Nat) : (s.drainNotices origin n).mem = s.mem := by
  fun_induction State.drainNotices s origin n <;> simp_all

@[simp] theorem State.fidOr_mem (s : State) (x) : (s.fidOr x).2.mem = s.mem := by simp only [State.fidOr]; split <;> simp

/-! ### Machine/Attic -/

@[simp] theorem State.ringRead_mem (s : State) (first n) : (s.ringRead first n).2.mem = s.mem := by simp [State.ringRead]
@[simp] theorem State.markRead_mem (s : State) (off len) : (s.markRead off len).mem = s.mem := rfl
@[simp] theorem State.markFirst_mem (s : State) : s.markFirst.mem = s.mem := rfl
@[simp] theorem State.arm_mem (s : State) (checker mode) : (s.arm checker mode).mem = s.mem := by simp [State.arm]
@[simp] theorem State.writeArm_mem (s : State) (checker mode) : (s.writeArm checker mode).mem = s.mem := by simp [State.writeArm]
@[simp] theorem State.readTemp_mem (s : State) (n raw) : (s.readTemp n raw).mem = s.mem := by simp [State.readTemp]

@[simp] theorem State.hearthFault_mem (s : State) (checker inj) : (s.hearthFault checker inj).mem = s.mem := by
  simp [State.hearthFault]

/-! ### Machine/RegView -/

@[simp] theorem State.clearPeak_mem (s : State) (off) : (s.clearPeak off).mem = s.mem := by simp [State.clearPeak]
@[simp] theorem State.regRead_mem (s : State) (path off) : (s.regRead path off).2.mem = s.mem := by simp [State.regRead]

/-! ### Machine/Fifo -/

@[simp] theorem State.noteDropped_mem (s : State) : s.noteDropped.mem = s.mem := by simp [State.noteDropped]

@[simp] theorem State.moveEvents_mem (n : Nat) (s : State) : (State.moveEvents n s).mem = s.mem := by
  fun_induction State.moveEvents n s <;> simp_all

@[simp] theorem State.pumpFifo_mem (s : State) : s.pumpFifo.mem = s.mem := by simp [State.pumpFifo]
@[simp] theorem State.popWord_mem (s : State) : s.popWord.2.mem = s.mem := by simp only [State.popWord]; (repeat' split) <;> simp
@[simp] theorem State.badAccess_mem (s : State) (path off) : (s.badAccess path off).mem = s.mem := by simp [State.badAccess]
@[simp] theorem State.flushEvents_mem (s : State) : s.flushEvents.mem = s.mem := by simp [State.flushEvents]

/-! ### Machine/Board -/

@[simp] theorem State.imageFault_mem (s : State) (e) : (s.imageFault e).mem = s.mem := by simp [State.imageFault]
@[simp] theorem State.defaultGroup_mem (s : State) (g) : (s.defaultGroup g).mem = s.mem := rfl
@[simp] theorem State.laneItem_mem (s : State) (e) : (s.laneItem e).mem = s.mem := by simp [State.laneItem]
@[simp] theorem State.laneItems_mem (s : State) (es) : (s.laneItems es).mem = s.mem := by simp [State.laneItems]

@[simp] theorem State.applyItem_mem (cold house : Bool) (s : State) (e : EItem) :
    (State.applyItem cold house s e).mem = s.mem := by
  have hmem : (if e.bad then s.imageFault e else s).mem = s.mem := by simp
  simp only [State.applyItem]
  generalize (if e.bad then s.imageFault e else s) = u at hmem ⊢
  rw [← hmem]
  split <;> simp

@[simp] theorem State.applyImage_mem (s : State) (cold keep : Bool) : (s.applyImage cold keep).mem = s.mem := by
  have hports : StepsKeepMem (fun (a : State) (c : Nat × DwCh) =>
      match c.2.port with | some p => a.mapPort p fun x => { x with dch := some c.1 } | none => a) :=
    fun a c => by dsimp only; split <;> rfl
  refine (foldl_mem hports _ _).trans ?_
  split <;> simp

/-! ### Machine/Reset -/

@[simp] theorem State.keepClocks_mem (b : State) (s) : (b.keepClocks s).mem = b.mem := rfl
@[simp] theorem State.rowRegs_mem (s : State) : s.rowRegs.mem = s.mem := rfl
@[simp] theorem State.bootRom_mem (s : State) : s.bootRom.2.mem = s.mem := by simp [State.bootRom]

@[simp] theorem State.trainHbm_mem (s : State) : s.trainHbm.mem = s.mem := by
  refine foldl_mem (fun a k => ?_) _ _
  dsimp only
  split <;> simp

@[simp] theorem State.chooseImage_mem (s : State) (active) : (s.chooseImage active).mem = s.mem := by
  simp only [State.chooseImage]
  split <;> simp

@[simp] theorem State.trainModules_mem (s : State) : s.trainModules.mem = s.mem := by simp [State.trainModules]
@[simp] theorem State.bootOn_mem (s : State) : s.bootOn.mem = s.mem := by simp [State.bootOn]

@[simp] theorem State.bootCold_mem (s0 : State) : s0.bootCold.mem = s0.mem := by
  simp only [State.bootCold]
  (repeat' split) <;> simp

@[simp] theorem State.startWarm_mem (s : State) (cause) : (s.startWarm cause).mem = s.mem := by
  simp only [State.startWarm]
  (repeat' split) <;> simp

@[simp] theorem State.writeReset_mem (s : State) (v) : (s.writeReset v).mem = s.mem := by simp [State.writeReset]
@[simp] theorem State.saveHome_mem (s : State) : s.saveHome.mem = s.mem := by simp [State.saveHome]
@[simp] theorem State.warmStacks_mem (b : State) (s keep) : (b.warmStacks s keep).mem = b.mem := by simp [State.warmStacks]
@[simp] theorem State.settleExt_mem (s : State) (x) : (s.settleExt x).mem = s.mem := by simp [State.settleExt]
@[simp] theorem State.startLinks_mem (s : State) : s.startLinks.mem = s.mem := by simp [State.startLinks]
@[simp] theorem State.loseDir_mem (s : State) : s.loseDir.mem = s.mem := by simp [State.loseDir]
@[simp] theorem State.losePantry_mem (s : State) : s.losePantry.mem = s.mem := by simp [State.losePantry]
@[simp] theorem State.checkKept_mem (s : State) : s.checkKept.mem = s.mem := by simp [State.checkKept]
@[simp] theorem State.wakeStacks_mem (s : State) : s.wakeStacks.mem = s.mem := by simp [State.wakeStacks]

@[simp] theorem State.enterRun_mem (s : State) (warm version ownMin ownMax) :
    (s.enterRun warm version ownMin ownMax).mem = s.mem := by
  exact rfl

@[simp] theorem State.announceReset_mem (s : State) (warm) : (s.announceReset warm).mem = s.mem := by simp [State.announceReset]

/-! ### Machine/Clocks -/

@[simp] theorem State.sendMsix_mem (s : State) : s.sendMsix.mem = s.mem := by simp [State.sendMsix]
@[simp] theorem State.ringOff_mem (s : State) (n) : (s.ringOff n).mem = s.mem := rfl
@[simp] theorem State.ringOn_mem (s : State) (n) : (s.ringOn n).mem = s.mem := rfl
@[simp] theorem State.ringEnable_mem (s : State) (n on) : (s.ringEnable n on).mem = s.mem := by simp [State.ringEnable]
@[simp] theorem State.takeClock_mem (s : State) (b) : (s.takeClock b).mem = s.mem := rfl
@[simp] theorem State.switchClock_mem (s : State) : s.switchClock.mem = s.mem := by simp [State.switchClock]

/-! ### Machine/Coherence -/

@[simp] theorem State.trkCheck_mem (s : State) (hu) : (s.trkCheck hu).2.mem = s.mem := by simp [State.trkCheck]
@[simp] theorem State.trkFatal_mem (s : State) (hu) : (s.trkFatal hu).mem = s.mem := by simp [State.trkFatal]
@[simp] theorem State.removeFailed_mem (s : State) : s.removeFailed.mem = s.mem := by simp [State.removeFailed]

@[simp] theorem State.takeNotice_mem (s : State) (r) : (s.takeNotice r).mem = s.mem := by
  simp only [State.takeNotice]
  split <;> simp

@[simp] theorem State.hbmParity_mem (s : State) (stack k) : (s.hbmParity stack k).2.mem = s.mem := by simp [State.hbmParity]

@[simp] theorem State.egressBeat_mem (s : State) (p e) : (s.egressBeat p e).mem = s.mem := by
  simp only [State.egressBeat]
  (repeat' split) <;> simp

@[simp] theorem State.unlock_mem (s : State) (kind inst) : (s.unlock kind inst).mem = s.mem := rfl

/-! ### Machine/Firmware -/

@[simp] theorem State.mapSlot_mem (s : State) (b f) : (s.mapSlot b f).mem = s.mem := rfl
@[simp] theorem State.restartFw_mem (s : State) : s.restartFw.mem = s.mem := by simp only [State.restartFw]; split <;> simp
@[simp] theorem State.resumeWarm_mem (s : State) : s.resumeWarm.mem = s.mem := by simp only [State.resumeWarm]; split <;> simp
@[simp] theorem State.adoptRange_mem (s : State) : s.adoptRange.mem = s.mem := rfl
@[simp] theorem State.payRecord_mem (s : State) : s.payRecord.mem = s.mem := by simp only [State.payRecord]; split <;> simp

/-! ### Machine/RegWrite -/

@[simp] theorem State.storeWord_mem (s : State) (off d v) : (s.storeWord off d v).mem = s.mem := rfl
@[simp] theorem State.writeRingBase_mem (s : State) (off v) : (s.writeRingBase off v).mem = s.mem := by simp [State.writeRingBase]
@[simp] theorem State.writeRingCfg_mem (s : State) (n v) : (s.writeRingCfg n v).mem = s.mem := by simp [State.writeRingCfg]

/-! ### Machine/Debug -/

@[simp] theorem State.peekRegs_mem (n : Nat) (s : State) (path : Path) (off : Nat) :
    (State.peekRegs n s path off).2.mem = s.mem := by
  induction n generalizing s off with
  | zero => rfl
  | succ n ih => simp [State.peekRegs, ih]

/-! ### Machine/Monitor -/

@[simp] theorem State.monSay_mem (s : State) (ws st) : (s.monSay ws st).mem = s.mem := by simp [State.monSay]

@[simp] theorem State.dropChal_mem (s : State) (jtag) : (s.dropChal jtag).mem = s.mem := by
  simp only [State.dropChal]
  split <;> simp

@[simp] theorem State.lifeDeny_mem (s : State) : s.lifeDeny.2.2.mem = s.mem := by
  simp [State.lifeDeny]

@[simp] theorem State.monDermel_mem (s : State) (pkt) : (s.monDermel pkt).mem = s.mem := by simp [State.monDermel]
@[simp] theorem State.newChal_mem (s : State) (jtag) : (s.newChal jtag).2.mem = s.mem := rfl
@[simp] theorem State.blowFuses_mem (s : State) : s.blowFuses.mem = s.mem := rfl

/-! ### Machine/Jtag -/

@[simp] theorem State.loadIr_mem (s : State) (code) : (s.loadIr code).mem = s.mem := by simp [State.loadIr]
@[simp] theorem State.refuseIr_mem (s : State) : s.refuseIr.mem = s.mem := rfl
@[simp] theorem State.ballTest_mem (s : State) (code) : (s.ballTest code).mem = s.mem := by simp [State.ballTest]

/-! ### Machine/Transport -/

@[simp] theorem State.takePacket_mem (s : State) (src) : (s.takePacket src).mem = s.mem := by
  simp only [State.takePacket]
  split <;> simp

@[simp] theorem State.hearthCheck_mem (s : State) : s.hearthCheck.2.mem = s.mem := by simp [State.hearthCheck]
@[simp] theorem State.ringDmaErr_mem (s : State) (n) : (s.ringDmaErr n).mem = s.mem := rfl

/-! ### Machine/Complete -/

@[simp] theorem State.endVerify_mem (s : State) (slot version ownMin ownMax) :
    (s.endVerify slot version ownMin ownMax).mem = s.mem := by
  simp [State.endVerify]

/-! ## Functions that write the memory, or call one that does -/

/-! ### Conditionals and folds -/

@[simp] theorem Memory.wf_ite {c : Prop} [Decidable c] (m n : List Host.Cell) :
    Memory.wf (if c then m else n) = if c then Memory.wf m else Memory.wf n :=
  apply_ite _ _ _ _

theorem State.ite_wf {c : Prop} [Decidable c] {s t : State} (hs : Memory.wf s.mem = true) (ht : Memory.wf t.mem = true) :
    Memory.wf (if c then s else t).mem = true := by
  split
  · exact hs
  · exact ht

section
variable {α β : Type}

/-- Each step of a fold keeps the memory canonical. -/
def StepsKeepWf (f : State → α → State) : Prop := ∀ a x, Memory.wf a.mem = true → Memory.wf (f a x).mem = true

@[simp] theorem stepsKeepWf_iff {f : State → α → State} :
    StepsKeepWf f ↔ ∀ a x, Memory.wf a.mem = true → Memory.wf (f a x).mem = true := Iff.rfl

@[simp] theorem foldl_wf {f : State → α → State} {s : State} (h : Memory.wf s.mem = true) (hf : StepsKeepWf f) (l : List α) :
    Memory.wf (l.foldl f s).mem = true := by
  induction l generalizing s with
  | nil => exact h
  | cons x xs ih => exact ih (hf _ _ h)

/-- The same for a fold that gathers a result beside the state. -/
def StepsKeepSndWf (f : β × State → α → β × State) : Prop := ∀ a x, Memory.wf a.2.mem = true → Memory.wf (f a x).2.mem = true

@[simp] theorem stepsKeepSndWf_iff {f : β × State → α → β × State} :
    StepsKeepSndWf f ↔ ∀ a x, Memory.wf a.2.mem = true → Memory.wf (f a x).2.mem = true := Iff.rfl

@[simp] theorem foldl_snd_wf {f : β × State → α → β × State} {p : β × State} (h : Memory.wf p.2.mem = true)
    (hf : StepsKeepSndWf f) (l : List α) :
    Memory.wf (l.foldl f p).2.mem = true := by
  induction l generalizing p with
  | nil => exact h
  | cons x xs ih => exact ih (hf _ _ h)

end

/-- A change of the state keeps the memory canonical. -/
def KeepsWf (f : State → State) : Prop := ∀ a, Memory.wf a.mem = true → Memory.wf (f a).mem = true

@[simp] theorem keepsWf_iff {f : State → State} : KeepsWf f ↔ ∀ a, Memory.wf a.mem = true → Memory.wf (f a).mem = true := Iff.rfl

@[simp] theorem State.writeLine_mem (s : State) (a : Nat) (l : Line) (be : B64) (p : Bool) :
    (s.writeLine a l be p).mem = Memory.writeEn s.mem a l be 64 := rfl

/-! ### Machine/Extent -/

@[simp] theorem State.panInstall_wf {s : State} (h : Memory.wf s.mem = true) (key line room : Nat) (data : Line)
    (poison dirty : Bool) :
    Memory.wf (s.panInstall key line room data poison dirty).mem = true := by
  simp [State.panInstall, Memory.writeEn_wf, h]

/-! ### Machine/Home -/

@[simp] theorem State.allocateFor_wf {s : State} (h : Memory.wf s.mem = true) (trk line win d dirty) :
    Memory.wf (s.allocateFor trk line win d dirty).mem = true := by
  simp only [State.allocateFor]
  (repeat' split) <;> simp [h]

@[simp] theorem State.storeWb_wf {s : State} (h : Memory.wf s.mem = true) (trk line win d w bs) :
    Memory.wf (s.storeWb trk line win d w bs).mem = true := by
  simp only [State.storeWb]
  split <;> simp [h]

theorem State.readMem_wf {s t : State} {use : MUse} {line win : Nat} (ht : s.readMem use line win = some t)
    (h : Memory.wf s.mem = true) : Memory.wf t.mem = true := by
  rwa [State.readMem_mem ht]

theorem State.writeMem_wf {s t : State} {trk line win : Nat} {data : Line} {be : B64} {poison : Bool}
    (ht : s.writeMem trk line win data be poison = some t) (h : Memory.wf s.mem = true) : Memory.wf t.mem = true := by
  simp only [State.writeMem] at ht
  (repeat' split at ht) <;> cases ht <;> simp [h, Memory.writeEn_wf]

@[simp] theorem State.startStore_wf {s : State} (h : Memory.wf s.mem = true) (t : Trk) :
    Memory.wf (s.startStore t).mem = true := by
  simp only [State.startStore]
  (repeat' split)
  any_goals (apply State.readMem_wf; assumption; simp [h])
  any_goals (apply State.writeMem_wf; assumption; simp [h])
  all_goals simp [h]

@[simp] theorem State.advance1_wf {s : State} (h : Memory.wf s.mem = true) (id : Nat) : Memory.wf (s.advance1 id).mem = true := by
  simp only [State.advance1]
  (repeat' split)
  any_goals (apply State.writeMem_wf; assumption; simp [h])
  all_goals simp [h]

@[simp] theorem State.advance_wf {s : State} (h : Memory.wf s.mem = true) (id) : Memory.wf (s.advance id).mem = true := by
  simp only [State.advance]
  split <;> simp [h]

@[simp] theorem State.dropUnsent_wf {s : State} (h : Memory.wf s.mem = true) (t host) :
    Memory.wf (s.dropUnsent t host).mem = true := by
  simp [State.dropUnsent, h]

@[simp] theorem State.pumpSnoop1_wf {s : State} (h : Memory.wf s.mem = true) : Memory.wf s.pumpSnoop1.mem = true := by
  simp only [State.pumpSnoop1]
  split <;> simp [h]

@[simp] theorem State.pumpSnoops_wf {s : State} (h : Memory.wf s.mem = true) (n : Nat) :
    Memory.wf (State.pumpSnoops n s).mem = true := by
  induction n generalizing s with
  | zero => exact h
  | succ n ih => exact ih (State.pumpSnoop1_wf h)

@[simp] theorem State.startRecover_wf {s : State} (h : Memory.wf s.mem = true) (line) :
    Memory.wf (s.startRecover line).mem = true := by
  simp only [State.startRecover]
  split <;> simp [h]

@[simp] theorem State.dirBad_wf {s : State} (h : Memory.wf s.mem = true) (hu set way trusted inj) :
    Memory.wf (s.dirBad hu set way trusted inj).mem = true := by
  simp [State.dirBad, h]

@[simp] theorem State.cacheBad_wf {s : State} (h : Memory.wf s.mem = true) (hu line key) :
    Memory.wf (s.cacheBad hu line key).mem = true := by
  simp only [State.cacheBad]
  split <;> simp [h]

@[simp] theorem State.dirLookup_wf {s : State} (h : Memory.wf s.mem = true) (line) : Memory.wf (s.dirLookup line).mem = true := by
  simp only [State.dirLookup]
  split <;> simp [h]

@[simp] theorem State.startEvict_wf {s : State} (h : Memory.wf s.mem = true) (t way) :
    Memory.wf (s.startEvict t way).mem = true := by
  simp only [State.startEvict]
  (repeat' split) <;> simp [h]

@[simp] theorem State.withEntry_wf {s : State} (h : Memory.wf s.mem = true) (t : Trk) (st : Nat) {go none_ : State → Trk → State}
    (hgo : KeepsWf (go · t)) (hnone : KeepsWf (none_ · t)) : Memory.wf (s.withEntry t st go none_).mem = true := by
  simp only [State.withEntry]
  split
  · simp [h]
  · split
    · exact hgo _ (by simp [h])
    · simp [h]
    · exact hnone _ (by simp [h])

@[simp] theorem State.openFill_wf {s : State} (h : Memory.wf s.mem = true) (t from_ owner) :
    Memory.wf (s.openFill t from_ owner).mem = true := by
  simp only [State.openFill]
  split <;> simp [h]

@[simp] theorem State.startTrk_wf {s : State} (h : Memory.wf s.mem = true) (t0 : Trk) :
    Memory.wf (s.startTrk t0).mem = true := by
  unfold State.startTrk
  extract_lets t s1 shared s2 s3 st e pend n n1 others s4 o
  have h1 : Memory.wf s1.mem = true := by simp [s1, h]
  refine State.ite_wf ?_ ?_
  · (repeat' split) <;> simp [h1]
  have h2 : Memory.wf s2.mem = true := by simp [s2, h1]
  refine State.ite_wf h2 (State.ite_wf (by simp [h2]) ?_)
  have h3 : Memory.wf s3.mem = true := by simp [s3, h2]
  have hpend : ∀ a, (pend a).mem = a.mem := by simp [pend]
  have h4 : Memory.wf s4.mem = true := by simp [s4, hpend, h3]
  clear_value s4 s3 s2 s1 shared st e pend
  refine State.ite_wf (by split <;> simp [h3]) (State.ite_wf ?_ (State.ite_wf ?_ ?_))
  · (repeat' split)
    any_goals (apply State.withEntry_wf h3 <;> intro a ha <;> dsimp only <;> (repeat' split))
    all_goals simp [*]
  · (repeat' split) <;> simp [h3, h4, hpend]
  · (repeat' split) <;> simp [h3, hpend]

@[simp] theorem State.settle_wf {s : State} (h : Memory.wf s.mem = true) (n : Nat) : Memory.wf (State.settle n s).mem = true := by
  induction n generalizing s with
  | zero => exact h
  | succ n ih =>
    simp only [State.settle]
    split
    · exact ih (by simp [h])
    · split
      · exact ih (by simp [h])
      · split
        · exact ih (by simp [h])
        · simp [h]

@[simp] theorem State.run_wf {s : State} (h : Memory.wf s.mem = true) : Memory.wf s.run.mem = true := by simp [State.run, h]

@[simp] theorem State.freeDone_wf {s : State} (h : Memory.wf s.mem = true) : Memory.wf s.freeDone.mem = true := by
  simp [State.freeDone, h]

/-! ### Machine/Grant -/

@[simp] theorem State.acceptWbk_wf {s : State} (h : Memory.wf s.mem = true) (t open_ full d) :
    Memory.wf (s.acceptWbk t open_ full d).mem = true := by
  simp only [State.acceptWbk]
  (repeat' split) <;> simp [h]

@[simp] theorem State.letIn_wf {s0 : State} (h : Memory.wf s0.mem = true) (v hu w x) :
    Memory.wf (s0.letIn v hu w x).mem = true := by
  unfold State.letIn
  extract_lets line host tag isReq u raw s reads full be
  have hs : Memory.wf s.mem = true := by
    simp only [s, u]
    split <;> simp [h]
  clear_value s
  cases u.handedOver v x with
  | some r => exact State.ite_wf (by simp [hs]) (by simp [hs])
  | none =>
  refine State.ite_wf (by simp [hs]) ?_
  cases s.bindOf v x with
  | none => simp [hs]
  | some b =>
  refine State.ite_wf (by simp [hs]) (State.ite_wf (by simp [hs]) ?_)
  rw [← State.checkExt_mem s w line] at hs
  revert hs
  rcases s.checkExt w line with ⟨ok, s1⟩
  intro h1
  dsimp -zeta only at h1 ⊢
  extract_lets e wbk needs bank own shr s4 t s5 s6
  have h4 : Memory.wf s4.mem = true := by
    simp only [s4]
    split <;> simp [h1]
  have h5 : Memory.wf s5.mem = true := by simp [s5, h1]
  have h6 : Memory.wf s6.mem = true := by
    simp only [s6]
    (repeat' split) <;> simp [h1]
  clear_value s4 s5 s6 t needs wbk bank e own shr
  refine State.ite_wf (by simp [h1]) (State.ite_wf (by simp [h1]) (State.ite_wf (by simp [h1]) ?_))
  refine State.ite_wf (by simp [h1]) (State.ite_wf (by simp [h1]) ?_)
  refine State.ite_wf (by simp [h4]) (State.ite_wf ?_ (by simp [h6]))
  (repeat' split) <;> simp [h1, h5]

@[simp] theorem State.snoopAnswer_wf {s : State} (h : Memory.wf s.mem = true) (hu w line host tag k block) :
    Memory.wf (s.snoopAnswer hu w line host tag k block).mem = true := by
  simp only [State.snoopAnswer]
  (repeat' split) <;> simp [h]

@[simp] theorem State.grantMsg_wf {s : State} (h : Memory.wf s.mem = true) (v hu) : Memory.wf (s.grantMsg v hu).mem = true := by
  simp only [State.grantMsg]
  (repeat' split) <;> simp [h]

@[simp] theorem State.grantRow_wf {s0 : State} (h : Memory.wf s0.mem = true) (hu plane t k) :
    Memory.wf (s0.grantRow hu plane t k).mem = true := by
  simp only [State.grantRow]
  split <;> simp [h]

/-! ### Machine/Memory -/

@[simp] theorem State.allocate_wf {s : State} (h : Memory.wf s.mem = true) (line win d) :
    Memory.wf (s.allocate line win d).mem = true := by
  simp [State.allocate, h]

@[simp] theorem State.readResp_wf {s : State} (h : Memory.wf s.mem = true) (r : MemReq) (rsp : DevRsp) (trk : Nat) :
    Memory.wf (s.readResp r rsp trk).mem = true := by
  simp only [State.readResp]
  grind [State.advance_wf, State.allocate_wf, State.checkRetry_mem, State.dropReq_mem, State.mapTrk_mem,
    State.mediaEvent_mem, State.memFaultOf_mem, State.panBad_mem, State.readMem_wf, State.run_wf, State.touchTag_mem]

@[simp] theorem State.storeResp_wf {s : State} (h : Memory.wf s.mem = true) (r : MemReq) (rsp : DevRsp) (trk : Nat) :
    Memory.wf (s.storeResp r rsp trk).mem = true := by
  unfold State.storeResp
  extract_lets err s1 s2 s3 s4
  have h1 : Memory.wf s1.mem = true := by simp [s1, h]
  have h2 : Memory.wf s2.mem = true := by
    simp only [s2]
    (repeat' split) <;> simp [h1, Memory.writeEn_wf]
  have h3 : Memory.wf s3.mem = true := by
    simp only [s3]
    (repeat' split) <;> simp [h2]
  have h4 : Memory.wf s4.mem = true := by simp [s4, h3]
  (repeat' split) <;> simp [h4]

@[simp] theorem State.victimResp_wf {s : State} (h : Memory.wf s.mem = true) (r : MemReq) (rsp : DevRsp) (trk : Option Nat)
    (line : Nat)
    (data : Line) (poison dirty : Bool) (room : Nat) : Memory.wf (s.victimResp r rsp trk line data poison dirty room).mem =
    true := by
  unfold State.victimResp
  extract_lets s1 win key same s2 reuse
  have h1 : Memory.wf s1.mem = true := by simp [s1, h]
  clear_value s1 win key same
  have h2 : Memory.wf s2.mem = true := State.ite_wf (by simp [h1]) (by split <;> simp [h1])
  clear_value s2 reuse
  split
  · simp [h2]
  · simp [h2]
  · split <;> simp [h2]
  · exact h2

@[simp] theorem State.memResp_wf {s : State} (h : Memory.wf s.mem = true) (r : MemReq) (rsp : DevRsp) :
    Memory.wf (s.memResp r rsp).mem = true := by
  unfold State.memResp
  split
  · simp [h]
  · simp [h]
  · split
    · refine State.run_wf (State.advance_wf ?_ _)
      rw [State.mapTrk_mem]
      (repeat' split) <;> simp [h]
    · simp [h]
  · dsimp only
    split <;> simp [h]
  · simp [h]
  · simp [h]
  · split <;> simp [h, Memory.writeEn_wf]

@[simp] theorem State.offerInt_wf {s : State} (h : Memory.wf s.mem = true) (r : IntReq) :
    Memory.wf (s.offerInt r).2.mem = true := by
  have hchecked : Memory.wf (s.checkInt r).2.mem = true := by simp [h]
  simp only [State.offerInt]
  generalize s.checkInt r = p at hchecked ⊢
  obtain ⟨_ | code, s1⟩ := p
  all_goals (repeat' split) <;> simp_all

@[simp] theorem State.askInt_wf {s : State} (h : Memory.wf s.mem = true) (r : IntReq) : Memory.wf (s.askInt r).mem = true := by
  have hoffer : Memory.wf ((s.countsReq (lineHu r.line) (linePlane r.line) r.room).offerInt r).2.mem = true := by simp [h]
  simp only [State.askInt]
  generalize (s.countsReq (lineHu r.line) (linePlane r.line) r.room).offerInt r = p at hoffer ⊢
  obtain ⟨_ | _, s1⟩ := p <;> split <;> simp_all

/-! ### Machine/Atomic -/

@[simp] theorem State.grantAtom_wf {s0 : State} (h : Memory.wf s0.mem = true) (v : VMsg) (hu : Nat) (op : AtomOp) :
    Memory.wf (s0.grantAtom v hu op).mem = true := by
  unfold State.grantAtom
  extract_lets host tag s ans
  have hs : Memory.wf s.mem = true := by simp [s, h]
  have hans : ∀ a c, (ans a c).mem = a.mem := by simp [ans]
  clear_value s ans
  (repeat' split)
  all_goals grind [State.abandonSpec_mem, State.addTrk_mem, State.checkExt_mem, State.deny_mem, State.discard_mem,
    State.fresh1_mem, State.homeViol_mem, State.mapFlt_mem, State.refusedExt_mem, State.ruleCheck_mem, State.run_wf,
    State.synth_mem]

@[simp] theorem State.atomRow_wf {s0 : State} (h : Memory.wf s0.mem = true) (hu plane t op) :
    Memory.wf (s0.atomRow hu plane t op).mem = true := by
  simp only [State.atomRow]
  split <;> simp [h]

@[simp] theorem State.grantXop_wf {s : State} (h : Memory.wf s.mem = true) (slice slot op) :
    Memory.wf (s.grantXop slice slot op).mem = true := by
  simp only [State.grantXop]
  (repeat' split) <;> simp [h]

@[simp] theorem State.ioOpen_wf {s : State} (h : Memory.wf s.mem = true) (w host tag port x pa len data go refused) :
    Memory.wf (s.ioOpen w host tag port x pa len data go refused).mem = true := by
  simp [State.ioOpen, h]

@[simp] theorem ioPermitted_wf (w host tag off len : Nat) (data : Option (List Byte)) (x : Window) (b : Binding)
    {p : List Nat × State} (h : Memory.wf p.2.mem = true) : Memory.wf (ioPermitted w host tag off len data x b p).mem = true := by
  simp only [ioPermitted, ioGo]
  (repeat' split) <;> simp [h]

@[simp] theorem State.ioServe_wf {s : State} (h : Memory.wf s.mem = true) (w host tag pasid off len data x b) :
    Memory.wf (s.ioServe w host tag pasid off len data x b).mem = true := by
  simp [State.ioServe, h]

@[simp] theorem State.ioAccess_wf {s0 : State} (h : Memory.wf s0.mem = true) (w host tag pasid off len data) :
    Memory.wf (s0.ioAccess w host tag pasid off len data).mem = true := by
  simp only [State.ioAccess]
  (repeat' split) <;> simp [h]

/-! ### Machine/Command -/

/-- The state that a command leaves, if it is not refused, has the memory canonical. -/
def DRes.EndsWf : DRes → Prop
  | .refuse _ _ => True
  | .ok _ t => Memory.wf t.mem = true
  | .pending _ _ t => Memory.wf t.mem = true

@[simp] theorem DRes.endsWf_refuse (st : Status) (n : Nat) : (DRes.refuse st n).EndsWf := trivial

@[simp] theorem DRes.endsWf_ok (d : List Byte) (t : State) : (DRes.ok d t).EndsWf ↔ Memory.wf t.mem = true := Iff.rfl

@[simp] theorem DRes.endsWf_pending (w : Work) (d : List Byte) (t : State) :
    (DRes.pending w d t).EndsWf ↔ Memory.wf t.mem = true := Iff.rfl

/-- A command keeps the memory canonical. -/
def Cmd.KeepsWf (c : Cmd) : Prop := ∀ s, Memory.wf s.mem = true → (c.run s).EndsWf

@[simp] theorem State.runCmd_wf {s : State} (h : Memory.wf s.mem = true) (hdr : Hdr) (relay : Option (Nat × Nat)) {c : Cmd}
    (hc : c.KeepsWf) : Memory.wf (s.runCmd hdr relay c).mem = true := by
  have hrun := hc s h
  simp only [State.runCmd]
  (repeat' split) <;> simp_all

/-! ### Machine/Backing -/

@[simp] theorem State.zeroExt_wf {s : State} (h : Memory.wf s.mem = true) (house : Bool) (k ext : Nat) :
    Memory.wf (s.zeroExt house k ext).mem = true := by
  simp only [State.zeroExt]
  split
  · exact Memory.filter_wf h _
  · exact h

@[simp] theorem State.fillWin_wf {s : State} (h : Memory.wf s.mem = true) (w : Nat) (x : Window) (st : XState) (is : List Nat) :
    Memory.wf (s.fillWin w x st is).2.mem = true := by
  refine foldl_snd_wf (by exact h) (fun a i ha => ?_) _
  dsimp only
  split
  · exact ha
  · have htaken : Memory.wf _ = true := (congrArg Memory.wf (State.takeFor_mem ‹_›)).trans ha
    split <;> simp [htaken]

@[simp] theorem State.freeExts_wf {s : State} (h : Memory.wf s.mem = true) (x clean) :
    Memory.wf (s.freeExts x clean).mem = true := by
  simp +contextual [State.freeExts, h]

@[simp] theorem State.removeWin_wf {s : State} (h : Memory.wf s.mem = true) (w clean) :
    Memory.wf (s.removeWin w clean).mem = true := by
  simp only [State.removeWin]
  split <;> simp [h]

@[simp] theorem State.recall_wf {s : State} (h : Memory.wf s.mem = true) (w host line) :
    Memory.wf (s.recall w host line).2.mem = true := by
  simp [State.recall, h]

@[simp] theorem State.recallSome_wf {s : State} (h : Memory.wf s.mem = true) (w host : Nat) (ls : List Nat) :
    Memory.wf (s.recallSome w host ls).2.mem = true := by
  induction ls generalizing s with
  | nil => exact h
  | cons l ls ih =>
    have hone := State.recall_wf h w host l
    simp only [State.recallSome]
    generalize s.recall w host l = p at hone ⊢
    obtain ⟨_ | _, s1⟩ := p <;> exact ih hone

@[simp] theorem State.pumpSweep_wf {s : State} (h : Memory.wf s.mem = true) (w host) :
    Memory.wf (s.pumpSweep w host).mem = true := by
  simp only [State.pumpSweep]
  (repeat' split) <;> simp [h]

@[simp] theorem State.unbind2_wf {s : State} (h : Memory.wf s.mem = true) (w host) : Memory.wf (s.unbind2 w host).mem = true := by
  simp only [State.unbind2]
  (repeat' split) <;> simp [h]

@[simp] theorem State.forceUnbind_wf {s : State} (h : Memory.wf s.mem = true) (w host) :
    Memory.wf (s.forceUnbind w host).mem = true := by
  simp [State.forceUnbind, h]

/-! ### Machine/PoolCmds -/

@[simp] theorem State.freeOne_wf {s : State} (h : Memory.wf s.mem = true) (x i) : Memory.wf (s.freeOne x i).mem = true := by
  simp [State.freeOne, h]

@[simp] theorem State.answerOffer_wf {s : State} (h : Memory.wf s.mem = true) (w o named) :
    Memory.wf (s.answerOffer w o named).mem = true := by
  simp only [State.answerOffer]
  (repeat' split) <;> simp +contextual [h]

@[simp] theorem State.pumpRelease_wf {s : State} (h : Memory.wf s.mem = true) (w) : Memory.wf (s.pumpRelease w).mem = true := by
  simp only [State.pumpRelease]
  (repeat' split) <;> simp +contextual [h]

/-! ### Machine/Mover -/

@[simp] theorem State.movAsk_wf {s : State} (h : Memory.wf s.mem = true) (n j addr part first wr) :
    Memory.wf (s.movAsk n j addr part first wr).2.mem = true := by
  simp only [State.movAsk]
  split <;> simp [h]

@[simp] theorem State.pumpInt_wf {s : State} (h : Memory.wf s.mem = true) (k id : Nat) (d : List DevRsp) :
    Memory.wf (State.pumpInt k s id d).2.mem = true := by
  fun_induction State.pumpInt <;> simp_all

@[simp] theorem State.movAccess_wf {s : State} (h : Memory.wf s.mem = true) (n : Nat) (j : Job) (addr part : Nat) (first : Bool)
    (wr : Option (Line × B64)) (dev : List DevRsp) : Memory.wf (s.movAccess n j addr part first wr dev).2.2.mem = true := by
  have hasked := State.movAsk_wf h n j addr part first wr
  simp only [State.movAccess]
  grind [State.pumpInt_wf, State.dropAsked_mem, State.setChan_mem, State.takeInt_mem, State.checkOnce_mem, State.record_mem]

@[simp] theorem State.fetchDesc_wf {s : State} (h : Memory.wf s.mem = true) (n : Nat) (j : Job) (dev : List DevRsp) :
    Memory.wf (s.fetchDesc n j dev).2.mem = true := by
  have hread := State.movAccess_wf h n j (s.chan n).desc 2 true none dev
  simp only [State.fetchDesc]
  split
  · simp [h]
  · generalize s.movAccess n j (s.chan n).desc 2 true none dev = p at hread ⊢
    obtain ⟨_ | _ | _, d1, s1⟩ := p
    all_goals simp_all

@[simp] theorem State.descStep_wf {s : State} (h : Memory.wf s.mem = true) (n : Nat) (j : Job) (d : Desc) (dev : List DevRsp) :
    Memory.wf (s.descStep n j d dev).2.2.mem = true := by
  simp only [State.descStep]
  grind [State.busError_mem, State.cleanLines_mem, State.descDone_mem, State.endJob_mem, State.movAccess_wf, State.setChan_mem]

@[simp] theorem State.runDesc_wf {s : State} (h : Memory.wf s.mem = true) (k n : Nat) (j : Job) (d : Desc)
    (dev : List DevRsp) : Memory.wf (State.runDesc k s n j d dev).2.mem = true := by
  induction k generalizing s dev with
  | zero => exact h
  | succ k ih =>
    simp only [State.runDesc]
    grind [State.descStep_wf]

@[simp] theorem State.migPrepare_wf {s : State} (h : Memory.wf s.mem = true) (x : Nat) (dev : List DevRsp) :
    Memory.wf (s.migPrepare x dev).2.2.mem = true := by
  unfold State.migPrepare
  split
  · exact h
  rename_i m _
  extract_lets taken
  have htaken : ∀ t, taken = some t → Memory.wf t.mem = true := by
    intro t ht
    simp only [taken] at ht
    split at ht
    · cases ht; exact h
    · split at ht
      · cases ht
      · have htook := State.takeOne_mem ‹_›
        cases ht
        split <;> simp_all
  clear_value taken
  grind [State.cleanLines_mem, State.mapMig_mem, State.setExt_mem]

theorem State.backRead_wf {s t : State} {line win : Nat} {b : Back} {r : DevRsp} {dev d1 : List DevRsp}
    (ht : s.backRead line win b dev = some (r, d1, t)) (h : Memory.wf s.mem = true) : Memory.wf t.mem = true :=
  (congrArg Memory.wf (State.backRead_mem ht)).trans h

theorem State.backWrite_wf {s t : State} {line win : Nat} {b : Back} {l : Line} {poison ok : Bool} {dev d1 : List DevRsp}
    (ht : s.backWrite line win b l poison dev = some (ok, d1, t)) (h : Memory.wf s.mem = true) : Memory.wf t.mem = true := by
  simp only [State.backWrite] at ht
  split at ht <;> cases ht <;> simp [h, Memory.writeEn_wf]

@[simp] theorem State.migCopy_wf {s : State} (h : Memory.wf s.mem = true) (k x n : Nat) (d : List DevRsp) :
    Memory.wf (State.migCopy k s x n d).2.2.mem = true := by
  fun_induction State.migCopy <;> grind [State.backWrite_wf, State.backRead_wf, State.setChan_mem, State.mapMig_mem]

@[simp] theorem State.migRow_wf {s : State} (h : Memory.wf s.mem = true) (n x step : Nat) (dev : List DevRsp) :
    Memory.wf (s.migRow n x step dev).mem = true := by
  unfold State.migRow
  generalize 2 ^ 22 + dev.length = k
  split
  · simp [h]
  refine State.ite_wf h ?_
  split
  · grind [State.migPrepare_wf, State.migAbandon_mem]
  · grind [State.migCopy_wf, State.endJob_mem, State.mapMig_mem, State.mapWin_mem]
  all_goals (repeat' split) <;> simp [h]

@[simp] theorem State.migDesc_wf {s : State} (h : Memory.wf s.mem = true) (n : Nat) (j : Job) (d : Desc) (dev : List DevRsp) :
    Memory.wf (s.migDesc n j d dev).2.mem = true := by
  unfold State.migDesc
  generalize 2 ^ 22 + dev.length = k
  extract_lets x e bad s1
  have hbad : ∀ a d, (bad a d).2.mem = a.mem := by simp [bad]
  have h1 : Memory.wf s1.mem = true := by
    simp only [s1]
    split <;> simp [h]
  clear_value bad s1
  split
  · grind [State.migPrepare_wf, State.descDone_mem, State.dropMig_mem]
  · grind [State.migCopy_wf, State.descDone_mem, State.busError_mem, State.mapMig_mem]
  · grind [State.descDone_mem, State.migSwitch_mem]
  · grind [State.descDone_mem, State.migRelease_mem]
  · grind [State.descDone_mem, State.migAbandon_mem]

@[simp] theorem State.collect_wf {s : State} (h : Memory.wf s.mem = true) (n : Nat) (dev : List DevRsp) :
    Memory.wf (s.collect n dev).2.2.mem = true := by
  unfold State.collect
  generalize (s.chan n).writes = ws
  generalize hp : ((none, dev, s) : Option Nat × List DevRsp × State) = p
  replace h : Memory.wf p.2.2.mem = true := by rw [← hp]; exact h
  clear hp
  induction ws generalizing p with
  | nil => exact h
  | cons w ws ih =>
    refine ih _ ?_
    grind [State.pumpInt_wf, State.takeInt_mem, State.setChan_mem]

@[simp] theorem State.descRow_wf {s0 : State} (h : Memory.wf s0.mem = true) (n type step : Nat) (dev0 : List DevRsp) :
    Memory.wf (s0.descRow n type step dev0).mem = true := by
  have hcollect := State.collect_wf h n dev0
  unfold State.descRow
  generalize s0.collect n dev0 = p at hcollect ⊢
  obtain ⟨_ | a, dev, s⟩ := p
  · grind [State.fetchDesc_wf, State.migDesc_wf, State.migRow_wf, State.runDesc_wf]
  · exact State.ite_wf (by simpa using hcollect) hcollect

@[simp] theorem State.jobStart_wf {s : State} (h : Memory.wf s.mem = true) (room dev) :
    Memory.wf (s.jobStart room dev).mem = true := by
  simp only [State.jobStart]
  (repeat' split) <;> simp [h]

/-! ### Machine/Qos -/

@[simp] theorem State.left_wf {s : State} (h : Memory.wf s.mem = true) (e) : Memory.wf (s.left e).mem = true := by
  simp only [State.left]
  split <;> simp [h]

@[simp] theorem State.dequeue_wf {s : State} (h : Memory.wf s.mem = true) (p c ovr) :
    Memory.wf (s.dequeue p c ovr).mem = true := by
  simp only [State.dequeue]
  split <;> simp [h]

@[simp] theorem State.schedule_wf {s : State} (h : Memory.wf s.mem = true) (p) : Memory.wf (s.schedule p).mem = true := by
  simp only [State.schedule]
  (repeat' split) <;> simp [h]

@[simp] theorem State.egressSlot_wf {s : State} (h : Memory.wf s.mem = true) (p) : Memory.wf (s.egressSlot p).mem = true := by
  simp [State.egressSlot, h]

/-! ### Machine/Rehome -/

@[simp] theorem State.pumpHandoff_wf {s : State} (h : Memory.wf s.mem = true) (w) : Memory.wf (s.pumpHandoff w).mem = true := by
  simp only [State.pumpHandoff]
  split <;> simp [h]

@[simp] theorem State.endRehome_wf {s : State} (h : Memory.wf s.mem = true) (w) : Memory.wf (s.endRehome w).mem = true := by
  simp only [State.endRehome]
  (repeat' split) <;> simp [h]

/-! ### Machine/Link -/

@[simp] theorem State.failMem_wf {s : State} (h : Memory.wf s.mem = true) (r) : Memory.wf (s.failMem r).mem = true := by
  simp only [State.failMem]
  split <;> simp [h]

@[simp] theorem State.loseSnoops_wf {s : State} (h : Memory.wf s.mem = true) (p : Nat) :
    Memory.wf (s.loseSnoops p).mem = true := by
  unfold State.loseSnoops
  extract_lets hit s1
  have h1 : Memory.wf s1.mem = true := foldl_wf h (fun a t ha => by dsimp only; split <;> simp [ha]) _
  exact State.run_wf (foldl_wf h1 (fun a t ha => by simp [ha]) _)

@[simp] theorem State.losePool_wf {s : State} (h : Memory.wf s.mem = true) (p) : Memory.wf (s.losePool p).mem = true := by
  simp only [State.losePool]
  (repeat' split) <;> simp +contextual [h]

@[simp] theorem State.leaveGroup_wf {s : State} (h : Memory.wf s.mem = true) (p) : Memory.wf (s.leaveGroup p).mem = true := by
  simp only [State.leaveGroup]
  (repeat' split) <;> simp +contextual [h]

@[simp] theorem State.losses_wf {s : State} (h : Memory.wf s.mem = true) (p) : Memory.wf (s.losses p).mem = true := by
  simp [State.losses, h]

@[simp] theorem State.loseRemote_wf {s : State} (h : Memory.wf s.mem = true) (p lost) :
    Memory.wf (s.loseRemote p lost).mem = true := by
  simp +contextual [State.loseRemote, h]

@[simp] theorem State.linkDown_wf {s : State} (h : Memory.wf s.mem = true) (p st : Nat) :
    Memory.wf (s.linkDown p st).mem = true := by
  unfold State.linkDown
  extract_lets rate width s1 s2 s3 s4 s5 s6
  have h1 : Memory.wf s1.mem = true := by
    simp only [s1]
    split <;> simp [h]
  have h4 : Memory.wf s4.mem = true := foldl_wf (by simp [s3, s2, h1]) (fun a t ha => by simp [ha]) _
  have h5 : Memory.wf s5.mem = true := by simp [s5, h4]
  have h6 : Memory.wf s6.mem = true :=
    State.ite_wf (by simp [h5]) (State.ite_wf (by simp [h5])
      (State.ite_wf (State.leaveGroup_wf (by simp [h5]) p) h5))
  exact State.ite_wf (by simp [h]) (by simp [h6])

/-! ### Machine/Access -/

@[simp] theorem State.regWrite_wf {s : State} (h : Memory.wf s.mem = true) (path : Path) (off : Nat) {f : State → State}
    (hf : KeepsWf f) : Memory.wf (s.regWrite path off f).mem = true := by
  have hwrite := hf s h
  simp only [State.regWrite]
  (repeat' split) <;> simp [h, hwrite]

/-! ### Machine/Doorway -/

@[simp] theorem State.perstLow_wf {s : State} (h : Memory.wf s.mem = true) (n) : Memory.wf (s.perstLow n).mem = true := by
  simp only [State.perstLow]
  (repeat' split) <;> simp [h]

@[simp] theorem State.gateLow_wf {s : State} (h : Memory.wf s.mem = true) (n) : Memory.wf (s.gateLow n).mem = true := by
  simp [State.gateLow, h]

@[simp] theorem State.trip_wf {s : State} (h : Memory.wf s.mem = true) (n code) : Memory.wf (s.trip n code).mem = true := by
  simp [State.trip, h]

@[simp] theorem State.dwySettle_wf {s : State} (h : Memory.wf s.mem = true) (n) : Memory.wf (s.dwySettle n).mem = true := by
  simp [State.dwySettle, h]

@[simp] theorem State.slotTeardown_wf {s : State} (h : Memory.wf s.mem = true) (n) : Memory.wf (s.slotTeardown n).mem = true := by
  simp only [State.slotTeardown]
  (repeat' split) <;> simp [h]

@[simp] theorem State.removed_wf {s : State} (h : Memory.wf s.mem = true) (n) : Memory.wf (s.removed n).mem = true := by
  simp [State.removed, h]

@[simp] theorem State.modelOne_wf {s : State} (h : Memory.wf s.mem = true) (x) : Memory.wf (s.modelOne x).mem = true := by
  simp only [State.modelOne]
  split <;> simp [h]

@[simp] theorem State.setDwyEn_wf {s : State} (h : Memory.wf s.mem = true) (n on) : Memory.wf (s.setDwyEn n on).mem = true := by
  simp [State.setDwyEn, h]

@[simp] theorem State.takeChannel_wf {s : State} (h : Memory.wf s.mem = true) (n : Nat) :
    Memory.wf (s.takeChannel n).mem = true := by
  unfold State.takeChannel
  extract_lets c s1 s2 s3
  have h2 : Memory.wf s2.mem = true := by
    simp only [s2, s1]
    (repeat' split) <;> simp [h]
  have h3 : Memory.wf s3.mem = true := foldl_wf (by simp [h2]) (fun a t ha => by simp [ha]) _
  exact State.dwySettle_wf h3 n

@[simp] theorem State.mod48Return_wf {s : State} (h : Memory.wf s.mem = true) : Memory.wf s.mod48Return.mem = true := by
  simp +contextual [State.mod48Return, h]

/-! ### Machine/Flit -/

@[simp] theorem State.viol_wf {s : State} (h : Memory.wf s.mem = true) (p kind m) : Memory.wf (s.viol p kind m).mem = true := by
  simp [State.viol, h]

@[simp] theorem State.undecoded_wf {s : State} (h : Memory.wf s.mem = true) (p m) : Memory.wf (s.undecoded p m).mem = true := by
  simp only [State.undecoded]
  split <;> simp [h]

@[simp] theorem State.memIn_wf {s : State} (h : Memory.wf s.mem = true) (p m) : Memory.wf (s.memIn p m).mem = true := by
  simp only [State.memIn]
  (repeat' split) <;> simp [h]

@[simp] theorem State.ioIn_wf {s : State} (h : Memory.wf s.mem = true) (p m) : Memory.wf (s.ioIn p m).mem = true := by
  simp only [State.ioIn]
  (repeat' split) <;> simp [h]

@[simp] theorem State.cfgIn_wf {s : State} (h : Memory.wf s.mem = true) (p m) : Memory.wf (s.cfgIn p m).mem = true := by
  simp only [State.cfgIn]
  (repeat' split) <;> simp [h]

@[simp] theorem State.answerIn_wf {s : State} (h : Memory.wf s.mem = true) (p m) : Memory.wf (s.answerIn p m).mem = true := by
  simp only [State.answerIn]
  (repeat' split) <;> simp [h]

@[simp] theorem State.cacheIn_wf {s : State} (h : Memory.wf s.mem = true) (p m) : Memory.wf (s.cacheIn p m).mem = true := by
  simp only [State.cacheIn]
  split <;> simp [h]

@[simp] theorem State.poolIn_wf {s : State} (h : Memory.wf s.mem = true) (p m) : Memory.wf (s.poolIn p m).mem = true := by
  simp only [State.poolIn]
  (repeat' split) <;> simp [h]

@[simp] theorem State.upIn_wf {s : State} (h : Memory.wf s.mem = true) (p m) : Memory.wf (s.upIn p m).mem = true := by
  simp only [State.upIn]
  split <;> simp [h]

@[simp] theorem State.ptIn_wf {s : State} (h : Memory.wf s.mem = true) (p m) : Memory.wf (s.ptIn p m).mem = true := by
  simp only [State.ptIn]
  (repeat' split) <;> simp [h]

@[simp] theorem State.misrouted_wf {s : State} (h : Memory.wf s.mem = true) (p kind m) :
    Memory.wf (s.misrouted p kind m).mem = true := by
  simp only [State.misrouted]
  split <;> simp [h]

@[simp] theorem State.fabricHere_wf {s : State} (h : Memory.wf s.mem = true) (p m) : Memory.wf (s.fabricHere p m).mem = true := by
  simp only [State.fabricHere]
  (repeat' split) <;> simp [h]

@[simp] theorem State.answerEdge_wf {s : State} (h : Memory.wf s.mem = true) (p q m) :
    Memory.wf (s.answerEdge p q m).mem = true := by
  simp [State.answerEdge, h]

@[simp] theorem State.transit_wf {s : State} (h : Memory.wf s.mem = true) (p m) : Memory.wf (s.transit p m).mem = true := by
  simp only [State.transit]
  split <;> simp [h]

@[simp] theorem State.fabricIn_wf {s : State} (h : Memory.wf s.mem = true) (p m) : Memory.wf (s.fabricIn p m).mem = true := by
  simp only [State.fabricIn]
  (repeat' split) <;> simp [h]

@[simp] theorem State.receive_wf {s : State} (h : Memory.wf s.mem = true) (p m) : Memory.wf (s.receive p m).mem = true := by
  simp [State.receive, h]

@[simp] theorem State.returnsIn_wf {s : State} (h : Memory.wf s.mem = true) (p : Nat) (ret : FlitRet) :
    Memory.wf (s.returnsIn p ret).mem = true := by
  refine foldl_wf (by simp [h]) (fun a c ha => ?_) _
  dsimp only
  (repeat' split) <;> simp [ha]

@[simp] theorem State.replayCheck_wf {s : State} (h : Memory.wf s.mem = true) (p) : Memory.wf (s.replayCheck p).mem = true := by
  simp [State.replayCheck, h]

@[simp] theorem State.replays_wf {s : State} (h : Memory.wf s.mem = true) (p) : Memory.wf (s.replays p).mem = true := by
  simp [State.replays, h]

@[simp] theorem State.sendHotReset_wf {s : State} (h : Memory.wf s.mem = true) (p) : Memory.wf (s.sendHotReset p).mem = true := by
  simp [State.sendHotReset, h]

/-! ### Machine/PortCmds -/

@[simp] theorem State.setDisable_wf {s : State} (h : Memory.wf s.mem = true) (p on) :
    Memory.wf (s.setDisable p on).mem = true := by
  simp [State.setDisable, h]

@[simp] theorem State.linkSetDone_wf {s : State} (h : Memory.wf s.mem = true) (p ok) :
    Memory.wf (s.linkSetDone p ok).2.mem = true := by
  simp only [State.linkSetDone]
  split <;> simp [h]

/-! ### Machine/Mailbox -/

@[simp] theorem State.mbCmd_wf {s : State} (h : Memory.wf s.mem = true) (a : MbAt)
    {f : Window → Binding → MbRet × List Byte × State} (hf : ∀ x b, Memory.wf (f x b).2.2.mem = true) :
    Memory.wf (s.mbCmd a f).mem = true := by
  simp only [State.mbCmd]
  (repeat' split) <;> simp [h, hf]

@[simp] theorem State.portPerst_wf {s : State} (h : Memory.wf s.mem = true) (p low) :
    Memory.wf (s.portPerst p low).mem = true := by
  simp only [State.portPerst]
  (repeat' split) <;> simp [h]

/-! ### Machine/Fabric -/

@[simp] theorem State.checkMoves_wf {s : State} (h : Memory.wf s.mem = true) : Memory.wf s.checkMoves.mem = true := by
  simp +contextual [State.checkMoves, h]

@[simp] theorem State.dropMember_wf {s : State} (h : Memory.wf s.mem = true) (fid) : Memory.wf (s.dropMember fid).mem = true := by
  simp only [State.dropMember]
  split <;> simp [h]

@[simp] theorem State.evalLost_wf {s : State} (h : Memory.wf s.mem = true) (fid) : Memory.wf (s.evalLost fid).mem = true := by
  simp only [State.evalLost]
  split <;> simp [h]

@[simp] theorem State.neighLost_wf {s : State} (h : Memory.wf s.mem = true) (l) : Memory.wf (s.neighLost l).mem = true := by
  simp only [State.neighLost]
  (repeat' split) <;> simp [h]

/-! ### Machine/Stairwell -/

@[simp] theorem State.stairDown_wf {s : State} (h : Memory.wf s.mem = true) (k) : Memory.wf (s.stairDown k).mem = true := by
  simp [State.stairDown, h]

@[simp] theorem State.setStwDisable_wf {s : State} (h : Memory.wf s.mem = true) (n on) :
    Memory.wf (s.setStwDisable n on).mem = true := by
  simp [State.setStwDisable, h]

/-! ### Machine/FabricRows -/

@[simp] theorem State.takeMove_wf {s : State} (h : Memory.wf s.mem = true) (serial w oldHome newHome newWin) :
    Memory.wf (s.takeMove serial w oldHome newHome newWin).mem = true := by
  simp [State.takeMove, h]

@[simp] theorem State.floodMove_wf {s : State} (h : Memory.wf s.mem = true) (w oldHome newHome newWin) :
    Memory.wf (s.floodMove w oldHome newHome newWin).mem = true := by
  simp [State.floodMove, h]

@[simp] theorem State.announceMove_wf {s : State} (h : Memory.wf s.mem = true) (w r) :
    Memory.wf (s.announceMove w r).mem = true := by
  simp only [State.announceMove]
  split <;> simp [h]

/-! ### Machine/Teardown -/

@[simp] theorem State.teardown_wf {s : State} (h : Memory.wf s.mem = true) (r) : Memory.wf (s.teardown r).mem = true := by
  simp +contextual [State.teardown, h]

@[simp] theorem State.destroyWin_wf {s : State} (h : Memory.wf s.mem = true) (w) : Memory.wf (s.destroyWin w).mem = true := by
  simp [State.destroyWin, h]

@[simp] theorem State.endTeardown_wf {s : State} (h : Memory.wf s.mem = true) (r) : Memory.wf (s.endTeardown r).2.mem = true := by
  simp only [State.endTeardown]
  (repeat' split) <;> simp +contextual [h]

/-! ### Machine/Reset -/

@[simp] theorem State.survive_wf {s : State} (h : Memory.wf s.mem = true) (aon : Bool) : Memory.wf (s.survive aon).mem = true :=
  Memory.filter_wf h _

@[simp] theorem State.coldReset_wf {s : State} (h : Memory.wf s.mem = true) (aonLost) :
    Memory.wf (s.coldReset aonLost).mem = true := by
  simp only [State.coldReset]
  split <;> simp [h]

@[simp] theorem State.warmInternal_wf {s0 : State} (h : Memory.wf s0.mem = true) : Memory.wf s0.warmInternal.mem = true := by
  simp [State.warmInternal, h]

@[simp] theorem State.settleWin_wf {s : State} (h : Memory.wf s.mem = true) (w) : Memory.wf (s.settleWin w).mem = true := by
  simp only [State.settleWin]
  (repeat' split) <;> simp [h]

@[simp] theorem State.settleWarm_wf {s : State} (h : Memory.wf s.mem = true) : Memory.wf s.settleWarm.mem = true := by
  unfold State.settleWarm
  extract_lets s1 s2 s3
  have h1 : Memory.wf s1.mem = true := foldl_wf h (fun a m ha => by simp [ha]) _
  have h2 : Memory.wf s2.mem = true := foldl_wf (by simp [h1]) (fun a w ha => by simp [ha]) _
  have h3 : Memory.wf s3.mem = true := foldl_wf h2 (fun a r ha => by simp [ha]) _
  simp [h3]

@[simp] theorem State.startDoorway_wf {s : State} (h : Memory.wf s.mem = true) : Memory.wf s.startDoorway.mem = true := by
  simp +contextual [State.startDoorway, h]

/-! ### Machine/Coherence -/

@[simp] theorem State.answerRow_wf {s0 : State} (h : Memory.wf s0.mem = true) (hu plane t k) :
    Memory.wf (s0.answerRow hu plane t k).mem = true := by
  simp only [State.answerRow]
  split <;> simp [h]

@[simp] theorem State.dirUe_wf {s : State} (h : Memory.wf s.mem = true) (hu set way trusted inj) :
    Memory.wf (s.dirUe hu set way trusted inj).mem = true := by
  simp [State.dirUe, h]

/-! ### Machine/RegWrite -/

@[simp] theorem State.writeLinkCtl_wf {s : State} (h : Memory.wf s.mem = true) (p v) :
    Memory.wf (s.writeLinkCtl p v).mem = true := by
  simp [State.writeLinkCtl, h]

@[simp] theorem State.writeReg_wf {s : State} (h : Memory.wf s.mem = true) (off : Nat) (w : Word) :
    Memory.wf (s.writeReg off w).mem = true := by
  unfold State.writeReg
  refine State.ite_wf (by simp [h]) ?_
  cases regAt off with
  | none => exact h
  | some d =>
    dsimp only
    simp [h]

/-! ### Machine/Debug -/

@[simp] theorem State.hbmPoke_wf {s : State} (h : Memory.wf s.mem = true) (stack a v : Nat) :
    Memory.wf (s.hbmPoke stack a v).mem = true := by
  simp only [State.hbmPoke]
  (repeat' split) <;> simp [h, Memory.writeBytes_wf]

@[simp] theorem State.dbgLine_wf {s : State} (h : Memory.wf s.mem = true) (w line : Nat) (wr : Option (Line × B64))
    (dev : List DevRsp) :
   Memory.wf (s.dbgLine w line wr dev).2.2.mem = true := by
  simp only [State.dbgLine]
  grind [State.checkExt_mem, State.refusedExt_mem, State.fresh1_mem, State.askInt_wf, State.mapHome_mem, State.pumpInt_wf,
      State.takeInt_mem]

@[simp] theorem State.dbgLines_wf {s : State} (h : Memory.wf s.mem = true) (n w addr stop : Nat) (wr : Option Word)
    (dev : List DevRsp) (bs : List Byte) : Memory.wf (State.dbgLines n s w addr stop wr dev bs).2.2.mem = true := by
  fun_induction State.dbgLines <;> grind [State.dbgLine_wf]

@[simp] theorem State.poolPart_wf {s : State} (h : Memory.wf s.mem = true) (addr len wr dev) :
    Memory.wf (s.poolPart addr len wr dev).2.2.mem = true := by
  simp only [State.poolPart]
  (repeat' split) <;> simp [h]

@[simp] theorem State.hbmPart_wf {s : State} (h : Memory.wf s.mem = true) (addr len wr) :
    Memory.wf (s.hbmPart addr len wr).2.mem = true := by
  simp only [State.hbmPart]
  (repeat' split) <;> simp [h]

@[simp] theorem State.dbgParts_wf {s : State} (h : Memory.wf s.mem = true) (n : Nat) (sp : Space) (addr len : Nat)
    (wr : Option Word) (dev : List DevRsp) (acc : DbgAcc) :
    Memory.wf (State.dbgParts n s sp addr len wr dev acc).2.mem = true := by
  fun_induction State.dbgParts <;> grind [State.poolPart_wf, State.hbmPart_wf]

@[simp] theorem State.debugAccess_wf {s : State} (h : Memory.wf s.mem = true) (path sp addr n wr dev) :
    Memory.wf (s.debugAccess path sp addr n wr dev).2.2.mem = true := by
  simp only [State.debugAccess]
  (repeat' split) <;> simp [h]

/-! ### Machine/Monitor -/

/-- A command of the monitor keeps the memory canonical. -/
def MonKeepsWf (f : State → MonRes) : Prop := ∀ a, Memory.wf a.mem = true → Memory.wf (f a).2.2.mem = true

@[simp] theorem State.monRun_wf {s : State} (h : Memory.wf s.mem = true) (confirm : Bool) {f : State → MonRes}
    (hf : MonKeepsWf f) : Memory.wf (s.monRun confirm f).mem = true := by
  have hrun := hf (if confirm then s else s.dropChal false) (by simp [h])
  simp only [State.monRun]
  split
  · exact h
  · simpa using hrun

@[simp] theorem monPeek_wf (sp : Space) (addr n : Nat) (dev : List DevRsp) : MonKeepsWf (monPeek sp addr n dev) :=
  fun _ h => State.debugAccess_wf h _ _ _ _ _ _

@[simp] theorem monPoke_wf (sp : Space) (addr : Nat) (v : Word) (dev : List DevRsp) : MonKeepsWf (monPoke sp addr v dev) := by
  intro a h
  simp only [monPoke]
  split <;> simp [h]

@[simp] theorem monAtticRing_wf : MonKeepsWf monAtticRing := fun a h => by simp [monAtticRing, h]

@[simp] theorem monAtticFatal_wf : MonKeepsWf monAtticFatal := fun a h => by simp [monAtticFatal, h]

@[simp] theorem monAtticLog_wf (off len : Nat) : MonKeepsWf (monAtticLog off len) := fun a h => by
  simp only [monAtticLog]
  split <;> simp [h]

@[simp] theorem monRegs_wf (ok : Bool) (offs : List Nat) : MonKeepsWf (monRegs ok offs) := fun a h => by
  simp only [monRegs]
  split <;> simp [h]

@[simp] theorem monInject_wf (checker mode : Nat) (mask : Option Word) : MonKeepsWf (monInject checker mode mask) := fun a h => by
  simp only [monInject]
  (repeat' split) <;> simp [h]

@[simp] theorem monBaud_wf (rate : Nat) : MonKeepsWf (monBaud rate) := fun a h => by
  simp only [monBaud]
  (repeat' split) <;> simp [h]

@[simp] theorem monLifecycle_wf : MonKeepsWf monLifecycle := fun _ h => h

@[simp] theorem monAdvance_wf : MonKeepsWf monAdvance := fun a h => by
  simp only [monAdvance]
  split <;> simp [h]

@[simp] theorem monConfirm_wf (code : B16) : MonKeepsWf (monConfirm code) := fun a h => by
  simp only [monConfirm]
  split <;> simp [h]

/-- The command that a line spells, if any, keeps the memory canonical. -/
def LineKeepsWf (o : Option (State → State)) : Prop := ∀ f, o = some f → KeepsWf f

@[simp] theorem lineKeepsWf_none : LineKeepsWf none := fun _ h => nomatch h

@[simp] theorem lineKeepsWf_monRun (c : Bool) {m : State → MonRes} (hm : MonKeepsWf m) :
    LineKeepsWf (some fun s => s.monRun c m) := by
  rintro _ ⟨⟩ s h
  exact State.monRun_wf h c hm

theorem LineKeepsWf.ite {c : Prop} [Decidable c] {o p : Option (State → State)} (ho : LineKeepsWf o) (hp : LineKeepsWf p) :
    LineKeepsWf (if c then o else p) := by
  split
  · exact ho
  · exact hp

@[simp] theorem lineKeepsWf_bind {α : Type} (o : Option α) {g : α → Option (State → State)} (hg : ∀ x, LineKeepsWf (g x)) :
    LineKeepsWf (o.bind g) := by
  cases o with
  | none => exact lineKeepsWf_none
  | some x => exact hg x

theorem lineKeepsWf_lineCmd (ws : List (List Nat)) : LineKeepsWf (lineCmd ws) := by
  unfold lineCmd
  split
  · exact lineKeepsWf_none
  extract_lets run nums
  have hrun {m : State → MonRes} (hm : MonKeepsWf m) : LineKeepsWf (run m) := lineKeepsWf_monRun false hm
  clear_value run nums
  refine .ite ?_ (.ite ?_ (.ite ?_ (.ite ?_ (.ite ?_ (.ite ?_ (.ite ?_ (.ite ?_ lineKeepsWf_none)))))))
  · split <;> simp [hrun]
  · split
    · exact .ite (by simp [hrun]) lineKeepsWf_none
    · exact lineKeepsWf_none
  · split
    · exact .ite (by simp [hrun]) (.ite (by simp [hrun]) lineKeepsWf_none)
    · exact .ite (by simp [hrun]) lineKeepsWf_none
    · exact lineKeepsWf_none
  · split
    · exact .ite (by simp [hrun, monStatsPort]) (.ite (by simp [hrun, monStatsLane])
        (.ite (by simp [hrun, monStatsOpf]) (.ite (by simp [hrun, monStatsStw]) lineKeepsWf_none)))
    · exact lineKeepsWf_none
  · split
    · simp [hrun]
    · exact .ite (by simp [hrun]) lineKeepsWf_none
    · exact lineKeepsWf_none
  · intro f hf
    obtain ⟨bs, -, rfl⟩ := Option.map_eq_some_iff.1 hf
    exact fun s h => by simp [h]
  · split <;> simp [hrun]
  · split
    · simp [hrun]
    · exact .ite (by simp [hrun]) lineKeepsWf_none
    · exact .ite (by simp) lineKeepsWf_none
    · exact lineKeepsWf_none

@[simp] theorem State.runLine_wf {s : State} (h : Memory.wf s.mem = true) (l : List Byte) :
    Memory.wf (s.runLine l).mem = true := by
  simp only [State.runLine]
  (repeat' split)
  any_goals (apply lineKeepsWf_lineCmd; assumption; exact h)
  all_goals simp [h]

@[simp] theorem State.runLines_wf {s : State} (h : Memory.wf s.mem = true) (n : Nat) :
    Memory.wf (State.runLines n s).mem = true := by
  induction n generalizing s with
  | zero => exact h
  | succ n ih =>
    simp only [State.runLines]
    (repeat' split) <;> simp [h, ih]

@[simp] theorem State.pumpLines_wf {s : State} (h : Memory.wf s.mem = true) : Memory.wf s.pumpLines.mem = true := by
  simp [State.pumpLines, h]

/-! ### Machine/Transport -/

@[simp] theorem State.afterReply_wf {s : State} (h : Memory.wf s.mem = true) (src) : Memory.wf (s.afterReply src).mem = true := by
  simp only [State.afterReply]
  split <;> simp [h]

/-! ### Machine/Complete -/

@[simp] theorem State.pumpUnbind_wf {s : State} (h : Memory.wf s.mem = true) (w host) :
    Memory.wf (s.pumpUnbind w host).mem = true := by
  simp [State.pumpUnbind, h]

@[simp] theorem State.carryOn_wf {s : State} (h : Memory.wf s.mem = true) (w) : Memory.wf (s.carryOn w).mem = true := by
  simp only [State.carryOn]
  (repeat' split) <;> simp +contextual [h]

/-! ## The commands of the Dermel rows -/

/-! ### Machine/PoolCmds -/

@[simp] theorem cmdPoolAdopt_wf (port) : (cmdPoolAdopt port).KeepsWf := fun s h => by
  simp only [cmdPoolAdopt]
  (repeat' split) <;> simp [h]

@[simp] theorem cmdPoolRelease_wf (handle) : (cmdPoolRelease handle).KeepsWf := fun s h => by
  simp only [cmdPoolRelease]
  (repeat' split) <;> simp [h]

@[simp] theorem cmdPoolList_wf : cmdPoolList.KeepsWf := fun s h => by
  simp [cmdPoolList, h]

@[simp] theorem cmdWindowCreate_wf (p) : (cmdWindowCreate p).KeepsWf := fun s h => by
  simp only [cmdWindowCreate]
  (repeat' split) <;> simp [h]

@[simp] theorem cmdWindowDestroy_wf (w) : (cmdWindowDestroy w).KeepsWf := fun s h => by
  simp only [cmdWindowDestroy]
  (repeat' split) <;> simp [h]

@[simp] theorem cmdWindowQuery_wf (w first n) : (cmdWindowQuery w first n).KeepsWf := fun s h => by
  simp only [cmdWindowQuery]
  split <;> simp [h]

@[simp] theorem cmdWindowBind_wf (w host port access hpa) : (cmdWindowBind w host port access hpa).KeepsWf := fun s h => by
  simp only [cmdWindowBind]
  (repeat' split) <;> simp [h]

@[simp] theorem cmdWindowUnbind_wf (force w host timeout) : (cmdWindowUnbind force w host timeout).KeepsWf := fun s h => by
  simp only [cmdWindowUnbind]
  (repeat' split) <;> simp [h]

@[simp] theorem cmdDcAdd_wf (w xs) : (cmdDcAdd w xs).KeepsWf := fun s h => by
  simp only [cmdDcAdd]
  (repeat' split) <;> simp [h]

@[simp] theorem cmdDcRelease_wf (force w xs) : (cmdDcRelease force w xs).KeepsWf := fun s h => by
  simp only [cmdDcRelease]
  (repeat' split) <;> simp [h]

@[simp] theorem cmdExtentRead_wf (h x n) : (cmdExtentRead h x n).KeepsWf := fun s h => by
  simp [cmdExtentRead, h]

@[simp] theorem cmdDirRead_wf (pa) : (cmdDirRead pa).KeepsWf := fun s h => by
  simp [cmdDirRead, h]

@[simp] theorem cmdRehomePrepare_wf (h p) : (cmdRehomePrepare h p).KeepsWf := fun s h => by
  simp only [cmdRehomePrepare]
  (repeat' split) <;> simp [h]

@[simp] theorem cmdRehomeStatus_wf (w) : (cmdRehomeStatus w).KeepsWf := fun s h => by
  simp only [cmdRehomeStatus]
  split <;> simp [h]

/-! ### Machine/Mover -/

@[simp] theorem cmdMoverJob_wf (h head) : (cmdMoverJob h head).KeepsWf := fun s h => by
  simp only [cmdMoverJob]
  (repeat' split) <;> simp [h]

@[simp] theorem cmdMoverChResume_wf (ch action) : (cmdMoverChResume ch action).KeepsWf := fun s h => by
  simp [cmdMoverChResume, h]

@[simp] theorem cmdMoverChEnable_wf (ch en) : (cmdMoverChEnable ch en).KeepsWf := fun s h => by
  simp [cmdMoverChEnable, h]

@[simp] theorem cmdMoverQuery_wf : cmdMoverQuery.KeepsWf := fun s h => by
  simp [cmdMoverQuery, h]

@[simp] theorem cmdExtentMigrate_wf (w x dst house) : (cmdExtentMigrate w x dst house).KeepsWf := fun s h => by
  simp only [cmdExtentMigrate]
  (repeat' split) <;> simp [h]

@[simp] theorem cmdMigrateStatus_wf (w x) : (cmdMigrateStatus w x).KeepsWf := fun s h => by
  simp only [cmdMigrateStatus]
  split <;> simp [h]

@[simp] theorem cmdMigrateAbort_wf (w x) : (cmdMigrateAbort w x).KeepsWf := fun s h => by
  simp only [cmdMigrateAbort]
  (repeat' split) <;> simp [h]

/-! ### Machine/RoomCmds -/

@[simp] theorem cmdRoomCreate_wf (froom hmax a rs) : (cmdRoomCreate froom hmax a rs).KeepsWf := fun s h => by
  simp only [cmdRoomCreate]
  (repeat' split) <;> simp [h]

@[simp] theorem cmdRoomResize_wf (froom valid a rs) : (cmdRoomResize froom valid a rs).KeepsWf := fun s h => by
  simp only [cmdRoomResize]
  (repeat' split) <;> simp [h]

@[simp] theorem cmdRoomHostAdd_wf (froom host) : (cmdRoomHostAdd froom host).KeepsWf := fun s h => by
  simp only [cmdRoomHostAdd]
  (repeat' split) <;> simp [h]

@[simp] theorem cmdRoomHostRemove_wf (froom host) : (cmdRoomHostRemove froom host).KeepsWf := fun s h => by
  simp only [cmdRoomHostRemove]
  (repeat' split) <;> simp [h]

@[simp] theorem cmdRoomPortAssign_wf (froom port add) : (cmdRoomPortAssign froom port add).KeepsWf := fun s h => by
  simp only [cmdRoomPortAssign]
  (repeat' split) <;> simp [h]

@[simp] theorem cmdRoomQuery_wf (froom first n) : (cmdRoomQuery froom first n).KeepsWf := fun s h => by
  simp only [cmdRoomQuery]
  (repeat' split) <;> simp [h]

@[simp] theorem cmdSliceCreate_wf (w host pasid) : (cmdSliceCreate w host pasid).KeepsWf := fun s h => by
  simp only [cmdSliceCreate]
  (repeat' split) <;> simp [h]

@[simp] theorem cmdSliceDestroy_wf (n) : (cmdSliceDestroy n).KeepsWf := fun s h => by
  simp [cmdSliceDestroy, h]

@[simp] theorem cmdSliceQuery_wf (n) : (cmdSliceQuery n).KeepsWf := fun s h => by
  simp only [cmdSliceQuery]
  split <;> simp [h]

@[simp] theorem cmdRuleWrite_wf (bank froom index entry) : (cmdRuleWrite bank froom index entry).KeepsWf := fun s h => by
  simp only [cmdRuleWrite]
  (repeat' split) <;> simp [h]

@[simp] theorem cmdRuleRead_wf (bank froom first n) : (cmdRuleRead bank froom first n).KeepsWf := fun s h => by
  simp only [cmdRuleRead]
  (repeat' split) <;> simp [h]

@[simp] theorem cmdRuleCopy_wf (froom) : (cmdRuleCopy froom).KeepsWf := fun s h => by
  simp only [cmdRuleCopy]
  (repeat' split) <;> simp [h]

@[simp] theorem cmdRuleCommit_wf (froom) : (cmdRuleCommit froom).KeepsWf := fun s h => by
  simp only [cmdRuleCommit]
  (repeat' split) <;> simp [h]

@[simp] theorem cmdRuleStatus_wf (froom) : (cmdRuleStatus froom).KeepsWf := fun s h => by
  simp only [cmdRuleStatus]
  (repeat' split) <;> simp [h]

/-! ### Machine/Qos -/

@[simp] theorem cmdQosPortSet_wf (port valid qmap quanta cbs pbs en) :
    (cmdQosPortSet port valid qmap quanta cbs pbs en).KeepsWf :=
  fun s h => by
  simp [cmdQosPortSet, h]

@[simp] theorem cmdQosPortQuery_wf (port) : (cmdQosPortQuery port).KeepsWf := fun s h => by
  simp [cmdQosPortQuery, h]

@[simp] theorem cmdGateWrite_wf (bank port cycle base entries) : (cmdGateWrite bank port cycle base entries).KeepsWf :=
  fun s h => by
  simp only [cmdGateWrite]
  (repeat' split) <;> simp [h]

@[simp] theorem cmdGateRead_wf (bank port) : (cmdGateRead bank port).KeepsWf := fun s h => by
  simp [cmdGateRead, h]

@[simp] theorem cmdGateCommit_wf (t mask) : (cmdGateCommit t mask).KeepsWf := fun s h => by
  simp only [cmdGateCommit]
  (repeat' split) <;> simp [h]

@[simp] theorem cmdGateStatus_wf (port) : (cmdGateStatus port).KeepsWf := fun s h => by
  simp [cmdGateStatus, h]

/-! ### Machine/Pantry -/

@[simp] theorem cmdHbmLayout_wf (units) : (cmdHbmLayout units).KeepsWf := fun s h => by
  simp only [cmdHbmLayout]
  (repeat' split) <;> simp [h]

@[simp] theorem cmdHbmLayoutQuery_wf : cmdHbmLayoutQuery.KeepsWf := fun s h => by
  simp [cmdHbmLayoutQuery, h]

@[simp] theorem cmdPantryMode_wf (w mode rank quota) : (cmdPantryMode w mode rank quota).KeepsWf := fun s h => by
  simp only [cmdPantryMode]
  (repeat' split) <;> simp [h]

@[simp] theorem cmdPantryQuery_wf (w) : (cmdPantryQuery w).KeepsWf := fun s h => by
  simp only [cmdPantryQuery]
  split <;> simp [h]

@[simp] theorem cmdPantryFlush_wf (inval w) : (cmdPantryFlush inval w).KeepsWf := fun s h => by
  simp [cmdPantryFlush, h]

@[simp] theorem cmdHoldupSet_wf (valid vals) : (cmdHoldupSet valid vals).KeepsWf := fun s h => by
  simp [cmdHoldupSet, h]

@[simp] theorem cmdHoldupQuery_wf : cmdHoldupQuery.KeepsWf := fun s h => by
  simp [cmdHoldupQuery, h]

@[simp] theorem cmdHoldupCal_wf (c0) : (cmdHoldupCal c0).KeepsWf := fun s h => by
  simp [cmdHoldupCal, h]

/-! ### Machine/Rehome -/

@[simp] theorem cmdRehomeStart_wf (w bid bwin age) : (cmdRehomeStart w bid bwin age).KeepsWf := fun s h => by
  simp only [cmdRehomeStart]
  (repeat' split) <;> simp [h]

/-! ### Machine/Doorway -/

@[simp] theorem cmdDoorwayEnable_wf (mask en) : (cmdDoorwayEnable mask en).KeepsWf := fun s h => by
  simp only [cmdDoorwayEnable]
  (repeat' split) <;> simp +contextual [h]

@[simp] theorem cmdDoorwaySet_wf (ch valid vals) : (cmdDoorwaySet ch valid vals).KeepsWf := fun s h => by
  simp only [cmdDoorwaySet]
  split <;> simp [h]

@[simp] theorem cmdDoorwayQuery_wf (ch) : (cmdDoorwayQuery ch).KeepsWf := fun s h => by
  simp only [cmdDoorwayQuery]
  split <;> simp [h]

@[simp] theorem cmdDoorwayPolicy_wf (froom rebind) : (cmdDoorwayPolicy froom rebind).KeepsWf := fun s h => by
  simp only [cmdDoorwayPolicy]
  split <;> simp [h]

/-! ### Machine/PortCmds -/

@[simp] theorem cmdLaneConfig_wf (g mode pa pb pc pd) : (cmdLaneConfig g mode pa pb pc pd).KeepsWf := fun s h => by
  simp only [cmdLaneConfig]
  (repeat' split) <;> simp [h]

@[simp] theorem cmdPortRole_wf (p role) : (cmdPortRole p role).KeepsWf := fun s h => by
  simp only [cmdPortRole]
  (repeat' split) <;> simp [h]

@[simp] theorem cmdPortLinkSet_wf (p rate width) : (cmdPortLinkSet p rate width).KeepsWf := fun s h => by
  simp only [cmdPortLinkSet]
  split <;> simp [h]

@[simp] theorem cmdPortEnable_wf (p en) : (cmdPortEnable p en).KeepsWf := fun s h => by
  simp [cmdPortEnable, h]

@[simp] theorem cmdPortQuery_wf (p) : (cmdPortQuery p).KeepsWf := fun s h => by
  simp [cmdPortQuery, h]

@[simp] theorem cmdLaneMargin_wf (p target mask dir steps limit dwell) :
    (cmdLaneMargin p target mask dir steps limit dwell).KeepsWf :=
  fun s h => by
  simp only [cmdLaneMargin]
  split <;> simp [h]

@[simp] theorem cmdLaneStats_wf (p) : (cmdLaneStats p).KeepsWf := fun s h => by
  simp [cmdLaneStats, h]

/-! ### Machine/Opf -/

@[simp] theorem cmdOpfQuery_wf (m) : (cmdOpfQuery m).KeepsWf := fun s h => by
  simp [cmdOpfQuery, h]

@[simp] theorem cmdOpfRetrain_wf (m) : (cmdOpfRetrain m).KeepsWf := fun s h => by
  simp only [cmdOpfRetrain]
  split <;> simp [h]

/-! ### Machine/FabricRows -/

@[simp] theorem cmdFabricQuery_wf : cmdFabricQuery.KeepsWf := fun s h => by
  simp [cmdFabricQuery, h]

@[simp] theorem cmdTimeQuery_wf : cmdTimeQuery.KeepsWf := fun s h => by
  simp [cmdTimeQuery, h]

@[simp] theorem cmdSchemaQuery_wf : cmdSchemaQuery.KeepsWf := fun s h => by
  simp [cmdSchemaQuery, h]

@[simp] theorem cmdSchemaSet_wf (ceiling) : (cmdSchemaSet ceiling).KeepsWf := fun s h => by
  simp only [cmdSchemaSet]
  (repeat' split) <;> simp [h]

@[simp] theorem cmdRidgeYield_wf : cmdRidgeYield.KeepsWf := fun s h => by
  simp only [cmdRidgeYield]
  (repeat' split) <;> simp [h]

@[simp] theorem cmdRouteSet_wf (fid sw port on) : (cmdRouteSet fid sw port on).KeepsWf := fun s h => by
  simp only [cmdRouteSet]
  (repeat' split) <;> simp [h]

@[simp] theorem cmdRouteQuery_wf (first n) : (cmdRouteQuery first n).KeepsWf := fun s h => by
  simp [cmdRouteQuery, h]

@[simp] theorem cmdNoticeMask_wf (mask) : (cmdNoticeMask mask).KeepsWf := fun s h => by
  simp [cmdNoticeMask, h]

@[simp] theorem cmdFabricRelay_wf (target pkt) : (cmdFabricRelay target pkt).KeepsWf := fun s h => by
  simp only [cmdFabricRelay]
  (repeat' split) <;> simp [h]

/-! ### Machine/Attic -/

@[simp] theorem cmdAtticRead_wf (first n) : (cmdAtticRead first n).KeepsWf := fun s h => by
  simp [cmdAtticRead, h]

@[simp] theorem cmdAtticFatalRead_wf : cmdAtticFatalRead.KeepsWf := fun s h => by
  simp [cmdAtticFatalRead, h]

@[simp] theorem cmdAtticClear_wf (what) : (cmdAtticClear what).KeepsWf := fun s h => by
  simp [cmdAtticClear, h]

@[simp] theorem cmdAtticLogRead_wf (off len) : (cmdAtticLogRead off len).KeepsWf := fun s h => by
  simp [cmdAtticLogRead, h]

@[simp] theorem cmdFaultQuery_wf : cmdFaultQuery.KeepsWf := fun s h => by
  simp [cmdFaultQuery, h]

@[simp] theorem cmdFaultInject_wf (checker mode) : (cmdFaultInject checker mode).KeepsWf := fun s h => by
  simp [cmdFaultInject, h]

/-! ### Machine/Teardown -/

@[simp] theorem cmdRoomDestroy_wf (froom) : (cmdRoomDestroy froom).KeepsWf := fun s h => by
  simp only [cmdRoomDestroy]
  split <;> simp [h]

/-! ### Machine/Firmware -/

@[simp] theorem cmdFwQuery_wf : cmdFwQuery.KeepsWf := fun s h => by
  simp [cmdFwQuery, h]

@[simp] theorem cmdFwWrite_wf (bank : Bool) (off : Nat) (data : List Byte) : (cmdFwWrite bank off data).KeepsWf := fun s h => by
  simp only [cmdFwWrite]
  split <;> simp [h, Memory.writeBytes_wf]

@[simp] theorem cmdFwVerify_wf (bank) : (cmdFwVerify bank).KeepsWf := fun s h => by
  simp [cmdFwVerify, h]

@[simp] theorem cmdFwActivate_wf (bank) : (cmdFwActivate bank).KeepsWf := fun s h => by
  simp only [cmdFwActivate]
  (repeat' split) <;> simp [h]

@[simp] theorem cmdEhrecWrite_wf (off : Nat) (data : List Byte) : (cmdEhrecWrite off data).KeepsWf := fun s h => by
  simp [cmdEhrecWrite, h, Memory.writeBytes_wf]

@[simp] theorem cmdEhrecRead_wf (off len) : (cmdEhrecRead off len).KeepsWf := fun s h => by
  simp [cmdEhrecRead, h]

/-! ### Machine/Packet -/

@[simp] theorem cmdIdentify_wf : cmdIdentify.KeepsWf := fun s h => by
  simp [cmdIdentify, h]

@[simp] theorem cmdStatusQuery_wf : cmdStatusQuery.KeepsWf := fun s h => by
  simp [cmdStatusQuery, h]

/-! ## The meanings of the rows -/

/-! ### What a meaning answers -/

/-- The next state that a meaning answers, if any, has the memory canonical. -/
def EndsWf (e : Eff) : Prop := ∀ t, e = .next t → Memory.wf t.mem = true

@[simp] theorem endsWf_next (t : State) : EndsWf (.next t) ↔ Memory.wf t.mem = true := by simp [EndsWf]

/-! ### The Dermel rows -/

/-- The command of every Dermel row keeps the memory canonical. -/
theorem rowCmd_keepsWf {i : Instr} {h : Hdr} {c : Cmd} (e : rowCmd i = some (h, c)) : c.KeepsWf := by
  cases i
  all_goals simp only [rowCmd, Option.some.injEq, Prod.mk.injEq, reduceCtorEq] at e
  all_goals
    obtain ⟨-, rfl⟩ := e
    simp

theorem parseCmd_keepsWf {h : Hdr} {op : Nat} {p : List Byte} {c : Cmd} (e : parseCmd h op p = some c) : c.KeepsWf := by
  simp only [parseCmd] at e
  split at e
  · cases e
  · obtain ⟨⟨hdr, d⟩, hrow, rfl⟩ := Option.map_eq_some_iff.1 e
    have hd : d.KeepsWf := rowCmd_keepsWf hrow
    exact hd

@[simp] theorem State.dermel_wf {s : State} (hs : Memory.wf s.mem = true) (h : Hdr) {c : Cmd} (hc : c.KeepsWf) :
    EndsWf (s.dermel h c) := by
  simp only [State.dermel, endsWf_next]
  split <;> simp [hs, hc]

@[simp] theorem State.runPacket_wf {s : State} (h : Memory.wf s.mem = true) (src : Source) (p : Packet) :
    Memory.wf (s.runPacket src p).mem = true := by
  simp only [State.runPacket]
  (repeat' split)
  any_goals (apply State.runCmd_wf h; apply parseCmd_keepsWf; assumption)
  all_goals simp [h]

theorem wf_of_some_eq {p : WorkRes × State} {r : WorkRes} {t : State} (ht : some p = some (r, t))
    (h : Memory.wf p.2.mem = true) : Memory.wf t.mem = true := by
  cases Option.some.inj ht
  exact h

theorem State.endWork_wf {s t : State} {p : Pend} {e : WorkEnd} {r : WorkRes} (ht : s.endWork p e = some (r, t))
    (h : Memory.wf s.mem = true) : Memory.wf t.mem = true := by
  simp only [State.endWork] at ht
  split at ht
  case h_10 => exact (congrArg Memory.wf (State.endLayout_mem ht)).trans h
  case h_11 => exact (congrArg Memory.wf (State.endClean_mem ht)).trans h
  case h_12 => exact (congrArg Memory.wf (State.endClean_mem ht)).trans h
  all_goals (repeat' split at ht)
  any_goals contradiction
  all_goals exact wf_of_some_eq ht (by simp [h])

@[simp] theorem State.mbSay_wf {s : State} (h : Memory.wf s.mem = true) (a : MbAt) (data : List Byte) :
    EndsWf (s.mbSay a data) := by
  simp [State.mbSay, h]

@[simp] theorem State.mbDyn_wf {s : State} (h : Memory.wf s.mem = true) (a : MbAt) {f : Window → MbRet × List Byte × State}
    (hf : ∀ x, Memory.wf (f x).2.2.mem = true) : EndsWf (s.mbDyn a f) := by
  simp only [State.mbDyn, endsWf_next]
  refine State.mbCmd_wf h a fun x b => ?_
  split <;> simp [h, hf]

@[simp] theorem State.fmCmd_wf {s : State} (h : Memory.wf s.mem = true) {f : MbRet × List Byte × State}
    (hf : Memory.wf f.2.2.mem = true) : EndsWf (s.fmCmd f) := by
  simp only [State.fmCmd]
  split <;> simp [h, hf]

/-! ### Machine/Atomic -/

@[simp] theorem execFetchadd_wf {s : State} (h : Memory.wf s.mem = true) (hu plane t) : EndsWf (execFetchadd hu plane t s) := by
  simp [execFetchadd, h]

@[simp] theorem execSwap_wf {s : State} (h : Memory.wf s.mem = true) (hu plane t) : EndsWf (execSwap hu plane t s) := by
  simp [execSwap, h]

@[simp] theorem execCas_wf {s : State} (h : Memory.wf s.mem = true) (hu plane t) : EndsWf (execCas hu plane t s) := by
  simp [execCas, h]

@[simp] theorem execUmin_wf {s : State} (h : Memory.wf s.mem = true) (slice slot t) : EndsWf (execUmin slice slot t s) := by
  simp [execUmin, h]

@[simp] theorem execUmax_wf {s : State} (h : Memory.wf s.mem = true) (slice slot t) : EndsWf (execUmax slice slot t s) := by
  simp [execUmax, h]

@[simp] theorem execSmin_wf {s : State} (h : Memory.wf s.mem = true) (slice slot t) : EndsWf (execSmin slice slot t s) := by
  simp [execSmin, h]

@[simp] theorem execSmax_wf {s : State} (h : Memory.wf s.mem = true) (slice slot t) : EndsWf (execSmax slice slot t s) := by
  simp [execSmax, h]

@[simp] theorem execAnd_wf {s : State} (h : Memory.wf s.mem = true) (slice slot t) : EndsWf (execAnd slice slot t s) := by
  simp [execAnd, h]

@[simp] theorem execOr_wf {s : State} (h : Memory.wf s.mem = true) (slice slot t) : EndsWf (execOr slice slot t s) := by
  simp [execOr, h]

@[simp] theorem execXor_wf {s : State} (h : Memory.wf s.mem = true) (slice slot t) : EndsWf (execXor slice slot t s) := by
  simp [execXor, h]

@[simp] theorem execAdd128_wf {s : State} (h : Memory.wf s.mem = true) (slice slot t) : EndsWf (execAdd128 slice slot t s) := by
  simp [execAdd128, h]

@[simp] theorem execBinc_wf {s : State} (h : Memory.wf s.mem = true) (slice slot t) : EndsWf (execBinc slice slot t s) := by
  simp [execBinc, h]

@[simp] theorem execCxlIoMemoryRead_wf {s : State} (h : Memory.wf s.mem = true) (window host pasid tag off len) :
    EndsWf (execCxlIoMemoryRead window host pasid tag off len s) := by simp [execCxlIoMemoryRead, h]

@[simp] theorem execCxlIoMemoryWrite_wf {s : State} (h : Memory.wf s.mem = true) (window host pasid tag off data) :
    EndsWf (execCxlIoMemoryWrite window host pasid tag off data s) := by simp [execCxlIoMemoryWrite, h]

/-! ### Machine/PoolCmds -/

@[simp] theorem execSlotPowerOff_wf {s : State} (h : Memory.wf s.mem = true) (window host) :
    EndsWf (execSlotPowerOff window host s) := by
  simp only [execSlotPowerOff]
  split <;> simp [h]

@[simp] theorem execCapacityResponseTimeout_wf {s0 : State} (h : Memory.wf s0.mem = true) (window : Win) (t : Nat) :
    EndsWf (execCapacityResponseTimeout window t s0) := by
  unfold execCapacityResponseTimeout
  extract_lets s w
  have hs : Memory.wf s.mem = true := by simp [s, h]
  split
  · simp [hs]
  · extract_lets s1 s2
    have h1 : Memory.wf s1.mem = true := foldl_wf hs (fun a o ha => by simp [ha]) _
    have h2 : Memory.wf s2.mem = true := foldl_wf h1 (fun a i ha => by simp [ha]) _
    simp [h2]

/-! ### Machine/Mover -/

@[simp] theorem execCopy_wf {s : State} (h : Memory.wf s.mem = true) (ch dev) : EndsWf (execCopy ch dev s) := by
  simp [execCopy, h]

@[simp] theorem execFill_wf {s : State} (h : Memory.wf s.mem = true) (ch dev) : EndsWf (execFill ch dev s) := by
  simp [execFill, h]

@[simp] theorem execZero_wf {s : State} (h : Memory.wf s.mem = true) (ch dev) : EndsWf (execZero ch dev s) := by
  simp [execZero, h]

@[simp] theorem execCompare_wf {s : State} (h : Memory.wf s.mem = true) (ch dev) : EndsWf (execCompare ch dev s) := by
  simp [execCompare, h]

@[simp] theorem execFlush_wf {s : State} (h : Memory.wf s.mem = true) (ch dev) : EndsWf (execFlush ch dev s) := by
  simp [execFlush, h]

@[simp] theorem execPrepare_wf {s : State} (h : Memory.wf s.mem = true) (ch dev) : EndsWf (execPrepare ch dev s) := by
  simp [execPrepare, h]

@[simp] theorem execMigstepCopy_wf {s : State} (h : Memory.wf s.mem = true) (ch dev) : EndsWf (execMigstepCopy ch dev s) := by
  simp [execMigstepCopy, h]

@[simp] theorem execSwitch_wf {s : State} (h : Memory.wf s.mem = true) (ch) : EndsWf (execSwitch ch s) := by simp [execSwitch, h]

@[simp] theorem execRelease_wf {s : State} (h : Memory.wf s.mem = true) (ch) : EndsWf (execRelease ch s) := by
  simp [execRelease, h]

@[simp] theorem execAbandon_wf {s : State} (h : Memory.wf s.mem = true) (ch) : EndsWf (execAbandon ch s) := by
  simp [execAbandon, h]

@[simp] theorem execJobStart_wf {s : State} (h : Memory.wf s.mem = true) (room dev) : EndsWf (execJobStart room dev s) := by
  simp [execJobStart, h]

@[simp] theorem execBystanderResume_wf {s0 : State} (h : Memory.wf s0.mem = true) (t) : EndsWf (execBystanderResume t s0) := by
  simp only [execBystanderResume]
  (repeat' split) <;> simp [h]

@[simp] theorem execMjSubmit_wf {s : State} (h : Memory.wf s.mem = true) (slice value) : EndsWf (execMjSubmit slice value s) := by
  simp only [execMjSubmit]
  split <;> simp [h]

@[simp] theorem execDoorbellPageAccess_wf {s0 : State} (h : Memory.wf s0.mem = true)
    (window host pasid tag off write size value) :
    EndsWf (execDoorbellPageAccess window host pasid tag off write size value s0) := by
  simp only [execDoorbellPageAccess]
  (repeat' split) <;> simp [h]

/-! ### Machine/Qos -/

@[simp] theorem execBucketTick_wf {s : State} (h : Memory.wf s.mem = true) (t) : EndsWf (execBucketTick t s) := by
  simp [execBucketTick, h]

@[simp] theorem execGateSwap_wf {s : State} (h : Memory.wf s.mem = true) (port t) : EndsWf (execGateSwap port t s) := by
  simp [execGateSwap, h]

@[simp] theorem execGroupDrainExpiry_wf {s : State} (h : Memory.wf s.mem = true) (neighbour t) :
    EndsWf (execGroupDrainExpiry neighbour t s) := by
  simp only [execGroupDrainExpiry]
  split <;> simp [h]

/-! ### Machine/Pantry -/

@[simp] theorem execBudgetTick_wf {s0 : State} (h : Memory.wf s0.mem = true) (t) : EndsWf (execBudgetTick t s0) := by
  simp [execBudgetTick, h]

@[simp] theorem execHuSenseSample_wf {s0 : State} (h : Memory.wf s0.mem = true) (mv10 t) :
    EndsWf (execHuSenseSample mv10 t s0) := by
  simp only [execHuSenseSample]
  (repeat' split) <;> simp [h]

@[simp] theorem execSenseFault_wf {s0 : State} (h : Memory.wf s0.mem = true) (t) : EndsWf (execSenseFault t s0) := by
  simp [execSenseFault, h]

@[simp] theorem execPfwN_wf {s0 : State} (h : Memory.wf s0.mem = true) (t) : EndsWf (execPfwN t s0) := by simp [execPfwN, h]

@[simp] theorem execFlushDone_wf {s0 : State} (h : Memory.wf s0.mem = true) (t) : EndsWf (execFlushDone t s0) := by
  simp only [execFlushDone]
  split <;> simp [h]

@[simp] theorem execVstopWaitExpiry_wf {s0 : State} (h : Memory.wf s0.mem = true) (t) : EndsWf (execVstopWaitExpiry t s0) := by
  simp only [execVstopWaitExpiry]
  (repeat' split) <;> simp [h]

@[simp] theorem execPfwRelease_wf {s0 : State} (h : Memory.wf s0.mem = true) (t) : EndsWf (execPfwRelease t s0) := by
  simp only [execPfwRelease]
  split <;> simp [h]

/-! ### Machine/Rehome -/

@[simp] theorem execHandoffStart_wf {s : State} (h : Memory.wf s.mem = true) (window) : EndsWf (execHandoffStart window s) := by
  simp only [execHandoffStart]
  (repeat' split) <;> simp [h]

@[simp] theorem execHandoffAgeDiscard_wf {s0 : State} (h : Memory.wf s0.mem = true) (window t) :
    EndsWf (execHandoffAgeDiscard window t s0) := by
  simp only [execHandoffAgeDiscard]
  split <;> simp [h]

@[simp] theorem execRehomeAbandon_wf {s : State} (h : Memory.wf s.mem = true) (window) : EndsWf (execRehomeAbandon window s) := by
  simp only [execRehomeAbandon]
  (repeat' split) <;> simp [h]

/-! ### Machine/Link -/

@[simp] theorem execLinkDown_wf {s : State} (h : Memory.wf s.mem = true) (port t) : EndsWf (execLinkDown port t s) := by
  simp [execLinkDown, h]

@[simp] theorem execPurgeEnd_wf {s : State} (h : Memory.wf s.mem = true) (port) : EndsWf (execPurgeEnd port s) := by
  simp [execPurgeEnd, h]

@[simp] theorem execPoolDeviceTimeout_wf {s0 : State} (h : Memory.wf s0.mem = true) (req t) :
    EndsWf (execPoolDeviceTimeout req t s0) := by
  simp only [execPoolDeviceTimeout]
  (repeat' split) <;> simp [h]

/-! ### Machine/Collector -/

@[simp] theorem execFatalFault_wf {s : State} (h : Memory.wf s.mem = true) (checker addr t) :
    EndsWf (execFatalFault checker addr t s) := by simp [execFatalFault, h]

/-! ### Machine/Access -/

@[simp] theorem execRetry_wf {s : State} (h : Memory.wf s.mem = true) (path ch) : EndsWf (execRetry path ch s) := by
  simp [execRetry, h]

@[simp] theorem execSkip_wf {s : State} (h : Memory.wf s.mem = true) (path ch) : EndsWf (execSkip path ch s) := by
  simp [execSkip, h]

@[simp] theorem execAbort_wf {s : State} (h : Memory.wf s.mem = true) (path ch) : EndsWf (execAbort path ch s) := by
  simp [execAbort, h]

@[simp] theorem execChannelDisable_wf {s : State} (h : Memory.wf s.mem = true) (path ch) :
    EndsWf (execChannelDisable path ch s) := by simp [execChannelDisable, h]

/-! ### Machine/Doorway -/

@[simp] theorem execPrsntNLow_wf {s0 : State} (h : Memory.wf s0.mem = true) (ch t) : EndsWf (execPrsntNLow ch t s0) := by
  simp [execPrsntNLow, h]

@[simp] theorem execPresenceRecognised_wf {s0 : State} (h : Memory.wf s0.mem = true) (ch t) :
    EndsWf (execPresenceRecognised ch t s0) := by
  simp only [execPresenceRecognised]
  (repeat' split) <;> simp [h]

@[simp] theorem execRemoval_wf {s0 : State} (h : Memory.wf s0.mem = true) (ch t) : EndsWf (execRemoval ch t s0) := by
  simp only [execRemoval]
  split <;> simp [h]

@[simp] theorem execModelStep_wf {s0 : State} (h : Memory.wf s0.mem = true) (samples t) :
    EndsWf (execModelStep samples t s0) := by
  simp +contextual [execModelStep, h]

@[simp] theorem execFast_wf {s : State} (h : Memory.wf s.mem = true) (ch t) : EndsWf (execFast ch t s) := by simp [execFast, h]

@[simp] theorem execFaultTmr_wf {s0 : State} (h : Memory.wf s0.mem = true) (ch t) : EndsWf (execFaultTmr ch t s0) := by
  simp [execFaultTmr, h]

@[simp] theorem execEnhTmo_wf {s0 : State} (h : Memory.wf s0.mem = true) (ch t) : EndsWf (execEnhTmo ch t s0) := by
  simp [execEnhTmo, h]

@[simp] theorem execPgood_wf {s0 : State} (h : Memory.wf s0.mem = true) (ch t) : EndsWf (execPgood ch t s0) := by
  simp [execPgood, h]

@[simp] theorem execPerstRelease_wf {s0 : State} (h : Memory.wf s0.mem = true) (ch t) : EndsWf (execPerstRelease ch t s0) := by
  simp [execPerstRelease, h]

@[simp] theorem execOffTimerExpiry_wf {s0 : State} (h : Memory.wf s0.mem = true) (ch t) :
    EndsWf (execOffTimerExpiry ch t s0) := by
  simp only [execOffTimerExpiry]
  split <;> simp [h]

@[simp] theorem execGpioEnable_wf {s0 : State} (h : Memory.wf s0.mem = true) (n high t) :
    EndsWf (execGpioEnable n high t s0) := by
  simp only [execGpioEnable]
  (repeat' split) <;> simp +contextual [h]

@[simp] theorem execDwyChEn_wf {s : State} (h : Memory.wf s.mem = true) (path ch on t) : EndsWf (execDwyChEn path ch on t s) := by
  simp +contextual [execDwyChEn, h]

@[simp] theorem execModule48Down_wf {s : State} (h : Memory.wf s.mem = true) (t) : EndsWf (execModule48Down t s) := by
  simp [execModule48Down, h]

@[simp] theorem execModule48Up_wf {s : State} (h : Memory.wf s.mem = true) (t) : EndsWf (execModule48Up t s) := by
  simp [execModule48Up, h]

/-! ### Machine/Flit -/

@[simp] theorem execFlitReceived_wf {s0 : State} (h : Memory.wf s0.mem = true) (port : Port) (t : Nat) (fecOk crcOk : Bool)
    (msgs : List MsgIn) (ret : FlitRet) : EndsWf (execFlitReceived port t fecOk crcOk msgs ret s0) := by
  simp only [execFlitReceived]
  split
  · simp [h]
  split
  · simp [h]
  · rw [endsWf_next]
    have hgot {s1 : State} (h1 : Memory.wf s1.mem = true) (p : Nat) :
        Memory.wf (msgs.foldl (fun a m => a.receive p m) s1).mem = true := foldl_wf h1 (fun a m ha => by simp [ha]) _
    split
    · exact State.replays_wf (hgot (by simp [h]) _) _
    · exact hgot (by simp [h]) _

@[simp] theorem execCxlCacheD2hReq_wf {s : State} (h : Memory.wf s.mem = true) (port tag cacheId expectsData) :
    EndsWf (execCxlCacheD2hReq port tag cacheId expectsData s) := by simp [execCxlCacheD2hReq, h]

@[simp] theorem execCxlCacheH2dReq_wf {s : State} (h : Memory.wf s.mem = true) (port tag cacheId) :
    EndsWf (execCxlCacheH2dReq port tag cacheId s) := by simp [execCxlCacheH2dReq, h]

@[simp] theorem execSecondaryBusReset_wf {s : State} (h : Memory.wf s.mem = true) (vcs bridge) :
    EndsWf (execSecondaryBusReset vcs bridge s) := by
  simp only [execSecondaryBusReset]
  split <;> simp [h]

/-! ### Machine/PortCmds -/

@[simp] theorem execLinkUp_wf {s0 : State} (h : Memory.wf s0.mem = true) (port t info) : EndsWf (execLinkUp port t info s0) := by
  simp only [execLinkUp]
  (repeat' split) <;> simp [h]

@[simp] theorem execPoolLinkWaitExpiry_wf {s0 : State} (h : Memory.wf s0.mem = true) (port t) :
    EndsWf (execPoolLinkWaitExpiry port t s0) := by
  simp only [execPoolLinkWaitExpiry]
  split <;> simp [h]

@[simp] theorem execWidthRetry_wf {s0 : State} (h : Memory.wf s0.mem = true) (port t) : EndsWf (execWidthRetry port t s0) := by
  simp only [execWidthRetry]
  split <;> simp [h]

@[simp] theorem execPartnerChange_wf {s : State} (h : Memory.wf s.mem = true) (port rw belowCommon) :
    EndsWf (execPartnerChange port rw belowCommon s) := by
  simp only [execPartnerChange]
  split <;> simp [h]

@[simp] theorem execLinkRecovery_wf {s : State} (h : Memory.wf s.mem = true) (port lockLost retry) :
    EndsWf (execLinkRecovery port lockLost retry s) := by
  simp only [execLinkRecovery]
  split <;> simp [h]

@[simp] theorem execRetrain_wf {s : State} (h : Memory.wf s.mem = true) (path port) : EndsWf (execRetrain path port s) := by
  simp [execRetrain, h]

@[simp] theorem execHotReset_wf {s : State} (h : Memory.wf s.mem = true) (path port) : EndsWf (execHotReset path port s) := by
  simp +contextual [execHotReset, h]

@[simp] theorem execDisable_wf {s : State} (h : Memory.wf s.mem = true) (path port on t) :
    EndsWf (execDisable path port on t s) := by
  simp +contextual [execDisable, h]

@[simp] theorem execFreeze_wf {s : State} (h : Memory.wf s.mem = true) (path group on) : EndsWf (execFreeze path group on s) := by
  simp [execFreeze, h]

@[simp] theorem execHotResetReceived_wf {s0 : State} (h : Memory.wf s0.mem = true) (port t) :
    EndsWf (execHotResetReceived port t s0) := by simp [execHotResetReceived, h]

@[simp] theorem execPerstUpN_wf {s0 : State} (h : Memory.wf s0.mem = true) (n high t) : EndsWf (execPerstUpN n high t s0) := by
  simp only [execPerstUpN]
  (repeat' split) <;> simp +contextual [h]

@[simp] theorem execPartnerMarginRequest_wf {s : State} (h : Memory.wf s.mem = true) (lane) :
    EndsWf (execPartnerMarginRequest lane s) := by simp [execPartnerMarginRequest, h]

@[simp] theorem execMarginDwellEnd_wf {s : State} (h : Memory.wf s.mem = true) (port errors) :
    EndsWf (execMarginDwellEnd port errors s) := by
  simp only [execMarginDwellEnd]
  split <;> simp [h]

@[simp] theorem execAdaptationStep_wf {s : State} (h : Memory.wf s.mem = true) (lane up) :
    EndsWf (execAdaptationStep lane up s) := by simp [execAdaptationStep, h]

@[simp] theorem execMemoryActiveTimeout_wf {s : State} (h : Memory.wf s.mem = true) (port) :
    EndsWf (execMemoryActiveTimeout port s) := by simp [execMemoryActiveTimeout, h]

@[simp] theorem execCxlIoCompletionTimeout_wf {s : State} (h : Memory.wf s.mem = true) (port) :
    EndsWf (execCxlIoCompletionTimeout port s) := by
  simp only [execCxlIoCompletionTimeout]
  split <;> simp [h]

/-! ### Machine/Mailbox -/

@[simp] theorem execMbIdentify_wf {s : State} (h : Memory.wf s.mem = true) (a) : EndsWf (execMbIdentify a s) := by
  simp [execMbIdentify, h]

@[simp] theorem execMbBackgroundOperationStatus_wf {s : State} (h : Memory.wf s.mem = true) (a) :
    EndsWf (execMbBackgroundOperationStatus a s) := by simp [execMbBackgroundOperationStatus, h]

@[simp] theorem execMbGetEventRecords_wf {s : State} (h : Memory.wf s.mem = true) (a log) :
    EndsWf (execMbGetEventRecords a log s) := by
  simp only [execMbGetEventRecords]
  split <;> simp [h]

@[simp] theorem execMbClearEventRecords_wf {s : State} (h : Memory.wf s.mem = true) (a : MbAt) (log : Byte) (all : Bool)
    (handles : List B16) : EndsWf (execMbClearEventRecords a log all handles s) := by
  rw [execMbClearEventRecords, endsWf_next]
  refine State.mbCmd_wf h a fun x b => ?_
  dsimp only
  split <;> simp [h]

@[simp] theorem execGetEventInterruptPolicy_wf {s : State} (h : Memory.wf s.mem = true) (a) :
    EndsWf (execGetEventInterruptPolicy a s) := by simp [execGetEventInterruptPolicy, h]

@[simp] theorem execSetEventInterruptPolicy_wf {s : State} (h : Memory.wf s.mem = true) (a policy) :
    EndsWf (execSetEventInterruptPolicy a policy s) := by simp [execSetEventInterruptPolicy, h]

@[simp] theorem execMbGetTimestamp_wf {s : State} (h : Memory.wf s.mem = true) (a) : EndsWf (execMbGetTimestamp a s) := by
  simp [execMbGetTimestamp, h]

@[simp] theorem execSetTimestamp_wf {s : State} (h : Memory.wf s.mem = true) (a _time) : EndsWf (execSetTimestamp a _time s) := by
  simp [execSetTimestamp, h]

@[simp] theorem execGetSupportedLogs_wf {s : State} (h : Memory.wf s.mem = true) (a) : EndsWf (execGetSupportedLogs a s) := by
  simp [execGetSupportedLogs, h]

@[simp] theorem execGetLog_wf {s : State} (h : Memory.wf s.mem = true) (a) : EndsWf (execGetLog a s) := by simp [execGetLog, h]

@[simp] theorem execIdentifyMemoryDevice_wf {s : State} (h : Memory.wf s.mem = true) (a) :
    EndsWf (execIdentifyMemoryDevice a s) := by simp [execIdentifyMemoryDevice, h]

@[simp] theorem execGetHealthInfo_wf {s : State} (h : Memory.wf s.mem = true) (a) : EndsWf (execGetHealthInfo a s) := by
  simp [execGetHealthInfo, h]

@[simp] theorem execGetPoisonList_wf {s : State} (h : Memory.wf s.mem = true) (a) : EndsWf (execGetPoisonList a s) := by
  simp [execGetPoisonList, h]

@[simp] theorem execGetDynamicCapacityConfiguration_wf {s : State} (h : Memory.wf s.mem = true) (a) :
    EndsWf (execGetDynamicCapacityConfiguration a s) := by simp [execGetDynamicCapacityConfiguration, h]

@[simp] theorem execGetDynamicCapacityExtentList_wf {s : State} (h : Memory.wf s.mem = true) (a) :
    EndsWf (execGetDynamicCapacityExtentList a s) := by simp [execGetDynamicCapacityExtentList, h]

@[simp] theorem execAddDynamicCapacityResponse_wf {s : State} (h : Memory.wf s.mem = true) (a : MbAt) (extents : List Nat) :
    EndsWf (execAddDynamicCapacityResponse a extents s) := by
  refine State.mbDyn_wf h a fun x => ?_
  dsimp only
  split <;> simp [h]

@[simp] theorem execReleaseDynamicCapacity_wf {s : State} (h : Memory.wf s.mem = true) (a : MbAt) (extents : List Nat) :
    EndsWf (execReleaseDynamicCapacity a extents s) := by
  refine State.mbDyn_wf h a fun x => ?_
  extract_lets s1
  have h1 : Memory.wf s1.mem = true := foldl_wf h (fun b i hb => by dsimp only; split <;> simp [hb]) _
  simp [h1]

@[simp] theorem execUnbindTimeout_wf {s0 : State} (h : Memory.wf s0.mem = true) (window host t) :
    EndsWf (execUnbindTimeout window host t s0) := by
  simp only [execUnbindTimeout]
  (repeat' split) <;> simp [h]

@[simp] theorem execFmIdentify_wf {s : State} (h : Memory.wf s.mem = true) (_src) : EndsWf (execFmIdentify _src s) := by
  simp [execFmIdentify, h]

@[simp] theorem execFmBackgroundOperationStatus_wf {s : State} (h : Memory.wf s.mem = true) (_src) :
    EndsWf (execFmBackgroundOperationStatus _src s) := by simp [execFmBackgroundOperationStatus, h]

@[simp] theorem execFmGetEventRecords_wf {s : State} (h : Memory.wf s.mem = true) (_src) :
    EndsWf (execFmGetEventRecords _src s) := by simp [execFmGetEventRecords, h]

@[simp] theorem execFmClearEventRecords_wf {s : State} (h : Memory.wf s.mem = true) (_src all handles) :
    EndsWf (execFmClearEventRecords _src all handles s) := by
  simp only [execFmClearEventRecords]
  split <;> simp [h]

@[simp] theorem execFmGetTimestamp_wf {s : State} (h : Memory.wf s.mem = true) (_src) : EndsWf (execFmGetTimestamp _src s) := by
  simp [execFmGetTimestamp, h]

@[simp] theorem execIdentifySwitchDevice_wf {s : State} (h : Memory.wf s.mem = true) (_src) :
    EndsWf (execIdentifySwitchDevice _src s) := by simp [execIdentifySwitchDevice, h]

@[simp] theorem execGetPhysicalPortState_wf {s : State} (h : Memory.wf s.mem = true) (_src ports) :
    EndsWf (execGetPhysicalPortState _src ports s) := by
  simp only [execGetPhysicalPortState]
  split <;> simp [h]

@[simp] theorem execPhysicalPortControl_wf {s : State} (h : Memory.wf s.mem = true) (_src port op) :
    EndsWf (execPhysicalPortControl _src port op s) := by
  simp only [execPhysicalPortControl]
  (repeat' split) <;> simp [h]

@[simp] theorem execSendPpbCxlIoConfigurationRequest_wf {s : State} (h : Memory.wf s.mem = true) (_src port write reg value) :
    EndsWf (execSendPpbCxlIoConfigurationRequest _src port write reg value s) := by
  simp only [execSendPpbCxlIoConfigurationRequest]
  (repeat' split) <;> simp [h]

@[simp] theorem execGetVirtualCxlSwitchInfo_wf {s : State} (h : Memory.wf s.mem = true) (_src vcs) :
    EndsWf (execGetVirtualCxlSwitchInfo _src vcs s) := by
  simp only [execGetVirtualCxlSwitchInfo]
  split <;> simp [h]

@[simp] theorem execBindVppb_wf {s : State} (h : Memory.wf s.mem = true) (_src vcs vppb port) :
    EndsWf (execBindVppb _src vcs vppb port s) := by
  simp only [execBindVppb]
  (repeat' split) <;> simp [h]

@[simp] theorem execUnbindVppb_wf {s : State} (h : Memory.wf s.mem = true) (_src vcs vppb wait) :
    EndsWf (execUnbindVppb _src vcs vppb wait s) := by
  simp only [execUnbindVppb]
  (repeat' split) <;> simp [h]

@[simp] theorem execGenerateAerEvent_wf {s : State} (h : Memory.wf s.mem = true) (_src vcs vppb err) :
    EndsWf (execGenerateAerEvent _src vcs vppb err s) := by
  simp only [execGenerateAerEvent]
  split <;> simp [h]

/-! ### Machine/Opf -/

@[simp] theorem execOpfFlit_wf {s0 : State} (h : Memory.wf s0.mem = true) (e f t) : EndsWf (execOpfFlit e f t s0) := by
  simp only [execOpfFlit]
  (repeat' split) <;> simp [h]

@[simp] theorem execAckFlit_wf {s0 : State} (h : Memory.wf s0.mem = true) (e f t) : EndsWf (execAckFlit e f t s0) := by
  simp only [execAckFlit]
  split <;> simp [h]

@[simp] theorem execAuditFlit_wf {s0 : State} (h : Memory.wf s0.mem = true) (e f freed t) :
    EndsWf (execAuditFlit e f freed t s0) := by
  simp only [execAuditFlit]
  split <;> simp [h]

@[simp] theorem execRtrqFlit_wf {s0 : State} (h : Memory.wf s0.mem = true) (e f reason die wordsA wordsB verifyA verifyB t) :
    EndsWf (execRtrqFlit e f reason die wordsA wordsB verifyA verifyB t s0) := by
  simp only [execRtrqFlit]
  (repeat' split) <;> simp [h]

@[simp] theorem execSyncFlit_wf {s0 : State} (h : Memory.wf s0.mem = true) (e f next free t) :
    EndsWf (execSyncFlit e f next free t s0) := by
  simp only [execSyncFlit]
  (repeat' split) <;> simp [h]

/-! ### Machine/Stairwell -/

@[simp] theorem execStairwellPacket_wf {s0 : State} (h : Memory.wf s0.mem = true) (l p t) :
    EndsWf (execStairwellPacket l p t s0) := by
  simp only [execStairwellPacket]
  (repeat' split) <;> simp [h]

@[simp] theorem execCtlAck_wf {s0 : State} (h : Memory.wf s0.mem = true) (c ack crVc crCnt t) :
    EndsWf (execCtlAck c ack crVc crCnt t s0) := by
  simp only [execCtlAck]
  split <;> simp [h]

@[simp] theorem execCtlAudit_wf {s0 : State} (h : Memory.wf s0.mem = true) (c freed t) : EndsWf (execCtlAudit c freed t s0) := by
  simp only [execCtlAudit]
  split <;> simp [h]

@[simp] theorem execCtlRtrq_wf {s0 : State} (h : Memory.wf s0.mem = true) (c rank id reason t) :
    EndsWf (execCtlRtrq c rank id reason t s0) := by
  simp only [execCtlRtrq]
  (repeat' split) <;> simp [h]

@[simp] theorem execTrn_wf {s0 : State} (h : Memory.wf s0.mem = true) (c rank id reason t) :
    EndsWf (execTrn c rank id reason t s0) := by
  simp only [execTrn]
  (repeat' split) <;> simp [h]

@[simp] theorem execCtlSync_wf {s0 : State} (h : Memory.wf s0.mem = true) (c next free peerEven t) :
    EndsWf (execCtlSync c next free peerEven t s0) := by
  simp only [execCtlSync]
  (repeat' split) <;> simp [h]

@[simp] theorem execReplayTimeout_wf {s0 : State} (h : Memory.wf s0.mem = true) (l t) : EndsWf (execReplayTimeout l t s0) := by
  simp only [execReplayTimeout]
  (repeat' split) <;> simp [h]

@[simp] theorem execStandaloneAck_wf {s0 : State} (h : Memory.wf s0.mem = true) (l t) : EndsWf (execStandaloneAck l t s0) := by
  simp only [execStandaloneAck]
  split <;> simp [h]

@[simp] theorem execAuditInterval_wf {s0 : State} (h : Memory.wf s0.mem = true) (l t) : EndsWf (execAuditInterval l t s0) := by
  simp only [execAuditInterval]
  (repeat' split) <;> simp [h]

@[simp] theorem execRetrainLimit_wf {s0 : State} (h : Memory.wf s0.mem = true) (l t) : EndsWf (execRetrainLimit l t s0) := by
  simp only [execRetrainLimit]
  (repeat' split) <;> simp [h]

@[simp] theorem execStairwellTrainingRetry_wf {s0 : State} (h : Memory.wf s0.mem = true) (l t) :
    EndsWf (execStairwellTrainingRetry l t s0) := by simp [execStairwellTrainingRetry, h]

@[simp] theorem execStwRetrain_wf {s : State} (h : Memory.wf s.mem = true) (path l) : EndsWf (execStwRetrain path l s) := by
  simp [execStwRetrain, h]

@[simp] theorem execStwDisable_wf {s : State} (h : Memory.wf s.mem = true) (path l on) : EndsWf (execStwDisable path l on s) := by
  simp +contextual [execStwDisable, h]

/-! ### Machine/FabricRows -/

@[simp] theorem execHello_wf {s0 : State} (h : Memory.wf s0.mem = true) (l m t) : EndsWf (execHello l m t s0) := by
  simp [execHello, h]

@[simp] theorem execMember_wf {s0 : State} (h : Memory.wf s0.mem = true) (l x m t) : EndsWf (execMember l x m t s0) := by
  simp only [execMember]
  (repeat' split) <;> simp [h]

@[simp] theorem execLost_wf {s0 : State} (h : Memory.wf s0.mem = true) (l x id serial t) :
    EndsWf (execLost l x id serial t s0) := by
  simp only [execLost]
  (repeat' split) <;> simp [h]

@[simp] theorem execHelloInterval_wf {s0 : State} (h : Memory.wf s0.mem = true) (t) : EndsWf (execHelloInterval t s0) := by
  simp [execHelloInterval, h]

@[simp] theorem execHelloTimeout_wf {s0 : State} (h : Memory.wf s0.mem = true) (l t) : EndsWf (execHelloTimeout l t s0) := by
  simp only [execHelloTimeout]
  split <;> simp [h]

@[simp] theorem execMemberInterval_wf {s : State} (h : Memory.wf s.mem = true) (t) : EndsWf (execMemberInterval t s) := by
  simp [execMemberInterval, h]

@[simp] theorem execMemberTimeout_wf {s0 : State} (h : Memory.wf s0.mem = true) (id t) : EndsWf (execMemberTimeout id t s0) := by
  simp only [execMemberTimeout]
  split <;> simp [h]

@[simp] theorem execRidge_wf {s0 : State} (h : Memory.wf s0.mem = true) (l x ridge standby epoch t) :
    EndsWf (execRidge l x ridge standby epoch t s0) := by
  simp only [execRidge]
  (repeat' split) <;> simp [h]

@[simp] theorem execState_wf {s0 : State} (h : Memory.wf s0.mem = true) (l x ceiling routes seq t) :
    EndsWf (execState l x ceiling routes seq t s0) := by
  simp only [execState]
  (repeat' split) <;> simp [h]

@[simp] theorem execHandover_wf {s0 : State} (h : Memory.wf s0.mem = true) (l x successor instant t) :
    EndsWf (execHandover l x successor instant t s0) := by simp [execHandover, h]

@[simp] theorem execElectionTimer_wf {s0 : State} (h : Memory.wf s0.mem = true) (t) : EndsWf (execElectionTimer t s0) := by
  simp only [execElectionTimer]
  (repeat' split) <;> simp [h]

@[simp] theorem execHandoverInstant_wf {s0 : State} (h : Memory.wf s0.mem = true) (t) : EndsWf (execHandoverInstant t s0) := by
  simp only [execHandoverInstant]
  (repeat' split) <;> simp [h]

@[simp] theorem execLowerKeyEligible_wf {s0 : State} (h : Memory.wf s0.mem = true) (id t) :
    EndsWf (execLowerKeyEligible id t s0) := by
  simp only [execLowerKeyEligible]
  split <;> simp [h]

@[simp] theorem execDelayReq_wf {s0 : State} (h : Memory.wf s0.mem = true) (l t1 t) : EndsWf (execDelayReq l t1 t s0) := by
  simp [execDelayReq, h]

@[simp] theorem execDelayRsp_wf {s0 : State} (h : Memory.wf s0.mem = true) (l t1 t2 t3 t4) :
    EndsWf (execDelayRsp l t1 t2 t3 t4 s0) := by simp [execDelayRsp, h]

@[simp] theorem execTimeMark_wf {s0 : State} (h : Memory.wf s0.mem = true) (c mark localTime) :
    EndsWf (execTimeMark c mark localTime s0) := by
  simp only [execTimeMark]
  (repeat' split) <;> simp [h]

@[simp] theorem execTimeMarkInterval_wf {s0 : State} (h : Memory.wf s0.mem = true) (t) : EndsWf (execTimeMarkInterval t s0) := by
  simp [execTimeMarkInterval, h]

@[simp] theorem execDelayInterval_wf {s0 : State} (h : Memory.wf s0.mem = true) (t) : EndsWf (execDelayInterval t s0) := by
  simp only [execDelayInterval]
  split <;> simp [h]

@[simp] theorem execHoldoverExpiry_wf {s0 : State} (h : Memory.wf s0.mem = true) (t) : EndsWf (execHoldoverExpiry t s0) := by
  simp only [execHoldoverExpiry]
  split <;> simp [h]

@[simp] theorem execRouteStage_wf {s0 : State} (h : Memory.wf s0.mem = true) (l x version entries t) :
    EndsWf (execRouteStage l x version entries t s0) := by
  simp only [execRouteStage]
  (repeat' split) <;> simp [h]

@[simp] theorem execRouteAct_wf {s0 : State} (h : Memory.wf s0.mem = true) (l x version instant t) :
    EndsWf (execRouteAct l x version instant t s0) := by simp [execRouteAct, h]

@[simp] theorem execRouteActivation_wf {s0 : State} (h : Memory.wf s0.mem = true) (t) : EndsWf (execRouteActivation t s0) := by
  simp only [execRouteActivation]
  (repeat' split) <;> simp [h]

@[simp] theorem execHomeMove_wf {s0 : State} (h : Memory.wf s0.mem = true) (l x window oldHome newHome newWin t) :
    EndsWf (execHomeMove l x window oldHome newHome newWin t s0) := by
  simp only [execHomeMove]
  (repeat' split) <;> simp [h]

@[simp] theorem execHandoffReady_wf {s0 : State} (h : Memory.wf s0.mem = true) (window : Win) (t : Nat) :
    EndsWf (execHandoffReady window t s0) := by
  unfold execHandoffReady
  extract_lets s w swept mine
  have hs : Memory.wf s.mem = true := by simp [s, h]
  have hswept : Memory.wf swept.mem = true := by simp [swept, hs]
  clear_value s swept
  split
  · simp [hs]
  split
  · simp [hs]
  split
  · (repeat' split) <;> simp [hs, hswept]
  · extract_lets spare s1
    have h1 : Memory.wf s1.mem = true := by
      simp only [s1, State.mapHome_mem]
      exact foldl_wf (by simp [hs]) (fun a i ha => by simp [ha]) _
    rw [endsWf_next]
    refine State.announceMove_wf (foldl_wf h1 (fun a q ha => ?_) mine) w _
    split <;> simp [ha]

@[simp] theorem execSchemaSwitch_wf {s0 : State} (h : Memory.wf s0.mem = true) (l x next instant t) :
    EndsWf (execSchemaSwitch l x next instant t s0) := by simp [execSchemaSwitch, h]

@[simp] theorem execSchemaSwitchOver_wf {s0 : State} (h : Memory.wf s0.mem = true) (t) : EndsWf (execSchemaSwitchOver t s0) := by
  simp only [execSchemaSwitchOver]
  (repeat' split) <;> simp [h]

@[simp] theorem execAck_wf {s0 : State} (h : Memory.wf s0.mem = true) (l x type serial t) :
    EndsWf (execAck l x type serial t s0) := by
  simp only [execAck]
  (repeat' split) <;> simp [h]

@[simp] theorem execReassemblyTimeout_wf {s0 : State} (h : Memory.wf s0.mem = true) (src serial t) :
    EndsWf (execReassemblyTimeout src serial t s0) := by
  simp only [execReassemblyTimeout]
  split <;> simp [h]

@[simp] theorem execAckResendTimeout_wf {s0 : State} (h : Memory.wf s0.mem = true) (serial t) :
    EndsWf (execAckResendTimeout serial t s0) := by simp [execAckResendTimeout, h]

@[simp] theorem execRelay_wf {s0 : State} (h : Memory.wf s0.mem = true) (l x all seq pkt t) :
    EndsWf (execRelay l x all seq pkt t s0) := by
  simp only [execRelay]
  (repeat' split) <;> simp [h]

@[simp] theorem execRelayReply_wf {s0 : State} (h : Memory.wf s0.mem = true) (l x seq completion status bytes t) :
    EndsWf (execRelayReply l x seq completion status bytes t s0) := by simp [execRelayReply, h]

@[simp] theorem execRelayTimeout_wf {s0 : State} (h : Memory.wf s0.mem = true) (seq : Word) (t : Nat) :
    EndsWf (execRelayTimeout seq t s0) := by
  simp only [execRelayTimeout]
  split
  · simp [h]
  · rw [endsWf_next]
    exact foldl_wf (by simp [h]) (fun a o ha => by split <;> simp [ha]) _

@[simp] theorem execRelayHoldExpiry_wf {s0 : State} (h : Memory.wf s0.mem = true) (t) : EndsWf (execRelayHoldExpiry t s0) := by
  simp [execRelayHoldExpiry, h]

@[simp] theorem execNotice_wf {s0 : State} (h : Memory.wf s0.mem = true) (l x kind body t) :
    EndsWf (execNotice l x kind body t s0) := by
  simp only [execNotice]
  (repeat' split) <;> simp [h]

@[simp] theorem execNoticeGap_wf {s0 : State} (h : Memory.wf s0.mem = true) (origin t) : EndsWf (execNoticeGap origin t s0) := by
  simp only [execNoticeGap]
  split <;> simp [h]

@[simp] theorem execRestartingLimit_wf {s0 : State} (h : Memory.wf s0.mem = true) (t) : EndsWf (execRestartingLimit t s0) := by
  simp only [execRestartingLimit]
  split <;> simp [h]

/-! ### Machine/Attic -/

@[simp] theorem execDisarm_wf {s : State} (h : Memory.wf s.mem = true) (path checker) : EndsWf (execDisarm path checker s) := by
  simp [execDisarm, h]

@[simp] theorem execArmOnce_wf {s : State} (h : Memory.wf s.mem = true) (path checker) : EndsWf (execArmOnce path checker s) := by
  simp [execArmOnce, h]

@[simp] theorem execArmContinuous_wf {s : State} (h : Memory.wf s.mem = true) (path checker) :
    EndsWf (execArmContinuous path checker s) := by simp [execArmContinuous, h]

@[simp] theorem execStackLoss_wf {s0 : State} (h : Memory.wf s0.mem = true) (k t) : EndsWf (execStackLoss k t s0) := by
  simp [execStackLoss, h]

@[simp] theorem execTempReading_wf {s0 : State} (h : Memory.wf s0.mem = true) (readings t) :
    EndsWf (execTempReading readings t s0) := by simp [execTempReading, h]

@[simp] theorem execHearthWatchdog_wf {s0 : State} (h : Memory.wf s0.mem = true) (t) : EndsWf (execHearthWatchdog t s0) := by
  simp [execHearthWatchdog, h]

/-! ### Machine/Fifo -/

@[simp] theorem execEvtPop_wf {s : State} (h : Memory.wf s.mem = true) (size off) : EndsWf (execEvtPop size off s) := by
  simp [execEvtPop, h]

@[simp] theorem execEvtFlush_wf {s : State} (h : Memory.wf s.mem = true) (value) : EndsWf (execEvtFlush value s) := by
  simp [execEvtFlush, h]

@[simp] theorem execEventPosted_wf {s : State} (h : Memory.wf s.mem = true) : EndsWf (execEventPosted s) := by
  simp [execEventPosted, h]

/-! ### Machine/Reset -/

@[simp] theorem execResetRelease_wf {s : State} (h : Memory.wf s.mem = true) (ehrec slotOk strap) :
    EndsWf (execResetRelease ehrec slotOk strap s) := by
  simp only [execResetRelease]
  split <;> simp [h]

@[simp] theorem execColdReset_wf {s : State} (h : Memory.wf s.mem = true) (_rail aonLost) :
    EndsWf (execColdReset _rail aonLost s) := by simp [execColdReset, h]

@[simp] theorem execVddAonLoss_wf {s : State} (h : Memory.wf s.mem = true) : EndsWf (execVddAonLoss s) := by
  simp [execVddAonLoss, h]

@[simp] theorem execWarmN_wf {s : State} (h : Memory.wf s.mem = true) (t) : EndsWf (execWarmN t s) := by simp [execWarmN, h]

@[simp] theorem execWarm_wf {s : State} (h : Memory.wf s.mem = true) (path value t) : EndsWf (execWarm path value t s) := by
  simp [execWarm, h]

@[simp] theorem execDrainEnd_wf {s0 : State} (h : Memory.wf s0.mem = true) (t) : EndsWf (execDrainEnd t s0) := by
  simp [execDrainEnd, h]

@[simp] theorem execDrainLimit_wf {s0 : State} (h : Memory.wf s0.mem = true) (t) : EndsWf (execDrainLimit t s0) := by
  simp [execDrainLimit, h]

@[simp] theorem execHearthUp_wf {s0 : State} (h : Memory.wf s0.mem = true) (t version ownMin ownMax) :
    EndsWf (execHearthUp t version ownMin ownMax s0) := by
  simp only [execHearthUp]
  split <;> simp [h]

/-! ### Machine/Clocks -/

@[simp] theorem execEndpointConfigWrite_wf {s : State} (h : Memory.wf s.mem = true) (mse bme d3hot) :
    EndsWf (execEndpointConfigWrite mse bme d3hot s) := by simp [execEndpointConfigWrite, h]

@[simp] theorem execRefclkLost_wf {s0 : State} (h : Memory.wf s0.mem = true) (b t) : EndsWf (execRefclkLost b t s0) := by
  simp [execRefclkLost, h]

@[simp] theorem execCkpSwitch_wf {s : State} (h : Memory.wf s.mem = true) (path) : EndsWf (execCkpSwitch path s) := by
  simp [execCkpSwitch, h]

@[simp] theorem execRefclkValid_wf {s0 : State} (h : Memory.wf s0.mem = true) (b) : EndsWf (execRefclkValid b s0) := by
  simp [execRefclkValid, h]

@[simp] theorem execPllLockLoss_wf {s0 : State} (h : Memory.wf s0.mem = true) (pll t) : EndsWf (execPllLockLoss pll t s0) := by
  simp only [execPllLockLoss]
  (repeat' split) <;> simp +contextual [h]

@[simp] theorem execRailOutOfRange_wf {s : State} (h : Memory.wf s.mem = true) (inRange) :
    EndsWf (execRailOutOfRange inRange s) := by simp [execRailOutOfRange, h]

@[simp] theorem execAvsUpdate_wf {s : State} (h : Memory.wf s.mem = true) (acked measured differs10ms) :
    EndsWf (execAvsUpdate acked measured differs10ms s) := by simp [execAvsUpdate, h]

@[simp] theorem execPoweredHour_wf {s : State} (h : Memory.wf s.mem = true) : EndsWf (execPoweredHour s) := by
  simp [execPoweredHour, h]

@[simp] theorem execI3cDynamicAddress_wf {s : State} (h : Memory.wf s.mem = true) (addr) :
    EndsWf (execI3cDynamicAddress addr s) := by simp [execI3cDynamicAddress, h]

/-! ### Machine/Coherence -/

@[simp] theorem execMemrd_wf {s : State} (h : Memory.wf s.mem = true) (hu plane t) : EndsWf (execMemrd hu plane t s) := by
  simp [execMemrd, h]

@[simp] theorem execMemrddata_wf {s : State} (h : Memory.wf s.mem = true) (hu plane t) : EndsWf (execMemrddata hu plane t s) := by
  simp [execMemrddata, h]

@[simp] theorem execMeminv_wf {s : State} (h : Memory.wf s.mem = true) (hu plane t) : EndsWf (execMeminv hu plane t s) := by
  simp [execMeminv, h]

@[simp] theorem execMeminvnt_wf {s : State} (h : Memory.wf s.mem = true) (hu plane t) : EndsWf (execMeminvnt hu plane t s) := by
  simp [execMeminvnt, h]

@[simp] theorem execMemspecrd_wf {s : State} (h : Memory.wf s.mem = true) (hu plane t) : EndsWf (execMemspecrd hu plane t s) := by
  simp [execMemspecrd, h]

@[simp] theorem execMemwr_wf {s : State} (h : Memory.wf s.mem = true) (hu plane t) : EndsWf (execMemwr hu plane t s) := by
  simp [execMemwr, h]

@[simp] theorem execMemwrptl_wf {s : State} (h : Memory.wf s.mem = true) (hu plane t) : EndsWf (execMemwrptl hu plane t s) := by
  simp [execMemwrptl, h]

@[simp] theorem execBirspi_wf {s : State} (h : Memory.wf s.mem = true) (hu plane t) : EndsWf (execBirspi hu plane t s) := by
  simp [execBirspi, h]

@[simp] theorem execBirsps_wf {s : State} (h : Memory.wf s.mem = true) (hu plane t) : EndsWf (execBirsps hu plane t s) := by
  simp [execBirsps, h]

@[simp] theorem execBirspe_wf {s : State} (h : Memory.wf s.mem = true) (hu plane t) : EndsWf (execBirspe hu plane t s) := by
  simp [execBirspe, h]

@[simp] theorem execBiconflict_wf {s : State} (h : Memory.wf s.mem = true) (hu plane t) :
    EndsWf (execBiconflict hu plane t s) := by simp [execBiconflict, h]

@[simp] theorem execMemoryResponse_wf {s0 : State} (h : Memory.wf s0.mem = true) (req rsp t) :
    EndsWf (execMemoryResponse req rsp t s0) := by
  simp only [execMemoryResponse]
  (repeat' split) <;> simp [h]

@[simp] theorem execSnoopTimeout_wf {s0 : State} (h : Memory.wf s0.mem = true) (hu trk host t) :
    EndsWf (execSnoopTimeout hu trk host t s0) := by
  simp only [execSnoopTimeout]
  (repeat' split) <;> simp [h]

@[simp] theorem execInternalRetry_wf {s0 : State} (h : Memory.wf s0.mem = true) (req t) :
    EndsWf (execInternalRetry req t s0) := by
  simp only [execInternalRetry]
  split <;> simp [h]

@[simp] theorem execDirectoryScrub_wf {s : State} (h : Memory.wf s.mem = true) (hu e) : EndsWf (execDirectoryScrub hu e s) := by
  simp only [execDirectoryScrub]
  (repeat' split) <;> simp [h]

@[simp] theorem execAgeingSweep_wf {s0 : State} (h : Memory.wf s0.mem = true) (t) : EndsWf (execAgeingSweep t s0) := by
  simp [execAgeingSweep, h]

@[simp] theorem execEgressDequeue_wf {s0 : State} (h : Memory.wf s0.mem = true) (port t) :
    EndsWf (execEgressDequeue port t s0) := by
  simp only [execEgressDequeue]
  split <;> simp [h]

@[simp] theorem execHbmRefresh_wf {s : State} (h : Memory.wf s.mem = true) (stack channel start) :
    EndsWf (execHbmRefresh stack channel start s) := by simp [execHbmRefresh, h]

@[simp] theorem execLockOverrun_wf {s : State} (h : Memory.wf s.mem = true) (kind inst hu) :
    EndsWf (execLockOverrun kind inst hu s) := by
  simp only [execLockOverrun]
  split <;> simp [h]

@[simp] theorem execArbCounterClear_wf {s : State} (h : Memory.wf s.mem = true) (value) :
    EndsWf (execArbCounterClear value s) := by simp [execArbCounterClear, h]

/-! ### Machine/Firmware -/

@[simp] theorem execFirmwareFallback_wf {s0 : State} (h : Memory.wf s0.mem = true) (t) : EndsWf (execFirmwareFallback t s0) := by
  simp only [execFirmwareFallback]
  (repeat' split) <;> simp [h]

/-! ### Machine/RegWrite -/

@[simp] theorem execRegisterWrite_wf {s : State} (h : Memory.wf s.mem = true) (path off size value) :
    EndsWf (execRegisterWrite path off size value s) := by
  simp only [execRegisterWrite]
  (repeat' split) <;> simp +contextual [h]

@[simp] theorem execLoReadLatch_wf {s : State} (h : Memory.wf s.mem = true) (path off size) :
    EndsWf (execLoReadLatch path off size s) := by simp [execLoReadLatch, h]

/-! ### Machine/Monitor -/

@[simp] theorem execPeek_wf {s : State} (h : Memory.wf s.mem = true) (sp addr n dev) : EndsWf (execPeek sp addr n dev s) := by
  simp [execPeek, h]

@[simp] theorem execPoke_wf {s : State} (h : Memory.wf s.mem = true) (sp addr value dev) :
    EndsWf (execPoke sp addr value dev s) := by simp [execPoke, h]

@[simp] theorem execAtticRing_wf {s : State} (h : Memory.wf s.mem = true) : EndsWf (execAtticRing s) := by simp [execAtticRing, h]

@[simp] theorem execAtticFatal_wf {s : State} (h : Memory.wf s.mem = true) : EndsWf (execAtticFatal s) := by
  simp [execAtticFatal, h]

@[simp] theorem execAtticLog_wf {s : State} (h : Memory.wf s.mem = true) (off len) : EndsWf (execAtticLog off len s) := by
  simp [execAtticLog, h]

@[simp] theorem execStatsPort_wf {s : State} (h : Memory.wf s.mem = true) (p : Byte) :
    EndsWf (execStatsPort p s) := by
  simp [execStatsPort, monStatsPort, h]

@[simp] theorem execStatsLane_wf {s : State} (h : Memory.wf s.mem = true) (n : Byte) :
    EndsWf (execStatsLane n s) := by
  simp [execStatsLane, monStatsLane, h]

@[simp] theorem execStatsOpf_wf {s : State} (h : Memory.wf s.mem = true) (m : Byte) :
    EndsWf (execStatsOpf m s) := by
  simp [execStatsOpf, monStatsOpf, h]

@[simp] theorem execStatsStw_wf {s : State} (h : Memory.wf s.mem = true) (n : Byte) :
    EndsWf (execStatsStw n s) := by
  simp [execStatsStw, monStatsStw, h]

@[simp] theorem execInject_wf {s : State} (h : Memory.wf s.mem = true) (checker arm mask) :
    EndsWf (execInject checker arm mask s) := by simp [execInject, h]

@[simp] theorem execDermel_wf {s : State} (h : Memory.wf s.mem = true) (pkt) : EndsWf (execDermel pkt s) := by
  simp [execDermel, h]

@[simp] theorem execBaud_wf {s : State} (h : Memory.wf s.mem = true) (rate) : EndsWf (execBaud rate s) := by simp [execBaud, h]

@[simp] theorem execBaudChange_wf {s : State} (h : Memory.wf s.mem = true) : EndsWf (execBaudChange s) := by
  simp only [execBaudChange]
  split <;> simp [h]

@[simp] theorem execLifecycle_wf {s : State} (h : Memory.wf s.mem = true) : EndsWf (execLifecycle s) := by simp [execLifecycle, h]

@[simp] theorem execLifecycleAdvance_wf {s : State} (h : Memory.wf s.mem = true) (t) : EndsWf (execLifecycleAdvance t s) := by
  simp [execLifecycleAdvance, h]

@[simp] theorem execLifecycleConfirm_wf {s : State} (h : Memory.wf s.mem = true) (t code) :
    EndsWf (execLifecycleConfirm t code s) := by simp [execLifecycleConfirm, h]

@[simp] theorem execChallengeExpiry_wf {s0 : State} (h : Memory.wf s0.mem = true) (t) : EndsWf (execChallengeExpiry t s0) := by
  simp only [execChallengeExpiry]
  split <;> simp [h]

@[simp] theorem execMonitorLine_wf {s0 : State} (h : Memory.wf s0.mem = true) (line) : EndsWf (execMonitorLine line s0) := by
  simp [execMonitorLine, h]

@[simp] theorem execHearthReturn_wf {s0 : State} (h : Memory.wf s0.mem = true) (t) : EndsWf (execHearthReturn t s0) := by
  simp only [execHearthReturn]
  split <;> simp [h]

/-! ### Machine/Jtag -/

@[simp] theorem execBypass_wf {s : State} (h : Memory.wf s.mem = true) : EndsWf (execBypass s) := by simp [execBypass, h]

@[simp] theorem execIdcode_wf {s : State} (h : Memory.wf s.mem = true) : EndsWf (execIdcode s) := by simp [execIdcode, h]

@[simp] theorem execSamplePreload_wf {s : State} (h : Memory.wf s.mem = true) : EndsWf (execSamplePreload s) := by
  simp [execSamplePreload, h]

@[simp] theorem execExtest_wf {s : State} (h : Memory.wf s.mem = true) : EndsWf (execExtest s) := by simp [execExtest, h]

@[simp] theorem execClamp_wf {s : State} (h : Memory.wf s.mem = true) : EndsWf (execClamp s) := by simp [execClamp, h]

@[simp] theorem execHighz_wf {s : State} (h : Memory.wf s.mem = true) : EndsWf (execHighz s) := by simp [execHighz, h]

@[simp] theorem execDbgAccess_wf {s : State} (h : Memory.wf s.mem = true) (write sp addr value dev) :
    EndsWf (execDbgAccess write sp addr value dev s) := by simp [execDbgAccess, h]

@[simp] theorem execLcAdvance_wf {s0 : State} (h : Memory.wf s0.mem = true) (t) : EndsWf (execLcAdvance t s0) := by
  simp [execLcAdvance, h]

@[simp] theorem execLcAdvanceUpdate_wf {s0 : State} (h : Memory.wf s0.mem = true) (t v) :
    EndsWf (execLcAdvanceUpdate t v s0) := by simp [execLcAdvanceUpdate, h]

@[simp] theorem execMbist_wf {s0 : State} (h : Memory.wf s0.mem = true) : EndsWf (execMbist s0) := by simp [execMbist, h]

@[simp] theorem execFuseProg_wf {s0 : State} (h : Memory.wf s0.mem = true) (floor) : EndsWf (execFuseProg floor s0) := by
  simp [execFuseProg, h]

@[simp] theorem execTapReset_wf {s : State} (h : Memory.wf s.mem = true) : EndsWf (execTapReset s) := by simp [execTapReset, h]

/-! ### Machine/Transport -/

@[simp] theorem execRingEnable_wf {s : State} (h : Memory.wf s.mem = true) (path ring on) :
    EndsWf (execRingEnable path ring on s) := by simp [execRingEnable, h]

@[simp] theorem execDoorbell_wf {s : State} (h : Memory.wf s.mem = true) (ring value pkts) :
    EndsWf (execDoorbell ring value pkts s) := by simp [execDoorbell, h]

@[simp] theorem execHearthTurn_wf {s0 : State} (h : Memory.wf s0.mem = true) : EndsWf (execHearthTurn s0) := by
  simp only [execHearthTurn]
  (repeat' split) <;> simp [h]

@[simp] theorem execKrarinVendorCommand_wf {s : State} (h : Memory.wf s.mem = true) (src opcode pkt) :
    EndsWf (execKrarinVendorCommand src opcode pkt s) := by
  simp only [execKrarinVendorCommand]
  (repeat' split) <;> simp [h]

/-! ### Machine/Complete -/

@[simp] theorem execCommandCompletion_wf {s : State} (h : Memory.wf s.mem = true) (id : Nat) (e : WorkEnd) :
    EndsWf (execCommandCompletion id e s) := by
  simp only [execCommandCompletion]
  split
  · simp [h]
  rename_i p0 _
  have hcarry := State.carryOn_wf h p0.work
  split
  · simp [h]
  split
  · simp [h]
  split
  · simp [hcarry]
  · split
    · have hend := State.endWork_wf ‹_› hcarry
      simp [hend]
    · split <;> simp [hcarry]

/-! ## A step -/

/-- Every meaning keeps the memory canonical: a Dermel row by its command, every other row by its own function. -/
theorem exec_endsWf {s : State} (h : Memory.wf s.mem = true) (i : Instr) : EndsWf (exec i s) := by
  cases hrow : rowCmd i with
  | some p =>
    rw [exec_rowCmd (h := p.1) (c := p.2) hrow s]
    exact State.dermel_wf h p.1 (rowCmd_keepsWf hrow)
  | none =>
    cases i
    any_goals contradiction
    all_goals simp [exec, h]

theorem step_endsWf {s : State} (h : Memory.wf s.mem = true) : EndsWf (step s) := by
  cases hq : s.pending with
  | nil => simp [step_of_pending_nil hq, h]
  | cons i rest =>
    rw [step_of_pending_cons hq]
    exact exec_endsWf (s := { s with pending := rest }) h i

end Sys2Proof.Machine

namespace Sys2Proof.Proofs
open Sys2Proof Sys2Proof.Machine

/-- Settles O48: every function of the model leaves the memory as it was or writes it through the canonical writes; the rows
are put together from their lemmas. -/
theorem everyStepKeepsMemoryCanonical : Obligations.EveryStepKeepsMemoryCanonical :=
  fun _ t h ht => step_endsWf h t ht

end Sys2Proof.Proofs
end

section
/-! The commands of group 06xxh that set and read a port's queues, buckets and time gates (R237 to R253, R432, R437). -/

namespace Sys2Proof.Machine

/-! ## The port that a command names (R563) -/

theorem State.noPort_of_port {s : State} {p : Nat} (h : p < 64 ∧ s.portExists p = true) : s.noPort p = false := by
  obtain ⟨hlt, hexists⟩ := h
  rw [State.noPort, hexists, decide_eq_false (Nat.not_le.2 hlt)]
  rfl

/-- Check 8 of a command whose one parameter is a port. -/
theorem State.firstBad_port {s : State} {p : Nat} (h : p < 64 ∧ s.portExists p = true) : firstBad [(s.noPort p, 0)] = none :=
  firstBad_none.2 (List.forall_mem_singleton.2 (State.noPort_of_port h))

/-! ## QOS_PORT_SET (R252, R253) -/

/-- Each parameter that VALID selects is in its range of R253; one that it does not select is not looked at. -/
theorem cmdQosPortSet_bad {s : State} {port valid cbs pbs en : Nat} {qmap : Word} {quanta : List B16}
    (hport : port < 64 ∧ s.portExists port = true) (hvalid : valid < 32)
    (hqmap : bitOf valid 0 = true → qmap.toNat < 2 ^ 18)
    (hquanta : bitOf valid 1 = true → ∀ i < 6, 1 ≤ (quanta.getD i 0).toNat ∧ (quanta.getD i 0).toNat ≤ 4095)
    (hcbs : bitOf valid 2 = true → 4096 ≤ cbs ∧ cbs ≤ 16777216) (hpbs : bitOf valid 3 = true → 4096 ≤ pbs ∧ pbs ≤ 16777216)
    (hen : bitOf valid 4 = true → en ≤ 1) : (cmdQosPortSet port valid qmap quanta cbs pbs en).bad s = none := by
  refine firstBad_none.2 ?_
  simp only [List.forall_mem_append, List.forall_mem_cons, List.forall_mem_map, List.mem_range, Bool.and_eq_false_imp]
  refine ⟨⟨⟨State.noPort_of_port hport, decide_eq_false (Nat.not_le.2 hvalid), ?qmap, nofun⟩, ?quanta⟩, ?cbs, ?pbs, ?en, nofun⟩
  case qmap => exact fun h => decide_eq_false (Nat.not_le.2 (hqmap h))
  case quanta =>
    intro i hi h
    obtain ⟨hlow, hhigh⟩ := hquanta h i hi
    simp only [Bool.or_eq_false_iff, decide_eq_false_iff_not]
    omega
  case cbs => exact fun h => by simp [hcbs h]
  case pbs => exact fun h => by simp [hpbs h]
  case en => exact fun h => decide_eq_false (Nat.not_lt.2 (hen h))

/-! ## Gate schedules (R242 to R251) -/

/-- Size, cycle and each entry word are in their ranges of R242 and R243. -/
theorem cmdGateWrite_bad {s : State} {bank : Bool} {port cycle base : Nat} {entries : List B64}
    (hport : port < 64 ∧ s.portExists port = true) (hsize : entries.length ≤ 64) (hcycle : 1000 ≤ cycle ∧ cycle ≤ 1000000000)
    (hentries : entries.all (fun e => 10 ≤ bitsOf e.toNat 0 30 && bitsOf e.toNat 30 2 == 0 && bitsOf e.toNat 40 24 == 0) = true) :
    (cmdGateWrite bank port cycle base entries).bad s = none := by
  refine firstBad_none.2 ?_
  simp only [List.forall_mem_append, List.forall_mem_cons, List.forall_mem_map, List.mem_range]
  refine ⟨⟨State.noPort_of_port hport, decide_eq_false (Nat.not_lt.2 hsize), ?cycle, nofun⟩, ?entry⟩
  case cycle =>
    simp only [Bool.or_eq_false_iff, decide_eq_false_iff_not]
    omega
  case entry =>
    intro i hi
    have hentry := List.all_eq_true.1 hentries _ (List.getElem_mem hi)
    simpa [List.getD, hi, and_assoc] using hentry

/-- A schedule that is empty, or fills its cycle and opens a gate for each queue, is put into the bank that is not active, while no swap
is staged (R243, R249). -/
theorem cmdGateWrite_run {s : State} {bank : Bool} {port cycle base : Nat} {entries : List B64} {b : GateBank}
    (hb : b = { base := base, cycle := cycle, entries := entries.map fun e => gateOfWord e.toNat })
    (hfills : b.entries = [] ∨ (b.entries.foldl (fun n e => n + e.1) 0 = cycle ∧
      (List.range 8).all (fun q => b.entries.any fun e => bitOf e.2 q) = true))
    (hother : (s.port port).gateAct ≠ bank) (hnone : (s.port port).gateT = none) :
    (cmdGateWrite bank port cycle base entries).run s =
      .ok [] (s.mapPort port fun y => if bank then { y with gate1 := b } else { y with gate0 := b }) := by
  have hes : entries.map (fun e => gateOfWord e.toNat) = b.entries := by rw [hb]
  have hcycle : (!b.entries.isEmpty && b.entries.foldl (fun n e => n + e.1) 0 != cycle) = false := by
    rcases hfills with hempty | ⟨hsum, -⟩
    · simp [hempty]
    · simp [hsum]
  have hopens : (!b.entries.isEmpty && (List.range 8).any fun q => b.entries.all fun e => !bitOf e.2 q) = false := by
    rcases hfills with hempty | ⟨-, hall⟩
    · simp [hempty]
    · simp only [← List.not_any_eq_all_not, ← List.not_all_eq_any_not, hall, Bool.not_true, Bool.and_false]
  simp only [cmdGateWrite, hes, hcycle, hopens, beq_false_of_ne hother, hnone, Option.isSome_none, Bool.false_eq_true, if_false]
  rw [hb]

/-- The instant lies ahead within the bound of R249, and the mask names ports, all of which exist. -/
theorem cmdGateCommit_bad {s : State} {t mask : Nat} (ht : s.now + 100000 ≤ t ∧ t ≤ s.now + 2 ^ 40)
    (hsome : ∃ p < 64, bitOf mask p = true) (hexist : ∀ p < 64, bitOf mask p = true → s.portExists p = true) :
    (cmdGateCommit t mask).bad s = none := by
  refine firstBad_none.2 ?_
  simp only [List.forall_mem_cons, Bool.or_eq_false_iff, List.any_eq_false, List.mem_filter, List.mem_range]
  refine ⟨?instant, ⟨?some, ?exist⟩, nofun⟩
  case instant =>
    simp only [decide_eq_false_iff_not]
    omega
  case some =>
    obtain ⟨p, hp, hbit⟩ := hsome
    exact List.isEmpty_eq_false_iff_exists_mem.2 ⟨p, List.mem_filter.2 ⟨List.mem_range.2 hp, hbit⟩⟩
  case exist =>
    rintro p ⟨hp, hbit⟩
    exact ne_true_of_eq_false (State.noPort_of_port ⟨hp, hexist p hp hbit⟩)

/-- With the other bank of each port due by the instant and no swap staged, the swap of them all is staged (R249). -/
theorem cmdGateCommit_run {s : State} {t mask : Nat} {ports : List Nat}
    (hports : ports = (List.range 64).filter fun p => bitOf mask p)
    (hready : ports.all (fun p =>
      decide (((s.port p).bank (!(s.port p).gateAct)).base ≤ t) && (s.port p).gateT.isNone) = true) :
    (cmdGateCommit t mask).run s = .pending (.gateCommit t mask) []
      (ports.foldl (fun a p => a.mapPort p fun x => { x with gateT := some t }) s) := by
  simp only [List.all_eq_true, Bool.and_eq_true, decide_eq_true_eq, Option.isNone_iff_eq_none] at hready
  have hdue : ports.any (fun p => t < ((s.port p).bank (!(s.port p).gateAct)).base) = false :=
    List.any_eq_false.2 fun p hp => by simpa using (hready p hp).1
  have hfree : ports.any (fun p => (s.port p).gateT.isSome) = false :=
    List.any_eq_false.2 fun p hp => by simp [(hready p hp).2]
  simp only [cmdGateCommit, ← hports, hdue, hfree, Bool.false_eq_true, if_false]

end Sys2Proof.Machine

namespace Sys2Proof.Proofs

open Sys2Proof Sys2Proof.Machine

/-- Settles O6: each command is accepted, and its own rules answer or stage the swap as the clause says. -/
theorem schedulingCommandsComplete : Obligations.SchedulingCommandsComplete := by
  unfold Obligations.SchedulingCommandsComplete
  refine ⟨?set, ?query, ?write, ?read, ?commit, ?status⟩
  case set =>
    intro s h port valid qmap quanta cbs pbs en hs hport hvalid hqmap hquanta hcbs hpbs hen
    have hbad := cmdQosPortSet_bad hport hvalid hqmap hquanta hcbs hpbs hen
    exact ⟨_, _, _, _, _, _,
      exec_answers (c := cmdQosPortSet port.toNat valid.toNat qmap quanta cbs.toNat pbs.toNat en.toNat) rfl
        (accepts_of_serves hs id hbad nofun rfl rfl) rfl, rfl, rfl, rfl, rfl, rfl, rfl⟩
  case query =>
    intro s h port hs hport
    exact exec_answers (c := cmdQosPortQuery port.toNat) rfl
      (accepts_of_serves hs id (State.firstBad_port hport) nofun rfl rfl) rfl
  case write =>
    intro s h port cycle base entries b hs hport ⟨hsize, hcycle⟩ hentries hb hfills hother hnone
    exact exec_answers (c := cmdGateWrite h.bank port.toNat cycle.toNat base.toNat entries) rfl
      (serves_accepts hs id rfl nofun nofun (cmdGateWrite_bad hport hsize hcycle hentries) rfl)
      (cmdGateWrite_run hb hfills hother hnone)
  case read =>
    rintro s h port b hs hport rfl
    exact exec_answers (c := cmdGateRead h.bank port.toNat) rfl
      (serves_accepts hs id rfl nofun nofun (State.firstBad_port hport) rfl) rfl
  case commit =>
    intro s h instant mask hs hinstant hsome hexist hp hready
    exact exec_waits (c := cmdGateCommit instant.toNat mask.toNat) rfl
      (accepts_of_serves hs id (cmdGateCommit_bad hinstant hsome hexist) nofun rfl rfl) hp (cmdGateCommit_run rfl hready)
  case status =>
    intro s h port hs hport
    exact exec_answers (c := cmdGateStatus port.toNat) rfl
      (accepts_of_serves hs id (State.firstBad_port hport) nofun rfl rfl) rfl

end Sys2Proof.Proofs
end

section
/-! Refresh of an HBM channel, the bound on a lock and the arbiter counters (R188 to R195). -/

namespace Sys2Proof.Machine

/-- Refresh that takes a channel is a grant of requester 10 at the channel's arbiter (R188, R192). -/
theorem exec_hbmRefresh_start {s : State} {stack : Stack} {channel : BitVec 4}
    (hidle : s.home.refresh.contains (stack.toNat * 16 + channel.toNat) = false) :
    exec (.hbmRefresh stack channel true) s = .next ((s.mapHome fun h =>
      { h with refresh := (stack.toNat * 16 + channel.toNat) :: h.refresh }).countArb 2 (stack.toNat * 16 + channel.toNat) 10 []) := by
  change execHbmRefresh stack channel true s = _
  simp only [execHbmRefresh, State.mapHome, hidle, Bool.false_eq_true, if_false, if_true]

/-- A lock that is still held is released, counted and recorded; one that is free again is left alone (R193). -/
theorem exec_lockOverrun (s : State) (kind : BitVec 2) (inst : Byte) (hu : Hu) :
    exec (.lockOverrun kind inst hu) s = .next (
      if s.lockHeld kind.toNat inst.toNat then
        (((s.unlock kind.toNat inst.toNat).bump XBR_LOCK_STAT_fOVR_CNT).setFld XBR_LOCK_STAT_fOVR_SEEN 1).record
          { checker := 0x4600, source := srcHome, unit := hu.toNat, payload := kind.toNat + inst.toNat * 256 }
      else s) := by
  change execLockOverrun kind inst hu s = _
  cases hheld : s.lockHeld kind.toNat inst.toNat with
  | true => simp only [execLockOverrun, hheld, Bool.not_true, Bool.false_eq_true, if_false, if_true]
  | false => simp only [execLockOverrun, hheld, Bool.not_false, Bool.false_eq_true, if_false, if_true]

end Sys2Proof.Machine

namespace Sys2Proof.Proofs

open Sys2Proof Sys2Proof.Machine

/-- Settles O24: refresh, the overrun and the counters, each by its row; a lock is overrun exactly if it is still held. -/
theorem arbiterCountersAndHbmRefreshComplete : Obligations.ArbiterCountersAndHbmRefreshComplete := by
  unfold Obligations.ArbiterCountersAndHbmRefreshComplete
  refine ⟨fun _ _ _ => exec_hbmRefresh_start, fun _ _ _ => rfl, ?held, ?free, fun _ _ => rfl⟩
  case held =>
    intro s kind inst hu hheld
    rw [exec_lockOverrun, if_pos hheld]
  case free =>
    intro s kind inst hu hfree
    rw [exec_lockOverrun, if_neg (ne_true_of_eq_false hfree)]

end Sys2Proof.Proofs
end

section
/-! The commands of group 03xxh that make, size, fill, read and end Rooms (R197 to R205, R436). -/

namespace Sys2Proof.Machine

/-! ## The Room that a command names (R563) -/

theorem State.noRoom_of_local {s : State} {froom r : Nat} (hlocal : s.localRoom froom = some r) : s.noRoom froom = false := by
  rw [State.noRoom, hlocal]
  rfl

/-- Check 8 of a command whose one parameter is a fabric Room ID. -/
theorem State.firstBad_room {s : State} {froom r : Nat} (hlocal : s.localRoom froom = some r) :
    firstBad [(s.noRoom froom, 0)] = none :=
  firstBad_none.2 (List.forall_mem_singleton.2 (State.noRoom_of_local hlocal))

/-! ## Making a Room (R197, R198, R202) -/

theorem cmdRoomCreate_bad {s : State} {froom hmax : Nat} {a : Allot} {rs : List RateEntry} (hhmax : 1 ≤ hmax ∧ hmax ≤ 4096)
    (hallot : s.allotOk a) (hrates : s.ratesOk rs) : (cmdRoomCreate froom hmax a rs).bad s = none := by
  obtain ⟨hsome, hmost⟩ := hhmax
  have hlist : (decide (hmax = 0) || decide (4096 < hmax)) = false := by
    rw [Bool.or_eq_false_iff, decide_eq_false_iff_not, decide_eq_false_iff_not]
    omega
  simp only [cmdRoomCreate, firstBad, hlist, badAllot_none.2 hallot, badRate_none hrates, Bool.false_eq_true, if_false]

/-- An ID that is not in use gives a Room with the lowest free local number, where pools and ports have what it asks. -/
theorem cmdRoomCreate_run {s : State} {froom hmax r : Nat} {a : Allot} {rs : List RateEntry} (hnew : s.localRoom froom = none)
    (hr : r = leastFree (s.pool.rooms.map (·.1)) 65 1) (hfree : r ≤ 63) (hpools : s.poolsFit r (allotShare a) = true)
    (hports : s.ratesFit r (putRates [] rs) rs = true) :
    (cmdRoomCreate froom hmax a rs).run s =
      let x : Room := { fid := froom, share := allotShare a, hmax := hmax, rates := putRates [] rs }
      .ok (leBytes 4 r) (((s.mapPool fun p => { p with rooms := NMap.set p.rooms r x }).fitChans r a.mover.toNat).notice ntcRoomNew
        (leBytes 1 froom)) := by
  simp only [cmdRoomCreate, hnew, ← hr, decide_eq_false (Nat.not_lt.2 hfree), hpools, hports, Option.isSome_none, Bool.not_true,
    Bool.or_self, Bool.false_eq_true, if_false]
  rfl

/-! ## Resizing a Room (R203) -/

/-- Each pool allotment of `n` that VALID selects is at least the Room's use `u` of that pool. -/
abbrev Share.coversNamed (n u : Share) (valid : Nat) : Prop :=
  (bitOf valid 0 → u.tracker ≤ n.tracker) ∧ (bitOf valid 1 → u.dir ≤ n.dir) ∧ (bitOf valid 2 → u.pan ≤ n.pan) ∧
    (bitOf valid 3 → u.vst ≤ n.vst)

theorem Share.coversNamed_iff {n u : Share} {valid : Nat} :
    ((!bitOf valid 0 || decide (u.tracker ≤ n.tracker)) && (!bitOf valid 1 || decide (u.dir ≤ n.dir)) &&
      (!bitOf valid 2 || decide (u.pan ≤ n.pan)) && (!bitOf valid 3 || decide (u.vst ≤ n.vst))) = true ↔ n.coversNamed u valid := by
  simp only [Share.coversNamed, Bool.and_eq_true, Bool.or_eq_true, Bool.not_eq_true', ← Bool.not_eq_true, decide_eq_true_eq,
    imp_iff_not_or, and_assoc]

/-- The new allotments and rates of a Room in force, with `held` of the old ones still held back, its Mover channels and the credits of
its ports brought to them. -/
def State.resized (s : State) (r : Nat) (n : Share) (m : NMap (Nat × Nat)) (held : Room → Share) : State :=
  ((s.mapRoom r fun y => { y with share := n, rates := m, held := held y }).fitChans r n.mover).refillRoom r

theorem cmdRoomResize_bad {s : State} {froom valid r : Nat} {a : Allot} {rs : List RateEntry} (hlocal : s.localRoom froom = some r)
    (hvalid : valid < 512 ∧ bitOf valid 7 = false) (hallot : s.allotOk (allotPicked a valid))
    (hrates : bitOf valid 8 = true → s.ratesOk rs) : (cmdRoomResize froom valid a rs).bad s = none := by
  obtain ⟨hlt, hreserved⟩ := hvalid
  simp only [cmdRoomResize, firstBad, State.noRoom_of_local hlocal, hreserved, decide_eq_false (Nat.not_le.2 hlt), Bool.or_self,
    Bool.false_eq_true, if_false, badAllot_none.2 hallot, ite_eq_right_iff]
  exact fun h => badRate_none (hrates h)

/-- Within pools, port rates and the use of what is never held back, a resize that covers the use of the pools is done at once; another
waits with the old allotments held back. -/
theorem cmdRoomResize_run {s : State} {froom valid r : Nat} {a : Allot} {rs : List RateEntry} {x : Room} {n : Share}
    {m : NMap (Nat × Nat)} (hlocal : s.localRoom froom = some r) (hroom : s.room? r = some x) (hn : n = allotOver a valid x.share)
    (hm : m = if bitOf valid 8 then putRates x.rates rs else x.rates) (hpools : s.poolsFit r n = true)
    (hports : (!bitOf valid 8 || s.ratesFit r m rs) = true) (hidle : s.busyWith (· == .roomResize r) = false)
    (huse : (s.roomUse r).mover ≤ n.mover ∧ (s.roomUse r).slices ≤ n.slices ∧ (s.roomUse r).rules ≤ n.rules) :
    (cmdRoomResize froom valid a rs).run s =
      if n.coversNamed (s.roomUse r) valid then .ok [] (s.resized r n m fun _ => {})
      else .pending (.roomResize r) [] (s.resized r n m fun y => y.share) := by
  obtain ⟨hmover, hslices, hrules⟩ := huse
  have hrates : (bitOf valid 8 && !s.ratesFit r m rs) = false := by
    rwa [Bool.and_eq_false_iff, Bool.not_eq_false', ← Bool.not_eq_true', ← Bool.or_eq_true]
  simp only [cmdRoomResize, hlocal, hroom, ← hn, ← hm, hpools, hrates, hidle, decide_eq_false (Nat.not_lt.2 hmover),
    decide_eq_false (Nat.not_lt.2 hslices), decide_eq_false (Nat.not_lt.2 hrules), Bool.not_true, Bool.or_self, Bool.false_eq_true,
    if_false, Share.coversNamed_iff]
  by_cases hcovers : n.coversNamed (s.roomUse r) valid
  · simp only [if_pos hcovers, State.resized]
  · simp only [if_neg hcovers, State.resized]

/-! ## Hosts (R200) -/

theorem cmdRoomHostAdd_run {s : State} {froom host r pos : Nat} {x : Room} (hlocal : s.localRoom froom = some r)
    (hroom : s.room? r = some x) (hnew : s.pool.rooms.all (fun p => p.2.hosts.all fun q => q.2 != host) = true)
    (hpos : s.freePos r x = some pos) :
    (cmdRoomHostAdd froom host).run s = .ok (leBytes 4 pos) (s.mapRoom r fun y => { y with
      hosts := NMap.set y.hosts pos host, heldPos := y.heldPos.filter (· != pos) }) := by
  have hnone : s.pool.rooms.any (fun p => p.2.hosts.any fun q => q.2 == host) = false := by
    simpa only [List.any_eq_not_all_not, Bool.not_not, bne, Bool.not_eq_false'] using hnew
  simp only [cmdRoomHostAdd, hlocal, hroom, hnone, hpos, Option.bind_some, Bool.false_eq_true, if_false]

/-- The Room and the host in its list, as ROOM_HOST_REMOVE asks for them. -/
theorem cmdRoomHostRemove_bad {s : State} {froom host r : Nat} {x : Room} (hlocal : s.localRoom froom = some r)
    (hroom : s.room? r = some x) (hlisted : x.hosts.any (fun q => q.2 == host) = true) :
    (cmdRoomHostRemove froom host).bad s = none :=
  firstBad_none.2 (by simp [State.noRoom_of_local hlocal, hlocal, hroom, hlisted])

theorem cmdRoomHostRemove_room {s : State} {froom host fid r : Nat} {x : Room} (hlocal : s.localRoom froom = some r)
    (hroom : s.room? r = some x) (hlisted : x.hosts.any (fun q => q.2 == host) = true) (hfid : (fid == froom) = true) :
    (cmdRoomHostRemove froom host).room s fid = true := by
  simp only [cmdRoomHostRemove, State.ownRoom_of_local hlocal hfid, hlocal, hroom, hlisted, Option.bind_some, Bool.and_self]

theorem cmdRoomHostRemove_run {s : State} {froom host r : Nat} (hlocal : s.localRoom froom = some r)
    (hunbound : s.pool.wins.all (fun w => w.2.room != r || w.2.binds.all fun b => b.host != host) = true)
    (hunsliced : s.pool.slices.all (fun p => p.2.room != r || p.2.host != host) = true) :
    (cmdRoomHostRemove froom host).run s = .ok [] (s.mapRoom r fun y => { y with
      heldPos := ((y.hosts.filter fun q => q.2 == host).map fun q => q.1) ++ y.heldPos
      hosts := y.hosts.filter fun q => q.2 != host }) := by
  have hwin : s.pool.wins.any (fun w => w.2.room == r && w.2.binds.any fun b => b.host == host) = false := by
    simpa only [List.any_eq_not_all_not, Bool.not_and, Bool.not_not, bne, Bool.not_eq_false'] using hunbound
  have hslice : s.pool.slices.any (fun p => p.2.room == r && p.2.host == host) = false := by
    simpa only [List.any_eq_not_all_not, Bool.not_and, bne, Bool.not_eq_false'] using hunsliced
  simp only [cmdRoomHostRemove, hlocal, hwin, hslice, Bool.or_self, Bool.false_eq_true, if_false]

/-! ## Ports (R201) -/

section
variable {s : State} {froom port add r : Nat}

/-- A port to be taken from a Room has to be in one. -/
theorem cmdRoomPortAssign_bad (hlocal : s.localRoom froom = some r) (hexists : s.portExists port = true) (hadd : add ≤ 1)
    (hheld : add = 0 → (s.port port).room ≠ none) : (cmdRoomPortAssign froom port add).bad s = none := by
  refine firstBad_none.2 ?_
  simp only [List.forall_mem_cons, State.noRoom_of_local hlocal, hexists, Bool.not_true, Bool.false_or, Bool.and_eq_false_imp,
    beq_iff_eq, decide_eq_false (Nat.not_lt.2 hadd), true_and]
  exact ⟨fun h => Option.isNone_eq_false_iff.2 (Option.isSome_iff_ne_none.2 (hheld h)), nofun⟩

variable (hlocal : s.localRoom froom = some r) (hrole : s.role port ≠ rolePool ∧ s.role port ≠ roleFabric)
include hlocal hrole

theorem cmdRoomPortAssign_run_free (hfree : (s.port port).room = none) :
    (cmdRoomPortAssign froom port 1).run s =
      .ok [] (((s.mapPort port fun x => { x with room := some r }).dropRet port).refill port) := by
  simp [cmdRoomPortAssign, hlocal, hrole, hfree]

theorem cmdRoomPortAssign_run_held (hheld : (s.port port).room = some r) : (cmdRoomPortAssign froom port 1).run s = .ok [] s := by
  simp [cmdRoomPortAssign, hlocal, hrole, hheld]

theorem cmdRoomPortAssign_run_taken (hheld : (s.port port).room = some r) (hcarries : s.carries port = false) :
    (cmdRoomPortAssign froom port 0).run s = .ok [] ((s.mapPort port fun x => { x with room := none }).dropRet port) := by
  simp [cmdRoomPortAssign, hlocal, hrole, hheld, hcarries]

end

/-! ## The end of a Room and its record (R204, R205) -/

theorem cmdRoomDestroy_run {s : State} {froom r : Nat} (hlocal : s.localRoom froom = some r) :
    (cmdRoomDestroy froom).run s = .pending (.roomDestroy r) [] (s.teardown r) := by
  simp only [cmdRoomDestroy, hlocal]

theorem cmdRoomQuery_bad {s : State} {froom first n r : Nat} {x : Room} (hlocal : s.localRoom froom = some r)
    (hroom : s.room? r = some x) (hfirst : first < x.hmax ∧ n ≤ 2000) : (cmdRoomQuery froom first n).bad s = none :=
  firstBad_none.2 (by simp [State.noRoom_of_local hlocal, hlocal, hroom, hfirst])

theorem cmdRoomQuery_run {s : State} {froom first n r : Nat} {x : Room} (hlocal : s.localRoom froom = some r)
    (hroom : s.room? r = some x) :
    (cmdRoomQuery froom first n).run s = .ok
      (leBytes 1 r ++ leBytes 1 (if x.st = .active then 1 else 2) ++ leBytes 2 x.hmax ++ x.share.bytes ++ (s.roomUse r).bytes ++
        leBytes 4 (Nat.min n (x.hmax - first)) ++
        (((List.range (Nat.min n (x.hmax - first))).flatMap fun i => leBytes 2 ((NMap.get? x.hosts (first + i)).getD 0xFFFF)) ++
          leBytes (2 * (Nat.min n (x.hmax - first) % 2)) 0)) s := by
  simp only [cmdRoomQuery, hlocal, hroom, beq_iff_eq, List.append_assoc]

end Sys2Proof.Machine

namespace Sys2Proof.Proofs

open Sys2Proof Sys2Proof.Machine

/-- Settles O2: each command is accepted, and its own rules make, change, read or end the Room as the clause says. -/
theorem roomCommandsComplete : Obligations.RoomCommandsComplete := by
  unfold Obligations.RoomCommandsComplete
  refine ⟨?create, ?resize, ?hostAdd, ?hostRemove, ?portFree, ?portTaken, ?portHeld, ?destroy, ?query⟩
  case create =>
    rintro s h froom hmax a rates r x hs hhmax hallot hrates hnew hr hfree hpools hports rfl
    exact exec_answers (c := cmdRoomCreate froom.toNat hmax.toNat a rates) rfl
      (accepts_of_serves hs nofun (cmdRoomCreate_bad hhmax hallot hrates) nofun rfl rfl)
      (cmdRoomCreate_run hnew hr hfree hpools hports)
  case resize =>
    intro s h froom valid a rates r x n m hs hvalid hallot hrates hopen hp hlocal hroom hn hm hpools hports hidle huse
    have haccepts : s.accepts h (cmdRoomResize froom.toNat valid.toNat a rates) = true :=
      accepts_of_serves hs nofun (cmdRoomResize_bad hlocal hvalid hallot hrates) (List.forall_mem_singleton.2 hopen) rfl rfl
    have hrun := cmdRoomResize_run hlocal hroom hn hm hpools hports hidle huse
    split
    next hcovers => exact exec_answers rfl haccepts (hrun.trans (if_pos hcovers))
    next hshort => exact exec_waits rfl haccepts hp (hrun.trans (if_neg hshort))
  case hostAdd =>
    intro s h froom host r x pos hs hhost hopen hlocal hroom hnew hpos
    have hbad : (cmdRoomHostAdd froom.toNat host.toNat).bad s = none :=
      firstBad_none.2 (by simp [State.noRoom_of_local hlocal, hhost])
    exact exec_answers (c := cmdRoomHostAdd froom.toNat host.toNat) rfl
      (accepts_of_serves hs (State.ownRoom_of_local hlocal) hbad (List.forall_mem_singleton.2 hopen) rfl rfl)
      (cmdRoomHostAdd_run hlocal hroom hnew hpos)
  case hostRemove =>
    intro s h froom host r x hs hopen hlocal hroom hlisted hunbound hunsliced
    exact exec_answers (c := cmdRoomHostRemove froom.toNat host.toNat) rfl
      (accepts_of_serves hs (cmdRoomHostRemove_room hlocal hroom hlisted) (cmdRoomHostRemove_bad hlocal hroom hlisted)
        (List.forall_mem_singleton.2 hopen) rfl rfl)
      (cmdRoomHostRemove_run hlocal hunbound hunsliced)
  case portFree =>
    intro s h froom port add r hs hexists hopen hlocal hrole hfree hadd
    have hbad := cmdRoomPortAssign_bad hlocal hexists hadd.le (by omega)
    exact exec_answers (c := cmdRoomPortAssign froom.toNat port.toNat add.toNat) rfl
      (accepts_of_serves hs nofun hbad (List.forall_mem_singleton.2 hopen) rfl rfl)
      (hadd ▸ cmdRoomPortAssign_run_free hlocal hrole hfree)
  case portTaken =>
    intro s h froom port add r hs hexists hopen hlocal hrole hheld hadd hcarries
    have hbad := cmdRoomPortAssign_bad hlocal hexists (hadd.trans_le zero_le_one) (fun _ => by simp [hheld])
    exact exec_answers (c := cmdRoomPortAssign froom.toNat port.toNat add.toNat) rfl
      (accepts_of_serves hs nofun hbad (List.forall_mem_singleton.2 hopen) rfl rfl)
      (hadd ▸ cmdRoomPortAssign_run_taken hlocal hrole hheld hcarries)
  case portHeld =>
    intro s h froom port add r hs hexists hopen hlocal hrole hheld hadd
    have hbad := cmdRoomPortAssign_bad hlocal hexists hadd.le (by omega)
    exact exec_answers (c := cmdRoomPortAssign froom.toNat port.toNat add.toNat) rfl
      (accepts_of_serves hs nofun hbad (List.forall_mem_singleton.2 hopen) rfl rfl)
      (hadd ▸ cmdRoomPortAssign_run_held hlocal hrole hheld)
  case destroy =>
    intro s h froom r hs hother hopen hp hlocal
    have hbad : (cmdRoomDestroy froom.toNat).bad s = none :=
      firstBad_none.2 (by simp [State.noRoom_of_local hlocal, hother])
    exact exec_waits (c := cmdRoomDestroy froom.toNat) rfl
      (accepts_of_serves hs nofun hbad (List.forall_mem_singleton.2 hopen) rfl rfl) hp (cmdRoomDestroy_run hlocal)
  case query =>
    intro s h froom first n r x hs hfirst hlocal hroom
    exact ⟨_, exec_answers (c := cmdRoomQuery froom.toNat first.toNat n.toNat) rfl
      (accepts_of_serves hs (State.ownRoom_of_local hlocal) (cmdRoomQuery_bad hlocal hroom hfirst) nofun rfl rfl)
      (cmdRoomQuery_run hlocal hroom), rfl⟩

end Sys2Proof.Proofs
end

section
/-! The commands of group 03xxh that make, end and read slices, and those of group 05xxh on the access rules of a Room (R206, R211 to R213,
R221 to R227, R436, R437). -/

namespace Sys2Proof.Machine

/-! ## Slices (R206, R211) -/

section
variable {s : State} {w host pasid : Nat} {x : Window} {b : Binding}

theorem cmdSliceCreate_bad (hwin : s.win? w = some x) (hbind : x.bind? host = some b) (hpasid : bitsOf pasid 20 11 = 0) :
    (cmdSliceCreate w host pasid).bad s = none :=
  firstBad_none.2 (by simp [State.noWin_of_win hwin, State.noBind_of_bind hwin hbind, hpasid])

theorem cmdSliceCreate_room {fid : Nat} (hwin : s.win? w = some x) (hbind : x.bind? host = some b) (hroom : s.winRoom w fid = true) :
    (cmdSliceCreate w host pasid).room s fid = true := by
  simp only [cmdSliceCreate, hroom, State.noBind_of_bind hwin hbind, Bool.not_false, Bool.and_self]

/-- For a BOUND host that holds no slice with the PASID, the slice takes the lowest free number and page index. -/
theorem cmdSliceCreate_run {p : Option Nat} {mine : List (Nat × Slice)} {n page : Nat} (hwin : s.win? w = some x)
    (hbind : x.bind? host = some b) (hbound : b.st = .bound) (hopen : s.closing x.room = false)
    (hp : p = if bitOf pasid 31 then none else some (pasid % 2 ^ 20))
    (hmine : mine = s.pool.slices.filter fun q => q.2.window == w && q.2.host == host)
    (hnew : mine.all (fun q => q.2.pasid != p) = true)
    (hfree : s.roomSlices x.room < (s.share x.room).slices ∧ mine.length < 256)
    (hn : n = leastFree (s.pool.slices.map (·.1)) 1025 0) (hpage : page = leastFree (mine.map fun q => q.2.page) 257 0) :
    (cmdSliceCreate w host pasid).run s = .ok (leBytes 2 n ++ leBytes 2 page) (s.mapPool fun q => { q with
      slices := NMap.set q.slices n { room := x.room, window := w, host := host, pasid := p, page := page } }) := by
  obtain ⟨hallot, hpages⟩ := hfree
  have hnone : mine.any (fun q => q.2.pasid == p) = false := by
    simpa only [List.any_eq_not_all_not, bne, Bool.not_eq_false'] using hnew
  simp only [cmdSliceCreate, hwin, hbind, hbound, hopen, ← hp, ← hmine, hnone, ← hn, ← hpage,
    decide_eq_false (Nat.not_le.2 hallot), decide_eq_false (Nat.not_le.2 hpages), bne_self_eq_false, Bool.or_self,
    Bool.false_eq_true, if_false]

end

theorem cmdSliceDestroy_bad {s : State} {n : Nat} (hslice : (NMap.get? s.pool.slices n).isSome = true) :
    (cmdSliceDestroy n).bad s = none :=
  firstBad_none.2 (List.forall_mem_singleton.2 (Option.isNone_eq_false_iff.2 hslice))

theorem cmdSliceQuery_run {s : State} {n : Nat} {x : Slice} (hslice : NMap.get? s.pool.slices n = some x) :
    (cmdSliceQuery n).run s = .ok (leBytes 2 x.window ++ leBytes 2 x.host ++ leBytes 4 (x.pasid.getD (2 ^ 31)) ++ leBytes 1 x.page ++
      leBytes 1 ((s.roomFid x.room).getD 0) ++ leBytes 1 (x.slots.filter fun p => p.2.flight.isSome).length ++
      leBytes 1 (x.jobs.filter fun p => p.2.flight).length) s := by
  cases hpasid : x.pasid with
  | none => simp only [cmdSliceQuery, hslice, hpasid, Option.getD_none]
  | some p => simp only [cmdSliceQuery, hslice, hpasid, Option.getD_some]

/-! ## Access rules (R212 to R227) -/

section
variable {s : State} {bank : Bool} {froom index entry r : Nat} {x : Room}

theorem cmdRuleWrite_bad (hlocal : s.localRoom froom = some r)
    (hentry : (ruleOf entry).mat ≤ 5 ∧ (ruleOf entry).engine ≤ 1 ∧ (ruleOf entry).base ≤ (ruleOf entry).limit ∧
      bitOf entry 119 = false) : (cmdRuleWrite bank froom index entry).bad s = none :=
  firstBad_none.2 (by simp [State.noRoom_of_local hlocal, hentry])

theorem cmdRuleRead_bad {first n : Nat} (hlocal : s.localRoom froom = some r)
    (hrange : 1 ≤ n ∧ n ≤ 32 ∧ first + n ≤ 256) : (cmdRuleRead bank froom first n).bad s = none := by
  refine firstBad_none.2 ?_
  simp only [List.forall_mem_cons, State.noRoom_of_local hlocal, Bool.or_eq_false_iff, decide_eq_false_iff_not, true_and]
  exact ⟨by omega, nofun⟩

variable (hlocal : s.localRoom froom = some r) (hroom : s.room? r = some x)
include hlocal hroom

/-- A rule goes into the bank that is not active while no commit is PENDING, if the allotment holds the valid rules that the bank then
has. -/
theorem cmdRuleWrite_run (hother : bank ≠ x.bank) (hidle : x.commitPend = false)
    (hfits : validRules (NMap.set (x.bankRules bank) index (ruleOf entry)) ≤ x.share.rules) :
    (cmdRuleWrite bank froom index entry).run s =
      .ok [] (s.mapRoom r fun y => y.setBank bank (NMap.set (x.bankRules bank) index (ruleOf entry))) := by
  simp only [cmdRuleWrite, hlocal, hroom, beq_false_of_ne hother, hidle, Nat.not_lt.2 hfits, Bool.false_eq_true, if_false]

theorem cmdRuleRead_run (first n : Nat) :
    (cmdRuleRead bank froom first n).run s = .ok
      ((List.range n).flatMap fun i => leBytes 16 (ruleImage (NMap.get? (x.bankRules bank) (first + i)) r)) s := by
  simp only [cmdRuleRead, hlocal, hroom]

theorem cmdRuleCopy_run (hidle : x.commitPend = false) :
    (cmdRuleCopy froom).run s = .ok [] (s.mapRoom r fun y => y.setBank (!y.bank) (y.bankRules y.bank)) := by
  simp only [cmdRuleCopy, hlocal, hroom, hidle, Bool.false_eq_true, if_false]

/-- In FIELD_LOCKED no sealed page may lose its seal. -/
theorem cmdRuleCommit_run (hseals : s.lifecycle = 2 → x.unseals = false) (hidle : x.commitPend = false) :
    (cmdRuleCommit froom).run s =
      .pending (.ruleCommit r) [] (s.mapRoom r fun y => { y with bank := !y.bank, commitPend := true }) := by
  have hpermitted : (s.lifecycle == 2 && x.unseals) = false := by simpa using hseals
  simp only [cmdRuleCommit, hlocal, hroom, hpermitted, hidle, Bool.false_eq_true, if_false]

theorem cmdRuleStatus_run :
    (cmdRuleStatus froom).run s =
      .ok (leBytes 1 (b2n x.bank) ++ leBytes 3 (b2n x.commitPend) ++ leBytes 4 (s.oldInfl r x)) s := by
  simp only [cmdRuleStatus, hlocal, hroom]

end

end Sys2Proof.Machine

namespace Sys2Proof.Proofs

open Sys2Proof Sys2Proof.Machine

/-- Settles O3: each command is accepted, and its own rules make, end or read the slice, or act on the Room's banks, as the clause
says. -/
theorem sliceAndRuleCommandsComplete : Obligations.SliceAndRuleCommandsComplete := by
  unfold Obligations.SliceAndRuleCommandsComplete
  refine ⟨?sliceCreate, ?sliceDestroy, ?sliceQuery, ?ruleWrite, ?ruleRead, ?ruleCopy, ?ruleCommit, ?ruleStatus⟩
  case sliceCreate =>
    rintro s h window host pasid x b p y mine n page hs hpasid hwin ⟨hbind, hbound⟩ hopen hp hmine hnew hfree hn hpage rfl
    exact exec_answers (c := cmdSliceCreate window.toNat host.toNat pasid.toNat) rfl
      (accepts_of_serves hs (cmdSliceCreate_room hwin hbind) (cmdSliceCreate_bad hwin hbind hpasid) nofun rfl rfl)
      (cmdSliceCreate_run hwin hbind hbound hopen hp hmine hnew hfree hn hpage)
  case sliceDestroy =>
    intro s h slice hs hslice
    exact exec_answers (c := cmdSliceDestroy slice.toNat) rfl
      (accepts_of_serves hs id (cmdSliceDestroy_bad hslice) nofun rfl rfl) rfl
  case sliceQuery =>
    intro s h slice x hs hslice
    have hbad : (cmdSliceQuery slice.toNat).bad s = none := cmdSliceDestroy_bad (Option.isSome_of_eq_some hslice)
    exact exec_answers (c := cmdSliceQuery slice.toNat) rfl (accepts_of_serves hs id hbad nofun rfl rfl) (cmdSliceQuery_run hslice)
  case ruleWrite =>
    intro s h froom index entry r x hs hentry hopen hlocal hroom hother hidle hfits
    exact exec_answers (c := cmdRuleWrite h.bank froom.toNat index.toNat entry.toNat) rfl
      (serves_accepts hs (State.ownRoom_of_local hlocal) rfl nofun (List.forall_mem_singleton.2 hopen)
        (cmdRuleWrite_bad hlocal hentry) rfl)
      (cmdRuleWrite_run hlocal hroom hother hidle hfits)
  case ruleRead =>
    intro s h froom first n r x hs hrange hopen hlocal hroom
    exact exec_answers (c := cmdRuleRead h.bank froom.toNat first.toNat n.toNat) rfl
      (serves_accepts hs (State.ownRoom_of_local hlocal) rfl nofun (List.forall_mem_singleton.2 hopen)
        (cmdRuleRead_bad hlocal hrange) rfl)
      (cmdRuleRead_run hlocal hroom first.toNat n.toNat)
  case ruleCopy =>
    intro s h froom r x hs hopen hlocal hroom hidle
    exact exec_answers (c := cmdRuleCopy froom.toNat) rfl
      (accepts_of_serves hs (State.ownRoom_of_local hlocal) (State.firstBad_room hlocal) (List.forall_mem_singleton.2 hopen) rfl rfl)
      (cmdRuleCopy_run hlocal hroom hidle)
  case ruleCommit =>
    intro s h froom r x hs hopen hp hlocal hroom hseals hidle
    exact exec_waits (c := cmdRuleCommit froom.toNat) rfl
      (accepts_of_serves hs (State.ownRoom_of_local hlocal) (State.firstBad_room hlocal) (List.forall_mem_singleton.2 hopen) rfl rfl)
      hp (cmdRuleCommit_run hlocal hroom hseals hidle)
  case ruleStatus =>
    intro s h froom r x hs hopen hlocal hroom
    exact exec_answers (c := cmdRuleStatus froom.toNat) rfl
      (accepts_of_serves hs (State.ownRoom_of_local hlocal) (State.firstBad_room hlocal) (List.forall_mem_singleton.2 hopen) rfl rfl)
      (cmdRuleStatus_run hlocal hroom)

end Sys2Proof.Proofs
end

section
/-! The mailbox of a window's logical device, as it serves the host whose binding is BOUND (R316, R320). -/

namespace Sys2Proof.Machine

section
variable {s : State} {a : MbAt} {x : Window} {b : Binding}

/-- A command of the bound host is run, and answered on the state that it leaves. -/
theorem State.mbCmd_of_ready (hready : MbReady s a x b) (f : Window → Binding → MbRet × List Byte × State) :
    s.mbCmd a f = (f x b).2.2.mbAnswers a (f x b).1 (f x b).2.1 := by
  obtain ⟨hwin, hbind, hbound, hup⟩ := hready
  simp only [State.mbCmd, State.mbAnswers, hwin, hbind, hbound, hup, Option.bind_some, Option.map_some, bne_self_eq_false,
    Bool.not_true, Bool.false_eq_true, if_false]

theorem State.next_mbCmd_of_ready (hready : MbReady s a x b) (f : Window → Binding → MbRet × List Byte × State) :
    (.next (s.mbCmd a f) : Eff) = .next ((f x b).2.2.mbAnswers a (f x b).1 (f x b).2.1) :=
  congrArg _ (State.mbCmd_of_ready hready f)

/-- A capacity command is run on a dynamic capacity window alone. -/
theorem State.mbDyn_of_dynamic (hready : MbReady s a x b) (hdyn : x.type = .dynamic) (f : Window → MbRet × List Byte × State) :
    s.mbDyn a f = .next ((f x).2.2.mbAnswers a (f x).1 (f x).2.1) := by
  simp only [State.mbDyn, State.mbCmd_of_ready hready, hdyn, beq_self_eq_true, if_true]

theorem State.mbDyn_of_not_dynamic (hready : MbReady s a x b) (hdyn : x.type ≠ .dynamic) (f : Window → MbRet × List Byte × State) :
    s.mbDyn a f = .next (s.mbAnswers a .unsupported []) := by
  simp only [State.mbDyn, State.mbCmd_of_ready hready, beq_false_of_ne hdyn, Bool.false_eq_true, if_false]

/-- The event records of a log that exists. -/
theorem exec_mbGetEventRecords {log : Byte} (hready : MbReady s a x b) (hlog : log.toNat ≤ 4) :
    exec (.mbGetEventRecords a log) s =
      let es := b.events.filter fun e => evLog e.2.1 == log.toNat
      .next (s.mbAnswers a .success (leBytes 2 es.length ++ es.flatMap evRecord)) := by
  change execMbGetEventRecords a log s = _
  simp only [execMbGetEventRecords, State.mbCmd_of_ready hready, Nat.not_lt.2 hlog, if_false]

/-- Clearing takes out of the binding's log every record of it, or those of handles that are all in it. -/
theorem exec_mbClearEventRecords {log : Byte} {all : Bool} {handles : List B16} (hready : MbReady s a x b) (hlog : log.toNat ≤ 4)
    (hknown : all = true ∨ handles.all (fun h => b.events.any fun e => evLog e.2.1 == log.toNat && e.1 == h.toNat) = true) :
    exec (.mbClearEventRecords a log all handles) s = .next ((s.mapBind a.window.toNat a.host.toNat fun y => { y with
      events := y.events.filter fun e => !(evLog e.2.1 == log.toNat && (all || handles.any fun h => h.toNat == e.1)) }).mbAnswers a
        .success []) := by
  have hfound : (!all && !handles.all fun h => b.events.any fun e => evLog e.2.1 == log.toNat && e.1 == h.toNat) = false := by
    rwa [← Bool.not_or, Bool.not_eq_false', Bool.or_eq_true]
  change execMbClearEventRecords a log all handles s = _
  simp only [execMbClearEventRecords, State.mbCmd_of_ready hready, hfound, decide_eq_false (Nat.not_lt.2 hlog), Bool.or_self,
    Bool.false_eq_true, if_false]

theorem Window.mbOps_eq (x : Window) :
    x.mbOps = mbOpcodes ++ (if x.type = .dynamic then [0x4800, 0x4801, 0x4802, 0x4803] else []) := by
  simp only [Window.mbOps, beq_iff_eq]

/-- The oldest offer that holds a named extent, or the oldest of all if none is named, is answered with the extents named (R56). -/
theorem exec_addDynamicCapacityResponse {extents : List Nat} {o : Offer} (hready : MbReady s a x b) (hdyn : x.type = .dynamic)
    (hoffer : (if extents = [] then x.offers.head? else x.offers.find? fun o => o.xs.any extents.contains) = some o) :
    exec (.addDynamicCapacityResponse a extents) s = .next ((s.answerOffer a.window.toNat o extents).mbAnswers a .success []) := by
  change execAddDynamicCapacityResponse a extents s = _
  simp only [execAddDynamicCapacityResponse, State.mbDyn_of_dynamic hready hdyn, List.isEmpty_iff, hoffer]

end

end Sys2Proof.Machine

namespace Sys2Proof.Proofs

open Sys2Proof Sys2Proof.Machine

/-- Settles O12: the mailbox runs each command for the bound host, the capacity commands on a dynamic capacity window alone. -/
theorem windowMailboxAnswersTheBoundHost : Obligations.WindowMailboxAnswersTheBoundHost := by
  unfold Obligations.WindowMailboxAnswersTheBoundHost
  refine ⟨?reads, ?policyAndTime, ?records, ?clearByHandle, ?capacityReads, ?offer, ?release, ?notDynamic⟩
  case reads =>
    intro s a x b hready
    have hcmd := State.next_mbCmd_of_ready hready
    exact ⟨hcmd _, hcmd _, hcmd _, hcmd _, hcmd _, (hcmd _).trans (by rw [Window.mbOps_eq]), hcmd _, hcmd _, hcmd _⟩
  case policyAndTime =>
    intro s a x b policy time hready
    have hcmd := State.next_mbCmd_of_ready hready
    exact ⟨hcmd _, hcmd _⟩
  case records =>
    rintro s a x b log es hready hlog rfl
    refine ⟨exec_mbGetEventRecords hready hlog, (exec_mbClearEventRecords hready hlog (.inl rfl)).trans ?_⟩
    simp only [Bool.true_or, Bool.and_true, bne]
  case clearByHandle =>
    intro s a x b log handles hready hlog hknown
    exact exec_mbClearEventRecords hready hlog (.inr hknown)
  case capacityReads =>
    intro s a x b hready hdyn
    exact ⟨State.mbDyn_of_dynamic hready hdyn _, State.mbDyn_of_dynamic hready hdyn _⟩
  case offer =>
    intro s a x b extents o hready hdyn hoffer
    exact exec_addDynamicCapacityResponse hready hdyn hoffer
  case release =>
    rintro s u a x b extents hready hdyn rfl
    exact State.mbDyn_of_dynamic hready hdyn _
  case notDynamic =>
    intro s a x b extents hready hdyn
    have hanswer := State.mbDyn_of_not_dynamic hready hdyn
    exact ⟨hanswer _, hanswer _, hanswer _, hanswer _⟩

end Sys2Proof.Proofs
end

section
/-! The rows of a Mover channel: the start of a job, its descriptors and the steps of a migration (R255, R257 to R264, R273 to R275),
and the resuming and disabling of channels (R265 to R270). -/

namespace Sys2Proof.Machine

/-! ## The start of a job (R255) -/

/-- The channel as its job starts: nothing of an earlier job is left, and a list begins at its first descriptor. -/
def MChan.starts (c : MChan) (j : Job) : MChan :=
  { c with
    st := ChSt.running, job := some j, cur := none, pos := 0, count := 0, wait := none, got := [], writes := [], todo := none
    tries := 0, parts := [], desc := match j.kind with
      | .list h => h
      | .mig _ => 0 }

/-- The Room's oldest job leaves the queue for the Room's lowest enabled idle channel; only a list fetches a descriptor. -/
theorem State.jobStart_of_free {s : State} {room : Nat} {dev : List DevRsp} {j : Job} {n : Nat} {c : MChan}
    (hqueued : s.mov.queue.find? (fun j => j.room == room) = some j)
    (hfree : s.mov.chans.find? (fun c => c.2.en && c.2.st == .idle && c.2.room == some room) = some (n, c))
    (hup : s.draining = false) :
    s.jobStart room dev =
      let u := (s.mapMov fun m => { m with queue := m.queue.filter fun k => k.id != j.id }).setChan n (c.starts j)
      match j.kind with
      | .list _ => (u.fetchDesc n j dev).2
      | .mig _ => u := by
  simp only [State.jobStart, hqueued, hfree]
  exact if_neg (ne_true_of_eq_false hup)

/-! ## The steps of a migration (R273 to R275) -/

section
variable {s u c : State} {n x k : Nat} {dev dev1 dev2 : List DevRsp} {j : Job} {m y : Mig}

/-- The migration that the channel runs is found, and is not at another step than the row's. -/
theorem RunsMig.reached (hruns : RunsMig s u n dev dev1 j x k m) : u.mig? x = some m ∧ (m.step != k) = false := by
  obtain ⟨-, -, -, -, hmig, rfl⟩ := hruns
  exact ⟨hmig, bne_self_eq_false _⟩

/-- PREPARE of a migration whose destination has an extent is done, or waits for lines that are not clean yet. -/
theorem descRow_prepare (hruns : RunsMig s u n dev dev1 j x 0 m) (hextent : (u.migPrepare x dev1).1 ≠ 2) :
    s.descRow n 5 0 dev = (u.migPrepare x dev1).2.2 := by
  obtain ⟨hmig, hreached⟩ := hruns.reached
  rcases hprepare : u.migPrepare x dev1 with ⟨code, rest, v⟩
  -- with `hcode` in context the match skips its first branch, the migration that has no destination extent
  have hcode : code ≠ 2 := by simpa only [hprepare] using hextent
  simp only [descRow_mig hruns, State.migRow, hmig, hreached, hprepare, Bool.false_eq_true, if_false]

/-- COPY without a line that failed for good: while lines are left the channel stays at COPY, and after the last SWITCH is next. -/
theorem descRow_migstepCopy (hruns : RunsMig s u n dev dev1 j x 1 m)
    (hcopy : State.migCopy (2 ^ 22 + dev1.length) u x n dev1 = (true, dev2, c)) (hcopied : c.mig? x = some y)
    (hlocal : 2 ^ 22 ≤ y.copied → y.remote = none) :
    s.descRow n 5 1 dev = if y.copied < 2 ^ 22 then c else c.mapMig x fun z => { z with step := 2 } := by
  obtain ⟨hmig, hreached⟩ := hruns.reached
  simp only [descRow_mig hruns, State.migRow, hmig, hreached, Bool.false_eq_true, if_false, hcopy, hcopied]
  by_cases hleft : y.copied < 2 ^ 22
  · simp only [hleft, if_true]
  · simp only [hleft, hlocal (Nat.not_lt.1 hleft), Option.isSome_none, Bool.false_eq_true, if_false]

theorem descRow_switch (hruns : RunsMig s u n dev dev1 j x 2 m) : s.descRow n 5 2 dev = u.migSwitch x := by
  obtain ⟨hmig, hreached⟩ := hruns.reached
  simp only [descRow_mig hruns, State.migRow, hmig, hreached, Bool.false_eq_true, if_false]

theorem descRow_release (hruns : RunsMig s u n dev dev1 j x 3 m) (hclosed : u.oldGen x = false) :
    s.descRow n 5 3 dev = u.migRelease x := by
  obtain ⟨hmig, hreached⟩ := hruns.reached
  simp only [descRow_mig hruns, State.migRow, hmig, hreached, hclosed, Bool.false_eq_true, if_false]

theorem descRow_abandon (hruns : RunsMig s u n dev dev1 j x 4 m) : s.descRow n 5 4 dev = u.migAbandon x .aborted := by
  obtain ⟨hmig, hreached⟩ := hruns.reached
  simp only [descRow_mig hruns, State.migRow, hmig, hreached, Bool.false_eq_true, if_false]

end

/-! ## Channels resumed, stopped and disabled (R265 to R270) -/

/-- What each ACTION does to a channel that a fault or a bystander stop halts (R269). -/
theorem State.resumeChan_of_halted {s : State} {n : Nat} (hhalt : (s.chan n).st = .haltFault ∨ (s.chan n).st = .haltBystander)
    (action : Nat) :
    s.resumeChan n action =
      if action = 0 then s.setChan n { s.chan n with st := .running, pos := 0, wait := none, got := [], todo := none }
      else if action = 1 then s.quitJob n jobBusError
      else if action = 2 then s.quitJob n jobAborted
      else s := by
  have hhalted : ((s.chan n).st == .haltFault || (s.chan n).st == .haltBystander) = true := by simpa using hhalt
  simp only [State.resumeChan, hhalted, if_true]

theorem State.setChanEn_false_of_enabled {s : State} {n : Nat} (hen : (s.chan n).en = true) :
    s.setChanEn n false = s.disableChan n := by
  simp only [State.setChanEn, hen, Bool.false_eq_true, if_false, if_true]

/-- The microsecond after a stop with BYST_AUTO is over: every bystander runs its descriptor again (R268). -/
theorem exec_bystanderResume_of_due {s : State} {t d : Nat} (hbyst : s.mov.byst = some d) (hdue : d ≤ (s.at t).now) :
    exec (.bystanderResume t) s = .next ((s.mov.chans.filter fun c => c.2.st == .haltBystander).foldl
      (fun a c => a.resumeChan c.1 0) ((s.at t).mapMov fun m => { m with byst := none })) := by
  change execBystanderResume t s = _
  simp only [execBystanderResume, State.at_mov, hbyst, hdue, if_true]

end Sys2Proof.Machine

namespace Sys2Proof.Proofs

open Sys2Proof Sys2Proof.Machine

/-- Settles O28: a descriptor's row runs its descriptor and goes on, and a migration's row does the step that the migration has
reached. -/
theorem moverChannelsRun : Obligations.MoverChannelsRun := by
  unfold Obligations.MoverChannelsRun
  refine ⟨?jobStart, ?copy, ?fill, ?zero, ?compare, ?flush, ?prepare, ?copyOn, ?copied, ?switch, ?release, ?abandon⟩
  case jobStart => exact fun _ _ _ _ _ _ hqueued hfree hup => congrArg _ (State.jobStart_of_free hqueued hfree hup)
  case copy => exact fun _ _ _ _ _ _ _ _ hruns htype => congrArg _ (descRow_runs hruns htype (by decide))
  case fill => exact fun _ _ _ _ _ _ _ _ hruns htype => congrArg _ (descRow_runs hruns htype (by decide))
  case zero => exact fun _ _ _ _ _ _ _ _ hruns htype => congrArg _ (descRow_runs hruns htype (by decide))
  case compare => exact fun _ _ _ _ _ _ _ _ hruns htype => congrArg _ (descRow_runs hruns htype (by decide))
  case flush => exact fun _ _ _ _ _ _ _ _ hruns htype => congrArg _ (descRow_runs hruns htype (by decide))
  case prepare =>
    rintro s u _ ch dev dev1 j x m hruns hextent rfl
    exact congrArg _ (descRow_prepare hruns hextent)
  case copyOn =>
    intro s u c ch dev dev1 j x m y dev2 hruns hcopy hmig hleft
    have hunfinished : ¬ 2 ^ 22 ≤ y.copied := Nat.not_le.2 hleft
    exact congrArg _ ((descRow_migstepCopy hruns hcopy hmig (absurd · hunfinished)).trans (if_pos hleft))
  case copied =>
    rintro s u c ch dev dev1 j x m y dev2 hruns hcopy hmig ⟨hall, hlocal⟩
    exact congrArg _ ((descRow_migstepCopy hruns hcopy hmig fun _ => hlocal).trans (if_neg (Nat.not_lt.2 hall)))
  case switch => exact fun _ _ _ _ _ _ _ hruns => congrArg _ (descRow_switch hruns)
  case release => exact fun _ _ _ _ _ _ _ hruns hclosed => congrArg _ (descRow_release hruns hclosed)
  case abandon => exact fun _ _ _ _ _ _ _ hruns => congrArg _ (descRow_abandon hruns)

/-- Settles O29: an accepted write resumes or disables the channel, and a resume that is due runs every bystander again. -/
theorem moverChannelControlCompletes : Obligations.MoverChannelControlCompletes := by
  unfold Obligations.MoverChannelControlCompletes
  refine ⟨?retry, ?skip, ?abort, ?disable, fun _ _ _ => exec_bystanderResume_of_due⟩
  case retry =>
    intro s path ch hopen hhalt
    change execRetry path ch s = _
    rw [execRetry, regWrite_accepted _ _ hopen, State.resumeChan_of_halted hhalt, if_pos rfl]
  case skip =>
    intro s path ch hopen hhalt
    change execSkip path ch s = _
    rw [execSkip, regWrite_accepted _ _ hopen, State.resumeChan_of_halted hhalt, if_neg (by decide), if_pos rfl]
  case abort =>
    intro s path ch hopen hhalt
    change execAbort path ch s = _
    rw [execAbort, regWrite_accepted _ _ hopen, State.resumeChan_of_halted hhalt, if_neg (by decide), if_neg (by decide), if_pos rfl]
  case disable =>
    intro s path ch hopen hen
    change execChannelDisable path ch s = _
    rw [execChannelDisable, regWrite_accepted _ _ hopen, State.setChanEn_false_of_enabled hen]

end Sys2Proof.Proofs
end

section
/-! The commands of groups 01xxh and 02xxh: the records of the switch, the lane groups, the role, link and lanes of a port, and the OPF
modules (R283, R284, R294, R298 to R301, R304, R308, R365, R436). -/

namespace Sys2Proof.Machine

/-! ## Lane groups (R283, R284) -/

/-- Ports of the groups that a LANE_CONFIG does not concern. -/
def State.heldPorts (s : State) (g mode : Nat) : List Nat :=
  ((List.range 32).filter fun x => !(s.affected g mode).contains x).flatMap fun x => (s.group x).2

/-- The lane groups as LANE_CONFIG leaves them, each new port made. -/
def State.regrouped (s : State) (g mode : Nat) (ps : List Nat) : State :=
  ps.foldl (fun a p => a.newPort p)
    (((s.affected g mode).foldl (fun a x => a.setGroup x (if mode = 3 then 3 else 0) []) s).setGroup g mode ps)

theorem contains_take_of_nodup {l : List Nat} (hdistinct : l.Nodup) {i : Nat} (hi : i < l.length) :
    (l.take i).contains (l.getD i 0) = false := by
  rw [List.getD_eq_getElem l 0 hi, List.contains_eq_mem, decide_eq_false_iff_not]
  intro hmem
  obtain ⟨j, hj, heq⟩ := List.mem_take_iff_getElem.1 hmem
  have hji : j = i := (List.Nodup.getElem_inj_iff hdistinct).1 heq
  omega

section
variable {s : State} {g mode pa pb pc pd : Nat} {ps : List Nat}

/-- Group and mode are in range, a pair begins at an even group, and the new ports exist and differ. -/
theorem cmdLaneConfig_bad (hps : ps = modePorts mode [pa, pb, pc, pd]) (hgroup : g < 32) (hmode : mode ≤ 3)
    (hpair : mode = 3 → g % 2 = 0) (hdistinct : ps.Nodup) (hrange : ∀ p ∈ ps, p < 64) :
    (cmdLaneConfig g mode pa pb pc pd).bad s = none := by
  have hnames : firstBad [(decide (32 ≤ g), 0), (decide (3 < mode), 1), (mode == 3 && g % 2 == 1, 0)] = none := by
    refine firstBad_none.2 ?_
    simp only [List.forall_mem_cons, decide_eq_false_iff_not, Bool.and_eq_false_imp, beq_iff_eq, beq_eq_false_iff_ne]
    exact ⟨by omega, by omega, fun h => by simp [hpair h], nofun⟩
  simp only [cmdLaneConfig, hnames, ← hps]
  refine firstBad_none.2 ?_
  simp only [List.forall_mem_map, List.mem_range]
  intro i hi
  have hlow : ps.getD i 0 < 64 := by
    rw [List.getD_eq_getElem ps 0 hi]
    exact hrange _ (List.getElem_mem hi)
  rw [contains_take_of_nodup hdistinct hi, decide_eq_false (Nat.not_le.2 hlow)]
  rfl

/-- The groups concerned have no port in use, and no other group holds a new port (R284). -/
theorem cmdLaneConfig_run (hps : ps = modePorts mode [pa, pb, pc, pd])
    (hunused : ((s.affected g mode).flatMap fun x => (s.group x).2).all (fun p => s.role p == roleUnused && !s.portWork p) = true)
    (hfree : ps.all (fun p => !(s.heldPorts g mode).contains p) = true)
    (hcount : (s.heldPorts g mode).length + ps.length ≤ 64) :
    (cmdLaneConfig g mode pa pb pc pd).run s = .ok [] (s.regrouped g mode ps) := by
  have hidle : ((s.affected g mode).flatMap fun x => (s.group x).2).any (fun p => s.role p != roleUnused || s.portWork p) = false := by
    simpa [bne] using hunused
  have hnone : ps.any (s.heldPorts g mode).contains = false := by simpa using hfree
  unfold State.heldPorts at hnone hcount
  simp only [cmdLaneConfig, ← hps, hidle, hnone, Nat.not_lt.2 hcount, Bool.false_eq_true, if_false]
  rfl

end

/-! ## Ports (R294, R304, R308) -/

section
variable {s : State} {p : Nat}

theorem cmdPortRole_bad {role : Nat} (hport : p < 64 ∧ s.portExists p = true) (hrole : role ≤ 4)
    (hreset : role = roleUpstream → (s.port p).perst ≠ [] ∨ (s.port p).noInband = false) : (cmdPortRole p role).bad s = none := by
  refine firstBad_none.2 ?_
  simp only [List.forall_mem_cons, Bool.or_eq_false_iff, Bool.and_eq_false_imp, Bool.and_eq_true, beq_iff_eq, List.isEmpty_iff]
  refine ⟨State.noPort_of_port hport, ⟨decide_eq_false (Nat.not_lt.2 hrole), ?_⟩, nofun⟩
  rintro ⟨hup, hnone⟩
  exact (hreset hup).resolve_left (absurd hnone)

theorem cmdPortRole_run {role : Nat} (hroom : (s.port p).room = none) (hbound : s.portBound p = false) (hidle : s.portWork p = false) :
    (cmdPortRole p role).run s =
      if s.role p = role then .ok [] s
      else
        let u := ((if s.inL0 p then s.linkDown p 1 else s).setFld (PRT_CFG_fROLE p) role).dropRet p
        .ok [] (u.setFld (PRT_LINK_STAT_fSTATE p) (if (u.port p).retryAt.isSome then 0 else u.idleState p)) := by
  simp only [cmdPortRole, hroom, hbound, hidle, Option.isSome_none, Bool.or_self, Bool.false_eq_true, if_false, beq_iff_eq]

theorem cmdPortLinkSet_bad {rate width : Nat} (hport : p < 64 ∧ s.portExists p = true)
    (hrate : rate ≤ 6 ∧ rate ≤ s.fld (PRT_CFG_fMAX_RATE p)) (hwidth : width ≤ 4 ∧ widthLanes width ≤ s.portWidth p) :
    (cmdPortLinkSet p rate width).bad s = none := by
  refine firstBad_none.2 ?_
  simp only [List.forall_mem_cons, Bool.or_eq_false_iff, decide_eq_false_iff_not, Nat.not_lt]
  exact ⟨State.noPort_of_port hport, hrate, hwidth, nofun⟩

theorem cmdPortLinkSet_run {rate width : Nat} (hidle : s.busyWith (· == .portLink p) = false) :
    (cmdPortLinkSet p rate width).run s =
      .pending (.portLink p) [] ((s.endMargins p).mapPort p fun x => { x with target := some (rate, width) }) :=
  if_neg (ne_true_of_eq_false hidle)

/-- DISABLE set takes the link down; cleared, a port that is down and not held off shows its idle state (R290, R335). -/
theorem State.setDisable_of_exists (hexists : s.portExists p = true) (on : Bool) :
    s.setDisable p on =
      if on then (s.setFld (PRT_LINK_CTL_fDISABLE p) 1).linkDown p 0
      else
        let u := s.setFld (PRT_LINK_CTL_fDISABLE p) 0
        if u.inL0 p || (s.port p).retryAt.isSome then u else u.setFld (PRT_LINK_STAT_fSTATE p) (u.idleState p) := by
  cases on <;> simp only [State.setDisable, hexists, b2n, Bool.not_true, Bool.false_eq_true, if_false, if_true]

theorem cmdPortEnable_bad {en : Nat} (hport : p < 64 ∧ s.portExists p = true) (hen : en ≤ 1) : (cmdPortEnable p en).bad s = none := by
  refine firstBad_none.2 ?_
  simp only [List.forall_mem_cons, decide_eq_false_iff_not, Nat.not_lt]
  exact ⟨State.noPort_of_port hport, hen, nofun⟩

/-- EN 0 disables the port (R308). -/
theorem cmdPortEnable_run {en : Nat} (hexists : s.portExists p = true) :
    (cmdPortEnable p en).run s = .ok [] (
      if en = 0 then (s.setFld (PRT_LINK_CTL_fDISABLE p) 1).linkDown p 0
      else
        let u := s.setFld (PRT_LINK_CTL_fDISABLE p) 0
        if u.inL0 p || (s.port p).retryAt.isSome then u else u.setFld (PRT_LINK_STAT_fSTATE p) (u.idleState p)) := by
  simp only [cmdPortEnable, State.setDisable_of_exists hexists, beq_iff_eq]

theorem cmdPortQuery_run :
    (cmdPortQuery p).run s = .ok
      (leBytes 4 (s.reg (PRT_CFG p)).toNat ++ leBytes 4 (s.reg (PRT_LINK_STAT p)).toNat ++
        leBytes 4 (s.reg (PRT_LINK_EVT p)).toNat ++ leBytes 4 (s.reg (PRT_PROTO_STAT p)).toNat ++ leBytes 1 ((s.portGroup p).getD 0) ++
        leBytes 2 ((s.portLanes p).foldl (fun m l => m + 2 ^ (l - 8 * (s.portGroup p).getD 0)) 0)) s := by
  simp only [cmdPortQuery, List.flatMap_cons, List.flatMap_nil, List.append_nil, List.append_assoc]

/-! ## Lanes (R298 to R301) -/

section
variable {target mask dir steps limit dwell : Nat}

theorem cmdLaneMargin_bad (hport : p < 64 ∧ s.portExists p = true) (htarget : target ≤ 1) (hmask : mask ≠ 0 ∧ mask < 2 ^ s.portWidth p)
    (hdir : dir ≤ 3) (hup : s.inL0 p = true) (hsteps : steps ≤ marginSteps (s.fld (PRT_LINK_STAT_fRATE p)) dir)
    (hlimit : 1 ≤ limit ∧ limit ≤ 63) (hdwell : 1 ≤ dwell ∧ dwell ≤ 10000) :
    (cmdLaneMargin p target mask dir steps limit dwell).bad s = none := by
  refine firstBad_none.2 ?_
  simp only [hup, if_true, List.forall_mem_cons, Bool.or_eq_false_iff, beq_eq_false_iff_ne, decide_eq_false_iff_not]
  exact ⟨State.noPort_of_port hport, by omega, ⟨hmask.1, by omega⟩, by omega, by omega, by omega, by omega, nofun⟩

/-- In L0 at 16 GT/s or more, with no lane of the mask being margined, the lanes are (R299, R300). -/
theorem cmdLaneMargin_run (hup : s.inL0 p = true) (hrate : 3 ≤ s.fld (PRT_LINK_STAT_fRATE p))
    (hidle : (s.maskLanes p mask).all (fun l => !s.flag (LNG_LANE_STAT_fMARGINING (l / 8) (l % 8))) = true) :
    (cmdLaneMargin p target mask dir steps limit dwell).run s = .pending (.margin p mask) []
      ((s.setMargin (s.maskLanes p mask) true).mapPort p fun x => { x with margin := x.margin ++ [(mask, limit)] }) := by
  have hnone : (s.maskLanes p mask).any (fun l => s.flag (LNG_LANE_STAT_fMARGINING (l / 8) (l % 8))) = false := by simpa using hidle
  simp only [cmdLaneMargin, hup, hnone, decide_eq_false (Nat.not_lt.2 hrate), Bool.not_true, Bool.or_self, Bool.false_eq_true, if_false]

end

theorem cmdLaneStats_run :
    (cmdLaneStats p).run s = .ok ((s.portLanes p).flatMap fun l =>
      let taps := (NMap.get? s.ports.taps l).getD []
      leBytes 4 (s.reg (LNG_LANE_STAT (l / 8) (l % 8))).toNat ++ leBytes 4 (s.reg (LNG_LANE_ERR (l / 8) (l % 8))).toNat ++
        leBytes 4 (s.reg (LNG_LANE_EQ (l / 8) (l % 8))).toNat ++ leBytes 4 (s.reg (LNG_LANE_EYE (l / 8) (l % 8))).toNat ++
        (taps ++ List.replicate (16 - taps.length) 0)) s := by
  simp only [cmdLaneStats, List.flatMap_cons, List.flatMap_nil, List.append_nil, List.append_assoc]

end

/-! ## OPF modules (R365) -/

section
variable {s : State} {m : Nat}

/-- Check 8 of a command whose one parameter is a module. -/
theorem firstBad_module (hmodule : m ≤ 48) : firstBad [(decide (48 < m), 0)] = none :=
  firstBad_none.2 (List.forall_mem_singleton.2 (decide_eq_false (Nat.not_lt.2 hmodule)))

theorem cmdOpfQuery_run :
    (cmdOpfQuery m).run s = .ok
      (leBytes 4 (s.reg (OPF_MOD_STAT m)).toNat ++ leBytes 4 (s.reg (OPF_MOD_REPAIR m)).toNat ++
        leBytes 4 (s.reg (OPF_MOD_ERR m)).toNat ++ leBytes 4 (s.reg (OPF_MOD_LEAK m)).toNat) s := by
  simp only [cmdOpfQuery, List.flatMap_cons, List.flatMap_nil, List.append_nil, List.append_assoc]

theorem cmdOpfRetrain_run (hup : s.lineUp (2 * m) = true) : (cmdOpfRetrain m).run s = .ok [] (s.wantRetrain (2 * m) 3) :=
  if_pos hup

end

end Sys2Proof.Machine

namespace Sys2Proof.Proofs

open Sys2Proof Sys2Proof.Machine

/-- Settles O1: each command is accepted, and its own rules answer it, or leave it pending, as the clause says. -/
theorem linkGroupCommandsComplete : Obligations.LinkGroupCommandsComplete := by
  unfold Obligations.LinkGroupCommandsComplete
  refine ⟨?identify, ?statusQuery, ?laneConfig, ?sameRole, ?otherRole, ?linkSet, ?enable, ?query, ?margin, ?laneStats, ?opfQuery,
    ?opfRetrain⟩
  case identify =>
    intro s h hs
    exact exec_answers (c := cmdIdentify) rfl (accepts_of_serves hs nofun rfl nofun rfl rfl) rfl
  case statusQuery =>
    intro s h hs
    exact exec_answers (c := cmdStatusQuery) rfl (accepts_of_serves hs nofun rfl nofun rfl rfl) rfl
  case laneConfig =>
    intro s h group mode pa pb pc pd hs ⟨hgroup, hmode, hpair⟩ ⟨hdistinct, hrange⟩ hunused hfree hcount
    have hbad := cmdLaneConfig_bad (s := s) rfl hgroup hmode hpair hdistinct hrange
    exact exec_answers (c := cmdLaneConfig group.toNat mode.toNat pa.toNat pb.toNat pc.toNat pd.toNat) rfl
      (accepts_of_serves hs nofun hbad nofun rfl rfl) (cmdLaneConfig_run rfl hunused hfree hcount)
  case sameRole =>
    intro s h port role hs hport ⟨hrole, hreset⟩ hroom hbound hidle hsame
    exact exec_answers (c := cmdPortRole port.toNat role.toNat) rfl
      (accepts_of_serves hs nofun (cmdPortRole_bad hport hrole hreset) nofun rfl rfl)
      ((cmdPortRole_run hroom hbound hidle).trans (if_pos hsame))
  case otherRole =>
    intro s h port role hs hport ⟨hrole, hreset⟩ hroom hbound hidle hother
    exact exec_answers (c := cmdPortRole port.toNat role.toNat) rfl
      (accepts_of_serves hs nofun (cmdPortRole_bad hport hrole hreset) nofun rfl rfl)
      ((cmdPortRole_run hroom hbound hidle).trans (if_neg hother))
  case linkSet =>
    intro s h port rate width hs hport hrate hwidth hp hidle
    exact exec_waits (c := cmdPortLinkSet port.toNat rate.toNat width.toNat) rfl
      (accepts_of_serves hs nofun (cmdPortLinkSet_bad hport hrate hwidth) nofun rfl rfl) hp (cmdPortLinkSet_run hidle)
  case enable =>
    intro s h port en hs hport hen
    exact exec_answers (c := cmdPortEnable port.toNat en.toNat) rfl
      (accepts_of_serves hs nofun (cmdPortEnable_bad hport hen) nofun rfl rfl) (cmdPortEnable_run hport.2)
  case query =>
    intro s h port hs hport
    exact exec_answers (c := cmdPortQuery port.toNat) rfl
      (accepts_of_serves hs nofun (State.firstBad_port hport) nofun rfl rfl) cmdPortQuery_run
  case margin =>
    intro s h port target mask dir steps limit dwell hs hport ⟨htarget, hmask⟩ ⟨hdir, hsteps⟩ ⟨hlow, hhigh, hdwell⟩ hp hup hrate hidle
    have hbad := cmdLaneMargin_bad hport htarget hmask hdir hup hsteps ⟨hlow, hhigh⟩ hdwell
    exact exec_waits
      (c := cmdLaneMargin port.toNat target.toNat mask.toNat dir.toNat steps.toNat limit.toNat dwell.toNat) rfl
      (accepts_of_serves hs nofun hbad nofun rfl rfl) hp (cmdLaneMargin_run hup hrate hidle)
  case laneStats =>
    intro s h port hs hport
    exact exec_answers (c := cmdLaneStats port.toNat) rfl
      (accepts_of_serves hs nofun (State.firstBad_port hport) nofun rfl rfl) cmdLaneStats_run
  case opfQuery =>
    intro s h module hs hmodule
    exact exec_answers (c := cmdOpfQuery module.toNat) rfl
      (accepts_of_serves hs nofun (firstBad_module hmodule) nofun rfl rfl) cmdOpfQuery_run
  case opfRetrain =>
    intro s h module hs hmodule hup
    exact exec_answers (c := cmdOpfRetrain module.toNat) rfl
      (accepts_of_serves hs nofun (firstBad_module hmodule) nofun rfl rfl) (cmdOpfRetrain_run hup)

end Sys2Proof.Proofs
end

section
/-! The commands of the Camey monitor and its lines, while it serves them (R301, R366, R367, R463 to R473, R479). -/

namespace Sys2Proof.Machine

/-! ## A command that the monitor serves (R468, R471, R473) -/

section
variable {s : State}

section
variable {f : State → MonRes} {ws : List Word} {st : MonSt} {a : State}

theorem State.monRun_of_up (hup : s.monUp = true) (hf : f (s.dropChal false) = (ws, st, a)) : s.monRun false f = a.monSay ws st := by
  simp only [State.monRun, hup, hf, Bool.not_true, Bool.false_eq_true, if_false]

/-- CONFIRM alone acts with the monitor's challenge still in place. -/
theorem State.monRun_confirm_of_up (hup : s.monUp = true) (hf : f s = (ws, st, a)) : s.monRun true f = a.monSay ws st := by
  simp only [State.monRun, hup, hf, Bool.not_true, Bool.false_eq_true, if_false, if_true]

end

theorem State.dropChal_eq (s : State) (jtag : Bool) : s.dropChal jtag = { s with dbg := (s.dropChal jtag).dbg } := by
  simp only [State.dropChal]
  split
  · split <;> rfl
  · rfl

@[simp] theorem State.dropChal_draining (s : State) (jtag : Bool) : (s.dropChal jtag).draining = s.draining := by
  rw [State.dropChal_eq]
  rfl

/-! ## Registers, the Attic and counters (R301, R366, R367, R469, R472) -/

/-- A read of registers is refused in no lifecycle state. -/
theorem monPeek_reg {addr n : Nat} {dev : List DevRsp} (hcount : 1 ≤ n ∧ n ≤ 256) (haligned : addr % 4 = 0) :
    monPeek .reg addr n dev s = ((State.peekRegs n s .monitor addr).1, .ok, (State.peekRegs n s .monitor addr).2) := by
  have hrange : ¬ (n = 0 || 256 < n) := by
    simp only [Bool.or_eq_true, decide_eq_true_eq]
    omega
  simp only [monPeek, State.debugAccess, haligned, if_neg hrange]
  rfl

theorem monPoke_of_serving {sp : Space} {addr : Nat} {v : Word} {dev : List DevRsp} (hserving : s.draining = false) :
    monPoke sp addr v dev s = s.debugAccess .monitor sp addr 1 (some v) dev :=
  if_neg (ne_true_of_eq_false hserving)

theorem monAtticLog_of_range {off len : Nat} (hrange : off + len ≤ 0x400000 ∧ len ≤ 4064) :
    monAtticLog off len s = (toWords 1024 (s.logBytes off len), .ok, s.markRead off len) :=
  if_neg (by simp only [Bool.or_eq_true, decide_eq_true_eq]; omega)

theorem monRegs_of_lt {n bound : Nat} (hn : n < bound) (offs : List Nat) :
    monRegs (decide (n < bound)) offs s = (offs.map s.view, .ok, s) :=
  if_pos (decide_eq_true hn)

/-! ## Injection and the serial rate (R463, R470) -/

theorem monInject_of_may {checker mode : Nat} {mask : Option Word} (hserving : s.draining = false) (hmode : mode ≤ 2)
    (hcan : mode = 0 ∨ canInject checker = true) (hmay : s.mayArm checker mode = true) :
    monInject checker mode mask s = ([], .ok, (mask.elim s (s.setReg FLT_INJ_MASK)).arm checker mode) := by
  have hsound : (decide (2 < mode) || (mode != 0 && !canInject checker)) = false := by
    rw [decide_eq_false (Nat.not_lt.2 hmode)]
    rcases hcan with hzero | hinject
    · simp [hzero]
    · simp [hinject]
  cases mask <;>
    simp only [monInject, hserving, hsound, hmay, Bool.not_true, Bool.false_eq_true, if_false, Option.elim_none, Option.elim_some]

theorem monBaud_of_code {rate c : Nat} (hcode : baudCode rate = some c) :
    monBaud rate s = ([], .ok, s.mapDbg fun d => { d with baud := some c }) := by
  simp only [monBaud, hcode]

theorem exec_baudChange_of_set {c : Nat} (hset : s.dbg.baud = some c) :
    exec .baudChange s = .next ((s.setFld DBG_MON_CFG_fBAUD c).mapDbg fun d => { d with baud := none }) := by
  change execBaudChange s = _
  simp only [execBaudChange, hset]

/-! ## The lifecycle (R466, R468) -/

theorem monAdvance_of_may (hmay : s.mayAdvance = true) :
    monAdvance s = ([(s.newChal false).1.setWidth 32], .ok, (s.newChal false).2) := by
  simp only [monAdvance, hmay, Bool.not_true, Bool.false_eq_true, if_false]

theorem monAdvance_of_not_may (hlast : s.mayAdvance = false) : monAdvance s = s.lifeDeny := by
  simp only [monAdvance, hlast, Bool.not_false, if_true]

theorem monConfirm_of_chal {code : B16} {t0 : Nat} (hchal : s.dbg.chal = some (false, code, t0)) (hin : s.now ≤ t0 + 10000000000) :
    monConfirm code s = ([], .ok, s.blowFuses) := by
  have hmeets : s.chalMeets false code = true := by
    simp only [State.chalMeets, hchal, beq_self_eq_true, hin, decide_true, Bool.and_self]
  exact if_pos hmeets

/-! ## Packets and lines (R429, R473) -/

theorem State.monDermel_of_up {pkt : List Byte} (hup : s.monUp = true) :
    s.monDermel pkt = (s.dropChal false).mapCmds fun c => { c with monitor := c.monitor ++ [⟨pkt, none⟩] } := by
  simp only [State.monDermel, hup, Bool.not_true, Bool.false_eq_true, if_false]

theorem exec_monitorLine_of_running {line : List Byte} (hst : s.pwr.st ≠ .reset) :
    exec (.monitorLine line) s = .next (
      let u := if s.flag DBG_MON_CFG_fECHO then s.emit (.monEcho line) else s
      if 16384 < s.dbg.rx.foldl (fun n l => n + l.length) 0 + line.length then
        (u.bump DBG_MON_STAT_fRX_DROP).monSay [] .overflow
      else (u.mapDbg fun d => { d with rx := d.rx ++ [line] }).pumpLines) := by
  change execMonitorLine line s = _
  simp only [execMonitorLine, beq_false_of_ne hst, Bool.false_eq_true, if_false]

end

end Sys2Proof.Machine

namespace Sys2Proof.Proofs

open Sys2Proof Sys2Proof.Machine

/-- Settles O14: a command that the monitor serves says what the command's own function gives where the clause's conditions hold. -/
theorem monitorCommandsComplete : Obligations.MonitorCommandsComplete := by
  unfold Obligations.MonitorCommandsComplete
  refine ⟨?peekPoke, ?peekReg, ?attic, ?atticLog, ?stats, ?inject, fun _ _ hup => congrArg _ (State.monDermel_of_up hup), ?baud,
    fun _ _ => exec_baudChange_of_set, ?advance, ?confirm, fun _ _ => exec_monitorLine_of_running⟩
  case peekPoke =>
    intro s sp addr n value dev hup hserving
    have hserves : (s.dropChal false).draining = false := by rw [State.dropChal_draining, hserving]
    exact ⟨congrArg _ (State.monRun_of_up hup rfl), congrArg _ (State.monRun_of_up hup (monPoke_of_serving hserves))⟩
  case peekReg =>
    intro s addr n dev hup hcount haligned
    exact congrArg _ (State.monRun_of_up hup (monPeek_reg hcount haligned))
  case attic =>
    rintro s _ hup rfl
    exact ⟨congrArg _ (State.monRun_of_up hup rfl), congrArg _ (State.monRun_of_up hup rfl),
      congrArg _ (State.monRun_of_up hup rfl)⟩
  case atticLog =>
    rintro s _ off len hup rfl hrange
    exact congrArg _ (State.monRun_of_up hup (monAtticLog_of_range hrange))
  case stats =>
    rintro s _ p n m w hup rfl ⟨hport, hmodule, hlink⟩
    exact ⟨congrArg _ (State.monRun_of_up hup (monRegs_of_lt hport _)),
      congrArg _ (State.monRun_of_up hup (monRegs_of_lt n.isLt _)),
      congrArg _ (State.monRun_of_up hup (monRegs_of_lt hmodule _)),
      congrArg _ (State.monRun_of_up hup (monRegs_of_lt hlink _))⟩
  case inject =>
    rintro s _ checker arm mask hup rfl hserving hmode hcan hmay
    have hrun := State.monRun_of_up hup (monInject_of_may (mask := mask) hserving hmode hcan hmay)
    cases mask <;> exact congrArg _ hrun
  case baud =>
    intro s rate c hup hcode
    exact congrArg _ (State.monRun_of_up hup (monBaud_of_code hcode))
  case advance =>
    rintro s _ t hup rfl
    split
    next hmay => exact congrArg _ (State.monRun_of_up (s := s.at t) hup (monAdvance_of_may hmay))
    next hlast => exact congrArg _ (State.monRun_of_up (s := s.at t) hup (monAdvance_of_not_may (eq_false_of_ne_true hlast)))
  case confirm =>
    intro s t code t0 hup hchal hin
    exact congrArg _ (State.monRun_confirm_of_up (s := s.at t) hup (monConfirm_of_chal hchal hin))

end Sys2Proof.Proofs
end

section
/-! The events of ports and lanes: training, changes of rate and width, adaptation and the controls of a port, margining, resets, device
timeouts and recoveries (R290 to R310, R314, R315, R333 to R335, R469, R547, R564). -/

namespace Sys2Proof.Machine

/-! ## Training and the changes of a link (R290 to R294) -/

section
variable {s : State} {port : Port} {t : Nat}

theorem exec_linkUp_of_mayTrain {info : LinkInfo} (hmay : (s.at t).mayTrain port.toNat info = true) :
    exec (.linkUp port t info) s = .next (
      if (s.at t).tooNarrow port.toNat info.width.toNat then
        ((((s.at t).setFld (PRT_LINK_STAT_fSTATE port.toNat) 0).bump (PRT_LINK_EVT_fDOWN_CNT port.toNat)).setFld
          (PRT_LINK_EVT_fDOWN_SEEN port.toNat) 1).holdNarrow port.toNat
      else ((s.at t).linkTrained port.toNat info).linkOpens port.toNat info) := by
  change execLinkUp port t info s = _
  simp only [execLinkUp, hmay, Bool.not_true, Bool.false_eq_true, if_false, apply_ite Host.Outcome.next]

/-- Once the second for which the port is held off is over, it may train again (R292). -/
theorem exec_widthRetry_of_due {e : Nat} (hheld : (s.port port.toNat).retryAt = some e) (hdue : e ≤ (s.at t).now) :
    exec (.widthRetry port t) s = .next (
      let u := (s.at t).mapPort port.toNat fun x => { x with retryAt := none }
      if (s.at t).inL0 port.toNat then u else u.setFld (PRT_LINK_STAT_fSTATE port.toNat) (u.idleState port.toNat)) := by
  have hheld' : ((s.at t).port port.toNat).retryAt = some e := hheld
  change execWidthRetry port t s = _
  simp only [execWidthRetry, hheld', hdue, if_true]

theorem exec_partnerChange_of_l0 {rw : RateWidth} {below : Bool} (hup : s.inL0 port.toNat = true) :
    exec (.partnerChange port rw below) s = .next (
      let u := ((((s.recover port.toNat).lanesChange port.toNat rw.rate.toNat rw.width.toNat).setFld (PRT_LINK_STAT_fRATE port.toNat)
        rw.rate.toNat).setFld (PRT_LINK_STAT_fWIDTH port.toNat) rw.width.toNat).setFld (PRT_LINK_EVT_fPARTNER_CHANGE port.toNat) 1
      let c := if below then u.setFld (PRT_LINK_EVT_fRATE_DEGRADED port.toNat) 1 else u
      if c.tooNarrow port.toNat rw.width.toNat then (c.linkDown port.toNat 0).holdNarrow port.toNat else c.endLinkSet port.toNat) := by
  change execPartnerChange port rw below s = _
  simp only [execPartnerChange, hup, Bool.not_true, Bool.false_eq_true, if_false]

/-- Lock is lost on every active lane at once (log 173). -/
theorem exec_linkRecovery_of_l0 {lock retry : Bool} (hup : s.inL0 port.toNat = true) :
    exec (.linkRecovery port lock retry) s = .next (
      let u := s.recover port.toNat
      let c := if lock then (s.portLanes port.toNat).foldl (fun a l =>
        if a.flag (LNG_LANE_STAT_fACTIVE (l / 8) (l % 8)) then a.bump (LNG_LANE_ERR_fLOCK_LOSS (l / 8) (l % 8)) else a) u else u
      if retry then c.replays port.toNat else c) := by
  change execLinkRecovery port lock retry s = _
  simp only [execLinkRecovery, hup, Bool.not_true, Bool.false_eq_true, if_false]

/-! ## Lanes (R297 to R300) -/

theorem exec_adaptationStep_of_active {lane : Lane} {up : Option Bool}
    (hactive : s.flag (LNG_LANE_STAT_fACTIVE (lane.toNat / 8) (lane.toNat % 8)) = true)
    (hgoes : s.flag (LNG_LANE_STAT_fADAPT_STOP (lane.toNat / 8) (lane.toNat % 8)) = false) :
    exec (.adaptationStep lane up) s = .next ((s.setFld (LNG_LANE_EQ_fCTLE (lane.toNat / 8) (lane.toNat % 8))
      (ctleMove up (s.fld (LNG_LANE_EQ_fCTLE (lane.toNat / 8) (lane.toNat % 8))))).adaptTaps lane.toNat (s.laneRate lane.toNat)) :=
  congrArg _ (if_pos (by rw [hactive, hgoes]; rfl))

/-- A margining of the switch's own has a lane (R300). -/
def State.marginsLane (s : State) (l : Nat) : Bool :=
  s.allPorts.any fun p => (s.port p).margin.any fun m => (s.maskLanes p m.1).contains l

theorem exec_partnerMarginRequest_of_active {lane : Lane}
    (hactive : s.flag (LNG_LANE_STAT_fACTIVE (lane.toNat / 8) (lane.toNat % 8)) = true) :
    exec (.partnerMarginRequest lane) s = .next (
      if s.marginsLane lane.toNat then s.emit (.marginStatus lane.toNat true)
      else (s.setMargin [lane.toNat] true).emit (.marginStatus lane.toNat false)) := by
  change execPartnerMarginRequest lane s = _
  simp only [execPartnerMarginRequest, hactive, Bool.not_true, Bool.false_eq_true, if_false]
  rfl

/-- The oldest margining of the port ends. -/
theorem exec_marginDwellEnd_of_margin {errors : List (BitVec 6)} {m : Nat × Nat} {ms : List (Nat × Nat)} {r : WorkRes} {u : State}
    (holdest : (s.port port.toNat).margin = m :: ms) (hend : s.endMargin port.toNat m errors = (r, u)) :
    exec (.marginDwellEnd port errors) s = .next (u.finishWork (.margin port.toNat m.1) r.status r.data) := by
  change execMarginDwellEnd port errors s = _
  simp only [execMarginDwellEnd, holdest, hend]

/-! ## Resets (R302, R305) -/

theorem exec_hotResetReceived_of_up (hrole : s.role port.toNat = roleUpstream ∨ s.role port.toNat = roleFabric)
    (hstate : s.fld (PRT_LINK_STAT_fSTATE port.toNat) ≠ 0) :
    exec (.hotResetReceived port t) s = .next ((s.at t).linkDown port.toNat 1) := by
  refine congrArg _ (if_pos ?_)
  rw [Bool.and_eq_true, Bool.or_eq_true, beq_iff_eq, beq_iff_eq, bne_iff_ne]
  exact ⟨hrole, hstate⟩

/-! ## Pool devices (R333 to R335, R564) -/

/-- A response that is already in the Vestibule keeps its request from timing out (R334). -/
theorem exec_poolDeviceTimeout_of_due {req h d : Nat} {r : MemReq} (hreq : s.home.memq.find? (fun r => r.id == req) = some r)
    (htgt : r.tgt = .dev h d) (hsent : r.sent = true)
    (hdue : s.fld (PRT_PROTO_CFG_fPD_TMO (s.devPort h)) * 100000 ≤ (s.at t).now - r.t0) (hopen : s.answered r = false) :
    exec (.poolDeviceTimeout req t) s = .next (
      let p := s.devPort h
      let u := (((s.at t).record { checker := 0x5000, source := 11, unit := h + p * 256, tag := (s.at t).memTag r, addr := r.line * 64 }).failMem
        r).mapPort p fun x => { x with quar := x.quar ++ [r.id] }
      let c := u.setFld (PRT_PROTO_STAT_fQUAR p) (u.port p).quar.length
      if 64 ≤ (u.port p).quar.length then c.linkDown p 1 else c) := by
  have hover : (!r.sent || decide ((s.at t).now - r.t0 < (s.at t).fld (PRT_PROTO_CFG_fPD_TMO ((s.at t).devPort h)) * 100000) ||
      (s.at t).answered r) = false := by
    rw [hsent, show (s.at t).answered r = false from hopen, Bool.or_false]
    exact decide_eq_false (Nat.not_lt.2 hdue)
  change execPoolDeviceTimeout req t s = _
  simp only [execPoolDeviceTimeout, State.at_home, hreq, htgt]
  exact if_neg (ne_true_of_eq_false hover)

/-- The device's link has not come back within the wait after a warm reset (R564). -/
theorem exec_poolLinkWaitExpiry_of_due {h e : Nat} {d : PoolDev} (hdev : s.devAt port.toNat = some (h, d)) (hwaits : d.awaitLink = true)
    (hlimit : s.pwr.poolWait = some e) (hdue : e ≤ (s.at t).now) :
    exec (.poolLinkWaitExpiry port t) s = .next (((s.at t).lostDev h).dropDev h) := by
  have hdev' : (s.at t).devAt port.toNat = some (h, d) := hdev
  change execPoolLinkWaitExpiry port t s = _
  simp only [execPoolLinkWaitExpiry, State.at_pwr, hlimit, hdev', hwaits, hdue, decide_true, Bool.and_self, if_true]

end

end Sys2Proof.Machine

namespace Sys2Proof.Proofs

open Sys2Proof Sys2Proof.Machine

/-- Settles O30: a link event takes the branch that the clause's conditions open, and an accepted write has its effect on the port. -/
theorem portTrainingCompletes : Obligations.PortTrainingCompletes := by
  unfold Obligations.PortTrainingCompletes
  refine ⟨?up, ?narrow, fun _ _ _ => rfl, ?widthRetry, fun _ _ _ _ hup _ => exec_partnerChange_of_l0 hup,
    fun _ _ _ => exec_adaptationStep_of_active, ?retrain, ?hotReset, ?disable, ?enable, ?freeze⟩
  case up =>
    intro s port t info hmay hwide
    rw [exec_linkUp_of_mayTrain hmay, if_neg (ne_true_of_eq_false hwide)]
  case narrow =>
    intro s port t info hmay hnarrow
    rw [exec_linkUp_of_mayTrain hmay, if_pos hnarrow]
    rfl
  case widthRetry =>
    rintro s _ port t e hheld hdue rfl
    exact exec_widthRetry_of_due hheld hdue
  case retrain =>
    intro s path port hopen hup
    change execRetrain path port s = _
    rw [execRetrain, regWrite_accepted _ _ hopen, if_pos hup]
  case hotReset =>
    intro s path port hopen hrole hup
    change execHotReset path port s = _
    rw [execHotReset, regWrite_accepted _ _ hopen, State.sendHotReset_of_l0 hrole hup]
  case disable =>
    intro s path port t hopen hexists
    change execDisable path port true t s = _
    rw [execDisable, regWrite_accepted _ _ hopen, State.setDisable_of_exists hexists, if_pos rfl]
  case enable =>
    rintro s _ path port t hopen hexists rfl hdown hfree
    change execDisable path port false t s = _
    rw [execDisable, regWrite_accepted _ _ hopen, State.setDisable_of_exists hexists]
    simp only [hdown, hfree, Option.isSome_none, Bool.or_self, Bool.false_eq_true, if_false]
  case freeze =>
    intro s path group on hopen
    change execFreeze path group on s = _
    rw [execFreeze, regWrite_accepted _ _ hopen]
    rfl

/-- Settles O31: each event takes the branch that the clause's conditions open. -/
theorem portEventsComplete : Obligations.PortEventsComplete := by
  unfold Obligations.PortEventsComplete
  refine ⟨?margins, ?busy, fun _ _ _ _ _ _ _ => exec_marginDwellEnd_of_margin, fun _ _ _ => exec_hotResetReceived_of_up, ?perst,
    ?deviceTimeout, fun _ _ _ _ _ _ => exec_poolLinkWaitExpiry_of_due, fun _ _ _ _ => exec_linkRecovery_of_l0⟩
  case margins =>
    intro s lane hactive hfree
    exact (exec_partnerMarginRequest_of_active hactive).trans (congrArg _ (if_neg (ne_true_of_eq_false hfree)))
  case busy =>
    intro s lane hactive howned
    exact (exec_partnerMarginRequest_of_active hactive).trans (congrArg _ (if_pos howned))
  case perst =>
    rintro s _ n t rfl
    exact ⟨rfl, rfl⟩
  case deviceTimeout =>
    rintro s _ req t h d _ r hreq htgt rfl hsent hdue hopen rfl
    exact exec_poolDeviceTimeout_of_due hreq htgt hsent hdue hopen

end Sys2Proof.Proofs
end

section
/-! Flits of an OPF module in traffic and in retraining (R341 to R358). -/

namespace Sys2Proof.Machine

/-! ## Registers and links at a given instant -/

@[simp] theorem State.at_flag (s : State) (t : Nat) (f : RegF) : (s.at t).flag f = s.flag f := rfl
@[simp] theorem State.at_lend (s : State) (t k : Nat) : (s.at t).lend k = s.lend k := rfl
@[simp] theorem State.at_lineState (s : State) (t k : Nat) : (s.at t).lineState k = s.lineState k := rfl
@[simp] theorem State.at_lineUp (s : State) (t k : Nat) : (s.at t).lineUp k = s.lineUp k := rfl

/-! ## The check of what arrives (R349) -/

/-- What arrives bad on an OPF module, with no error injected there, is counted, and recorded as corrected by the replay (log 64). -/
theorem State.linkCheck_of_bad {s u : State} {k w : Nat} (hopf : k < 98) (hcheck : s.check1 (linkChecker k) w false = (.clean, u)) :
    s.linkCheck k w false = (false, (u.bumpCrc k).record {
      checker := linkChecker k, cls := 0, source := 3, unit := k / 2, transient := true, injected := false }) := by
  simp only [State.linkCheck, hcheck, hopf, Bool.false_and, Bool.false_eq_true, if_false, if_true, bne_self_eq_false]

section
variable {s u : State} {e : OpfEnd} {t : Nat}

/-- The guard of the flits of a module that is UP, as their meanings test it. -/
theorem State.opfOpen_of_up (hopf : opfKey e < 96) (hup : s.lineUp (opfKey e) = true) :
    (decide (96 ≤ opfKey e) || !s.lineUp (opfKey e)) = false := by
  rw [decide_eq_false (Nat.not_le.2 hopf), hup]
  rfl

/-! ## Flits in traffic (R342, R348, R353) -/

/-- A good flit gives its link fields, and its payload if it is the next expected one. -/
theorem exec_opfFlit_of_good {f : OpfFlit} (hopf : opfKey e < 96) (hup : (s.at t).lineUp (opfKey e) = true)
    (hcheck : ((s.at t).sentFlit (peerEnd (opfKey e)) f).linkCheck (opfKey e) 32 f.good = (true, u)) :
    exec (.opfFlit e f t) s = .next (
      let v := u.fieldsIn (opfKey e) f.ack.toNat f.crVc.toNat f.crCnt.toNat
      if f.seq.toNat = (v.lend (opfKey e)).rx then
        (v.accept (opfKey e) f.vc.toNat).streamIn (opfKey e) f.vc.toNat f.payload
      else v) := by
  change execOpfFlit e f t s = _
  simp only [execOpfFlit, State.opfOpen_of_up hopf hup, hcheck, Bool.not_true, Bool.false_eq_true, if_false]

/-- Nothing is taken of a flit that fails its check. -/
theorem exec_opfFlit_of_bad {f : OpfFlit} (hopf : opfKey e < 96) (hup : (s.at t).lineUp (opfKey e) = true)
    (hcheck : ((s.at t).sentFlit (peerEnd (opfKey e)) f).linkCheck (opfKey e) 32 f.good = (false, u)) :
    exec (.opfFlit e f t) s = .next u := by
  change execOpfFlit e f t s = _
  simp only [execOpfFlit, State.opfOpen_of_up hopf hup, hcheck, Bool.not_false, Bool.false_eq_true, if_false, if_true]

theorem exec_ackFlit_of_good {f : OpfNull} (hopf : opfKey e < 96) (hup : (s.at t).lineUp (opfKey e) = true)
    (hcheck : (s.at t).linkCheck (opfKey e) 32 f.good = (true, u)) :
    exec (.ackFlit e f t) s = .next (u.fieldsIn (opfKey e) f.ack.toNat f.crVc.toNat f.crCnt.toNat) := by
  change execAckFlit e f t s = _
  simp only [execAckFlit, State.opfOpen_of_up hopf hup, hcheck, Bool.false_eq_true, if_false, if_true]

theorem exec_auditFlit_of_good {f : OpfNull} {freed : List B16} (hopf : opfKey e < 96) (hup : (s.at t).lineUp (opfKey e) = true)
    (hcheck : (s.at t).linkCheck (opfKey e) 32 f.good = (true, u)) :
    exec (.auditFlit e f freed t) s =
      .next ((u.fieldsIn (opfKey e) f.ack.toNat f.crVc.toNat f.crCnt.toNat).auditIn (opfKey e) (freed.map BitVec.toNat)) := by
  change execAuditFlit e f freed t s = _
  simp only [execAuditFlit, State.opfOpen_of_up hopf hup, hcheck, Bool.false_eq_true, if_false, if_true]

/-! ## Retraining (R355 to R358) -/

section
variable {f : OpfNull} {reason die : Byte} {wordsA wordsB : List B64} {verifyA verifyB : Bool}

/-- A request on a module that is UP starts the retraining; its wires are tested at once (log 200). -/
theorem exec_rtrqFlit_of_up (hopf : opfKey e < 96) (hup : (s.at t).lineState (opfKey e) = 1)
    (hcheck : (s.at t).linkCheck (opfKey e) 32 f.good = (true, u)) :
    exec (.rtrqFlit e f reason die wordsA wordsB verifyA verifyB t) s = .next (
      ((((u.fieldsIn (opfKey e) f.ack.toNat f.crVc.toNat f.crCnt.toNat).beginRetrain (opfKey e) reason.toNat).mapLend
        (peerEnd (opfKey e)) fun x => { x with asked := true }).sendRtrq (opfKey e) reason.toNat).testWires e.m.val wordsA wordsB
          verifyA verifyB) := by
  change execRtrqFlit e f reason die wordsA wordsB verifyA verifyB t s = _
  simp only [execRtrqFlit, hup, hcheck, decide_eq_false (Nat.not_le.2 hopf)]
  rfl

/-- A request on a module that retrains and is not tested yet is answered if no request has gone out, and the wires are tested. -/
theorem exec_rtrqFlit_of_retrain (hopf : opfKey e < 96) (hretrains : (s.at t).lineState (opfKey e) = 2)
    (hcheck : (s.at t).linkCheck (opfKey e) 32 f.good = (true, u))
    (huntested : (u.fieldsIn (opfKey e) f.ack.toNat f.crVc.toNat f.crCnt.toNat).links.listed.contains e.m.val = false) :
    exec (.rtrqFlit e f reason die wordsA wordsB verifyA verifyB t) s = .next (
      let v := u.fieldsIn (opfKey e) f.ack.toNat f.crVc.toNat f.crCnt.toNat
      let w := if die.toNat < endDie (opfKey e) then v.setFld (OPF_MOD_STAT_fLAST_REASON e.m.val) reason.toNat else v
      let x := if (w.lend (opfKey e)).asked then w else w.sendRtrq (opfKey e) reason.toNat
      x.testWires e.m.val wordsA wordsB verifyA verifyB) := by
  change execRtrqFlit e f reason die wordsA wordsB verifyA verifyB t s = _
  simp only [execRtrqFlit, hretrains, hcheck, huntested, decide_eq_false (Nat.not_le.2 hopf)]
  rfl

end

/-- A SYNC once the tests are done resynchronises the sender, and the module is UP when the other end has its SYNC too. -/
theorem exec_syncFlit_of_tested {f : OpfNull} {next : BitVec 12} {free : List B16} (hopf : opfKey e < 96)
    (hretrains : (s.at t).lineState (opfKey e) = 2) (htested : s.links.listed.contains e.m.val = true)
    (hcheck : (s.at t).linkCheck (opfKey e) 32 f.good = (true, u)) :
    exec (.syncFlit e f next free t) s = .next (
      let v := u.resync (opfKey e) next.toNat (free.map BitVec.toNat)
      if (v.lend (peerEnd (opfKey e))).sync then v.goUp (opfKey e) else v) := by
  change execSyncFlit e f next free t s = _
  simp only [execSyncFlit, State.at_links, hretrains, htested, hcheck, decide_eq_false (Nat.not_le.2 hopf)]
  rfl

end

end Sys2Proof.Machine

namespace Sys2Proof.Proofs

open Sys2Proof Sys2Proof.Machine

/-- Settles O32: a flit that the module's state lets in passes its check and takes the branch of its SEQ, of the tests or of the
other end's SYNC. -/
theorem opfFlitsComplete : Obligations.OpfFlitsComplete := by
  unfold Obligations.OpfFlitsComplete
  refine ⟨?inSequence, ?outOfSequence, ?bad, fun _ _ _ _ _ => exec_ackFlit_of_good, fun _ _ _ _ _ _ => exec_auditFlit_of_good,
    fun _ _ _ _ _ _ _ _ _ _ _ => exec_rtrqFlit_of_up, fun _ _ _ _ _ _ _ _ _ _ _ => exec_rtrqFlit_of_retrain, ?inStep, ?otherEndNotYet⟩
  case inSequence =>
    intro s u e f t hopf hup hcheck hseq
    exact (exec_opfFlit_of_good hopf hup hcheck).trans (congrArg _ (if_pos hseq))
  case outOfSequence =>
    intro s u e f t hopf hup hcheck hseq
    exact (exec_opfFlit_of_good hopf hup hcheck).trans (congrArg _ (if_neg hseq))
  case bad =>
    intro s u e f t hopf hup hclean hbad
    refine exec_opfFlit_of_bad hopf hup ?_
    rw [hbad]
    exact State.linkCheck_of_bad (Nat.lt_of_lt_of_le hopf (by decide)) hclean
  case inStep =>
    intro s u e f next free t hopf hretrains htested hcheck hsync
    exact (exec_syncFlit_of_tested hopf hretrains htested hcheck).trans (congrArg _ (if_pos hsync))
  case otherEndNotYet =>
    intro s u e f next free t hopf hretrains htested hcheck hsync
    exact (exec_syncFlit_of_tested hopf hretrains htested hcheck).trans (congrArg _ (if_neg (ne_true_of_eq_false hsync)))

end Sys2Proof.Proofs
end

section
/-! Packets, ordered sets and training of a link of the Stairwell kind (R344 to R362, R374). -/

namespace Sys2Proof.Machine

/-- What an accepted packet brings: control traffic on SW0 to SW3, nothing more on module 48 (R374). -/
def State.packetIn (s : State) (p : StwPkt) : SwLink → State
  | .sw n => s.ctlIn n.toNat (p.words.flatMap fun w => leBytes 4 w.toNat)
  | .mod48 => s

/-- The ends of SW0 to SW3 have numbers beyond those of the modules. -/
theorem sw_not_module (n : Nat) : ¬ 100 + n < 98 := by omega

section
variable {s u : State} {c : CtlSet} {t : Nat}

/-! ## Traffic (R345, R346, R353) -/

/-- A good packet that is the next expected one is accepted. -/
theorem exec_stairwellPacket_of_expected {l : SwLink} {p : StwPkt} (hup : (s.at t).lineUp (swKey l) = true)
    (hcheck : ((s.at t).codeErrors (swKey l) p.codeErrs).linkCheck (swKey l) 32 p.good = (true, u))
    (hseq : p.seq.toNat = ((u.fieldsIn (swKey l) p.ack.toNat p.crVc.toNat p.crCnt.toNat).lend (swKey l)).rx) :
    exec (.stairwellPacket l p t) s = .next
      (((u.fieldsIn (swKey l) p.ack.toNat p.crVc.toNat p.crCnt.toNat).accept (swKey l) p.vc.toNat).packetIn p l) := by
  change execStairwellPacket l p t s = _
  simp only [execStairwellPacket, hup, hcheck, ← hseq, bne_self_eq_false, Bool.not_true, Bool.false_eq_true, if_false]
  cases l <;> rfl

theorem exec_ctlAck_of_good {ack : BitVec 12} {crVc : BitVec 2} {crCnt : BitVec 4} (hup : (s.at t).lineUp (swKey c.link) = true)
    (hcheck : (s.at t).linkCheck (swKey c.link) 8
      (ctlGood 1 (leBytes 2 ack.toNat ++ leBytes 1 (crVc.toNat + 4 * crCnt.toNat)) c.crc) = (true, u)) :
    exec (.ctlAck c ack crVc crCnt t) s = .next (u.fieldsIn (swKey c.link) ack.toNat crVc.toNat crCnt.toNat) := by
  change execCtlAck c ack crVc crCnt t s = _
  simp only [execCtlAck, hup, hcheck, Bool.not_true, Bool.false_eq_true, if_false, if_true]

theorem exec_ctlAudit_of_good {freed : List B16} (hup : (s.at t).lineUp (swKey c.link) = true)
    (hcheck : (s.at t).linkCheck (swKey c.link) 8 (ctlGood 2 (freed.flatMap fun v => leBytes 2 v.toNat) c.crc) = (true, u)) :
    exec (.ctlAudit c freed t) s = .next (u.auditIn (swKey c.link) (freed.map BitVec.toNat)) := by
  change execCtlAudit c freed t s = _
  simp only [execCtlAudit, hup, hcheck, Bool.not_true, Bool.false_eq_true, if_false, if_true]

/-! ## Retraining (R360, R362) -/

/-- A good request starts the retraining of a link that is up and is answered; on a link that trains this end, which has not asked
yet, asks too. -/
theorem exec_ctlRtrq_of_good {rank : B16} {id : Fid} {reason : Byte}
    (hopen : ((s.at t).lineUp (swKey c.link) || (s.at t).training (swKey c.link)) = true)
    (hcheck : (s.at t).linkCheck (swKey c.link) 8 (ctlGood 3 (rtrqData rank id reason) c.crc) = (true, u))
    (hfirst : u.lineUp (swKey c.link) = true ∨ (u.lend (swKey c.link)).asked = false) :
    exec (.ctlRtrq c rank id reason t) s = .next (
      if u.lineUp (swKey c.link) then
        ((u.beginRetrain (swKey c.link) reason.toNat).sendRtrq (swKey c.link) reason.toNat).emit
          (.ctl (swKey c.link) 4 [s.fab.rank, s.me, reason.toNat])
      else u.sendRtrq (swKey c.link) reason.toNat) := by
  change execCtlRtrq c rank id reason t s = _
  simp only [execCtlRtrq, hopen, hcheck, Bool.not_true, Bool.false_eq_true, if_false]
  split
  next => rfl
  next hdown => simp only [hfirst.resolve_left hdown, Bool.false_eq_true, if_false]

/-! ## Training (R346, R358, R360) -/

section
variable {rank : B16} {id : Fid} {reason crc : Byte} {k : Nat}

/-- A good training set of SW0 to SW3 names the peer; the sixteenth in a row sends the SYNC. -/
theorem exec_trn_of_sw {n : SLink} (htrains : (s.at t).training (100 + n.toNat) = true)
    (hcheck : (s.at t).linkCheck (100 + n.toNat) 8 (ctlGood 4 (rtrqData rank id reason) crc) = (true, u))
    (hcount : (u.lend (100 + n.toNat)).trn = k) :
    exec (.trn ⟨.sw n, crc⟩ rank id reason t) s = .next (
      let v := ((((u.mapLend (100 + n.toNat) fun e => { e with trn := k + 1 }).setFld (STW_LNK_STAT_fPEER_RANK n.toNat) rank.toNat).setFld
        (STW_LNK_PEER_fPEER_ID n.toNat) id.toNat).setFld (STW_LNK_STAT_fLOCK n.toNat) 1).setFld (STW_LNK_STAT_fALIGNED n.toNat) 1
      if k = 15 then v.sendSync (100 + n.toNat) else v) := by
  change execTrn ⟨.sw n, crc⟩ rank id reason t s = _
  simp only [execTrn, swKey, htrains, hcheck, hcount, sw_not_module, Nat.add_sub_cancel_left, Nat.reduceEqDiff, Bool.not_true,
    Bool.false_eq_true, if_false]

/-- Module 48 has no register of its peer. -/
theorem exec_trn_of_mod48 (htrains : (s.at t).training 96 = true)
    (hcheck : (s.at t).linkCheck 96 8 (ctlGood 4 (rtrqData rank id reason) crc) = (true, u)) (hcount : (u.lend 96).trn = k) :
    exec (.trn ⟨.mod48, crc⟩ rank id reason t) s = .next (
      if k = 15 then (u.mapLend 96 fun e => { e with trn := k + 1 }).sendSync 96 else u.mapLend 96 fun e => { e with trn := k + 1 }) := by
  change execTrn ⟨.mod48, crc⟩ rank id reason t s = _
  simp only [execTrn, swKey, htrains, hcheck, hcount, Nat.reduceLT, Nat.reduceEqDiff, Bool.not_true, Bool.false_eq_true, if_false,
    if_true]

end

/-- What the link's coming up brings: a wiring fault of SW0 to SW3 where two ends of the same orientation meet in training (R369),
the Doorway's return on module 48 (R361). -/
def State.syncedWith (s v : State) (even : Bool) : SwLink → State
  | .sw n =>
    if s.lineState (100 + n.toNat) == 1 && even == (n.toNat % 2 == 0) then
      v.record { checker := 0x4f00, source := 4, unit := n.toNat } else v
  | .mod48 => v.mod48Return

/-- A SYNC after sixteen training sets resynchronises the sender and takes the link up. -/
theorem exec_ctlSync_of_trained {next : BitVec 12} {free : List Byte} {even : Bool}
    (htrains : (s.at t).training (swKey c.link) = true) (htrained : 16 ≤ ((s.at t).lend (swKey c.link)).trn)
    (hcheck : (s.at t).linkCheck (swKey c.link) 8 (ctlGood 5 (leBytes 2 next.toNat ++ free) c.crc) = (true, u)) :
    exec (.ctlSync c next free even t) s = .next
      ((s.at t).syncedWith ((u.resync (swKey c.link) next.toNat (free.map BitVec.toNat)).goUp (swKey c.link)) even c.link) := by
  obtain ⟨l, crc⟩ := c
  change execCtlSync ⟨l, crc⟩ next free even t s = _
  simp only [execCtlSync, htrains, decide_eq_false (Nat.not_lt.2 htrained), hcheck, Bool.not_true, Bool.or_self, Bool.false_eq_true,
    if_false]
  cases l <;> rfl

end

end Sys2Proof.Machine

namespace Sys2Proof.Proofs

open Sys2Proof Sys2Proof.Machine

/-- Settles O33: what arrives on a link in the state that takes it passes its check, and what follows depends on the link alone. -/
theorem stairwellPacketsComplete : Obligations.StairwellPacketsComplete := by
  unfold Obligations.StairwellPacketsComplete
  refine ⟨fun _ _ n _ _ => exec_stairwellPacket_of_expected (l := .sw n), fun _ _ _ _ => exec_stairwellPacket_of_expected (l := .mod48),
    fun _ _ _ _ _ _ _ => exec_ctlAck_of_good, fun _ _ _ _ _ => exec_ctlAudit_of_good, ?requestUp, ?requestTraining,
    fun _ _ _ _ _ _ _ _ _ => exec_trn_of_sw, fun _ _ _ _ _ _ _ _ => exec_trn_of_mod48,
    fun _ _ n _ _ crc _ _ => exec_ctlSync_of_trained (c := ⟨.sw n, crc⟩),
    fun _ _ _ _ crc _ _ => exec_ctlSync_of_trained (c := ⟨.mod48, crc⟩)⟩
  case requestUp =>
    intro s u c rank id reason t hup hcheck hstill
    rw [exec_ctlRtrq_of_good (by rw [hup, Bool.true_or]) hcheck (.inl hstill), if_pos hstill]
  case requestTraining =>
    intro s u c rank id reason t htrains hcheck hdown hquiet
    rw [exec_ctlRtrq_of_good (by rw [htrains, Bool.or_true]) hcheck (.inr hquiet), if_neg (ne_true_of_eq_false hdown)]

end Sys2Proof.Proofs
end

section
/-! The timers of link ends and the controls of a Stairwell link (R348 to R353, R359, R360, R367). -/

namespace Sys2Proof.Machine

@[simp] theorem State.at_mayTrainSw (s : State) (t k : Nat) : (s.at t).mayTrainSw k = s.mayTrainSw k := rfl

/-! ## Ends that the model holds -/

theorem isEnd_of_opf {k : Nat} (hopf : k < 96) : isEnd k = true := by
  rw [isEnd, decide_eq_true (Nat.le_of_lt hopf), Bool.true_or]

theorem isEnd_of_sw (n : Nat) : isEnd (100 + n) = true := by
  rw [isEnd, decide_eq_true (Nat.le_add_right 100 n), Bool.or_true]

/-- No link of the Stairwell kind is an OPF module's. -/
theorem swKey_not_opf (l : SwLink) : ¬ swKey l < 96 := by
  cases l with
  | sw n => exact fun hopf => sw_not_module n.toNat (Nat.lt_trans hopf (by decide))
  | mod48 => decide

/-! ## Replay and acknowledgement (R348, R350, R351) -/

/-- A replay timer that has run its timeout: the unacknowledged packets go out again, and the fourth expiry asks for a retrain. -/
theorem exec_replayTimeout_of_due {s : State} {l : SwLink ⊕ OpfEnd} {t t0 : Nat} (htimer : ((s.at t).lend (anyKey l)).timer = some t0)
    (hend : isEnd (anyKey l) = true) (hup : (s.at t).lineUp (anyKey l) = true)
    (hdue : t0 + (s.at t).replayTmo (anyKey l) ≤ (s.at t).now) :
    exec (.replayTimeout l t) s = .next (
      let k := anyKey l
      let n := ((s.at t).lend k).expiries + 1
      let u := ((s.at t).mapLend k fun e => { e with expiries := n, timer := some (s.at t).now }).burst k
      let v := if k < 98 then u.bump (OPF_MOD_ERR_fREPLAY_CNT (k / 2)) else u.bump (STW_LNK_ERR_fREPLAY_CNT (k - 100))
      if 4 ≤ n then v.wantRetrain k 1 else v) := by
  change execReplayTimeout l t s = _
  simp only [execReplayTimeout, htimer, hend, hup, decide_eq_false (Nat.not_lt.2 hdue), Bool.not_true, Bool.or_self,
    Bool.false_eq_true, if_false]

theorem exec_standaloneAck_of_owed {s u : State} {l : SwLink ⊕ OpfEnd} {t : Nat} {r : Nat × Nat} (hend : isEnd (anyKey l) = true)
    (hup : (s.at t).lineUp (anyKey l) = true) (hsilent : ((s.at t).lend (anyKey l)).sentT + 64 ≤ (s.at t).now)
    (howed : (((s.at t).lend (anyKey l)).ackDue || ((s.at t).lend (anyKey l)).owe.any fun p => p.2 != 0) = true)
    (htake : (s.at t).takeReturns (anyKey l) = (r, u)) :
    exec (.standaloneAck l t) s = .next (u.emit (if anyKey l < 96 then .null (anyKey l) 0 (u.lend (anyKey l)).ack r.1 r.2 []
      else .ctl (anyKey l) 1 [(u.lend (anyKey l)).ack, r.1, r.2])) := by
  change execStandaloneAck l t s = _
  simp only [execStandaloneAck, hend, hup, decide_eq_false (Nat.not_lt.2 hsilent), howed, htake, Bool.not_true, Bool.or_self,
    Bool.false_eq_true, if_false]

/-! ## Audits (R353) -/

/-- The freed counts of an end, by virtual channel. -/
def State.freedCounts (s : State) (k : Nat) : List Nat := (List.range (endVcs k)).map fun v => vcCount (s.lend k).freed v

theorem exec_auditInterval_of_opf {s u : State} {l : SwLink ⊕ OpfEnd} {t : Nat} {r : Nat × Nat} (hopf : anyKey l < 96)
    (hup : (s.at t).lineUp (anyKey l) = true) (hen : s.flag OPF_GCFG_fAUDIT_EN = true)
    (htake : (s.at t).takeReturns (anyKey l) = (r, u)) :
    exec (.auditInterval l t) s =
      .next (u.emit (.null (anyKey l) 1 (u.lend (anyKey l)).ack r.1 r.2 ((s.at t).freedCounts (anyKey l)))) := by
  change execAuditInterval l t s = _
  simp only [execAuditInterval, State.at_flag, isEnd_of_opf hopf, hopf, hup, hen, htake, Bool.not_true, Bool.or_self,
    Bool.false_eq_true, if_false, if_true]
  rfl

theorem exec_auditInterval_of_sw {s : State} {n : SLink} {t : Nat} (hup : (s.at t).lineUp (100 + n.toNat) = true)
    (hen : s.flag (STW_LNK_CFG_fAUDIT_EN n.toNat) = true) :
    exec (.auditInterval (.inl (.sw n)) t) s = .next ((s.at t).emit (.ctl (100 + n.toNat) 2 ((s.at t).freedCounts (100 + n.toNat)))) := by
  have hnotOpf : ¬ 100 + n.toNat < 96 := swKey_not_opf (.sw n)
  change execAuditInterval (.inl (.sw n)) t s = _
  simp only [execAuditInterval, anyKey, swKey, State.at_flag, isEnd_of_sw, hnotOpf, sw_not_module, hup, hen, Nat.add_sub_cancel_left,
    Bool.not_true, Bool.or_self, Bool.false_eq_true, if_false]
  rfl

/-! ## Limits of training (R359, R360) -/

theorem exec_retrainLimit_of_module {s : State} {m : Module} {t t0 : Nat} (hopf : m.val < 48)
    (hsince : NMap.get? s.links.since m.val = some t0)
    (hstate : (s.at t).lineState (2 * m.val) ≠ 1 ∧ (s.at t).lineState (2 * m.val) ≠ 3) (hdue : t0 + 100000 ≤ (s.at t).now) :
    exec (.retrainLimit (.inr m) t) s = .next ((s.at t).loseModule m.val) := by
  have hkey : 2 * m.val < 96 := by omega
  have hline : lineNo (2 * m.val) = m.val := by
    rw [lineNo, if_pos (by omega), Nat.mul_div_cancel_left _ (by decide)]
  change execRetrainLimit (.inr m) t s = _
  simp only [execRetrainLimit, State.at_links, hline, hsince, hkey, hdue, bne_iff_ne.2 hstate.1, bne_iff_ne.2 hstate.2,
    Nat.mul_div_cancel_left _ Nat.two_pos, decide_true, Bool.and_self, if_true]

theorem exec_retrainLimit_of_link {s : State} {l : SwLink} {t t0 : Nat} (hsince : NMap.get? s.links.since (lineNo (swKey l)) = some t0)
    (htrains : (s.at t).training (swKey l) = true) (hdue : t0 + 1000000 ≤ (s.at t).now) :
    exec (.retrainLimit (.inl l) t) s = .next ((s.at t).stairDown (swKey l)) := by
  change execRetrainLimit (.inl l) t s = _
  simp only [execRetrainLimit, State.at_links, hsince, swKey_not_opf, htrains, hdue, decide_true, Bool.and_self, if_true, if_false]

theorem exec_stairwellTrainingRetry_of_due {s : State} {l : SwLink} {t t0 : Nat}
    (hsince : NMap.get? s.links.since (lineNo (swKey l)) = some t0) (hdown : (s.at t).lineState (swKey l) = 0)
    (hmay : s.mayTrainSw (swKey l) = true) (hdue : t0 + 10000000 ≤ (s.at t).now) :
    exec (.stairwellTrainingRetry l t) s = .next ((s.at t).train (swKey l)) := by
  change execStairwellTrainingRetry l t s = _
  simp only [execStairwellTrainingRetry, State.at_links, State.at_mayTrainSw, hsince, hdown, hmay, hdue, beq_self_eq_true,
    decide_true, Bool.and_self, if_true]

/-! ## STW_LNK_CTL (R367) -/

theorem exec_stwRetrain_of_up {s : State} {path : Path} {l : SLink} (hopen : PathWrites s path) (hup : s.lineUp (100 + l.toNat) = true) :
    exec (.stwRetrain path l) s = .next (((s.beginRetrain (100 + l.toNat) 3).sendRtrq (100 + l.toNat) 3).pathAnswers path) := by
  change execStwRetrain path l s = _
  rw [execStwRetrain, regWrite_accepted _ _ hopen, State.wantRetrain, if_pos hup]

theorem exec_stwDisable_of_open {s : State} {path : Path} {l : SLink} {on : Bool} (hopen : PathWrites s path) :
    exec (.stwDisable path l on) s = .next (
      let u := s.setFld (STW_LNK_CTL_fDISABLE l.toNat) (b2n on)
      (if on && s.lineState (100 + l.toNat) != 0 then u.stairDown (100 + l.toNat) else u).pathAnswers path) := by
  change execStwDisable path l on s = _
  rw [execStwDisable, regWrite_accepted _ _ hopen]
  rfl

end Sys2Proof.Machine

namespace Sys2Proof.Proofs

open Sys2Proof Sys2Proof.Machine

/-- Settles O34: each timer that is due, and each write that is accepted, acts on its link. -/
theorem linkTimersComplete : Obligations.LinkTimersComplete :=
  ⟨fun _ _ _ _ => exec_replayTimeout_of_due, fun _ _ _ _ _ => exec_standaloneAck_of_owed, fun _ _ _ _ _ => exec_auditInterval_of_opf,
    fun _ _ _ => exec_auditInterval_of_sw, fun _ _ _ _ => exec_retrainLimit_of_module, fun _ _ _ _ => exec_retrainLimit_of_link,
    fun _ _ _ _ => exec_stairwellTrainingRetry_of_due, fun _ _ _ => exec_stwRetrain_of_up, fun _ _ _ _ => exec_stwDisable_of_open⟩

end Sys2Proof.Proofs
end

section
/-! Presence, removal, enables and trips of a Doorway channel, and module 48 (R361, R399, R401, R402, R410 to R418, R421). -/

namespace Sys2Proof.Machine

@[simp] theorem State.at_dch (s : State) (t n : Nat) : (s.at t).dch n = s.dch n := rfl
@[simp] theorem State.at_mod48Up (s : State) (t : Nat) : (s.at t).mod48Up = s.mod48Up := rfl

/-! ## Presence and removal (R402, R414, R415) -/

/-- Presence recognised, and the count of T_INS over. -/
def State.recognise (s : State) (n : Nat) : State := s.mapDch n fun y => { y with present := true, cntT := none }

section
variable {s : State} {ch : Dch} {t : Nat}

/-- PRSNT_N has been low for the whole of T_INS: a board that was not present is posted and notified (R402). -/
theorem exec_presenceRecognised_of_counted {x : Nat} (hcount : (s.dch ch.toNat).cntT = some x) (hlow : (s.dch ch.toNat).prsHigh = false)
    (hdue : x + dwNat (s.dch ch.toNat).par 14 * 1000000 ≤ (s.at t).now) :
    exec (.presenceRecognised ch t) s = .next ((if (s.dch ch.toNat).present then (s.at t).recognise ch.toNat
      else ((((s.at t).recognise ch.toNat).setFld (DWY_CH_STAT_fPRS_EDGE ch.toNat) 1).dwyEvent ch.toNat dwInsert 0).notice
        ntcInsert (leBytes 1 ch.toNat)).dwySettle ch.toNat) := by
  have hcount' : ((s.at t).dch ch.toNat).cntT = some x := hcount
  have hover : (((s.at t).dch ch.toNat).prsHigh ||
      decide ((s.at t).now < x + dwNat ((s.at t).dch ch.toNat).par 14 * 1000000)) = false := by
    rw [State.at_dch, hlow, decide_eq_false (Nat.not_lt.2 hdue), Bool.or_self]
  change execPresenceRecognised ch t s = _
  rw [execPresenceRecognised, hcount']
  exact if_neg (ne_true_of_eq_false hover)

/-- PRSNT_N has gone high on a board that was present, while the link to the Doorway is up (R414). -/
theorem exec_removal_of_present (hlow : (s.dch ch.toNat).prsHigh = false) (hpresent : (s.dch ch.toNat).present = true)
    (hup : s.mod48Up = true) :
    exec (.removal ch t) s = .next (
      let u := ((s.at t).mapDch ch.toNat fun y => { y with prsHigh := true, prsT := (s.at t).now, present := false, cntT := none }).setFld
        (DWY_CH_STAT_fPRS_EDGE ch.toNat) 1
      let v := ((u.removed ch.toNat).slotTeardown ch.toNat).dwyEvent ch.toNat dwRemove 0
      (v.notice ntcRemove (leBytes 1 ch.toNat)).pumpRamps) := by
  change execRemoval ch t s = _
  simp only [execRemoval, State.at_dch, State.at_mod48Up, hlow, hpresent, hup, Bool.false_eq_true, if_false, if_true]

end

/-! ## Module 48 (R361, R418) -/

theorem exec_module48Up_of_down {s : State} (t : Nat) (hdown : s.mod48Up = false) :
    exec (.module48Up t) s = .next (
      (s.dwy.map (·.1)).foldl (fun a n => a.takeChannel n) (((s.at t).setFld DWY_STAT_fLINK 1).setFld (OPF_MOD_STAT_fSTATE 48) 1)) :=
  congrArg _ (if_neg (ne_true_of_eq_false hdown))

end Sys2Proof.Machine

namespace Sys2Proof.Proofs

open Sys2Proof Sys2Proof.Machine

/-- Settles O40: each row is one act on its channel, or the branch that the clause's conditions open. -/
theorem doorwayPresenceAndPinsComplete : Obligations.DoorwayPresenceAndPinsComplete := by
  unfold Obligations.DoorwayPresenceAndPinsComplete
  refine ⟨fun _ _ _ => rfl, ?inserted, ?again, fun _ _ _ => exec_removal_of_present, fun _ _ _ => rfl, fun _ _ _ _ => rfl,
    ?enable, fun _ _ => rfl, fun _ => exec_module48Up_of_down⟩
  case inserted =>
    intro s ch t x hcount hlow hdue hnew
    rw [exec_presenceRecognised_of_counted hcount hlow hdue, if_neg (ne_true_of_eq_false hnew)]
    rfl
  case again =>
    intro s ch t x hcount hlow hdue hpresent
    rw [exec_presenceRecognised_of_counted hcount hlow hdue, if_pos hpresent]
    rfl
  case enable =>
    intro s path ch on t hopen
    change execDwyChEn path ch on t s = _
    rw [execDwyChEn, regWrite_accepted _ _ hopen]

end Sys2Proof.Proofs
end

section
/-! Dermel packets read back: each field of a packed header and of a parameter block, and each list that follows it (R422, R436 to R438). -/

namespace Sys2Proof.Machine

/-! ## Little-endian fields -/

@[simp] theorem length_leBytes (n v : Nat) : (leBytes n v).length = n := by
  induction n generalizing v with
  | zero => rfl
  | succ n ih => simp [leBytes, ih]

theorem leNat_take_drop_leBytes (n v off k : Nat) (h : off + k ≤ n) :
    leNat (((leBytes n v).drop off).take k) = v / 256 ^ off % 256 ^ k := by
  induction n generalizing v off k with
  | zero =>
    obtain ⟨rfl, rfl⟩ : off = 0 ∧ k = 0 := by omega
    simp [leBytes, leNat, Nat.mod_one]
  | succ n ih =>
    cases off with
    | succ off =>
      rw [leBytes, List.drop_succ_cons, ih _ _ _ (by omega), Nat.div_div_eq_div_mul, Nat.pow_succ']
    | zero =>
      cases k with
      | zero => simp [leNat, Nat.mod_one]
      | succ k =>
        have hrest := ih (v / 256) 0 k (by omega)
        rw [List.drop_zero, Nat.pow_zero, Nat.div_one] at hrest
        rw [leBytes, List.drop_zero, List.take_succ_cons, leNat, hrest, Nat.pow_zero, Nat.div_one, Nat.pow_succ', Nat.mod_mul]
        simp

/-- A field inside the first of two blocks. -/
theorem fieldAt_append_left {a b : List Byte} {off k : Nat} (h : off + k ≤ a.length) : fieldAt (a ++ b) off k = fieldAt a off k := by
  have htake : k ≤ (a.drop off).length := by rw [List.length_drop]; omega
  rw [fieldAt, fieldAt, List.drop_append_of_le_length (by omega), List.take_append_of_le_length htake]

/-- A field beyond the first of two blocks. -/
theorem fieldAt_append_right {a b : List Byte} {off k : Nat} (h : a.length ≤ off) : fieldAt (a ++ b) off k = fieldAt b (off - a.length) k := by
  rw [fieldAt, fieldAt, List.drop_append, List.drop_eq_nil_of_le h, List.nil_append]

theorem fieldAt_leBytes {n v off k : Nat} (h : off + k ≤ n) : fieldAt (leBytes n v) off k = v / 256 ^ off % 256 ^ k :=
  leNat_take_drop_leBytes n v off k h

/-! ## Bit fields of a packed header -/

theorem bitsOf_packBits_head (v w : Nat) (fs : List (Nat × Nat)) : bitsOf (packBits ((v, w) :: fs)) 0 w = v % 2 ^ w := by
  simp [bitsOf, packBits]

theorem bitsOf_packBits_skip {v w lo k : Nat} (fs : List (Nat × Nat)) (h : w ≤ lo) :
    bitsOf (packBits ((v, w) :: fs)) lo k = bitsOf (packBits fs) (lo - w) k := by
  have hpow : 2 ^ lo = 2 ^ w * 2 ^ (lo - w) := by rw [← Nat.pow_add]; congr 1; omega
  rw [bitsOf, bitsOf, packBits, hpow, ← Nat.div_div_eq_div_mul, Nat.add_mul_div_left _ _ (Nat.two_pow_pos w),
    Nat.div_eq_of_lt (Nat.mod_lt _ (Nat.two_pow_pos w)), Nat.zero_add]

/-- A bit of a bit field. -/
theorem bitOf_bitsOf {v lo w i : Nat} (h : i < w) : bitOf (bitsOf v lo w) i = (bitsOf v (lo + i) 1 == 1) := by
  have hpow : 2 ^ w = 2 ^ i * 2 ^ (w - i) := by rw [← Nat.pow_add]; congr 1; omega
  have heven : 2 ∣ 2 ^ (w - i) := dvd_pow_self 2 (by omega)
  rw [bitOf, bitsOf, bitsOf, hpow, Nat.mod_mul_right_div_self, Nat.div_div_eq_div_mul, ← Nat.pow_add, Nat.mod_mod_of_dvd _ heven,
    Nat.pow_one]

theorem fieldAt_leBytes_packBits {fs : List (Nat × Nat)} {n off k : Nat} (h : off + k ≤ n) :
    fieldAt (leBytes n (packBits fs)) off k = bitsOf (packBits fs) (8 * off) (8 * k) := by
  rw [fieldAt_leBytes h, bitsOf, Nat.pow_mul, Nat.pow_mul]

/-! ## The header of a packet (R422) -/

@[simp] theorem length_hdrBytes (h : Hdr) (op plen crc : Nat) : (hdrBytes h op plen crc).length = 32 := length_leBytes 32 _

/-- The packed header is long enough for the field. -/
theorem fieldAt_hdrBytes {h : Hdr} {op plen crc off k : Nat} {p : List Byte} (hin : off + k ≤ 32) :
    fieldAt (hdrBytes h op plen crc ++ p) off k = bitsOf (packBits [(op, 16), (h.tag.toNat, 16), (h.room.toNat, 8), (b2n h.force, 1),
      (b2n h.invalidate, 1), (b2n h.fence, 1), (0, 5), (plen, 16), (b2n h.bankV, 1), (b2n h.bank, 1), (0, 6), (h.schema.toNat, 8),
      (0, 144), (crc, 32)]) (8 * off) (8 * k) := by
  rw [fieldAt_append_left (by rwa [length_hdrBytes]), hdrBytes, fieldAt_leBytes_packBits hin]

theorem b2n_mod_two_beq_one (b : Bool) : (b2n b % 2 == 1) = b := by cases b <;> rfl

/-- The header is read back from its packet. -/
theorem hdrOf_hdrBytes (h : Hdr) (op plen crc : Nat) (p : List Byte) : hdrOf h.src (hdrBytes h op plen crc ++ p) = h := by
  simp [hdrOf, fieldAt_hdrBytes, bitOf_bitsOf, bitsOf_packBits_skip, bitsOf_packBits_head, b2n_mod_two_beq_one, Nat.mod_eq_of_lt h.tag.isLt,
    Nat.mod_eq_of_lt h.room.isLt, Nat.mod_eq_of_lt h.schema.isLt]

theorem opcode_hdrBytes (h : Hdr) {op : Nat} (plen crc : Nat) (p : List Byte) (hop : op < 65536) :
    fieldAt (hdrBytes h op plen crc ++ p) 0 2 = op := by
  simp [fieldAt_hdrBytes, bitsOf_packBits_head, Nat.mod_eq_of_lt hop]

/-- The parameters are read back from their packet. -/
theorem paramsOf_hdrBytes (h : Hdr) (op crc : Nat) {p : List Byte} (hlen : p.length < 65536) :
    paramsOf (hdrBytes h op p.length crc ++ p) = p := by
  have hplen : fieldAt (hdrBytes h op p.length crc ++ p) 6 2 = p.length := by
    simp [fieldAt_hdrBytes, bitsOf_packBits_skip, bitsOf_packBits_head, Nat.mod_eq_of_lt hlen]
  rw [paramsOf, hplen, List.drop_left' (length_hdrBytes h op p.length crc), List.take_length]

/-! ## Parameter blocks (R436 to R438) -/

@[simp] theorem cat_nil : cat [] = [] := rfl

theorem cat_cons (n v : Nat) (fs : List (Nat × Nat)) : cat ((n, v) :: fs) = leBytes n v ++ cat fs := List.flatMap_cons ..

@[simp] theorem length_cat_cons (n v : Nat) (fs : List (Nat × Nat)) : (cat ((n, v) :: fs)).length = n + (cat fs).length := by
  rw [cat_cons, List.length_append, length_leBytes]

theorem fieldAt_cat_head (n v : Nat) (fs : List (Nat × Nat)) : fieldAt (cat ((n, v) :: fs)) 0 n = v % 256 ^ n := by
  rw [cat_cons, fieldAt_append_left (by simp), fieldAt_leBytes (by omega), Nat.pow_zero, Nat.div_one]

theorem fieldAt_cat_skip {n v off k : Nat} (fs : List (Nat × Nat)) (h : n ≤ off) :
    fieldAt (cat ((n, v) :: fs)) off k = fieldAt (cat fs) (off - n) k := by
  rw [cat_cons, fieldAt_append_right (by simpa), length_leBytes]

/-- A number below the size of its field is read back. -/
theorem fieldAt_cat_of_lt {n v : Nat} (fs : List (Nat × Nat)) (h : v < 256 ^ n) : fieldAt (cat ((n, v) :: fs)) 0 n = v := by
  rw [fieldAt_cat_head, Nat.mod_eq_of_lt h]

/-- An operand as wide as its field is read back. -/
theorem ofNat_mod_field {w n : Nat} (x : BitVec w) (hw : w = 8 * n) : BitVec.ofNat w (x.toNat % 256 ^ n) = x := by
  subst hw
  rw [show (256 : Nat) = 2 ^ 8 from rfl, ← Nat.pow_mul, Nat.mod_eq_of_lt x.isLt, BitVec.ofNat_toNat, BitVec.setWidth_eq]

theorem bv_cat_head {w n : Nat} (x : BitVec w) (fs : List (Nat × Nat)) (hw : w = 8 * n) : bv w (cat ((n, x.toNat) :: fs)) 0 = x := by
  have hn : w / 8 = n := by omega
  rw [bv, hn, fieldAt_cat_head, ofNat_mod_field x hw]

theorem bv_cat_skip {w n v off : Nat} (fs : List (Nat × Nat)) (h : n ≤ off) :
    bv w (cat ((n, v) :: fs)) off = bv w (cat fs) (off - n) := by
  rw [bv, bv, fieldAt_cat_skip fs h]

theorem bv_append_left {w off : Nat} {a b : List Byte} (h : off + w / 8 ≤ a.length) : bv w (a ++ b) off = bv w a off := by
  rw [bv, bv, fieldAt_append_left h]

theorem bv_append_right {w off : Nat} {a b : List Byte} (h : a.length ≤ off) : bv w (a ++ b) off = bv w b (off - a.length) := by
  rw [bv, bv, fieldAt_append_right h]

/-! ## Lists of entries of one size -/

section
variable {α : Type} {f : α → List Byte} {k : Nat}

theorem length_flatMap_of_size (hsize : ∀ x, (f x).length = k) (xs : List α) : (xs.flatMap f).length = k * xs.length := by
  simp [List.length_flatMap, hsize, Nat.mul_comm]

/-- A field of the entry at an index. -/
theorem fieldAt_flatMap (hsize : ∀ x, (f x).length = k) {j m : Nat} (hin : j + m ≤ k) (xs : List α) (i : Nat) (hi : i < xs.length) :
    fieldAt (xs.flatMap f) (k * i + j) m = fieldAt (f xs[i]) j m := by
  induction xs generalizing i with
  | nil => exact absurd hi (Nat.not_lt_zero i)
  | cons x xs ih =>
    rw [List.flatMap_cons]
    cases i with
    | zero => rw [Nat.mul_zero, Nat.zero_add, fieldAt_append_left (by rwa [hsize])]; rfl
    | succ i =>
      have hskip : k * (i + 1) + j - k = k * i + j := by rw [Nat.mul_succ]; omega
      rw [fieldAt_append_right (by rw [hsize, Nat.mul_succ]; omega), hsize, hskip,
        ih i (Nat.lt_of_succ_lt_succ hi), List.getElem_cons_succ]

end

theorem range_map_eq_of_getElem {α : Type} {g : Nat → α} {xs : List α} {n : Nat} (hn : n = xs.length)
    (h : ∀ (i : Nat) (hi : i < xs.length), g i = xs[i]) : (List.range n).map g = xs := by
  subst hn
  exact List.ext_getElem (by simp) fun i _ hi => by simp [h i hi]

section
variable {w k n : Nat} (hw : w = 8 * k) {xs : List (BitVec w)} (hn : n = xs.length)
include hw hn

/-- Operands as wide as their entries are read back. -/
theorem range_map_bv (b : List Byte) : ((List.range n).map fun i => bv w (xs.flatMap (fun x => leBytes k x.toNat) ++ b) (k * i)) = xs := by
  refine range_map_eq_of_getElem hn fun i hi => ?_
  have hk : w / 8 = k := by omega
  have hlen : (xs.flatMap fun x => leBytes k x.toNat).length = k * xs.length := length_flatMap_of_size (fun _ => length_leBytes k _) xs
  have hle : k * i + k ≤ k * xs.length := by rw [← Nat.mul_succ]; exact Nat.mul_le_mul_left k hi
  have hentry := fieldAt_flatMap (f := fun x : BitVec w => leBytes k x.toNat) (fun _ => length_leBytes k _) (Nat.le_of_eq (Nat.zero_add k)) xs i hi
  rw [Nat.add_zero] at hentry
  rw [bv, hk, fieldAt_append_left (by omega), hentry, fieldAt_leBytes (by omega), Nat.pow_zero, Nat.div_one, ofNat_mod_field _ hw]

/-- The same behind a block. -/
theorem range_map_bv_append {a : List Byte} {off : Nat} (hoff : a.length = off) :
    ((List.range n).map fun i => bv w (a ++ xs.flatMap fun x => leBytes k x.toNat) (off + k * i)) = xs := by
  conv_rhs => rw [← range_map_bv hw hn []]
  refine congrArg (fun g => List.map g (List.range n)) (funext fun i => ?_)
  rw [bv_append_right (by omega), hoff, Nat.add_sub_cancel_left, List.append_nil]

end

/-! ## Blocks of the rows of no fixed length (R436 to R438) -/

theorem wordsAt_append {a : List Byte} {off n : Nat} (hoff : a.length = off) {xs : List Word} (hn : n = xs.length) :
    wordsAt (a ++ wordBytes xs) off n = xs :=
  range_map_bv_append (w := 32) (k := 4) rfl hn hoff

theorem take_pad4 {bs : List Byte} {n : Nat} (hn : bs.length = n) : (pad4 bs).take n = bs := List.take_left' hn

@[simp] theorem length_wordBytes (xs : List Word) : (wordBytes xs).length = 4 * xs.length :=
  length_flatMap_of_size (fun _ => length_leBytes 4 _) xs

theorem length_pad4_le (bs : List Byte) : (pad4 bs).length ≤ bs.length + 3 := by
  rw [pad4, List.length_append, List.length_replicate]
  omega

theorem length_winBytes_lt {p : WinParams} (hcount : p.handles.length ≤ 255) : (winBytes p).length < 65536 := by
  have hpad := length_pad4_le p.handles
  simp only [winBytes, List.length_append, length_cat_cons, cat_nil, List.length_nil]
  omega

theorem winParamsAt_eq (p : List Byte) :
    winParamsAt p =
      { type := bv 8 p 0, froom := bv 8 p 1, pmode := bv 8 p 2, flags := bv 8 p 3
        extents := bv 32 p 4, poolBase := bv 64 p 8, handles := (p.drop 20).take (fieldAt p 16 1) } := rfl

/-- The parameters of a window are read back (R437). -/
theorem winParamsAt_winBytes {p : WinParams} (hcount : p.handles.length ≤ 255) : winParamsAt (winBytes p) = p := by
  have hn : fieldAt (winBytes p) 16 1 = p.handles.length := by
    rw [winBytes, fieldAt_append_left (by simp)]
    simp only [fieldAt_cat_skip, Nat.le_refl, Nat.reduceLeDiff, Nat.reduceSub]
    exact fieldAt_cat_of_lt _ (by omega)
  have hhandles : ((winBytes p).drop 20).take p.handles.length = p.handles := by
    rw [winBytes, List.drop_left' (by simp), take_pad4 rfl]
  rw [winParamsAt_eq, hn, hhandles]
  simp [winBytes, bv_append_left, bv_cat_head, bv_cat_skip]

theorem allotAt_eq (p : List Byte) :
    allotAt p =
      { tracker := bv 32 p 4, dir := bv 32 p 8, pan := bv 32 p 12, vst := bv 32 p 16
        mover := bv 8 p 20, slices := bv 16 p 22, rules := bv 16 p 24 } := rfl

/-- One rate entry as bytes (R436). -/
def rateBytes (r : RateEntry) : List Byte := cat [(1, r.port.toNat), (1, 0), (2, r.cir.toNat), (2, r.pir.toNat), (2, 0)]

/-- The Allot block as bytes, with the number of rate entries. -/
def allotBlock (a : Allot) (n : Nat) : List Byte :=
  cat [(4, a.tracker.toNat), (4, a.dir.toNat), (4, a.pan.toNat), (4, a.vst.toNat), (1, a.mover.toNat), (1, 0), (2, a.slices.toNat),
    (2, a.rules.toNat), (2, n)]

theorem allotBytes_eq (a : Allot) (rates : List RateEntry) : allotBytes a rates = allotBlock a rates.length ++ rates.flatMap rateBytes := rfl

theorem length_allotBlock (a : Allot) (n : Nat) : (allotBlock a n).length = 24 := by simp [allotBlock]

theorem length_rateBytes (r : RateEntry) : (rateBytes r).length = 8 := by simp [rateBytes]

theorem rateEntry_of_rateBytes (r : RateEntry) :
    ({ port := bv 8 (rateBytes r) 0, cir := bv 16 (rateBytes r) 2, pir := bv 16 (rateBytes r) 4 } : RateEntry) = r := by
  simp [rateBytes, bv_cat_head, bv_cat_skip]

@[simp] theorem length_allotBytes (a : Allot) (rates : List RateEntry) : (allotBytes a rates).length = 24 + 8 * rates.length := by
  rw [allotBytes_eq, List.length_append, length_allotBlock, length_flatMap_of_size length_rateBytes]

section
variable {b : List Byte} (hb : b.length = 4) (a : Allot) (rates : List RateEntry)
include hb

/-- The Allot block behind four bytes is read back (R436). -/
theorem allotAt_allotBytes : allotAt (b ++ allotBytes a rates) = a := by
  rw [allotAt_eq, allotBytes_eq]
  simp [bv_append_right, bv_append_left, hb, length_allotBlock]
  simp [allotBlock, bv_cat_head, bv_cat_skip]

/-- The rate entries behind the Allot block are read back. -/
theorem ratesAt_allotBytes (hcount : rates.length < 65536) : ratesAt (b ++ allotBytes a rates) = rates := by
  have hn : fieldAt (b ++ allotBytes a rates) 26 2 = rates.length := by
    rw [fieldAt_append_right (by omega), hb, allotBytes_eq, fieldAt_append_left (by simp [length_allotBlock]), allotBlock]
    simp only [fieldAt_cat_skip, Nat.le_refl, Nat.reduceLeDiff, Nat.reduceSub]
    exact fieldAt_cat_of_lt _ (by omega)
  refine range_map_eq_of_getElem hn fun i hi => ?_
  have hfield : ∀ j m : Nat, j + m ≤ 8 → fieldAt (b ++ allotBytes a rates) (28 + j + 8 * i) m = fieldAt (rateBytes rates[i]) j m := by
    intro j m hjm
    rw [fieldAt_append_right (by omega), hb, allotBytes_eq, fieldAt_append_right (by rw [length_allotBlock]; omega), length_allotBlock,
      ← fieldAt_flatMap length_rateBytes hjm rates i hi]
    congr 1
    omega
  rw [hfield 0 1 (by omega), hfield 2 2 (by omega), hfield 4 2 (by omega)]
  exact rateEntry_of_rateBytes rates[i]

end

/-! ## The packet of a row -/

theorem wf_params {i : Instr} (hwf : i.wf = true) : i.paramsOk = true ∧ i.countsOk = true := by
  simp only [Instr.wf, Bool.and_eq_true] at hwf
  obtain ⟨⟨⟨⟨⟨⟨⟨⟨-, hparams⟩, hcounts⟩, -⟩, -⟩, -⟩, -⟩, -⟩, -⟩ := hwf
  exact ⟨hparams, hcounts⟩

/-- The parameters of a row fit the PLEN field (R422): each entry of the table is a few bytes, its lists bounded by the packet. -/
theorem length_rowParams_lt {i : Instr} {h : Hdr} {c : Cmd} (hrow : rowCmd i = some (h, c)) (hwf : i.wf = true) :
    (rowParams i).length < 65536 := by
  obtain ⟨hparams, hcounts⟩ := wf_params hwf
  cases i <;> cases hrow <;> simp only [rowParams, List.length_append, length_cat_cons, cat_nil, List.length_nil]
  case roomCreate rates | roomResize rates =>
    have hlen : 28 + 8 * rates.length ≤ 4064 := of_decide_eq_true hparams
    rw [length_allotBytes]; omega
  case windowCreate p | rehomePrepare p => exact length_winBytes_lt (of_decide_eq_true hcounts)
  case dcAdd xs | dcRelease xs =>
    have hlen : 4 + 4 * xs.length ≤ 4064 := of_decide_eq_true hparams
    rw [length_wordBytes]; omega
  case gateWrite entries =>
    have hcount : entries.length ≤ 255 := of_decide_eq_true hcounts
    rw [length_flatMap_of_size fun e : B64 => length_leBytes 8 e.toNat]; omega
  case qosPortSet quanta _ _ _ =>
    have hcount : quanta.length = 6 := of_decide_eq_true hcounts
    rw [length_flatMap_of_size fun q : B16 => length_leBytes 2 q.toNat]; omega
  case doorwaySet vals =>
    have hcount : vals.length = 27 := of_decide_eq_true hcounts
    rw [length_wordBytes]; omega
  case fabricRelay pkt =>
    have hlen : 4 + pkt.length ≤ 4064 := of_decide_eq_true hparams
    omega
  case fwWrite data | ehrecWrite data =>
    have hlen : 8 + data.length ≤ 4064 := of_decide_eq_true hparams
    have := length_pad4_le data
    omega
  case holdupSet vals =>
    have hcount : vals.length = 9 := of_decide_eq_true hcounts
    rw [length_wordBytes]; omega
  all_goals decide

theorem rowOpcode_lt (i : Instr) : (rowOpcode i).getD 0 < 65536 := by
  cases i <;> exact of_decide_eq_true rfl

/-- Each row of the opcode tables, read from the parameters that its own table gives: every operand is as wide as its field, and every
list is as long as its count says. -/
theorem parsed_rowParams {i : Instr} {h : Hdr} {c : Cmd} (hrow : rowCmd i = some (h, c)) (hwf : i.wf = true) :
    (parsed h ((rowOpcode i).getD 0) (rowParams i)).map (·.instr) = some i := by
  obtain ⟨hparams, hcounts⟩ := wf_params hwf
  cases i <;> cases hrow <;> refine congrArg some ?_
  case roomCreate rates | roomResize rates =>
    have hlen : 28 + 8 * rates.length ≤ 4064 := of_decide_eq_true hparams
    simp [rowParams, bv_append_left, bv_cat_head, bv_cat_skip, allotAt_allotBytes, ratesAt_allotBytes, (by omega : rates.length < 65536)]
  case windowCreate p => exact congrArg (Instr.windowCreate h) (winParamsAt_winBytes (of_decide_eq_true hcounts))
  case rehomePrepare p => exact congrArg (Instr.rehomePrepare h) (winParamsAt_winBytes (of_decide_eq_true hcounts))
  case dcAdd xs | dcRelease xs =>
    have hlen : 4 + 4 * xs.length ≤ 4064 := of_decide_eq_true hparams
    simp [rowParams, bv_append_left, bv_cat_head, wordsAt_append, fieldAt_append_left, fieldAt_cat_skip,
      fieldAt_cat_of_lt (n := 2) _ (show xs.length < 256 ^ 2 by omega)]
  case gateWrite entries =>
    have hcount : entries.length ≤ 255 := of_decide_eq_true hcounts
    simp [rowParams, bv_append_left, bv_cat_head, bv_cat_skip, fieldAt_append_left, fieldAt_cat_skip,
      fieldAt_cat_of_lt (n := 1) _ (show entries.length < 256 ^ 1 by omega), range_map_bv_append]
  case qosPortSet quanta _ _ _ =>
    have hcount : quanta.length = 6 := of_decide_eq_true hcounts
    simp [rowParams, bv_append_left, bv_append_right, bv_cat_head, bv_cat_skip, hcount, range_map_bv,
      length_flatMap_of_size fun q : B16 => length_leBytes 2 q.toNat]
  case doorwaySet vals =>
    have hcount : vals.length = 27 := of_decide_eq_true hcounts
    simp [rowParams, bv_append_left, bv_cat_head, bv_cat_skip, wordsAt_append, hcount]
  case fabricRelay => simp [rowParams, bv_append_left, bv_cat_head]
  case fwWrite data | ehrecWrite data =>
    have hlen : 8 + data.length ≤ 4064 := of_decide_eq_true hparams
    simp [rowParams, bv_append_left, bv_cat_head, fieldAt_append_left, fieldAt_cat_skip,
      fieldAt_cat_of_lt (n := 4) _ (show data.length < 256 ^ 4 by omega), take_pad4]
  case holdupSet vals =>
    have hcount : vals.length = 9 := of_decide_eq_true hcounts
    simp [rowParams, bv_append_left, bv_cat_head, wordsAt_append, hcount]
  all_goals simp [rowParams, bv_cat_head, bv_cat_skip]

end Sys2Proof.Machine

namespace Sys2Proof.Proofs

open Sys2Proof Sys2Proof.Machine

/-- Settles O49: the header and the parameters are read back from the packet, and the row from its opcode and parameters. -/
theorem packetDecodesToItsRow : Obligations.PacketDecodesToItsRow := by
  unfold Obligations.PacketDecodesToItsRow
  intro i h c hrow hwf
  rw [packetInstr, packetOf, hdrOf_hdrBytes, opcode_hdrBytes h _ _ _ (rowOpcode_lt i), paramsOf_hdrBytes h _ _ (length_rowParams_lt hrow hwf)]
  exact parsed_rowParams hrow hwf

end Sys2Proof.Proofs
end

section
/-! Every row answers a next state: no branch of any meaning stops the block. -/

namespace Sys2Proof.Machine

/-- A meaning goes on: it answers a next state. -/
def GoesOn (e : Eff) : Prop := ∃ t, e = .next t

theorem goesOn_next (t : State) : GoesOn (.next t) := ⟨t, rfl⟩

theorem goesOn_ite {p : Prop} [Decidable p] {a b : Eff} (ha : GoesOn a) (hb : GoesOn b) : GoesOn (if p then a else b) := by
  split
  · exact ha
  · exact hb

theorem State.fmCmd_goesOn (s : State) (f : MbRet × List Byte × State) : GoesOn (s.fmCmd f) := goesOn_ite (goesOn_next _) (goesOn_next _)

/-! ## The rows whose branches stand inside one another -/

theorem execCommandCompletion_goesOn (id : Nat) (e : WorkEnd) (s : State) : GoesOn (execCommandCompletion id e s) := by
  unfold execCommandCompletion
  split
  · exact goesOn_next _
  refine goesOn_ite (goesOn_next _) ?_
  extract_lets s1
  repeat' split
  all_goals exact goesOn_next _

theorem execPoolDeviceTimeout_goesOn (req t : Nat) (s : State) : GoesOn (execPoolDeviceTimeout req t s) := by
  unfold execPoolDeviceTimeout
  extract_lets u
  split
  · exact goesOn_next _
  split
  · exact goesOn_ite (goesOn_next _) (goesOn_next _)
  · exact goesOn_next _

theorem execRtrqFlit_goesOn (e : OpfEnd) (f : OpfNull) (reason die : Byte) (wordsA wordsB : List B64) (verifyA verifyB : Bool) (t : Nat)
    (s : State) : GoesOn (execRtrqFlit e f reason die wordsA wordsB verifyA verifyB t s) :=
  goesOn_ite (goesOn_next _) (goesOn_ite (goesOn_next _) (goesOn_ite (goesOn_next _) (goesOn_ite (goesOn_next _) (goesOn_next _))))

theorem execStairwellPacket_goesOn (l : SwLink) (p : StwPkt) (t : Nat) (s : State) : GoesOn (execStairwellPacket l p t s) :=
  goesOn_ite (goesOn_next _) (goesOn_ite (goesOn_next _) (goesOn_ite (goesOn_next _) (goesOn_next _)))

theorem execPllLockLoss_goesOn (pll : Option (BitVec 6)) (t : Nat) (s : State) : GoesOn (execPllLockLoss pll t s) := by
  cases pll with
  | none => exact goesOn_next _
  | some x => exact goesOn_ite (goesOn_next _) (goesOn_next _)

/-! ## The rows together -/

/-- Every row goes on: it answers its next state at once, or every branch of its meaning does. -/
theorem exec_goesOn (i : Instr) (s : State) : GoesOn (exec i s) := by
  cases i
  case commandCompletion => exact execCommandCompletion_goesOn ..
  case poolDeviceTimeout => exact execPoolDeviceTimeout_goesOn ..
  case rtrqFlit => exact execRtrqFlit_goesOn ..
  case stairwellPacket => exact execStairwellPacket_goesOn ..
  case pllLockLoss => exact execPllLockLoss_goesOn ..
  case bindVppb => exact goesOn_ite (State.fmCmd_goesOn _ _) (goesOn_ite (State.fmCmd_goesOn _ _) (State.fmCmd_goesOn _ _))
  case fmIdentify | fmBackgroundOperationStatus | fmGetEventRecords | fmClearEventRecords | fmGetTimestamp | identifySwitchDevice |
      lockOverrun | partnerChange | ackFlit | auditFlit | ctlAck | ctlAudit | standaloneAck | removal | resetRelease | hearthUp |
      cxlIoCompletionTimeout | linkRecovery | hearthReturn =>
    exact goesOn_ite (goesOn_next _) (goesOn_next _)
  case flitReceived | linkUp | opfFlit | syncFlit | trn | ctlSync | timeMark | auditInterval | state | routeStage =>
    exact goesOn_ite (goesOn_next _) (goesOn_ite (goesOn_next _) (goesOn_next _))
  case getPhysicalPortState | unbindVppb | physicalPortControl | sendPpbCxlIoConfigurationRequest | getVirtualCxlSwitchInfo |
      generateAerEvent =>
    simp -zeta only [exec, execGetPhysicalPortState, execUnbindVppb, execPhysicalPortControl, execSendPpbCxlIoConfigurationRequest,
      execGetVirtualCxlSwitchInfo, execGenerateAerEvent]
    try extract_lets
    repeat' split
    all_goals exact State.fmCmd_goesOn _ _
  case baudChange | mjSubmit | challengeExpiry | secondaryBusReset | slotPowerOff | internalRetry | capacityResponseTimeout |
      handoffAgeDiscard | widthRetry | marginDwellEnd | poolLinkWaitExpiry | helloTimeout | memberTimeout | holdoverExpiry |
      lowerKeyEligible | relayTimeout | noticeGap | restartingLimit | offTimerExpiry | flushDone | hearthTurn | doorbellPageAccess |
      memoryResponse | snoopTimeout | directoryScrub | unbindTimeout | handoffStart | handoffReady | rehomeAbandon | bystanderResume |
      ctlRtrq | replayTimeout | retrainLimit | member | lost | ridge | homeMove | ack | relay | notice | electionTimer |
      handoverInstant | routeActivation | schemaSwitchOver | presenceRecognised | huSenseSample | vstopWaitExpiry | firmwareFallback =>
    simp -zeta only [exec, execBaudChange, execMjSubmit, execChallengeExpiry, execSecondaryBusReset, execSlotPowerOff, execInternalRetry,
      execCapacityResponseTimeout, execHandoffAgeDiscard, execWidthRetry, execMarginDwellEnd, execPoolLinkWaitExpiry, execHelloTimeout,
      execMemberTimeout, execHoldoverExpiry, execLowerKeyEligible, execRelayTimeout, execNoticeGap, execRestartingLimit,
      execOffTimerExpiry, execFlushDone, execHearthTurn, execDoorbellPageAccess, execMemoryResponse, execSnoopTimeout,
      execDirectoryScrub, execUnbindTimeout, execHandoffStart, execHandoffReady, execRehomeAbandon, execBystanderResume, execCtlRtrq,
      execReplayTimeout, execRetrainLimit, execMember, execLost, execRidge, execHomeMove, execAck, execRelay, execNotice,
      execElectionTimer, execHandoverInstant, execRouteActivation, execSchemaSwitchOver, execPresenceRecognised, execHuSenseSample,
      execVstopWaitExpiry, execFirmwareFallback]
    try extract_lets
    repeat' split
    all_goals exact goesOn_next _
  all_goals exact goesOn_next _

end Sys2Proof.Machine

namespace Sys2Proof.Proofs

open Sys2Proof Sys2Proof.Machine

/-- Settles O47: an empty queue idles for one tick, and every row goes on. -/
theorem everyStepGoesOn : Obligations.EveryStepGoesOn := by
  unfold Obligations.EveryStepGoesOn
  intro s
  cases hqueue : s.pending with
  | nil => exact ⟨_, step_of_pending_nil hqueue⟩
  | cons i rest =>
    rw [Goes, step_of_pending_cons hqueue]
    exact exec_goesOn i { s with pending := rest }

end Sys2Proof.Proofs
end

section
/-! The answer of a Dermel row: its reply comes last, its header flags are its opcode's, and a query changes nothing else
(R422 to R431). -/

namespace Sys2Proof.Machine

/-! ## The reply comes last (R424, R431) -/

/-- The last output of a state is the reply to a command of a header. -/
def State.Answered (t : State) (h : Hdr) (op : Nat) : Prop :=
  ∃ (outs : List Out) (r : Reply), t.out = outs ++ [.reply h.src r] ∧ r.tag = h.tag ∧ r.opcode = BitVec.ofNat 16 op

theorem State.reply_answered (s : State) (h : Hdr) (op : Nat) (st : Status) (detail : Nat) (data : List Byte) :
    (s.reply h none op st detail data).Answered h op :=
  ⟨s.out, s.mkReply h op st detail data, rfl, rfl, rfl⟩

/-- Checked, refused, done, pending or without room to be pending: the command is answered. -/
theorem State.runCmd_answered (s : State) (h : Hdr) (c : Cmd) : (s.runCmd h none c).Answered h c.opcode := by
  unfold State.runCmd
  cases s.checkCmd h c with
  | some e => exact State.reply_answered ..
  | none =>
    cases c.run s with
    | ok data t => exact State.reply_answered ..
    | refuse st detail => exact State.reply_answered ..
    | pending w data t =>
      dsimp only
      split
      · exact State.reply_answered ..
      · exact State.reply_answered ..

/-! ## BANK_V, FORCE and INVALIDATE (R422, R423) -/

/-- The flags of a command are those that its opcode asks for. -/
abbrev Cmd.FlagsOfOpcode (c : Cmd) : Prop :=
  (c.bank = true ↔ c.opcode ∈ [0x0501, 0x0502, 0x0610, 0x0611, 0x0b02, 0x0b03, 0x0b04]) ∧
    (c.forceOk = true ↔ c.opcode ∈ [0x0421, 0x0431]) ∧ (c.invalOk = true ↔ c.opcode = 0x0c12)

/-- Each row's command holds its flags and its opcode as constants. -/
theorem flagsOfOpcode_of_row {i : Instr} {h : Hdr} {c : Cmd} (hrow : rowCmd i = some (h, c)) : c.FlagsOfOpcode := by
  cases i <;> cases hrow <;> exact of_decide_eq_true rfl

/-- Check 7 of R426: with a flag misused, and every check before it passed, the header is a bad parameter. -/
theorem State.checkCmd_of_misused {s : State} {h : Hdr} {c : Cmd} (hfirst : s.checkFirst c.opcode h.schema.toNat = none)
    (hroom : s.lockOk h.src h.room.toNat = true ∧ (h.room = 0 ∨ c.room s h.room.toNat = true))
    (htag : (s.cmds.pend.any fun p => p.src == h.src && p.tag == h.tag) = false)
    (hflag : h.bankV ≠ c.bank ∨ h.force = true ∧ c.forceOk = false ∨ h.invalidate = true ∧ c.invalOk = false) :
    s.checkCmd h c = some (.badParam, 0xFFFF) := by
  obtain ⟨hlock, hin⟩ := hroom
  have hdenied : (!s.lockOk h.src h.room.toNat || (h.room != 0 && !c.room s h.room.toNat)) = false := by
    rw [hlock]
    rcases hin with hin | hin <;> simp [hin]
  have hbad : (h.bankV != c.bank || (h.force && !c.forceOk) || (h.invalidate && !c.invalOk)) = true := by
    rcases hflag with hbank | ⟨hset, hno⟩ | ⟨hset, hno⟩
    · simp [bne_iff_ne.2 hbank]
    · simp [hset, hno]
    · simp [hset, hno]
  simp only [State.checkCmd, hfirst, hdenied, htag, hbad, Bool.false_eq_true, if_false, if_true]

/-! ## Queries (R426) -/

/-- The two states differ in the outputs and in the count of free values taken alone. -/
def State.SameButOutputs (s t : State) : Prop := t = { s with out := t.out, fresh := t.fresh }

/-- A command's own rules refuse it, or answer it and take free values alone. -/
def DRes.Reads (s : State) : DRes → Prop
  | .ok _ t => t = { s with fresh := t.fresh }
  | .refuse .. => True
  | .pending .. => False

/-- The checker that is armed is another one (R463). -/
theorem State.check1_of_other {s : State} {ck : Nat} (w : Nat) (secded : Bool) (hother : s.fld FLT_INJ_CTL_fCHECKER ≠ ck) :
    s.check1 ck w secded = (.clean, s) := by
  simp only [State.check1, beq_eq_false_iff_ne.2 hother, Bool.and_false, Bool.false_eq_true, if_false]

/-- A read of the ring that no fault is injected into leaves it as it is. -/
theorem State.ringRead_of_other {s : State} (first n : Nat) (hother : s.fld FLT_INJ_CTL_fCHECKER ≠ 0x1500) :
    (s.ringRead first n).2 = s := by
  have honce : s.checkOnce { checker := 0x1500 } = (false, s) := by
    rw [State.checkOnce, State.check1_of_other 8 true hother]
  simp only [State.ringRead, honce, Bool.false_eq_true, if_false, ite_self]

/-- What a query's own rules give: they refuse it or answer it, with nothing of the state changed. -/
theorem reads_of_query {i : Instr} {h : Hdr} {c : Cmd} {s : State} (hrow : rowCmd i = some (h, c))
    (hquery : c.opcode ∈ [0x0101, 0x0102, 0x0205, 0x0207, 0x0210, 0x0307, 0x0312, 0x0403, 0x0412, 0x0440, 0x0452, 0x0460, 0x0502, 0x0505, 0x0602, 0x0611, 0x0613, 0x0704,
          0x0711, 0x0803, 0x0901, 0x0906, 0x0a01, 0x0a02, 0x0a03, 0x0a07, 0x0b01, 0x0b06, 0x0c02, 0x0c11, 0x0c21])
    (hring : c.opcode = 0x0901 → s.fld FLT_INJ_CTL_fCHECKER ≠ 0x1500) : (c.run s).Reads s := by
  cases i <;> cases hrow
  case fabricQuery =>
    cases hridge : s.fab.ridge <;> cases hstandby : s.fab.standby <;> simp only [cmdFabricQuery, State.fidOr, hridge, hstandby] <;> rfl
  case atticRead first n =>
    exact (congrArg (fun t : State => t = { s with fresh := t.fresh }) (s.ringRead_of_other first.toNat n.toNat (hring rfl))).mpr rfl
  case identify | statusQuery | portQuery | laneStats | opfQuery | poolList | extentRead | dirRead | qosPortQuery | gateRead | gateStatus |
      moverQuery | faultQuery | timeQuery | schemaQuery | routeQuery | fwQuery | ehrecRead | hbmLayoutQuery | holdupQuery =>
    exact rfl
  case roomQuery | ruleRead | ruleStatus =>
    simp only [cmdRoomQuery, cmdRuleRead, cmdRuleStatus]
    split
    · exact trivial
    split
    · exact trivial
    · exact rfl
  case sliceQuery | windowQuery | rehomeStatus | pantryQuery | doorwayQuery =>
    simp only [cmdSliceQuery, cmdWindowQuery, cmdRehomeStatus, cmdPantryQuery, cmdDoorwayQuery]
    split
    · exact trivial
    · exact rfl
  case migrateStatus =>
    simp only [cmdMigrateStatus]
    split
    · exact rfl
    · exact trivial
  all_goals exact absurd hquery (of_decide_eq_false rfl)

/-- A row whose own rules only read leaves the state as it is, answered or refused. -/
theorem State.runCmd_sameButOutputs {s : State} (h : Hdr) {c : Cmd} (hreads : (c.run s).Reads s) :
    s.SameButOutputs (s.runCmd h none c) := by
  unfold State.runCmd
  cases s.checkCmd h c with
  | some e => exact rfl
  | none =>
    revert hreads
    cases c.run s with
    | ok data t => 
      intro hreads
      have : t = { s with fresh := t.fresh } := hreads
      rw [this]; rfl
    | refuse st detail => exact fun _ => rfl
    | pending w data t => exact False.elim

end Sys2Proof.Machine

namespace Sys2Proof.Proofs

open Sys2Proof Sys2Proof.Machine

/-- Settles O51: a row that is not taken, or that is refused, does nothing more; one that is taken makes its reply last. -/
theorem dermelCommandsAreAnswered : Obligations.DermelCommandsAreAnswered := by
  unfold Obligations.DermelCommandsAreAnswered
  refine ⟨?untaken, ?checked, ?refused, ?taken⟩
  case untaken =>
    intro s i h c hrow htakes
    rw [exec_rowCmd hrow, dermel_not_taken c htakes]
  case checked =>
    intro s i h c st d hrow htakes hcheck
    rw [exec_rowCmd hrow, dermel_checked htakes hcheck]
  case refused =>
    intro s i h c st d hrow haccepts hrun
    rw [exec_rowCmd hrow, dermel_refuse haccepts hrun]
  case taken =>
    intro s i h c hrow htakes
    obtain ⟨outs, r, hout, htag, hop⟩ := s.runCmd_answered h c
    exact ⟨s.runCmd h none c, outs, r, by rw [exec_rowCmd hrow, State.dermel, if_pos htakes], hout, htag, hop⟩

/-- Settles O52: a query's own rules refuse or answer it without a change, and only its reply is made. -/
theorem queriesChangeNothing : Obligations.QueriesChangeNothing := by
  unfold Obligations.QueriesChangeNothing
  intro s i h c hrow hquery hring
  refine ⟨if s.takes h then s.runCmd h none c else s, exec_rowCmd hrow s, ?_⟩
  split
  · exact State.runCmd_sameButOutputs h (reads_of_query hrow hquery hring)
  · rfl

/-- Settles O53: the flags of each row are its opcode's, and check 7 refuses a header that has others. -/
theorem headerFlagsFollowTheTable : Obligations.HeaderFlagsFollowTheTable := by
  unfold Obligations.HeaderFlagsFollowTheTable
  refine ⟨fun i h c hrow => flagsOfOpcode_of_row hrow, ?_⟩
  intro s i h c hrow htakes hfirst hroom htag hflag
  obtain ⟨hbank, hforce, hinval⟩ := flagsOfOpcode_of_row hrow
  have hdec : decide (c.opcode ∈ [0x0501, 0x0502, 0x0610, 0x0611, 0x0b02, 0x0b03, 0x0b04]) = c.bank := by
    rw [Bool.eq_iff_iff, decide_eq_true_iff, hbank]
  simp only [hdec, ← hforce, ← hinval, ne_eq, Bool.not_eq_true] at hflag
  rw [exec_rowCmd hrow, dermel_checked htakes (State.checkCmd_of_misused hfirst hroom htag hflag)]

end Sys2Proof.Proofs
end

section
/-! Bytes stored in flash (R516, R523), the words of an event, the FIFO and the history ring (R440, R443, R458, R461), and warm reset
requests (R513, R514). -/

namespace Sys2Proof.Machine

/-! ## Byte writes -/

/-- Byte writes leave every byte outside them alone. -/
theorem Memory.read_writeBytes_other (m : List Host.Cell) (x : Nat) (bs : List Byte) {y : Nat} (hout : y < x ∨ x + bs.length ≤ y) :
    Memory.read (Memory.writeBytes m x bs) y = Memory.read m y := by
  induction bs generalizing m x with
  | nil => rfl
  | cons b bs ih =>
    rw [List.length_cons] at hout
    rw [Memory.writeBytes, ih _ _ (by omega), Memory.read_write_other _ _ (by omega)]

/-- Each byte written reads back. -/
theorem Memory.read_writeBytes {m : List Host.Cell} (hm : Memory.wf m = true) (x : Nat) (bs : List Byte) (k : Nat) (hk : k < bs.length) :
    Memory.read (Memory.writeBytes m x bs) (x + k) = bs[k] := by
  induction bs generalizing m x k with
  | nil => exact absurd hk (Nat.not_lt_zero k)
  | cons b bs ih =>
    rw [Memory.writeBytes]
    cases k with
    | zero => rw [Memory.read_writeBytes_other _ _ _ (by omega), Nat.add_zero, Memory.read_write_same hm, List.getElem_cons_zero]
    | succ k =>
      have hrest := ih (Memory.write_wf hm x b) (x + 1) k (Nat.lt_of_succ_lt_succ hk)
      rwa [Nat.add_assoc, Nat.add_comm 1 k] at hrest

/-! ## The words of an event (R440) -/

theorem length_payloadWords (n : Nat) (bs : List Byte) : (payloadWords n bs).length = n := by
  induction n generalizing bs with
  | zero => rfl
  | succ n ih => rw [payloadWords, List.length_cons, ih]

theorem leNat_lt (bs : List Byte) : leNat bs < 256 ^ bs.length := by
  induction bs with
  | nil => exact Nat.one_pos
  | cons b bs ih =>
    have hb := b.isLt
    rw [leNat, List.length_cons, Nat.pow_succ']
    omega

/-- Four payload bytes leave the two flags of their word alone. -/
theorem leNat_take_four_lt (bs : List Byte) : leNat (bs.take 4) < 2 ^ 32 :=
  Nat.lt_of_lt_of_le (leNat_lt _) (Nat.le_trans (Nat.pow_le_pow_right (by decide) (List.length_take_le 4 bs)) (by decide))

theorem getLsbD_ofNat_sixtyFour (v : Nat) {i : Nat} (hi : i < 64) : (BitVec.ofNat 64 v).getLsbD i = decide (v / 2 ^ i % 2 = 1) := by
  rw [BitVec.getLsbD_ofNat, decide_eq_true hi, Bool.true_and, Nat.testBit_eq_decide_div_mod_eq]

/-- A word whose bit 63 is VALID and whose bit 62 is END. -/
def IsEventWord (last : Bool) (w : B64) : Prop := w.getLsbD 63 = true ∧ w.getLsbD 62 = last

/-- VALID over what a word holds below END. -/
theorem isEventWord_of_lt {v : Nat} (hv : v < 2 ^ 62) : IsEventWord false (BitVec.ofNat 64 (2 ^ 63 + v)) := by
  constructor
  · rw [getLsbD_ofNat_sixtyFour _ (by decide), decide_eq_true_iff]; omega
  · rw [getLsbD_ofNat_sixtyFour _ (by decide), decide_eq_false_iff_not]; omega

/-- VALID and END over what a word holds below them. -/
theorem isEventWord_of_end {v : Nat} (hv : v < 2 ^ 62) : IsEventWord true (BitVec.ofNat 64 (2 ^ 63 + 2 ^ 62 + v)) := by
  constructor
  · rw [getLsbD_ofNat_sixtyFour _ (by decide), decide_eq_true_iff]; omega
  · rw [getLsbD_ofNat_sixtyFour _ (by decide), decide_eq_true_iff]; omega

theorem payloadWords_isEventWord (n : Nat) (bs : List Byte) (k : Nat) (hk : k < (payloadWords n bs).length) :
    IsEventWord (decide (k + 1 = n)) (payloadWords n bs)[k] := by
  induction n generalizing bs k with
  | zero => exact absurd hk (Nat.not_lt_zero k)
  | succ n ih =>
    cases k with
    | succ k =>
      have hend : decide (k + 1 + 1 = n + 1) = decide (k + 1 = n) := by simp
      rw [hend]
      exact ih (bs.drop 4) k (Nat.lt_of_succ_lt_succ hk)
    | zero =>
      have hbits : leNat (bs.take 4) < 2 ^ 62 := Nat.lt_trans (leNat_take_four_lt bs) (by decide)
      simp only [payloadWords, List.getElem_cons_zero]
      cases n with
      | zero =>
        rw [if_pos rfl, decide_eq_true rfl]
        exact isEventWord_of_end hbits
      | succ n =>
        rw [if_neg (Nat.succ_ne_zero n), Nat.add_zero, decide_eq_false (by omega)]
        exact isEventWord_of_lt hbits

section
variable (type tag status source time : Nat) (payload : List Byte)

/-- The number of payload words of an event. -/
def payloadCount : Nat := Nat.max 1 ((payload.length + 3) / 4)

theorem length_eventWords : (eventWords type tag status source time payload).length = 2 + payloadCount payload := by
  simp only [eventWords, List.length_cons, length_payloadWords, payloadCount]
  omega

/-- The first word below VALID: type, tag, status, NWORDS and SOURCE. -/
def headBits : Nat :=
  type % 65536 + tag % 65536 * 2 ^ 16 + status % 65536 * 2 ^ 32 + (payloadCount payload + 2) % 1024 * 2 ^ 48 + source % 16 * 2 ^ 58

theorem headBits_lt : headBits type tag status source payload < 2 ^ 62 := by
  rw [headBits]
  omega

theorem eventWords_eq : eventWords type tag status source time payload =
    BitVec.ofNat 64 (2 ^ 63 + headBits type tag status source payload) :: BitVec.ofNat 64 (2 ^ 63 + time % 2 ^ 62) ::
      payloadWords (payloadCount payload) payload := by
  have hsum : 2 ^ 63 + headBits type tag status source payload = 2 ^ 63 + type % 65536 + tag % 65536 * 2 ^ 16 + status % 65536 * 2 ^ 32 +
      (payloadCount payload + 2) % 1024 * 2 ^ 48 + source % 16 * 2 ^ 58 := by rw [headBits]; omega
  rw [hsum]
  rfl

theorem one_le_payloadCount : 1 ≤ payloadCount payload := Nat.le_max_left 1 _

/-- Every word of an event has VALID, and its last word alone has END. -/
theorem eventWords_isEventWord (k : Nat) (hk : k < (eventWords type tag status source time payload).length) :
    IsEventWord (decide (k + 1 = (eventWords type tag status source time payload).length))
      (eventWords type tag status source time payload)[k] := by
  have hcount := one_le_payloadCount payload
  have hend : decide (k + 1 = (eventWords type tag status source time payload).length) = decide (k + 1 = 2 + payloadCount payload) := by
    rw [length_eventWords]
  rw [hend]
  simp only [eventWords_eq] at hk ⊢
  match k with
  | 0 =>
    rw [decide_eq_false (by omega)]
    exact isEventWord_of_lt (headBits_lt ..)
  | 1 =>
    rw [decide_eq_false (by omega)]
    exact isEventWord_of_lt (Nat.mod_lt _ (by decide))
  | k + 2 =>
    have hshift : decide (k + 2 + 1 = 2 + payloadCount payload) = decide (k + 1 = payloadCount payload) := by
      rw [decide_eq_decide]; omega
    rw [hshift]
    exact payloadWords_isEventWord _ payload k (Nat.lt_of_succ_lt_succ (Nat.lt_of_succ_lt_succ hk))

/-- NWORDS of the first word is the number of words. -/
theorem nwords_of_head {w : B64} (hhead : (eventWords type tag status source time payload).head? = some w)
    (hlen : (eventWords type tag status source time payload).length < 1024) :
    w.toNat / 2 ^ 48 % 1024 = (eventWords type tag status source time payload).length := by
  rw [length_eventWords] at hlen ⊢
  rw [eventWords_eq, List.head?_cons, Option.some.injEq] at hhead
  have hbits := headBits_lt type tag status source payload
  have hfit : 2 ^ 63 + headBits type tag status source payload < 2 ^ 64 := by omega
  rw [← hhead, BitVec.toNat_ofNat, Nat.mod_eq_of_lt hfit, headBits]
  omega

end

/-! ## The FIFO (R443) -/

/-- The FIFO holds its 4,096 words at most. -/
def State.FifoFits (s : State) : Prop := s.cmds.fifo.length ≤ 4096

theorem State.postWords_fifoFits {s : State} (h : s.FifoFits) (ws : List B64) (completion : Bool) : (s.postWords ws completion).FifoFits := by
  unfold State.postWords
  dsimp only
  split
  next hroom =>
    simp only [Bool.and_eq_true, decide_eq_true_eq] at hroom
    simpa [State.FifoFits] using hroom.2
  next =>
    split
    · exact h
    · exact h

theorem State.moveEvents_fifoFits (n : Nat) {s : State} (h : s.FifoFits) : (State.moveEvents n s).FifoFits := by
  induction n generalizing s with
  | zero => exact h
  | succ n ih =>
    rw [State.moveEvents]
    split
    · split
      next hroom => exact ih (by simpa [State.FifoFits] using hroom)
      next => exact h
    · exact h

theorem State.noteDropped_fifoFits {s : State} (h : s.FifoFits) : s.noteDropped.FifoFits := by
  rw [State.noteDropped]
  split
  · exact h
  · exact State.postWords_fifoFits (s := s.mapCmds fun c => { c with dropped := 0 }) h _ _

theorem State.pumpFifo_fifoFits {s : State} (h : s.FifoFits) : s.pumpFifo.FifoFits := by
  rw [State.pumpFifo]
  split
  · exact h
  · exact State.noteDropped_fifoFits (State.moveEvents_fifoFits _ h)

/-! ## The history ring (R458, R461) -/

/-- The log buffer takes the record; the ring and the sequence number stand. -/
theorem State.logRecord_ring_seq (s : State) (e : Event) :
    (s.logRecord e).flt.ring = s.flt.ring ∧ (s.logRecord e).flt.seq = s.flt.seq := by
  unfold State.logRecord
  dsimp only
  repeat' split
  all_goals exact ⟨rfl, rfl⟩

/-- The ring with a report in it: merged into its newest entry, or behind it, without the oldest of 32. -/
theorem State.record_ring (s : State) (r : Report) (hring : s.flt.ring.length ≤ 32) : (s.record r).flt.ring.length ≤ 32 := by
  obtain ⟨hlog, -⟩ := s.logRecord_ring_seq (s.eventOf r)
  unfold State.record
  dsimp only
  simp only [State.bump_flt, hlog]
  split
  · split
    · simp
      omega
    · simp only [State.post_flt, List.length_append, List.length_singleton]
      split
      · rw [List.length_drop]; omega
      · omega
  · simp

theorem State.record_seq (s : State) (r : Report) : (s.record r).flt.seq = (s.flt.seq + 1) % 4294967296 := by
  obtain ⟨-, hlog⟩ := s.logRecord_ring_seq (s.eventOf r)
  unfold State.record
  dsimp only
  simp only [State.bump_flt, hlog]
  split
  · split
    · rfl
    · rw [State.post_flt]
  · rw [State.post_flt]

/-! ## Warm reset requests (R513, R514) -/

/-- A request in RUN or in recovery, outside a fault and with no FW_ACTIVATE to wait for, starts the drain. -/
theorem State.startWarm_of_normal {s : State} (cause : Nat) (hst : s.pwr.st = .run ∨ s.pwr.st = .recovery) (hwait : s.warmWaits = false)
    (hflt : s.flt.st = .normal) :
    s.startWarm cause = (
      let u := (s.mapPwr fun p => { p with st := .warmDrain, t0 := s.now, warmCause := cause, warmWait := none }).mapPool fun p =>
        { p with wins := p.wins.map fun w => if w.2.grant then (w.1, { w.2 with grant := false, fit := 0 }) else w }
      let v := (u.mapFlt fun f => { f with limit := false, done := 0, failed := 0, refused := 0 }).stopWork
      if v.flag FLT_CFG_fDRAIN_CLEAN then v.drainClean else v) := by
  rcases hst with hst | hst <;> simp only [State.startWarm, hst, hwait, hflt, Bool.false_eq_true, if_false]

theorem State.startWarm_of_running {s : State} (cause : Nat) (hst : s.pwr.st = .warmDrain ∨ s.pwr.st = .warmBoot) :
    s.startWarm cause = s := by
  rcases hst with hst | hst <;> simp only [State.startWarm, hst]

/-- The right key with WARM 1. -/
theorem State.writeReset_of_key {s : State} {v : Word} (hwarm : v.getLsbD 0 = true) (hkey : v.toNat / 256 % 256 = 0xA5) :
    s.writeReset v = s.startWarm 3 := by
  have hkey' : bitsOf v.toNat 8 8 = 0xA5 := hkey
  rw [State.writeReset, hwarm, hkey']
  rfl

theorem State.writeReset_of_other_key {s : State} {v : Word} (hkey : v.toNat / 256 % 256 ≠ 0xA5) : s.writeReset v = s := by
  have hkey' : bitsOf v.toNat 8 8 ≠ 0xA5 := hkey
  rw [State.writeReset, decide_eq_false hkey', Bool.and_false]
  rfl

theorem exec_warm_of_open {s : State} {path : Path} (value : Word) {t : Nat} (hopen : PathWrites (s.at t) path) :
    exec (.warm path value t) s = .next (((s.at t).writeReset value).pathAnswers path) :=
  congrArg _ (regWrite_accepted CKP_RESET_CTL (fun a => a.writeReset value) hopen)

end Sys2Proof.Machine

namespace Sys2Proof.Proofs

open Sys2Proof Sys2Proof.Machine

/-- Settles O59: each command is accepted and writes its bytes at its offset of the slot or of the copy. -/
theorem flashWritesStoreTheirBytes : Obligations.FlashWritesStoreTheirBytes := by
  unfold Obligations.FlashWritesStoreTheirBytes
  refine ⟨?slot, ?copy⟩
  case slot =>
    intro s h off data hmem haccepts hidle
    refine ⟨_, exec_answers rfl haccepts (cmdFwWrite_run hidle), rfl, ?_, ?_⟩
    · exact fun a hout => Memory.read_writeBytes_other s.mem _ data hout
    · exact fun k hk => Memory.read_writeBytes hmem _ data k hk
  case copy =>
    intro s h off data hmem haccepts
    refine ⟨_, exec_answers rfl haccepts rfl, rfl, ?_, ?_⟩
    · exact fun a hout => Memory.read_writeBytes_other s.mem _ data hout
    · exact fun k hk => Memory.read_writeBytes hmem _ data k hk

/-- Settles O58: the words by the shape of an event, the FIFO by its limit at each move, the ring by its two ways to take a report. -/
theorem eventsAndReportsAreKept : Obligations.EventsAndReportsAreKept := by
  unfold Obligations.EventsAndReportsAreKept
  refine ⟨?words, fun s ws completion hfits => ⟨State.postWords_fifoFits hfits ws completion, State.pumpFifo_fifoFits hfits⟩,
    fun s r hring => ⟨s.record_ring r hring, s.record_seq r⟩⟩
  case words =>
    intro type tag status source time payload
    have hword := eventWords_isEventWord type tag status source time payload
    refine ⟨length_eventWords .., ?valid, fun k hk => (hword k hk).2, fun hlen w hhead => nwords_of_head type tag status source time payload hhead hlen⟩
    case valid =>
      intro w hw
      obtain ⟨k, hk, hget⟩ := List.mem_iff_getElem.1 hw
      rw [← hget]
      exact (hword k hk).1

/-- Settles O55: a request is taken as the state of the boot says; the key of a write decides whether it is one. -/
theorem warmResetRequests : Obligations.WarmResetRequests := by
  unfold Obligations.WarmResetRequests
  refine ⟨fun _ _ => rfl, ?key, ?other, fun s cause => State.startWarm_of_normal cause, fun s cause => State.startWarm_of_running cause⟩
  case key =>
    intro s path value t hopen hwarm hkey
    rw [exec_warm_of_open value hopen, State.writeReset_of_key hwarm hkey]
  case other =>
    intro s path value t hopen hkey
    rw [exec_warm_of_open value hopen, State.writeReset_of_other_key hkey]

end Sys2Proof.Proofs
end

section
/-! The Doorway commands of group 08xxh, the fault commands of group 09xxh, and the Doorway's model and timers (R399 to R417,
R428, R461 to R463). -/

namespace Sys2Proof.Machine

/-! ## Doorway commands (R399, R400, R417, R420) -/

theorem cmdDoorwayEnable_bad {s : State} {mask en : Nat} (hen : en ≤ 1)
    (hready : en = 1 → ∀ n ∈ maskChans mask, dwReady (s.dch n).coming = true) : (cmdDoorwayEnable mask en).bad s = none := by
  refine firstBad_none.2 ?_
  simp only [List.forall_mem_cons, decide_eq_false (Nat.not_lt.2 hen), List.not_mem_nil, false_implies, implies_true, and_true,
    Bool.and_eq_false_imp, beq_iff_eq, List.any_eq_false, Bool.not_eq_true', Bool.not_eq_false]
  exact hready

theorem cmdDoorwayEnable_run {s : State} (mask en : Nat) (hup : s.mod48Up = true) :
    (cmdDoorwayEnable mask en).run s = .ok [] ((maskChans mask).foldl (fun a n => a.setDwyEn n (en == 1)) s) := by
  simp only [cmdDoorwayEnable, hup, Bool.not_true, Bool.false_eq_true, if_false]

theorem cmdDoorwaySet_bad {s : State} {ch valid : Nat} {vals : List Word} (hch : ch < 32) (hvalid : valid < 2 ^ 27)
    (hrange : ∀ j < 27, bitOf valid j = true → dwRange j (vals.getD j 0).toInt = true) (hvin : s.uvBelowOv ch valid vals) :
    (cmdDoorwaySet ch valid vals).bad s = none := by
  have hfields : firstBad [(decide (32 ≤ ch), 0), (decide (2 ^ 27 ≤ valid), 4)] = none :=
    firstBad_none.2 (by simp only [List.forall_mem_cons, decide_eq_false (Nat.not_le.2 hch), decide_eq_false (Nat.not_le.2 hvalid),
      List.not_mem_nil, false_implies, implies_true, and_true])
  have hvals : ((((List.range 27).filter fun j => bitOf valid j).map fun j => (j, (vals.getD j 0).toInt)).find? fun p =>
      !dwRange p.1 p.2) = none := by
    simp only [List.find?_map, Option.map_eq_none_iff, List.find?_eq_none, List.mem_filter, List.mem_range, Function.comp_apply,
      Bool.not_eq_true', Bool.not_eq_false]
    exact fun j hj => hrange j hj.1 hj.2
  simp only [cmdDoorwaySet, hfields, hvals]
  refine if_neg ?_
  simp only [Bool.and_eq_true, decide_eq_true_eq, not_and, Int.not_le]
  exact hvin

theorem cmdDoorwaySet_run {s : State} {ch valid : Nat} {vals : List Word} (hup : s.mod48Up = true) (hoff : (s.dch ch).st < 2) :
    (cmdDoorwaySet ch valid vals).run s = .ok [] (s.mapDch ch fun c => { c with
      next := ((List.range 27).filter fun j => bitOf valid j).foldl (fun a j => NMap.set a j (vals.getD j 0).toInt) c.next }) := by
  simp only [cmdDoorwaySet, hup, Nat.not_le.2 hoff, decide_false, Bool.not_true, Bool.or_self, Bool.false_eq_true, if_false, List.foldl_map]

theorem cmdDoorwayQuery_run {s : State} (ch : Nat) (hup : s.mod48Up = true) :
    (cmdDoorwayQuery ch).run s = .ok (
      let c := s.dch ch
      ((List.range 27).flatMap fun j => intBytes (dwVal c.par j)) ++ leBytes 4 (s.dwyStat ch) ++ leBytes 4 c.vImage ++
        leBytes 4 c.iImage ++ leBytes 4 c.tjImage ++ intBytes (c.t2 * 100).floor ++ intBytes (c.t3 * 100).floor ++
        (match c.ret with
          | some r => leBytes 8 (r.serial.getD 0) ++ leBytes 1 (r.vcs.getD 0) ++ leBytes 1 r.bridge
          | none => leBytes 10 0)) s :=
  if_neg (by rw [hup]; exact Bool.false_ne_true)

theorem cmdDoorwayPolicy_run {s : State} {froom r : Nat} (rebind : Nat) (hlocal : s.localRoom froom = some r) :
    (cmdDoorwayPolicy froom rebind).run s = .ok [] (s.mapRoom r fun x => { x with rebind := rebind == 1 }) := by
  simp only [cmdDoorwayPolicy, hlocal]

/-! ## Fault commands (R428, R461 to R463) -/

theorem cmdAtticClear_run (s : State) (what : Nat) :
    (cmdAtticClear what).run s = .ok [] (s.mapFlt fun f => { f with
      ring := if bitOf what 0 then [] else f.ring
      first := if bitOf what 1 then none else f.first }) := by
  cases hring : bitOf what 0 <;> cases hfirst : bitOf what 1 <;> simp only [cmdAtticClear, hring, hfirst] <;> rfl

theorem State.mayArm_iff {s : State} {checker mode : Nat} :
    s.mayArm checker mode = true ↔ s.lifecycle ≠ 2 ∧ (mode = 0 ∨ checker / 256 ≠ 0x16 ∨ s.lifecycle = 0) := by
  simp [State.mayArm, or_assoc]

theorem cmdFaultInject_bad {checker mode : Nat} (s : State) (hmode : mode ≤ 2) (hcan : mode ≠ 0 → canInject checker = true) :
    (cmdFaultInject checker mode).bad s = none := by
  refine firstBad_none.2 ?_
  simp only [List.forall_mem_cons, decide_eq_false (Nat.not_lt.2 hmode), List.not_mem_nil, false_implies, implies_true, and_true,
    Bool.and_eq_false_imp, bne_iff_ne, Bool.not_eq_false']
  exact hcan

/-! ## The Doorway's model and timers (R404 to R413) -/

theorem DwCh.on_iff {c : DwCh} : c.on = true ↔ 3 ≤ c.st ∧ c.st ≤ 6 := by simp [DwCh.on]

section
variable {s : State} {ch : Dch} {t : Nat}

/-- The fault timer of a channel whose gate is driven, at its limit. -/
theorem exec_faultTmr_of_limit (hon : (s.dch ch.toNat).on = true)
    (hlimit : (if (s.dch ch.toNat).st ≤ 4 then dwNat (s.dch ch.toNat).par 12 * 1000000 else dwNat (s.dch ch.toNat).par 13 * 100000) ≤
      (s.dch ch.toNat).faultNs (s.at t).now) :
    exec (.faultTmr ch t) s = .next (((s.at t).trip ch.toNat 3).pumpRamps) :=
  congrArg _ (if_pos (Bool.and_eq_true_iff.2 ⟨hon, decide_eq_true hlimit⟩))

end

end Sys2Proof.Machine

namespace Sys2Proof.Proofs

open Sys2Proof Sys2Proof.Machine

/-- Settles O8: each command is accepted, and its own rules act on the channels, the Room's policy or the Attic as the clause says. -/
theorem doorwayAndAtticCommandsComplete : Obligations.DoorwayAndAtticCommandsComplete := by
  unfold Obligations.DoorwayAndAtticCommandsComplete
  refine ⟨?enable, ?set, ?query, ?policy, ?atticRead, ?fatalRead, ?clear, ?logRead, ?inject, ?faultQuery⟩
  case enable =>
    intro s h mask en hs hen hready hup
    exact exec_answers (c := cmdDoorwayEnable mask.toNat en.toNat) rfl
      (accepts_of_serves hs nofun (cmdDoorwayEnable_bad hen hready) nofun rfl rfl) (cmdDoorwayEnable_run _ _ hup)
  case set =>
    rintro s h ch valid vals hs ⟨hch, hvalid⟩ hrange hvin hup hoff
    exact exec_answers (c := cmdDoorwaySet ch.toNat valid.toNat vals) rfl
      (accepts_of_serves hs nofun (cmdDoorwaySet_bad hch hvalid hrange hvin) nofun rfl rfl) (cmdDoorwaySet_run hup hoff)
  case query =>
    intro s h ch hs hch hup
    have hbad : (cmdDoorwayQuery ch.toNat).bad s = none := firstBad_none.2 (by simp [hch])
    exact exec_answers (c := cmdDoorwayQuery ch.toNat) rfl (accepts_of_serves hs nofun hbad nofun rfl rfl) (cmdDoorwayQuery_run _ hup)
  case policy =>
    intro s h froom rebind r hs hrebind hopen hlocal
    have hbad : (cmdDoorwayPolicy froom.toNat rebind.toNat).bad s = none := firstBad_none.2 (by simp [hlocal, hrebind])
    exact exec_answers (c := cmdDoorwayPolicy froom.toNat rebind.toNat) rfl
      (accepts_of_serves hs (State.ownRoom_of_local hlocal) hbad (by simpa [cmdDoorwayPolicy] using hopen) rfl rfl)
      (cmdDoorwayPolicy_run _ hlocal)
  case atticRead =>
    rintro s h first n hs ⟨hone, hmost⟩
    have hbad : (cmdAtticRead first.toNat n.toNat).bad s = none := firstBad_none.2 (by simp; omega)
    exact exec_answers (c := cmdAtticRead first.toNat n.toNat) rfl (accepts_of_serves hs nofun hbad nofun rfl rfl) rfl
  case fatalRead =>
    intro s h hs
    exact exec_answers (c := cmdAtticFatalRead) rfl (accepts_of_serves hs nofun rfl nofun rfl rfl) rfl
  case clear =>
    rintro s h what hs ⟨hwhat, hlocked⟩
    have hbad : (cmdAtticClear what.toNat).bad s = none := firstBad_none.2 (by simp [hwhat])
    have hlife : (cmdAtticClear what.toNat).life s = true := by
      simp only [cmdAtticClear, Bool.not_eq_true', Bool.and_eq_false_imp, beq_eq_false_iff_ne]
      exact hlocked
    exact exec_answers (c := cmdAtticClear what.toNat) rfl (accepts_of_serves hs nofun hbad nofun rfl hlife) (cmdAtticClear_run _ _)
  case logRead =>
    rintro s h off len hs ⟨hend, hlen⟩
    have hbad : (cmdAtticLogRead off.toNat len.toNat).bad s = none := firstBad_none.2 (by simp [hend, hlen])
    exact exec_answers (c := cmdAtticLogRead off.toNat len.toNat) rfl (accepts_of_serves hs nofun hbad nofun rfl rfl) rfl
  case inject =>
    rintro s h checker arm hs ⟨harm, hcan⟩ hmay
    exact exec_answers (c := cmdFaultInject checker.toNat arm.toNat) rfl
      (accepts_of_serves hs nofun (cmdFaultInject_bad s harm hcan) nofun rfl (State.mayArm_iff.2 hmay)) rfl
  case faultQuery =>
    intro s h hs
    exact exec_answers (c := cmdFaultQuery) rfl (accepts_of_serves hs nofun rfl nofun rfl rfl) rfl

/-- Settles O41: each timer that is due, and each step of the model, acts on its channel. -/
theorem doorwayTimersAndModelComplete : Obligations.DoorwayTimersAndModelComplete := by
  unfold Obligations.DoorwayTimersAndModelComplete
  refine ⟨fun _ _ _ => rfl, ?ramp, ?run, ?enhance, ?pgood, ?perst, ?offTimer⟩
  case ramp =>
    intro s ch t hst hlimit
    refine exec_faultTmr_of_limit (DwCh.on_iff.2 (by omega)) ?_
    rwa [if_pos (by omega)]
  case run =>
    intro s ch t hst hlimit
    refine exec_faultTmr_of_limit (DwCh.on_iff.2 (by omega)) ?_
    rwa [if_neg (by omega)]
  case enhance =>
    intro s ch t hst hlimit
    have hramping : ((s.dch ch.toNat).st == 3 || (s.dch ch.toNat).st == 4) = true := by simpa using hst
    exact congrArg _ (if_pos (Bool.and_eq_true_iff.2 ⟨hramping, decide_eq_true hlimit⟩))
  case pgood =>
    intro s ch t x hst hvgs hdue hlim hup
    change execPgood ch t s = _
    simp only [execPgood, State.at_dch, State.at_mod48Up, hst, hvgs, decide_eq_true hdue, hlim, hup, beq_self_eq_true, Bool.not_false,
      Bool.and_self, if_true]
  case perst =>
    intro s ch t hst hup hdue
    have hopen : ((s.dch ch.toNat).st == 5 && s.mod48Up) = true := by simp [hst, hup]
    exact congrArg _ (if_pos (Bool.and_eq_true_iff.2 ⟨hopen, decide_eq_true hdue⟩))
  case offTimer =>
    intro s ch t e hoff hdue
    change execOffTimerExpiry ch t s = _
    simp only [execOffTimerExpiry, State.at_dch, hoff, if_neg (Nat.not_lt.2 hdue)]

end Sys2Proof.Proofs
end

section
/-! COMMAND_COMPLETION: the work of a PENDING command carried on, and its result posted (R430, R431, R517). -/

namespace Sys2Proof.Machine

section
variable {s s1 : State} {id : Nat} {e : WorkEnd} {p0 p : Pend}

/-- The work carried on, the recorded result ends the command. -/
theorem exec_commandCompletion_of_result {r : WorkRes} (hpend : (s.cmds.pend.find? fun q => q.id == id) = some p0) (hup : s.monUp = true)
    (hcarry : s.carryOn p0.work = s1) (hstill : (s1.cmds.pend.find? fun q => q.id == id) = some p) (hres : p.res = some r) :
    exec (.commandCompletion id e) s = .next (s1.complete p r).noteDropped.resumeWarm := by
  change execCommandCompletion id e s = _
  simp only [execCommandCompletion, hpend, hup, hcarry, hstill, hres, Bool.not_true, Bool.false_eq_true, if_false]

/-- The work carried on, the result that comes with this command ends it. -/
theorem exec_commandCompletion_of_end {s2 : State} {r : WorkRes} (hpend : (s.cmds.pend.find? fun q => q.id == id) = some p0)
    (hup : s.monUp = true) (hcarry : s.carryOn p0.work = s1) (hstill : (s1.cmds.pend.find? fun q => q.id == id) = some p)
    (hres : p.res = none) (hend : s1.endWork p e = some (r, s2)) :
    exec (.commandCompletion id e) s = .next (s2.complete p r).noteDropped.resumeWarm := by
  change execCommandCompletion id e s = _
  simp only [execCommandCompletion, hpend, hup, hcarry, hstill, hres, hend, Bool.not_true, Bool.false_eq_true, if_false]

end

/-- The monitor serves while the Hearth is up. -/
theorem State.monUp_of_hearthUp {s : State} (hup : s.cmds.hearthUp = true) : s.monUp = true := by
  simp [State.monUp, hup]

/-- In a running switch a valid image makes the slot verified, and no more (R517). -/
theorem State.endVerify_of_running {s : State} (slot : Bool) (version lo hi : Nat) (hst : s.pwr.st ≠ .recovery) :
    s.endVerify slot version lo hi =
      s.mapSlot slot fun _ => { valid := true, verified := true, version := version, ownMin := lo, ownMax := hi } := by
  cases slot
  · exact if_neg (by simpa [State.mapSlot] using hst)
  · exact if_neg (by simpa [State.mapSlot] using hst)

end Sys2Proof.Machine

namespace Sys2Proof.Proofs

open Sys2Proof Sys2Proof.Machine

/-- Settles O11: the command is found, its work carried on, and the result that there is then ends it. -/
theorem completionPostsTheEventAndEndsTheCommand : Obligations.CompletionPostsTheEventAndEndsTheCommand := by
  unfold Obligations.CompletionPostsTheEventAndEndsTheCommand
  refine ⟨fun _ _ _ _ _ _ _ => exec_commandCompletion_of_result, fun _ _ _ _ _ _ _ _ => exec_commandCompletion_of_end, ?verify, ?unknown⟩
  case verify =>
    rintro s id p slot version lo hi x hpend hup hst ⟨hwork, hres⟩ rfl
    have hcarry : s.carryOn p.work = s := by rw [hwork]; rfl
    have hend : s.endWork p (.image version lo hi) = some (⟨.ok, 0, []⟩, s.endVerify slot version.toNat lo.toNat hi.toNat) := by
      simp only [State.endWork, hwork]
    rw [exec_commandCompletion_of_end hpend (State.monUp_of_hearthUp hup) hcarry hpend hres hend,
      State.endVerify_of_running slot _ _ _ hst]
  case unknown =>
    intro s id e hnone
    change execCommandCompletion id e s = _
    rw [execCommandCompletion, hnone]

end Sys2Proof.Proofs
end

section
/-! The JTAG instructions (R467 to R469, R474, R478 to R483). -/

namespace Sys2Proof.Machine

/-! ## An instruction loaded (R468, R480) -/

@[simp] theorem State.dropChal_lifecycle (s : State) (jtag : Bool) : (s.dropChal jtag).lifecycle = s.lifecycle := by
  unfold State.dropChal
  repeat' split
  all_goals rfl

@[simp] theorem State.dropChal_fresh (s : State) (jtag : Bool) : (s.dropChal jtag).fresh = s.fresh := by
  unfold State.dropChal
  repeat' split
  all_goals rfl

@[simp] theorem State.loadIr_lifecycle (s : State) (code : Nat) : (s.loadIr code).lifecycle = s.lifecycle :=
  s.dropChal_lifecycle true

@[simp] theorem State.loadIr_fresh (s : State) (code : Nat) : (s.loadIr code).fresh = s.fresh :=
  s.dropChal_fresh true

/-! ## The instructions (R467, R468, R480, R481) -/

section
variable {s : State}

theorem State.ballTest_of_held (code : Nat) (hst : s.pwr.st = .reset) (hheld : s.pwr.released = false) : s.ballTest code = s.loadIr code :=
  if_pos (by rw [hst, hheld]; rfl)

theorem exec_dbgAccess_of_open (write : Bool) (sp : Space) (addr : B64) (value : Word) (dev : DevData) (hst : s.pwr.st ≠ .reset)
    (hlc : s.lifecycle ≠ 2) :
    exec (.dbgAccess write sp addr value dev) s = .next (
      let r := (s.loadIr 0x20).debugAccess .jtag sp addr.toNat 1 (if write then some value else none) dev
      r.2.2.emit (.jtag (r.1.headD 0).toNat)) := by
  have hopen : (s.lifecycle == 2 && (write || sp != .reg)) = false := by rw [beq_false_of_ne hlc, Bool.false_and]
  change execDbgAccess write sp addr value dev s = _
  simp only [execDbgAccess, beq_false_of_ne hst, hopen, Bool.false_eq_true, if_false]

theorem exec_lcAdvance_eq (t : Nat) :
    exec (.lcAdvance t) s = .next (
      let u := (s.at t).loadIr 0x21
      if u.mayAdvance then
        ({ u with
           fresh := u.fresh + 1
           dbg := { u.dbg with chal := some (true, (Config.free u.fresh).setWidth 16, u.now), jLoaded := true, jFail := false } } : State).emit
          (.jtag ((Config.free u.fresh).setWidth 16 : B16).toNat)
      else u.refuseIr) := by
  change execLcAdvance t s = _
  unfold execLcAdvance
  dsimp only
  cases ((s.at t).loadIr 0x21).mayAdvance <;> rfl

theorem exec_lcAdvanceUpdate_of_key {t t0 : Nat} {v : Word} (hloaded : s.dbg.jLoaded = true) (hkey : bitsOf v.toNat 16 16 = 0xA5C3)
    (hchal : s.dbg.chal = some (true, v.setWidth 16, t0)) (hintime : (s.at t).now ≤ t0 + 10000000000) :
    exec (.lcAdvanceUpdate t v) s = .next ((s.at t).blowFuses.free.2.emit
      (.jtag (0x10000 + (Config.free s.fresh).toNat % 65536))) := by
  have hmeets : (s.at t).chalMeets true (v.setWidth 16) = true := by
    simp only [State.chalMeets, State.at_dbg, hchal, beq_self_eq_true, Bool.true_and, decide_eq_true hintime]
  change execLcAdvanceUpdate t v s = _
  simp only [execLcAdvanceUpdate, State.at_dbg, hloaded, hkey, hmeets, decide_true, Bool.not_true, Bool.and_self, Bool.false_eq_true,
    if_false, if_true]
  rfl

theorem exec_fuseProg_of_manufacture (floor : Word) (hlc : s.lifecycle = 0) :
    exec (.fuseProg floor) s = .next ((s.loadIr 0x31).mapPwr fun p => { p with floor := Nat.max p.floor floor.toNat }) :=
  congrArg _ (if_neg (by rw [State.loadIr_lifecycle, hlc]; exact Bool.false_ne_true))

theorem exec_mbist_of_manufacture (hlc : s.lifecycle = 0) :
    exec .mbist s = .next ((s.loadIr 0x30).free.2.emit (.jtag (Config.free s.fresh).toNat)) := by
  refine congrArg _ ((if_neg (by rw [State.loadIr_lifecycle, hlc]; exact Bool.false_ne_true)).trans ?_)
  rw [← s.loadIr_fresh 0x30]
  rfl

theorem exec_challengeExpiry_of_due {t t0 : Nat} {j : Bool} {c : B16} (hchal : s.dbg.chal = some (j, c, t0))
    (hdue : t0 + 10000000000 ≤ (s.at t).now) :
    exec (.challengeExpiry t) s = .next ((s.at t).mapDbg fun d => { d with chal := none, jFail := d.jFail || j }) := by
  change execChallengeExpiry t s = _
  simp only [execChallengeExpiry, State.at_dbg, hchal, hdue, if_true]

end

end Sys2Proof.Machine

namespace Sys2Proof.Proofs

open Sys2Proof Sys2Proof.Machine

/-- Settles O15: each instruction is loaded and takes the branch that the clause's conditions open. -/
theorem jtagInstructionsComplete : Obligations.JtagInstructionsComplete := by
  unfold Obligations.JtagInstructionsComplete
  refine ⟨fun _ => ⟨rfl, rfl, rfl, rfl⟩, ?balls, ?access, ?advance, fun _ _ _ _ => exec_lcAdvanceUpdate_of_key, ?manufacture,
    fun _ _ _ _ _ => exec_challengeExpiry_of_due⟩
  case balls =>
    intro s hst hheld
    exact ⟨congrArg _ (State.ballTest_of_held 0 hst hheld), congrArg _ (State.ballTest_of_held 3 hst hheld),
      congrArg _ (State.ballTest_of_held 4 hst hheld)⟩
  case access =>
    rintro s write sp addr value dev u hst hlc rfl
    exact exec_dbgAccess_of_open write sp addr value dev hst hlc
  case advance =>
    rintro s u t rfl
    exact exec_lcAdvance_eq t
  case manufacture =>
    rintro s u floor rfl hlc
    exact ⟨exec_fuseProg_of_manufacture floor hlc, exec_mbist_of_manufacture hlc⟩

end Sys2Proof.Proofs
end

section
/-! Faults, arming, temperatures, the end of a drain, and resets (R449, R454, R463, R504, R512 to R514, R544). -/

namespace Sys2Proof.Machine

/-! ## Arming (R463) -/

/-- A write of FLT_INJ_CTL that nothing forbids takes effect. -/
theorem State.writeArm_of_allowed {s : State} {checker mode : Nat} (hmay : s.mayArm checker mode = true) (hmode : mode ≤ 2)
    (hinject : mode ≠ 0 → canInject checker = true) :
    s.writeArm checker mode = (s.setFld FLT_INJ_CTL_fCHECKER checker).setFld FLT_INJ_CTL_fARM mode := by
  have hguard : ¬ ((!s.mayArm checker mode || decide (2 < mode) || (mode != 0 && !canInject checker)) = true) := by
    simp only [hmay, Bool.not_true, Bool.false_or, Bool.or_eq_true, decide_eq_true_eq, Bool.and_eq_true, bne_iff_ne,
      Bool.not_eq_true', not_or, not_and, Bool.not_eq_false]
    exact ⟨Nat.not_lt.2 hmode, hinject⟩
  rw [State.writeArm, if_neg hguard]

/-- Disarming is barred in FIELD_LOCKED alone. -/
theorem State.mayArm_zero {s : State} (checker : Nat) (hlife : s.lifecycle ≠ 2) : s.mayArm checker 0 = true :=
  State.mayArm_iff.2 ⟨hlife, .inl rfl⟩

/-! ## The end of a drain (R454, R514) -/

@[simp] theorem State.sweepCleans_pwr (s : State) : s.sweepCleans.pwr = s.pwr := rfl
@[simp] theorem State.sweepCleans_flt (s : State) : s.sweepCleans.flt = s.flt := rfl

end Sys2Proof.Machine

namespace Sys2Proof.Proofs
open Sys2Proof Sys2Proof.Machine

theorem exec_hearthWatchdog_of_run {s : State} (t : Nat) (hrun : s.pwr.st = .run) :
    exec (.hearthWatchdog t) s = .next ((s.at t).hearthFault 0x1a00) := by
  change execHearthWatchdog t s = _
  rw [execHearthWatchdog, State.at_pwr, hrun]
  rfl

theorem exec_drainEnd_of_fault {s : State} {t : Nat} (hover : (s.at t).sweepCleans.drainOver = true) (hwarm : s.pwr.st ≠ .warmDrain)
    (hdrain : s.flt.st = .drain) : exec (.drainEnd t) s = .next (s.at t).sweepCleans.enterFault := by
  change execDrainEnd t s = _
  simp only [execDrainEnd, hover, State.sweepCleans_pwr, State.sweepCleans_flt, State.at_pwr, State.at_flt, beq_iff_eq, hwarm, hdrain,
    Bool.not_true, Bool.false_eq_true, if_false, if_true]

theorem exec_drainEnd_of_warm {s : State} {t : Nat} (hover : (s.at t).sweepCleans.drainOver = true) (hwarm : s.pwr.st = .warmDrain) :
    exec (.drainEnd t) s = .next (s.at t).sweepCleans.warmInternal := by
  change execDrainEnd t s = _
  simp only [execDrainEnd, hover, State.sweepCleans_pwr, State.at_pwr, hwarm, beq_self_eq_true, Bool.not_true, Bool.false_eq_true,
    if_false, if_true]

theorem exec_drainLimit_of_fault {s : State} {t : Nat} (hwarm : s.pwr.st ≠ .warmDrain) (hdrain : s.flt.st = .drain)
    (hdue : s.flt.drainT + s.fld FLT_CFG_fDRAIN_TMO * 1000000 ≤ (s.at t).now) :
    exec (.drainLimit t) s = .next (s.at t).drainLimit.enterFault := by
  change execDrainLimit t s = _
  have hlimit : (((s.at t).flt.st == .drain) &&
      decide ((s.at t).flt.drainT + (s.at t).fld FLT_CFG_fDRAIN_TMO * 1000000 ≤ (s.at t).now)) = true :=
    Bool.and_eq_true_iff.2 ⟨beq_iff_eq.2 hdrain, decide_eq_true hdue⟩
  simp only [execDrainLimit, State.at_pwr, beq_iff_eq, hwarm, if_false]
  rw [if_pos hlimit]

theorem exec_drainLimit_of_warm {s : State} {t : Nat} (hwarm : s.pwr.st = .warmDrain) (hnormal : s.flt.st = .normal)
    (hfresh : s.flt.limit = false) (hdue : s.pwr.t0 + s.fld FLT_CFG_fDRAIN_TMO * 1000000 ≤ (s.at t).now)
    (hflush : (s.at t).drainLimit.pan.flush = none) : exec (.drainLimit t) s = .next (s.at t).drainLimit.warmInternal := by
  change execDrainLimit t s = _
  have hlimit : ((s.at t).flt.st == .normal && !(s.at t).flt.limit &&
      decide ((s.at t).pwr.t0 + (s.at t).fld FLT_CFG_fDRAIN_TMO * 1000000 ≤ (s.at t).now)) = true :=
    Bool.and_eq_true_iff.2 ⟨Bool.and_eq_true_iff.2 ⟨beq_iff_eq.2 hnormal, congrArg not hfresh⟩, decide_eq_true hdue⟩
  have hdrains : ((s.at t).pwr.st == .warmDrain) = true := beq_iff_eq.2 hwarm
  simp only [execDrainLimit]
  rw [if_pos hdrains, if_pos hlimit, if_pos (Option.isNone_iff_eq_none.2 hflush)]

/-- Settles O44: a row of a shared operation is that operation by definition; arming, the watchdog, and the end and the limit of a
drain are lemmas of their own. -/
theorem faultAndResetCommandsComplete : Obligations.FaultAndResetCommandsComplete := by
  refine ⟨fun _ _ _ _ => rfl, fun _ _ _ => rfl, ?armOnce, ?armContinuous, ?disarm, fun _ _ _ => rfl,
    fun _ t => exec_hearthWatchdog_of_run t, fun _ _ => exec_drainEnd_of_fault, fun _ _ => exec_drainEnd_of_warm,
    fun _ _ => exec_drainLimit_of_fault, fun _ _ hwarm hflt => exec_drainLimit_of_warm hwarm hflt.1 hflt.2, fun _ _ _ => rfl,
    fun _ => rfl, fun _ _ => rfl, ?warm⟩
  case armOnce =>
    intro s path checker hopen hmay hinject
    change execArmOnce path checker s = _
    rw [execArmOnce, regWrite_accepted _ _ hopen, State.writeArm_of_allowed hmay (by decide) fun _ => hinject]
  case armContinuous =>
    intro s path checker hopen hmay hinject
    change execArmContinuous path checker s = _
    rw [execArmContinuous, regWrite_accepted _ _ hopen, State.writeArm_of_allowed hmay (by decide) fun _ => hinject]
  case disarm =>
    intro s path checker hopen hlife
    change execDisarm path checker s = _
    rw [execDisarm, regWrite_accepted _ _ hopen,
      State.writeArm_of_allowed (State.mayArm_zero _ hlife) (by decide) fun h => absurd rfl h]
  case warm =>
    intro s path value t hopen ⟨hwarm, hkey⟩
    rw [exec_warm_of_open value hopen, State.writeReset_of_key hwarm hkey]

end Sys2Proof.Proofs
end

section
/-! The SMBus and I3C target address (R496): no step of the start-up but RESET_RELEASE itself and the two resets touches it. -/

namespace Sys2Proof.Machine

/-- The I3C dynamic address and the SMBus address of the switch (R496). -/
def State.busAddress (s : State) : Option Nat × Nat := (s.pwr.i3c, s.pwr.smb)

theorem State.busAddress_of_pwr {s u : State} (h : u.pwr = s.pwr) : u.busAddress = s.busAddress :=
  congrArg (fun p : Power => (p.i3c, p.smb)) h

/-! ## Conditionals and folds -/

@[simp] theorem State.pwr_ite {c : Prop} [Decidable c] (s u : State) : (if c then s else u).pwr = if c then s.pwr else u.pwr :=
  apply_ite _ _ _ _

/-- A projection that every step of a fold keeps is the same after the fold. -/
theorem foldl_keeps {α β σ : Type} (g : σ → β) {f : σ → α → σ} (hf : ∀ a x, g (f a x) = g a) (l : List α) (s : σ) :
    g (l.foldl f s) = g s := by
  induction l generalizing s with
  | nil => rfl
  | cons x xs ih => exact (ih _).trans (hf _ _)

/-- Each step of a fold leaves the power state as it is. -/
def StepsKeepPwr {α : Type} (f : State → α → State) : Prop := ∀ a x, (f a x).pwr = a.pwr

@[simp] theorem stepsKeepPwr_iff {α : Type} {f : State → α → State} : StepsKeepPwr f ↔ ∀ a x, (f a x).pwr = a.pwr := Iff.rfl

@[simp] theorem foldl_pwr {α : Type} {f : State → α → State} (hf : StepsKeepPwr f) (l : List α) (s : State) :
    (l.foldl f s).pwr = s.pwr := foldl_keeps State.pwr hf l s

/-! ## The board image (R521 to R523) -/

@[simp] theorem State.imageFault_pwr (s : State) (e : EItem) : (s.imageFault e).pwr = s.pwr := State.record_pwr _ _
@[simp] theorem State.defaultGroup_pwr (s : State) (g : Nat) : (s.defaultGroup g).pwr = s.pwr := rfl
@[simp] theorem State.laneItem_pwr (s : State) (e : EItem) : (s.laneItem e).pwr = s.pwr := by simp [State.laneItem]
@[simp] theorem State.laneItems_pwr (s : State) (es : List EItem) : (s.laneItems es).pwr = s.pwr := by simp [State.laneItems]

@[simp] theorem State.usedItems_pwr (s : State) (es : List EItem) : (s.usedItems es).2.pwr = s.pwr := by
  refine foldl_keeps (fun a : List EItem × State => a.2.pwr) (fun a e => ?_) es ([], s)
  split
  · exact State.imageFault_pwr a.2 e
  · rfl

/-- An item sets at most the functions of the GPIO balls in the power state. -/
theorem State.applyItem_busAddress (cold house : Bool) (s : State) (e : EItem) :
    (s.applyItem cold house e).busAddress = s.busAddress := by
  have hfault : (if e.bad then s.imageFault e else s).pwr = s.pwr := by simp
  simp only [State.applyItem]
  generalize (if e.bad then s.imageFault e else s) = u at hfault ⊢
  rw [← State.busAddress_of_pwr hfault]
  split
  case h_9 => rfl
  all_goals exact State.busAddress_of_pwr (by simp)

theorem State.applyImage_busAddress (s : State) (cold keep : Bool) : (s.applyImage cold keep).busAddress = s.busAddress := by
  unfold State.applyImage
  extract_lets s0 img
  split
  next all junk _ =>
  split
  next es s1 hused =>
  extract_lets s2 s3 s4 s5
  have hs1 : s1.pwr = s.pwr := (congrArg (fun p : List EItem × State => p.2.pwr) hused).symm.trans (State.usedItems_pwr s0 all)
  have hlanes : s3.pwr = s.pwr := by
    simp only [s3, s2, State.pwr_ite, State.laneItems_pwr, State.imageFault_pwr, hs1, ite_self]
  have hitems : s4.busAddress = s3.busAddress := foldl_keeps State.busAddress (State.applyItem_busAddress cold (!keep)) es s3
  have hpars : s5.pwr = s4.pwr := by simp only [s5]; split <;> rfl
  calc
    _ = s5.busAddress := State.busAddress_of_pwr (foldl_pwr (fun a c => by split <;> rfl) _ _)
    _ = s4.busAddress := State.busAddress_of_pwr hpars
    _ = s3.busAddress := hitems
    _ = s.busAddress := State.busAddress_of_pwr hlanes

/-! ## Start-up (R518 to R526) -/

@[simp] theorem State.takeReturns_pwr (s : State) (k : Nat) : (s.takeReturns k).2.pwr = s.pwr := by
  simp only [State.takeReturns]
  split <;> rfl

@[simp] theorem State.sendRtrq_pwr (s : State) (k reason : Nat) : (s.sendRtrq k reason).pwr = s.pwr := by simp [State.sendRtrq]
@[simp] theorem State.mapEnds_pwr (s : State) (k : Nat) (f : LinkEnd → LinkEnd) : (s.mapEnds k f).pwr = s.pwr := by simp [State.mapEnds]
@[simp] theorem State.beginRetrain_pwr (s : State) (k reason : Nat) : (s.beginRetrain k reason).pwr = s.pwr := by
  simp [State.beginRetrain]
@[simp] theorem State.train_pwr (s : State) (k : Nat) : (s.train k).pwr = s.pwr := by simp [State.train]
@[simp] theorem State.trainModules_pwr (s : State) : s.trainModules.pwr = s.pwr := by simp [State.trainModules]

@[simp] theorem State.trainHbm_pwr (s : State) : s.trainHbm.pwr = s.pwr := by
  refine foldl_pwr (fun a k => ?_) _ _
  dsimp only
  split <;> simp

theorem State.bootRom_busAddress (s : State) : s.bootRom.2.busAddress = s.busAddress := by
  simp only [State.bootRom]
  (repeat' split) <;> simp [State.busAddress, State.mapPwr]

theorem State.chooseImage_busAddress (s : State) (active : List Byte) : (s.chooseImage active).busAddress = s.busAddress := by
  simp only [State.chooseImage]
  split <;> simp [State.busAddress, State.mapPwr]

theorem State.bootOn_busAddress (s : State) : s.bootOn.busAddress = s.busAddress := by
  rw [State.bootOn, State.busAddress_of_pwr (State.trainModules_pwr _), State.busAddress_of_pwr (State.trainHbm_pwr _),
    State.applyImage_busAddress]
  rfl

theorem State.bootCold_busAddress (s : State) : s.bootCold.busAddress = s.busAddress := by
  unfold State.bootCold
  extract_lets u a b sel s1 s2 fuses dbg s3 s4 s5
  have hs5 : s5.busAddress = s.busAddress := by
    have hb : s5.pwr = s4.pwr := by simp [s5]
    have ha : s4.pwr = s3.pwr := by simp [s4]
    exact (State.busAddress_of_pwr (hb.trans ha)).trans rfl
  rcases hrom : (s5.chooseImage u.pwr.ehrec).bootRom with ⟨ok, s6⟩
  have hs6 : s6.busAddress = s.busAddress := by
    have hboot := State.bootRom_busAddress (s5.chooseImage u.pwr.ehrec)
    rw [hrom, State.chooseImage_busAddress, hs5] at hboot
    exact hboot
  cases ok with
  | true => exact (State.bootOn_busAddress s6).trans hs6
  | false => exact (State.busAddress_of_pwr (State.post_pwr _ _ _)).trans hs6

/-! ## Resets (R512, R514) -/

@[simp] theorem State.keepClocks_pwr (b s : State) : (b.keepClocks s).pwr = b.pwr := rfl
@[simp] theorem State.rowRegs_pwr (s : State) : s.rowRegs.pwr = s.pwr := rfl
@[simp] theorem State.warmStacks_pwr (b s : State) (keep : Bool) : (b.warmStacks s keep).pwr = b.pwr := by
  refine foldl_pwr (fun a k => ?_) _ _
  dsimp only
  split <;> rfl

theorem State.survive_i3c (s : State) (aon : Bool) : (s.survive aon).pwr.i3c = none := rfl

theorem State.coldReset_i3c (s : State) (aonLost : Bool) : (s.coldReset aonLost).pwr.i3c = none := rfl

theorem State.warmInternal_i3c (s : State) : s.warmInternal.pwr.i3c = none := by
  unfold State.warmInternal
  extract_lets keep s1 u base pan pwr b flt c d e f g
  have hc : c.pwr = b.pwr := by simp only [c]; split <;> rfl
  have hd : d.pwr = c.pwr := by simp [d]
  have hg : g.pwr.i3c = none := congrArg Power.i3c (show g.pwr = b.pwr by simp [g, f, e, hd, hc])
  rcases hrom : g.bootRom with ⟨ok, h⟩
  have hh : h.pwr.i3c = none := by
    have hboot := congrArg Prod.fst (State.bootRom_busAddress g)
    rw [hrom] at hboot
    exact hboot.trans hg
  cases ok with
  | true =>
    have himage : (h.applyImage false keep).pwr.i3c = none :=
      (congrArg Prod.fst (State.applyImage_busAddress h false keep)).trans hh
    exact (congrArg Power.i3c (State.trainModules_pwr _)).trans himage
  | false => exact (congrArg Power.i3c (State.post_pwr _ _ _)).trans hh

end Sys2Proof.Machine

namespace Sys2Proof.Proofs
open Sys2Proof Sys2Proof.Machine

/-- The straps, bit by bit. -/
theorem strap_toNat (strap : BitVec 2) : strap.toNat = 2 * (strap.getLsbD 1).toNat + (strap.getLsbD 0).toNat := by
  revert strap; decide

/-- The release of RESET_N takes the address from the straps, whether the boot goes on at once or waits for a reference. -/
theorem exec_resetRelease_busAddress {s : State} (ehrec : List Byte) (slotOk : Bool × Bool) (strap : BitVec 2) (hst : s.pwr.st = .reset)
    (hlow : s.pwr.released = false) :
    ∃ t : State, exec (.resetRelease ehrec slotOk strap) s = .next t ∧ t.busAddress = (s.pwr.i3c, 0x64 + strap.toNat) := by
  have hrow : ¬ ((s.pwr.st != .reset || s.pwr.released) = true) := by simp [hst, hlow]
  refine ⟨_, if_neg hrow, ?_⟩
  split
  · exact State.bootCold_busAddress _
  · rfl

/-- Settles O56: nothing of the boot touches the address that RESET_RELEASE takes from the straps, and what a reset starts from has no
dynamic address. -/
theorem targetAddress : Obligations.TargetAddress := by
  refine ⟨?release, fun _ _ => rfl, fun s _ aonLost => ⟨_, rfl, State.coldReset_i3c s aonLost⟩, State.warmInternal_i3c⟩
  case release =>
    intro s ehrec slotOk strap ⟨hst, hlow⟩
    obtain ⟨t, hexec, haddr⟩ := exec_resetRelease_busAddress ehrec slotOk strap hst hlow
    have hsmb : t.pwr.smb = 0x64 + strap.toNat := congrArg Prod.snd haddr
    have hstrap := strap_toNat strap
    have hlt := strap.isLt
    exact ⟨t, hexec, congrArg Prod.fst haddr, by omega, by omega, by omega⟩

end Sys2Proof.Proofs
end

section
/-! Packets of membership and of the Ridge (R370 to R379, R393). A row speaks of the state at its time alone, so its lemma does. -/

namespace Sys2Proof.Machine

/-! ## Which packets are acted on -/

/-- No Stairwell link has a number beyond 3. -/
@[simp] theorem sLink_inRange (l : SLink) : decide (l.toNat ≥ 4) = false := decide_eq_false (Nat.not_le.2 l.isLt)
@[simp] theorem sLink_lt (l : SLink) : decide (l.toNat < 4) = true := decide_eq_true l.isLt

theorem State.fromRidge_iff {s : State} {x : CtlPfx} : s.fromRidge x = true ↔ s.fab.ridge = some x.src.toNat := beq_iff_eq

end Sys2Proof.Machine

namespace Sys2Proof.Proofs
open Sys2Proof Sys2Proof.Machine

theorem isNone_false_of_isSome {α : Type} {o : Option α} (h : o.isSome = true) : o.isNone = false := by
  cases o with
  | none => exact absurd h Bool.false_ne_true
  | some _ => rfl

theorem exec_hello_of_up {s : State} {l : SLink} (m : MemberRec) {t : Nat} (hfid : (s.at t).fab.fid.isSome = true)
    (hup : (s.at t).lineUp (100 + l.toNat) = true) :
    exec (.hello l m t) s = .next (((s.at t).mapFab fun f => { f with
      neigh := NMap.set f.neigh l.toNat (m.id.toNat, m.hops.toNat, (s.at t).now) }).adoptSchema m.schemaCur.toNat).fabSettle := by
  have hheard : ¬ (((s.at t).fab.fid.isNone || !(s.at t).lineUp (100 + l.toNat)) = true) := by
    rw [isNone_false_of_isSome hfid, hup]; decide
  exact congrArg _ (if_neg hheard)

/-- A first record of a switch that the live list has room for, or a newer one, enters the list; one with no hops to the Ridge may
name it. -/
theorem exec_member_of_new {s : State} (l : SLink) {x : CtlPfx} {m : MemberRec} {t : Nat} (hfid : (s.at t).fab.fid.isSome = true)
    (hother : m.id.toNat ≠ (s.at t).me) (hsrc : x.src = m.id)
    (hroom : NMap.get? (s.at t).fab.members m.id.toNat = none → (s.at t).fab.members.length < 255)
    (hnewer : ∀ o, NMap.get? (s.at t).fab.members m.id.toNat = some o →
      0 < (m.serial.toNat + 65536 - o.serial) % 65536 ∧ (m.serial.toNat + 65536 - o.serial) % 65536 < 32768) :
    exec (.member l x m t) s = .next (
      let u := (s.at t).putMember l.toNat m
      if m.hops = 0 ∧ ((s.at t).fab.epoch < m.epoch.toNat ∨ (s.at t).fab.epoch = m.epoch.toNat ∧ (s.at t).fab.ridge.isNone) then
        (u.adoptRidge m.id.toNat none m.epoch.toNat).fabSettle
      else u.fabSettle) := by
  change execMember l x m t s = _
  unfold execMember
  generalize s.at t = u at *
  cases hget : NMap.get? u.fab.members m.id.toNat with
  | none => simp [isNone_false_of_isSome hfid, hother, hsrc, hget, hroom hget]
  | some o => simp [isNone_false_of_isSome hfid, hother, hsrc, hget, hnewer o hget]

theorem exec_lost_of_current {s : State} (l : SLink) {x : CtlPfx} {id : Fid} {serial : B16} {t : Nat} {o : Member}
    (hme : (s.at t).forMe 3 x = true) (hget : NMap.get? (s.at t).fab.members id.toNat = some o)
    (hcurrent : (serial.toNat + 65536 - o.serial) % 65536 < 32768) :
    exec (.lost l x id serial t) s = .next ((((s.at t).mapFab fun f => { f with
      members := NMap.adjust f.members id.toNat fun y =>
        if y.lost.contains x.src.toNat then y else { y with lost := x.src.toNat :: y.lost } }).evalLost id.toNat).fabSettle) := by
  change execLost l x id serial t s = _
  unfold execLost
  generalize s.at t = u at *
  simp only [hme, hget, sLink_inRange, Nat.not_le.2 hcurrent, Bool.not_true, Bool.or_self, Bool.false_eq_true, if_false]

/-! ## The Ridge (R375, R378, R379) -/

theorem exec_ridge_of_higher {s : State} (l : SLink) {x : CtlPfx} (ridge : Fid) (standby : Option Fid) {epoch : Word} {t : Nat}
    (hme : (s.at t).forMe 4 x = true)
    (hnew : (s.at t).fab.epoch < epoch.toNat ∨ (s.at t).fab.epoch = epoch.toNat ∧ (s.at t).fab.ridge.isNone) :
    exec (.ridge l x ridge standby epoch t) s = .next (
      ((s.at t).adoptRidge ridge.toNat (standby.map fun b => b.toNat) epoch.toNat).fabSettle) := by
  change execRidge l x ridge standby epoch t s = _
  unfold execRidge
  generalize s.at t = u at *
  have hadopt : (decide (u.fab.epoch < epoch.toNat) || decide (u.fab.epoch = epoch.toNat) && u.fab.ridge.isNone) = true := by
    simpa using hnew
  simp only [hme, sLink_inRange, hadopt, Bool.not_true, Bool.or_self, Bool.false_eq_true, if_false, if_true]

theorem exec_ridge_of_same {s : State} (l : SLink) {x : CtlPfx} {ridge : Fid} (standby : Option Fid) {epoch : Word} {t : Nat}
    (hme : (s.at t).forMe 4 x = true) (hepoch : (s.at t).fab.epoch = epoch.toNat) (hridge : (s.at t).fab.ridge = some ridge.toNat) :
    exec (.ridge l x ridge standby epoch t) s = .next (
      ((s.at t).mapFab fun f => { f with standby := standby.map fun b => b.toNat }).fabSettle) := by
  change execRidge l x ridge standby epoch t s = _
  unfold execRidge
  generalize s.at t = u at *
  simp [hme, hepoch, hridge]

theorem exec_state_of_first {s : State} (l : SLink) {x : CtlPfx} (ceiling : Byte) (routes : List (Fid × Fid × Byte)) (seq : RidgeSeq)
    {t : Nat} (hme : (s.at t).forMe 5 x = true) (hridge : (s.at t).fab.ridge = some x.src.toNat)
    (hfirst : (s.at t).met 3 x.src.toNat x.serial.toNat = false) :
    exec (.state l x ceiling routes seq t) s = .next (
      let u := (s.at t).mapFab fun f => { f with
        ceiling := ceiling.toNat, cmdSeq := seq.cmdSeq.toNat
        master := routes.foldl (fun m r => NMap.set m r.1.toNat (r.2.1.toNat, r.2.2.toNat)) []
        routeT := match seq.routePend with | some p => some ⟨p.2.toNat, p.1.toNat, x.src.toNat⟩ | none => f.routeT
        schemaPend := match seq.schemaPend with | some p => some ⟨p.2.toNat, p.1.toNat, x.src.toNat⟩ | none => f.schemaPend }
      (u.see 3 x.src.toNat x.serial.toNat).sendAck x.src.toNat 5 x.serial.toNat) := by
  change execState l x ceiling routes seq t s = _
  unfold execState
  generalize s.at t = u at *
  simp only [hme, State.fromRidge_iff.2 hridge, hfirst, sLink_inRange, Bool.not_true, Bool.or_self, Bool.false_eq_true, if_false]
  cases seq.routePend <;> cases seq.schemaPend <;> rfl

theorem exec_state_of_met {s : State} (l : SLink) {x : CtlPfx} (ceiling : Byte) (routes : List (Fid × Fid × Byte)) (seq : RidgeSeq)
    {t : Nat} (hme : (s.at t).forMe 5 x = true) (hridge : (s.at t).fab.ridge = some x.src.toNat)
    (hmet : (s.at t).met 3 x.src.toNat x.serial.toNat = true) :
    exec (.state l x ceiling routes seq t) s = .next ((s.at t).sendAck x.src.toNat 5 x.serial.toNat) := by
  change execState l x ceiling routes seq t s = _
  unfold execState
  generalize s.at t = u at *
  simp only [hme, State.fromRidge_iff.2 hridge, hmet, sLink_inRange, Bool.not_true, Bool.or_self, Bool.false_eq_true, if_false, if_true]

theorem exec_handover_of_ridge {s : State} (l : SLink) {x : CtlPfx} (successor : Fid) (instant : B64) {t : Nat}
    (hme : (s.at t).forMe 6 x = true) (hridge : (s.at t).fab.ridge = some x.src.toNat) :
    exec (.handover l x successor instant t) s = .next ((s.at t).mapFab fun f => { f with
      handover := some ⟨instant.toNat, successor.toNat, x.src.toNat⟩ }) := by
  change execHandover l x successor instant t s = _
  simp only [execHandover, hme, State.fromRidge_iff.2 hridge, sLink_lt, Bool.and_self, if_true]

/-- Settles O35: the row of each packet is a lemma of its own; a first and a newer MEMBER record differ in why they are new alone. -/
theorem membershipPacketsComplete : Obligations.MembershipPacketsComplete := by
  refine ⟨fun _ _ m _ => exec_hello_of_up m, ?memberFirst, ?memberNewer, fun _ l _ _ _ _ _ => exec_lost_of_current l,
    fun _ l _ ridge standby _ _ => exec_ridge_of_higher l ridge standby, fun _ l _ _ standby _ _ => exec_ridge_of_same l standby,
    fun _ l _ ceiling routes seq _ => exec_state_of_first l ceiling routes seq,
    fun _ l _ ceiling routes seq _ => exec_state_of_met l ceiling routes seq,
    fun _ l _ successor instant _ => exec_handover_of_ridge l successor instant⟩
  case memberFirst =>
    intro s l x m t hfid hother hsrc hnone hroom
    exact exec_member_of_new l hfid hother hsrc (fun _ => hroom) fun o ho => nomatch hnone.symm.trans ho
  case memberNewer =>
    intro s l x m t o hfid hother hsrc hsome hnewer
    refine exec_member_of_new l hfid hother hsrc (fun hnone => nomatch hnone.symm.trans hsome) fun o' ho => ?_
    rwa [Option.some.inj (ho.symm.trans hsome)]

end Sys2Proof.Proofs
end

section
/-! Packets of fabric time, routing tables, re-homing and the schema (R380 to R386, R391). -/

namespace Sys2Proof.Proofs
open Sys2Proof Sys2Proof.Machine

/-! ## Fabric time (R381, R382, R384) -/

theorem exec_delayReq_of_up {s : State} {l : SLink} (t1 : B64) {t : Nat} (hfid : (s.at t).fab.fid.isSome = true)
    (hup : (s.at t).lineUp (100 + l.toNat) = true) :
    exec (.delayReq l t1 t) s = .next ((s.at t).ctlOn l.toNat 8 (some 0) (s.at t).fab.serial
      (leBytes 8 t1.toNat ++ leBytes 8 (s.at t).now ++ leBytes 8 (s.at t).now)) :=
  congrArg _ (if_pos (Bool.and_eq_true_iff.2 ⟨hfid, hup⟩))

/-- A mark that counts: its check holds, and it comes from the time parent of a switch that is not the Ridge. -/
structure MarkCounts (s : State) (c : MarkSet) (mark : B64) (v : Int) : Prop where
  crc : c.crc.toNat = crc8 (leBytes 8 mark.toNat)
  fid : s.fab.fid.isSome = true
  ridge : s.isRidge = false
  parent : s.parentLink = some c.link.toNat
  delay : NMap.get? s.fab.delay c.link.toNat = some v

/-- What every mark that counts notes. -/
def noteMark (s : State) (off : Int) : State :=
  s.mapFab fun f => { f with lastMark := s.now, holdover := none, offset := off }

/-- Within 4 ns. -/
def nearOff (off : Int) : Bool := decide (-4 ≤ off) && decide (off ≤ 4)

/-- Beyond 100 ns. -/
def farOff (off : Int) : Bool := decide (off < -100) || decide (100 < off)

theorem nearOff_iff {off : Int} : nearOff off = true ↔ -4 ≤ off ∧ off ≤ 4 := by simp [nearOff]
theorem nearOff_false_iff {off : Int} : nearOff off = false ↔ off < -4 ∨ 4 < off := by
  simp only [nearOff, Bool.and_eq_false_iff, decide_eq_false_iff_not]; omega
theorem farOff_iff {off : Int} : farOff off = true ↔ off < -100 ∨ 100 < off := by simp [farOff]
theorem farOff_of_near {off : Int} (h : nearOff off = true) : farOff off = false := by
  have hnear := nearOff_iff.1 h
  rw [← Bool.not_eq_true, farOff_iff]; omega

/-- A mark that counts: the step of a switch that carries no data, else the lock. -/
theorem exec_timeMark_of_counts {s : State} {c : MarkSet} {mark localTime : B64} {v off : Int}
    (hcounts : MarkCounts (s.at localTime.toNat) c mark v) (hoff : off = (localTime.toNat : Int) - (mark.toNat + v / 2)) :
    exec (.timeMark c mark localTime) s = .next (
      let u := s.at localTime.toNat
      if !u.fab.joined && !nearOff off then
        State.fabSettle { ((noteMark u off).cancelForeign u.fab.ridge).mapFab fun f => { f with marks := 0, locked := false } with
          now := (mark.toNat + v / 2).toNat }
      else
        let n := if nearOff off then Nat.min 16 (u.fab.marks + 1) else 0
        let lock := if n = 16 then true else if farOff off then false else u.fab.locked
        let slew := if n = 16 then false else if u.fab.locked && farOff off then true else u.fab.slew
        ((noteMark u off).mapFab fun f => { f with
          marks := n, locked := lock, everLocked := f.everLocked || lock, slew := slew }).fabSettle) := by
  obtain ⟨hcrc, hfid, hridge, hparent, hdelay⟩ := hcounts
  subst hoff
  change execTimeMark c mark localTime s = _
  unfold execTimeMark
  generalize s.at localTime.toNat = u at *
  simp only [hcrc, isNone_false_of_isSome hfid, hridge, hparent, hdelay, bne_self_eq_false, Bool.or_self, Bool.false_eq_true, if_false]
  exact (apply_ite Host.Outcome.next _ _ _).symm

theorem exec_timeMark_of_near {s : State} {c : MarkSet} {mark localTime : B64} {v off : Int}
    (hcounts : MarkCounts (s.at localTime.toNat) c mark v) (hoff : off = (localTime.toNat : Int) - (mark.toNat + v / 2))
    (hnear : nearOff off = true) :
    exec (.timeMark c mark localTime) s = .next (
      let u := (noteMark (s.at localTime.toNat) off).mapFab fun f => { f with marks := Nat.min 16 (f.marks + 1) }
      (if Nat.min 16 ((s.at localTime.toNat).fab.marks + 1) = 16 then
        u.mapFab fun f => { f with locked := true, everLocked := true, slew := false }
      else u.mapFab fun f => { f with everLocked := f.everLocked || f.locked }).fabSettle) := by
  rw [exec_timeMark_of_counts hcounts hoff]
  generalize s.at localTime.toNat = u
  simp only [hnear, farOff_of_near hnear, Bool.not_true, Bool.and_false, Bool.false_eq_true, if_false, if_true]
  split <;> simp [noteMark, State.mapFab]

theorem exec_timeMark_of_off {s : State} {c : MarkSet} {mark localTime : B64} {v off : Int}
    (hcounts : MarkCounts (s.at localTime.toNat) c mark v) (hoff : off = (localTime.toNat : Int) - (mark.toNat + v / 2))
    (hjoined : (s.at localTime.toNat).fab.joined = true) (hnear : nearOff off = false) :
    exec (.timeMark c mark localTime) s = .next (
      let u := (noteMark (s.at localTime.toNat) off).mapFab fun f => { f with marks := 0 }
      (if off < -100 ∨ 100 < off then u.mapFab fun f => { f with locked := false, slew := f.locked || f.slew }
       else u.mapFab fun f => { f with everLocked := f.everLocked || f.locked }).fabSettle) := by
  rw [exec_timeMark_of_counts hcounts hoff]
  generalize s.at localTime.toNat = u at *
  simp only [← farOff_iff, hnear, hjoined, Bool.not_true, Bool.false_and, Bool.false_eq_true, if_false]
  cases farOff off <;> cases hlocked : u.fab.locked <;> simp [noteMark, State.mapFab, hlocked]

theorem exec_timeMark_of_step {s : State} {c : MarkSet} {mark localTime : B64} {v off : Int}
    (hcounts : MarkCounts (s.at localTime.toNat) c mark v) (hoff : off = (localTime.toNat : Int) - (mark.toNat + v / 2))
    (hjoined : (s.at localTime.toNat).fab.joined = false) (hnear : nearOff off = false) :
    exec (.timeMark c mark localTime) s = .next (
      let a := ((noteMark (s.at localTime.toNat) off).cancelForeign (s.at localTime.toNat).fab.ridge).mapFab fun f => { f with
        marks := 0, locked := false }
      State.fabSettle { a with now := (mark.toNat + v / 2).toNat }) := by
  rw [exec_timeMark_of_counts hcounts hoff]
  simp only [hnear, hjoined, Bool.not_false, Bool.and_self, if_true]

/-! ## Routing tables, re-homing and the schema (R385, R386, R391) -/

theorem exec_routeStage_of_first {s : State} (l : SLink) {x : CtlPfx} (version : B16) (entries : List (Fid × Byte × Bool)) {t : Nat}
    (hme : (s.at t).forMe 9 x = true) (hridge : (s.at t).fab.ridge = some x.src.toNat)
    (hfirst : (s.at t).met 3 x.src.toNat x.serial.toNat = false) :
    exec (.routeStage l x version entries t) s = .next (
      let table := entries.foldl (fun m e => NMap.set m e.1.toNat ((s.at t).routeVal e.2.1.toNat e.2.2)) []
      let u := (s.at t).mapPorts fun p => { p with staged := some (version.toNat, table) }
      (u.see 3 x.src.toNat x.serial.toNat).sendAck x.src.toNat 9 x.serial.toNat) := by
  change execRouteStage l x version entries t s = _
  simp only [execRouteStage, hme, State.fromRidge_iff.2 hridge, hfirst, sLink_inRange, Bool.not_true, Bool.or_self, Bool.false_eq_true,
    if_false]

theorem exec_routeAct_of_staged {s : State} (l : SLink) {x : CtlPfx} {version : B16} (instant : B64) {t : Nat} {m : NMap (Nat × Bool)}
    (hme : (s.at t).forMe 10 x = true) (hridge : (s.at t).fab.ridge = some x.src.toNat)
    (hstaged : (s.at t).ports.staged = some (version.toNat, m)) :
    exec (.routeAct l x version instant t) s = .next ((s.at t).mapFab fun f => { f with
      routeT := some ⟨instant.toNat, version.toNat, x.src.toNat⟩ }) := by
  change execRouteAct l x version instant t s = _
  simp only [execRouteAct, hme, State.fromRidge_iff.2 hridge, hstaged, sLink_lt, beq_self_eq_true, Bool.and_self, if_true]

section
variable {s : State} (l : SLink) {x : CtlPfx} (window : Win) (oldHome newHome : Fid) (newWin : Win) {t : Nat}

theorem exec_homeMove_of_flooded (hme : (s.at t).forMe 11 x = true) (hfirst : (s.at t).met 3 x.src.toNat x.serial.toNat = false)
    (hbcast : x.bcast = true) :
    exec (.homeMove l x window oldHome newHome newWin t) s = .next (
      ((s.at t).see 3 x.src.toNat x.serial.toNat).takeMove x.serial.toNat window.toNat oldHome.toNat newHome.toNat newWin.toNat) := by
  change execHomeMove l x window oldHome newHome newWin t s = _
  simp only [execHomeMove, hme, hfirst, hbcast, sLink_inRange, Bool.not_true, Bool.or_self, Bool.false_eq_true, if_false, if_true]

theorem exec_homeMove_of_ridge (hme : (s.at t).forMe 11 x = true) (hfirst : (s.at t).met 3 x.src.toNat x.serial.toNat = false)
    (hbcast : x.bcast = false) (hridge : (s.at t).isRidge = true) :
    exec (.homeMove l x window oldHome newHome newWin t) s = .next (
      (((s.at t).see 3 x.src.toNat x.serial.toNat).sendAck x.src.toNat 11 x.serial.toNat).floodMove window.toNat oldHome.toNat
        newHome.toNat newWin.toNat) := by
  change execHomeMove l x window oldHome newHome newWin t s = _
  simp only [execHomeMove, hme, hfirst, hbcast, hridge, sLink_inRange, Bool.not_true, Bool.or_self, Bool.false_eq_true, if_false, if_true]

end

theorem exec_schemaSwitch_of_ridge {s : State} (l : SLink) {x : CtlPfx} (next : Byte) (instant : B64) {t : Nat}
    (hme : (s.at t).forMe 12 x = true) (hridge : (s.at t).fab.ridge = some x.src.toNat) :
    exec (.schemaSwitch l x next instant t) s = .next ((s.at t).mapFab fun f => { f with
      schemaPend := some ⟨instant.toNat, next.toNat, x.src.toNat⟩ }) := by
  change execSchemaSwitch l x next instant t s = _
  simp only [execSchemaSwitch, hme, State.fromRidge_iff.2 hridge, sLink_lt, Bool.and_self, if_true]

/-- Settles O36: one lemma for each packet; the three cases of a time mark that counts follow from what every such mark does. -/
theorem timeAndTablePacketsComplete : Obligations.TimeAndTablePacketsComplete := by
  refine ⟨fun _ _ t1 _ => exec_delayReq_of_up t1, fun _ _ _ _ _ _ => rfl, ?near, ?off, ?step,
    fun _ l _ version entries _ => exec_routeStage_of_first l version entries, fun _ l _ _ instant _ _ => exec_routeAct_of_staged l instant,
    fun _ l _ window oldHome newHome newWin _ => exec_homeMove_of_flooded l window oldHome newHome newWin,
    fun _ l _ window oldHome newHome newWin _ => exec_homeMove_of_ridge l window oldHome newHome newWin,
    fun _ l _ next instant _ => exec_schemaSwitch_of_ridge l next instant⟩
  case near =>
    intro s c mark localTime v off hcrc hfid hridge hparent hdelay hoff hwithin
    exact exec_timeMark_of_near ⟨hcrc, hfid, hridge, hparent, hdelay⟩ hoff (nearOff_iff.2 hwithin)
  case off =>
    intro s c mark localTime v off hcrc hfid hridge hparent hdelay hoff hjoined hwide
    exact exec_timeMark_of_off ⟨hcrc, hfid, hridge, hparent, hdelay⟩ hoff hjoined (nearOff_false_iff.2 hwide)
  case step =>
    intro s c mark localTime v off hcrc hfid hridge hparent hdelay hoff hjoined hwide
    exact exec_timeMark_of_step ⟨hcrc, hfid, hridge, hparent, hdelay⟩ hoff hjoined (nearOff_false_iff.2 hwide)

end Sys2Proof.Proofs
end

section
/-! Acknowledgements, relays and notices (R373, R387 to R389). -/

namespace Sys2Proof.Proofs
open Sys2Proof Sys2Proof.Machine

/-! ## Acknowledgements (R373, R378, R385, R386) -/

/-- The packets that wait for an acknowledgement, without the one that is acknowledged. -/
def ackedBy (s : State) (x : CtlPfx) (type : Byte) (serial : B16) : State :=
  s.mapFab fun f => { f with acks := f.acks.filter fun a => !(a.serial == serial.toNat && a.type == type.toNat && a.dst == x.src.toNat) }

section
variable {s : State} (l : SLink) {x : CtlPfx} {type : Byte} (serial : B16) {t : Nat} (hme : (s.at t).forMe 13 x = true)
include hme

theorem exec_ack_of_other (htype : type ≠ 5 ∧ type ≠ 9 ∧ type ≠ 11) :
    exec (.ack l x type serial t) s = .next (ackedBy (s.at t) x type serial) := by
  obtain ⟨hstate, hstage, hmove⟩ := htype
  change execAck l x type serial t s = _
  simp only [execAck, hme, hstate, hstage, hmove, sLink_inRange, Bool.not_true, Bool.or_self, Bool.false_eq_true, if_false]
  rfl

theorem exec_ack_of_state (htype : type = 5) :
    exec (.ack l x type serial t) s = .next (
      let v := (ackedBy (s.at t) x type serial).mapFab fun f => { f with
        todo := f.todo.filter fun d => d.1 != serial.toNat
        stdReady := f.stdReady || (f.standby == some x.src.toNat && !(f.acks.any fun a => a.type == 5 && a.dst == x.src.toNat)) }
      (if (s.at t).isRidge then ((s.at t).fab.todo.filter fun d => d.1 == serial.toNat).foldl (fun a d => a.doAct d.2) v
       else v).fabSettle) := by
  change execAck l x type serial t s = _
  simp only [execAck, hme, htype, sLink_inRange, Bool.not_true, Bool.or_self, Bool.false_eq_true, if_false, if_true]
  rfl

theorem exec_ack_of_stage (htype : type = 9) :
    exec (.ack l x type serial t) s = .next (((ackedBy (s.at t) x type serial).mapFab fun f => { f with
      staging := f.staging.map fun y => (y.1, y.2.filter fun i => i != x.src.toNat) }).checkStaging.fabSettle) := by
  subst htype
  change execAck l x 9 serial t s = _
  simp only [execAck, hme, sLink_inRange, Bool.not_true, Bool.or_self, Bool.false_eq_true, if_false]
  rfl

theorem exec_ack_of_move (htype : type = 11) {w : Nat} {left : List Nat}
    (hfirst : ((s.at t).fab.acks.any fun a => a.serial == serial.toNat && a.type == 11 && a.dst == x.src.toNat) = false)
    (hmove : NMap.get? (s.at t).fab.moves serial.toNat = some (w, left)) :
    exec (.ack l x type serial t) s = .next (((ackedBy (s.at t) x type serial).mapFab fun f => { f with
      moves := NMap.set f.moves serial.toNat (w, left.filter fun i => i != x.src.toNat) }).checkMoves) := by
  subst htype
  change execAck l x 11 serial t s = _
  simp only [execAck, hme, hfirst, hmove, sLink_inRange, Bool.not_true, Bool.or_self, Bool.false_eq_true, if_false, State.mapFab_sets]
  rfl

end

/-! ## Relays (R388, R389) -/

/-- A packet for this switch comes from another one. -/
theorem src_ne_me_of_forMe {s : State} {type : Nat} {x : CtlPfx} (hme : s.forMe type x = true) : decide (x.src.toNat = s.me) = false := by
  simp only [State.forMe, Bool.and_eq_true, bne_iff_ne] at hme
  exact decide_eq_false hme.1.1.1.2

section
variable {s : State} (l : SLink) {x : CtlPfx} {all : Bool} (seq : Word) (pkt : List Byte) {t : Nat}
  (hfid : (s.at t).fab.fid.isSome = true)
include hfid

theorem exec_relay_of_flooded (hme : (s.at t).forMe 16 x = true) (hbcast : x.bcast = true)
    (hfirst : (s.at t).met 2 x.src.toNat x.serial.toNat = false) :
    exec (.relay l x all seq pkt t) s = .next (
      ((s.at t).see 2 x.src.toNat x.serial.toNat).relayIn all x.src.toNat (seq.toNat % 2147483648) pkt) := by
  change execRelay l x all seq pkt t s = _
  simp only [execRelay, hme, isNone_false_of_isSome hfid, hbcast, hfirst, src_ne_me_of_forMe hme, sLink_inRange, Bool.and_false,
    Bool.false_and, Bool.or_true, Bool.not_true, Bool.or_self, Bool.false_eq_true, if_false, if_true]

theorem exec_relay_of_own (hbcast : x.bcast = true) (hall : all = true) (hown : x.src.toNat = (s.at t).me)
    (hschema : (s.at t).pktSchema 16 x.schema.toNat = true) (hfirst : (s.at t).met 2 x.src.toNat x.serial.toNat = false) :
    exec (.relay l x all seq pkt t) s = .next (
      (((s.at t).see 2 x.src.toNat x.serial.toNat).seqRelay (seq.toNat % 2147483648) pkt).relayIn true x.src.toNat
        (seq.toNat % 2147483648) pkt) := by
  change execRelay l x all seq pkt t s = _
  simp only [execRelay, isNone_false_of_isSome hfid, hbcast, hall, hfirst, hschema, decide_eq_true hown, sLink_inRange, Bool.and_self,
    Bool.true_or, Bool.not_true, Bool.or_self, Bool.false_eq_true, if_false, if_true]

theorem exec_relay_of_one (hme : (s.at t).forMe 16 x = true) (hbcast : x.bcast = false) (hall : all = false)
    (hfirst : (s.at t).met 3 x.src.toNat x.serial.toNat = false) :
    exec (.relay l x all seq pkt t) s = .next (
      ((s.at t).see 3 x.src.toNat x.serial.toNat).relayIn false x.src.toNat (seq.toNat % 2147483648) pkt) := by
  change execRelay l x all seq pkt t s = _
  simp only [execRelay, hme, isNone_false_of_isSome hfid, hbcast, hall, hfirst, sLink_inRange, Bool.false_and, Bool.or_true, Bool.not_true,
    Bool.not_false, Bool.or_self, Bool.false_eq_true, if_false, if_true]

theorem exec_relay_of_ridge (hme : (s.at t).forMe 16 x = true) (hbcast : x.bcast = false) (hall : all = true)
    (hridge : (s.at t).isRidge = true) (hfirst : (s.at t).met 3 x.src.toNat x.serial.toNat = false) :
    exec (.relay l x all seq pkt t) s = .next (
      (((s.at t).see 3 x.src.toNat x.serial.toNat).mapFab fun f => { f with cmdSeq := (f.cmdSeq + 1) % 2147483648 }).replicate
        (.relay x.src.toNat x.serial.toNat (s.at t).fab.cmdSeq pkt)) := by
  change execRelay l x all seq pkt t s = _
  simp only [execRelay, hme, isNone_false_of_isSome hfid, hbcast, hall, hridge, hfirst, sLink_inRange, Bool.false_and, Bool.or_true,
    Bool.not_true, Bool.or_self, Bool.false_eq_true, if_false, if_true]
  rfl

end

theorem exec_relayReply_of_me {s : State} (l : SLink) {x : CtlPfx} (seq : Word) (completion : Bool) (status : B16) (bytes : List Byte)
    {t : Nat} (hme : (s.at t).forMe 17 x = true) :
    exec (.relayReply l x seq completion status bytes t) s = .next (
      (s.at t).relayAnswer x.src.toNat seq.toNat completion status.toNat bytes) :=
  congrArg _ (if_pos (Bool.and_eq_true_iff.2 ⟨hme, sLink_lt l⟩))

/-! ## Notices (R387) -/

section
variable {s : State} (l : SLink) {x : CtlPfx} (kind : Byte) (body : List Byte) {t : Nat} (hme : (s.at t).forMe 32 x = true)
  (hfirst : (s.at t).met 1 x.src.toNat x.serial.toNat = false)
include hme hfirst

/-- A notice whose turn it is: the first of its originator, or the next in order. -/
theorem exec_notice_of_turn (hturn : ∀ e, NMap.get? (s.at t).fab.ntcNext x.src.toNat = some e → e = x.serial.toNat) :
    exec (.notice l x kind body t) s = .next (
      let u := (s.at t).see 1 x.src.toNat x.serial.toNat
      ((u.postNotice x.src.toNat x.serial.toNat kind.toNat body).mapFab fun f => { f with
        ntcNext := NMap.set f.ntcNext x.src.toNat ((x.serial.toNat + 1) % 65536) }).drainNotices x.src.toNat
          (s.at t).fab.ntcHeld.length) := by
  change execNotice l x kind body t s = _
  simp only [execNotice, hme, hfirst, sLink_inRange, Bool.not_true, Bool.or_self, Bool.false_eq_true, if_false]
  have hnext : ((s.at t).see 1 x.src.toNat x.serial.toNat).fab.ntcNext = (s.at t).fab.ntcNext := rfl
  rw [hnext]
  cases hget : NMap.get? (s.at t).fab.ntcNext x.src.toNat with
  | none => rw [if_pos rfl]; rfl
  | some e => rw [if_pos (hturn e hget).symm]; rfl

theorem exec_notice_of_early {e : Nat} (hget : NMap.get? (s.at t).fab.ntcNext x.src.toNat = some e) (hother : x.serial.toNat ≠ e)
    (hearly : (x.serial.toNat + 65536 - e) % 65536 < 32768) :
    exec (.notice l x kind body t) s = .next (((s.at t).see 1 x.src.toNat x.serial.toNat).mapFab fun f => { f with
      ntcHeld := f.ntcHeld ++ [(x.src.toNat, x.serial.toNat, (s.at t).now, kind.toNat, body)] }) := by
  change execNotice l x kind body t s = _
  simp only [execNotice, hme, hfirst, sLink_inRange, Bool.not_true, Bool.or_self, Bool.false_eq_true, if_false]
  have hnext : ((s.at t).see 1 x.src.toNat x.serial.toNat).fab.ntcNext = (s.at t).fab.ntcNext := rfl
  simp only [hnext, hget, hother, hearly, if_false, if_true]

end

/-- Settles O37: one lemma for each kind of packet; the first notice of an originator and the next in order take one way. -/
theorem acknowledgementsRelaysAndNoticesComplete : Obligations.AcknowledgementsRelaysAndNoticesComplete := by
  refine ⟨fun _ l _ _ serial _ => exec_ack_of_other l serial, fun _ l _ _ serial _ => exec_ack_of_state l serial,
    fun _ l _ _ serial _ => exec_ack_of_stage l serial, fun _ l _ _ serial _ _ _ hme htype => exec_ack_of_move l serial hme htype,
    fun _ l _ _ seq pkt _ => exec_relay_of_flooded l seq pkt, fun _ l _ _ seq pkt _ => exec_relay_of_own l seq pkt,
    fun _ l _ _ seq pkt _ => exec_relay_of_one l seq pkt, fun _ l _ _ seq pkt _ => exec_relay_of_ridge l seq pkt,
    fun _ l _ seq completion status bytes _ => exec_relayReply_of_me l seq completion status bytes, ?first, ?inOrder,
    fun _ l _ kind body _ _ hme hfirst => exec_notice_of_early l kind body hme hfirst⟩
  case first =>
    intro s l x kind body t hme hfirst hnone
    exact exec_notice_of_turn l kind body hme hfirst fun e he => nomatch hnone.symm.trans he
  case inOrder =>
    intro s l x kind body t hme hfirst hnext
    exact exec_notice_of_turn l kind body hme hfirst fun e he => Option.some.inj (he.symm.trans hnext)

end Sys2Proof.Proofs
end

section
/-! The timers of membership, of the Ridge and of fabric time (R370 to R384, R394). -/

namespace Sys2Proof.Proofs
open Sys2Proof Sys2Proof.Machine

/-! ## Membership (R370, R371, R377) -/

/-- A switch of the fabric that is not in FAULT sends its records. -/
theorem speaks_of_not_fault {s : State} (hfid : s.fab.fid.isSome = true) (hst : s.flt.st ≠ .fault) :
    ¬ ((s.fab.fid.isNone || s.flt.st == .fault) = true) := by
  rw [isNone_false_of_isSome hfid, beq_eq_false_iff_ne.2 hst]
  exact Bool.false_ne_true

theorem exec_helloTimeout_of_due {s : State} {l : SLink} {t id hops last : Nat}
    (hget : NMap.get? (s.at t).fab.neigh l.toNat = some (id, hops, last)) (hdue : last + 50000 ≤ (s.at t).now) :
    exec (.helloTimeout l t) s = .next ((s.at t).neighLost l.toNat) := by
  change execHelloTimeout l t s = _
  simp only [execHelloTimeout, hget, hdue, if_true]

theorem exec_memberTimeout_of_due {s : State} {id : Fid} {t : Nat} {m : Member}
    (hget : NMap.get? (s.at t).fab.members id.toNat = some m) (hdue : m.last + 400000 ≤ (s.at t).now) :
    exec (.memberTimeout id t) s = .next (((s.at t).dropMember id.toNat).fabSettle) := by
  change execMemberTimeout id t s = _
  simp only [execMemberTimeout, hget, hdue, if_true]

/-! ## The Ridge (R375 to R379) -/

/-- No Ridge and no standby Ridge, a quorum, and 200 us without a change: the election takes the lowest key. -/
structure ElectionDue (s : State) : Prop where
  ridge : s.fab.ridge = none
  standby : s.fab.standby = none
  quorum : s.quorum = true
  quiet : s.fab.quiet + 200000 ≤ s.now

theorem exec_electionTimer_of_due {s : State} {t r : Nat} (hdue : ElectionDue (s.at t)) (hfirst : (s.at t).firstKey = some r) :
    exec (.electionTimer t) s = .next (
      if r = (s.at t).me then (s.at t).becomeRidge.fabSettle
      else ((s.at t).adoptRidge r ((s.at t).nextKey r) (((s.at t).fab.epoch + 1) % 4294967296)).fabSettle) := by
  obtain ⟨hridge, hstandby, hquorum, hquiet⟩ := hdue
  change execElectionTimer t s = _
  simp only [execElectionTimer, hridge, hstandby, hquorum, decide_eq_false (Nat.not_lt.2 hquiet), hfirst, Option.isSome_none, Bool.not_true,
    Bool.or_self, Bool.false_eq_true, if_false]
  exact (apply_ite Host.Outcome.next _ _ _).symm

/-- What a handover to another switch leaves. -/
def handedOver (s : State) (r : Nat) : State :=
  s.mapFab fun f => { f with
    ridge := some r, standby := s.nextKey r, epoch := (f.epoch + 1) % 4294967296, handover := none, todo := [], staging := none }

section
variable {s : State} {t : Nat} {i : Instant} (hsome : (s.at t).fab.handover = some i) (hdue : i.t ≤ (s.at t).now)
  (hyield : (s.at t).pendOf (· == Work.ridgeYield) = none)
include hsome hdue hyield

theorem exec_handoverInstant_of_me (hme : i.value = (s.at t).me) :
    exec (.handoverInstant t) s = .next ((((s.at t).becomeRidge).notice ntcHandover (leBytes 2 i.value)).fabSettle) := by
  change execHandoverInstant t s = _
  simp only [execHandoverInstant, hsome, Nat.not_lt.2 hdue, hyield, hme, if_false, if_true]

theorem exec_handoverInstant_of_other (hother : i.value ≠ (s.at t).me)
    (hidle : State.busyWith (handedOver (s.at t) i.value).fabSettle (· == Work.fwActivate) = false) :
    exec (.handoverInstant t) s = .next (handedOver (s.at t) i.value).fabSettle := by
  change execHandoverInstant t s = _
  simp only [execHandoverInstant, hsome, Nat.not_lt.2 hdue, hyield, hother, if_false]
  refine congrArg _ (if_neg ?_)
  rw [Bool.and_eq_true, not_and]
  exact fun hbusy => absurd (hidle.symm.trans hbusy) Bool.false_ne_true

end

theorem exec_lowerKeyEligible_of_ridge {s : State} {id : Fid} {t : Nat} {m : Member}
    (hget : NMap.get? (s.at t).fab.members id.toNat = some m) (hridge : (s.at t).isRidge = true)
    (hlong : m.longEligible (s.at t).now = true) (hlower : keyLt (m.rank, id.toNat) ((s.at t).fab.rank, (s.at t).me) = true)
    (hfirst : (s.at t).firstKey = some id.toNat) (hidle : (s.at t).handoverGoes = false) :
    exec (.lowerKeyEligible id t) s = .next ((s.at t).replicateTo id.toNat (.handover id.toNat)) := by
  change execLowerKeyEligible id t s = _
  simp only [execLowerKeyEligible, hget, hridge, hlong, hlower, hfirst, hidle, beq_self_eq_true, Bool.not_false, Bool.and_self, if_true]

/-! ## Fabric time and restarts (R384, R394) -/

theorem exec_holdoverExpiry_of_due {s : State} {t t0 : Nat} (hsome : (s.at t).fab.holdover = some t0) (hdue : t0 + 1000000 ≤ (s.at t).now) :
    exec (.holdoverExpiry t) s = .next (((s.at t).mapFab fun f => { f with locked := false, marks := 0 }).fabSettle) := by
  change execHoldoverExpiry t s = _
  simp only [execHoldoverExpiry, hsome, hdue, if_true]

theorem exec_restartingLimit_of_due {s : State} {t t0 : Nat} (hsome : (s.at t).fab.restarting = some t0)
    (hdue : t0 + 2000000000 ≤ (s.at t).now) :
    exec (.restartingLimit t) s = .next (((s.at t).mapFab fun f => { f with restarting := none }).fabSettle) := by
  change execRestartingLimit t s = _
  simp only [execRestartingLimit, hsome, hdue, if_true]

/-- Settles O38: a timer that is due takes the branch of its row; the election and the handover differ in who the successor is. -/
theorem membershipAndTimeTimersComplete : Obligations.MembershipAndTimeTimersComplete := by
  refine ⟨?hello, fun _ _ _ _ _ _ => exec_helloTimeout_of_due, ?member, fun _ _ _ _ => exec_memberTimeout_of_due, ?electMe, ?electOther,
    fun _ _ _ => exec_handoverInstant_of_me, fun _ _ _ => exec_handoverInstant_of_other,
    fun _ _ _ _ => exec_lowerKeyEligible_of_ridge, ?mark, ?delay, fun _ _ _ => exec_holdoverExpiry_of_due,
    fun _ _ _ => exec_restartingLimit_of_due⟩
  case hello => exact fun s t hfid hst => congrArg _ (if_neg (speaks_of_not_fault (s := s.at t) hfid hst))
  case member => exact fun s t hfid hst => congrArg _ (if_neg (speaks_of_not_fault (s := s.at t) hfid hst))
  case electMe =>
    intro s t hridge hstandby hquorum hquiet hfirst
    exact (exec_electionTimer_of_due ⟨hridge, hstandby, hquorum, hquiet⟩ hfirst).trans (congrArg _ (if_pos rfl))
  case electOther =>
    intro s t r hridge hstandby hquorum hquiet hfirst hother
    exact (exec_electionTimer_of_due ⟨hridge, hstandby, hquorum, hquiet⟩ hfirst).trans (congrArg _ (if_neg hother))
  case mark => exact fun s t hfid hlocked => congrArg _ (if_pos (Bool.and_eq_true_iff.2 ⟨hfid, hlocked⟩))
  case delay => exact fun s t hfid => congrArg _ (if_pos hfid)

end Sys2Proof.Proofs
end
